-- ==== Sys2Proof/Word.lean ====
section
/-! DEFINITION. The word types of the NV16 and the plain operand types that the commands of
`Syntax.lean` and the fields of `Machine/State.lean` share. Nothing here computes: arithmetic on
these words stands in `Machine/`. -/

namespace Sys2Proof

/-- One byte of a wire, a buffer or a memory (R11: every multi-byte field is sent least significant byte first). -/
abbrev Byte := BitVec 8

/-- One 32-bit register of the 64 KiB register space (R875). -/
abbrev Word := BitVec 32

/-- The two variants of the part (R2). -/
inductive Variant where
  | m | s
deriving DecidableEq, Repr

/-- The authority class a host claims in `CLASS` (R149). -/
inductive Auth where
  | operator | energy | meter | safety
deriving DecidableEq, Repr

/-- One of the two host ports of a member (R166). -/
inductive HPort where
  | spi | uart
deriving DecidableEq, Repr

/-- One of the two chain ports of a member (R241). -/
inductive Side where
  | north | south
deriving DecidableEq, Repr

/-- Where an admitted command came from: a host port of this member, or the chain, from the member at a position (R156). -/
inductive Origin where
  | port (p : HPort)
  | chain (pos : Nat)
deriving DecidableEq, Repr

/-- An admitted command as the executing member sees its header (R148): the host, the authority, the
sequence number, where it came from and the `DEV` byte that addressed it. -/
structure Req where
  host : Fin 4
  auth : Auth
  seq  : BitVec 12
  orig : Origin
  dev  : Byte
deriving DecidableEq, Repr

/-- The two engines of Indigo (R437). -/
inductive Engine where
  | te | se
deriving DecidableEq, Repr

/-- The four power modes, coded 0 to 3 in `SYS_PWR_CTRL.MODE_REQ` (R67). -/
inductive Mode where
  | active | idle | sentinel | ship
deriving DecidableEq, Repr

/-- How the line delivered a frame: whole, with a wrong CRC-32C, with a Manchester or delimiter
violation, with a `PLEN` count above 512 (R247), ended by an abort delimiter (R246, R254, R271), or as the
bytes received from the start delimiter up to ED, which then stand for the frame (R243). -/
inductive LineQ where
  | ok | crcBad | codeBad | tooLong | aborted
  | raw (bytes : List Byte)
deriving DecidableEq, Repr

/-- A chain frame: the link header of R244 field by field, and the body bytes between header and CRC. -/
structure Frame where
  cls    : Nat
  blk    : Nat
  south  : Bool
  dest   : Nat
  orig   : Nat
  turned : Bool
  first  : Bool
  kind   : Nat
  rexmit : Bool
  tag    : Bool
  seq    : Nat
  twin   : Bool
  multi  : Bool
  plen   : Nat
  hops   : Nat
  cred   : List Nat
  rxbad  : Nat
  body   : List Byte
deriving DecidableEq, Repr

/-- What one converter channel saw during a sample period: the level in µV at the attributed instant, and
whether the input was beyond the over-range or under-range threshold during any part of the period (R355). -/
structure CellIn where
  uV    : Int
  ovr   : Bool
  und   : Bool
deriving DecidableEq, Repr

/-- What the decoder of `HB_IN` has just seen complete (R283): two periods of 50 % duty, one complete
word (position, code, parity bit), the pin high for 2 ms, or no valid pattern; or one complete period as it
was measured, with its time high and its whole length in ns (R282, R896). -/
inductive HbPat where
  | run
  | period (highNs lengthNs : Nat)
  | word (pos code : Nat) (parity : Bool)
  | stop
  | lost
deriving DecidableEq, Repr

/-- The words of the memory that met an ECC error during a step, by byte offset: corrected ones and uncorrectable ones (R453). -/
structure Ecc where
  corr : List Nat
  bad  : List Nat
deriving DecidableEq, Repr

/-- What the boot meets outside the model: the supplies at their first update (R97), the pin level sampled at step 2 of R63, whether this power-up
samples it (it follows a power-on reset, R64), which check units return the known answer (R224), which
firmware bank has a matching CRC (R828), which stored copies fail their check (R835, R665: of the configuration image the copy not in force, or the one in force), and
what the log scan finds (R779). -/
structure BootIn where
  anchorPin   : Bool
  vstk10mV    : BitVec 16
  vspMV       : BitVec 16
  katOk       : List Bool
  bankAOk     : Bool
  bankBOk     : Bool
  cfgOneBad   : Bool
  cfgNewBad   : Bool
  blockBad    : Bool
  logUnread   : Bool
  logDamaged  : List Nat
  badShadows  : List Nat
deriving DecidableEq, Repr

/-- What the balance controller measured in the balance period that ends (R413 to R415), channel by channel: the mean switch current from 20 µs to 24 µs
after turn-on in mA; where the switch had been at its current limit for 2 µs, how long after turn-on that was, in µs; the voltage across the switch at the period's end in
mV; the gate's voltage above V(`C(k−1)`) 10 µs after turn-on and 10 µs after turn-off in mV; and whether the regulated sink clipped (R422). -/
structure BalMeas where
  curMA     : List Nat
  limitUs   : List (Option Nat)
  switchMV  : List Nat
  gateOnMV  : List Int
  gateOffMV : List Int
  clip      : Bool
deriving DecidableEq, Repr

/-- What the pulse test of Vermilion reads (R676): the levels of channels A and B of each input while they are forced low and while they are forced high; the voltage
of each output while it is driven, that of the coil supply, and that of each output 100 µs after its drive ends, in mV; whether the current-limit comparator of each
output switched at its reference; and whether each output was enabled while the strobe was withheld. -/
structure PulseIn where
  inLow   : List (Bool × Bool)
  inHigh  : List (Bool × Bool)
  outMV   : List Int
  coilMV  : Int
  fallMV  : List Int
  limit   : List Bool
  enabled : List Bool
deriving DecidableEq, Repr

/-- What the blocks measure during the steps of a proof (R624, R625): whether each check-value unit returned its check value; the cell converter's reference, the AUX
converter's and the bandgap in µV; the limit results of the internal source in µV and the shorted current input in nV; currents and cell voltages of the balance test;
the high times and lengths of the 64 periods read back on `HB_OUT` in ns; the pulse test; damaged slots; the two mean currents in mA; whether the memory self-test found
no error; and whether the stored safety parameter block passes the configuration scrub (R206, R665). -/
structure ProofIn where
  katOk      : List Bool
  refUV      : Nat × Nat × Nat
  cellUV     : List Int
  isnsNV     : Int
  curMA      : List Nat
  startUV    : List Int
  endUV      : List Int
  hbBack     : List (Nat × Nat)
  pulse      : PulseIn
  logDamaged : List Nat
  iUmb       : Int
  iSafe      : Int
  memOk      : Bool
  blockOk    : Bool
deriving DecidableEq, Repr

end Sys2Proof
end

