-- ==== Sys2Proof/Syntax.lean ====
section
/-! DEFINITION. The commands of the NV16: one constructor for each row of spec/opcode_table.json, in the
table's order. An operand is what comes from outside the member in that step: the parameters of a host
command, the frame or bytes received, the level or value measured, the port, pin or channel concerned. -/

namespace Sys2Proof

/-- One step of the NV16. A row that is a host command carries the admitted command's header `rq` (R148). -/
inductive Instr where
  /-- `NOP` (R176). Command that does nothing and replies OK; usable to test that a member is ready. -/
  | nop (rq : Req)
  /-- `GET_ID` (R861). Command returning SYS_ID, serial number, firmware version and position. -/
  | getId (rq : Req)
  /-- `READ_REG` (R862). Command reading 1 to 64 registers in ascending order, with every side effect of single reads. -/
  | readReg (rq : Req) (addr : BitVec 16) (count : Byte) (ecc : Ecc)
  /-- `WRITE_REG` (R863). Command writing a register under a mask; also the step for writes to registers that have no row of their own. -/
  | writeReg (rq : Req) (addr : BitVec 16) (mask value : Word)
  /-- `SET_MODE` (R67). Command requesting a power mode with a key byte; arbitrated and refused like a MODE_REQ write. -/
  | setMode (rq : Req) (mode key : Byte)
  /-- `RESET_MEMBER` (R826). Command that, given key 0xA5 and no driven output, replies OK and schedules a reset of the member. -/
  | resetMember (rq : Req) (key : Byte)
  /-- `TAG_SYNC` (R170). Command executed at the entry member that returns the tag counter C and the nonce in a tagged reply. -/
  | tagSync (rq : Req) (nonce : Word)
  /-- `SET_BAUD` (R902). Command setting HOST_CFG.BAUD for the UART of the executing member. -/
  | setBaud (rq : Req) (code : Byte)
  /-- `BAUD_CHANGE` (R902). The new UART rate takes effect after the reply delimiter or once the queued TXD frames have drained. -/
  | baudChange
  /-- `EVT_READ` (R806). Command returning and removing the oldest unread entries of the caller's event store. -/
  | evtRead (rq : Req) (max : Byte)
  /-- `EVT_ACK` (R808). Command acknowledging a source and sequence pair; a matching held ALARM frame leaves the hold store. -/
  | evtAck (rq : Req) (src : Byte) (seq : BitVec 16)
  /-- `EVT_MASK` (R805). Command setting the calling host's 160-bit event mask at the executing member. -/
  | evtMask (rq : Req) (mask : BitVec 160)
  /-- `CMD_RESULT` (R165). Command returning, once, the held result of a QUEUED command, or the reason no result is available. -/
  | cmdResult (rq : Req) (seq : BitVec 16)
  /-- `ENUMERATE` (R266). Command at the anchor that replies QUEUED and starts enumeration of the chain. -/
  | enumerate (rq : Req)
  /-- `CHAIN_STAT` (R176). Command returning CHAIN_STATE, CHAIN_PORT_N, CHAIN_PORT_S and CHAIN_HB. -/
  | chainStat (rq : Req)
  /-- `TIME_SET` (R316). Command at the anchor that arms a time for the next SYNC_IN edge, or steps the counter when SYNC_EN is 0. -/
  | timeSet (rq : Req) (sec : BitVec 48) (ns : Word)
  /-- `TIME_GET` (R313). Command returning the member's time and the member and anchor time states. -/
  | timeGet (rq : Req)
  /-- `CELL_READ` (R353). Command returning the 16 cell results with their flags. -/
  | cellRead (rq : Req)
  /-- `AUX_READ` (R367). Command returning the 8 AUX codes with their flags. -/
  | auxRead (rq : Req)
  /-- `CURRENT_READ` (R370). Command returning the safety current result and its flags. -/
  | currentRead (rq : Req)
  /-- `STREAM_OPEN` (R375). Command opening a scratchpad or host stream, possibly setting RATE and granting slots. -/
  | streamOpen (rq : Req) (stream rate slots : Byte)
  /-- `STREAM_CLOSE` (R379). Command closing a stream and leaving RATE unchanged. -/
  | streamClose (rq : Req) (stream : Byte)
  /-- `BAL_SET` (R407). Command setting the on-time of every balance channel in its mask. -/
  | balSet (rq : Req) (mask onTime : BitVec 16)
  /-- `BAL_STOP` (R407). Command clearing the on-times of the channels in its mask and ending any stimulus on them. -/
  | balStop (rq : Req) (mask : BitVec 16)
  /-- `STIM_SET` (R419). Command setting or ending a stimulus on the channels in its mask. -/
  | stimSet (rq : Req) (mask : BitVec 16) (wave dur : Byte) (freq : Word) (bias amp : BitVec 16)
  /-- `KERNEL_LOAD` (R458). Command writing code bytes into a customer kernel slot and marking the slot uncommitted. -/
  | kernelLoad (rq : Req) (slot : Byte) (offset : BitVec 16) (code : List Byte) (written : Bool)
  /-- `KERNEL_COMMIT` (R458). Command checking a slot's image CRC on CHK_1 and header, then marking the slot committed. -/
  | kernelCommit (rq : Req) (slot : Byte) (crc : Word)
  /-- `KERNEL_LAUNCH` (R459). Command launching a committed slot on an idle engine, or resuming a suspended engine. -/
  | kernelLaunch (rq : Req) (slot engine : Byte) (args : List Byte)
  /-- `CODE_COPY_DONE` (R460). The copy of kernel code into program memory completes, and the engine starts at the entry word. -/
  | codeCopyDone (e : Engine)
  /-- `KERNEL_STOP` (R467). Command stopping one or both engines at the next instruction boundary, with or without a context save. -/
  | kernelStop (rq : Req) (engine : Byte)
  /-- `RESULT_READ` (R455). Command returning bytes from the Indigo result region. -/
  | resultRead (rq : Req) (offset count : BitVec 16) (ecc : Ecc)
  /-- `SWEEP_START` (R529). Command that replies QUEUED and schedules a coherent impedance sweep. -/
  | sweepStart (rq : Req) (sec : BitVec 48) (ns : Word) (mask : BitVec 16) (amp imax imin step : Byte)
  /-- `SPORT_READ` (R584). Command returning a sensor port's state and values and clearing its error counts. -/
  | sportRead (rq : Req) (port : Byte)
  /-- `WATCH_READ` (R619). Command returning the runaway level, the criteria sets and the proof status. -/
  | watchRead (rq : Req)
  /-- `PROOF_RUN` (R628). Command that replies QUEUED and requests a proof cycle, restarting the proof schedule. -/
  | proofRun (rq : Req)
  /-- `CONTACTOR` (R658). Command opening or closing one contactor output, subject to the refusals. -/
  | contactor (rq : Req) (output state : Byte)
  /-- `CURRENT_LIMIT` (R660). Command setting the commanded charge and discharge limits. -/
  | currentLimit (rq : Req) (charge discharge : BitVec 16)
  /-- `RESET_REQ` (R669). Command arming the Vermilion reset for 10 s. -/
  | resetReq (rq : Req)
  /-- `SAFE_PARAM_WRITE` (R672). Command writing bytes into the working copy of the safety parameter block. -/
  | safeParamWrite (rq : Req) (offset : Byte) (bytes : List Byte)
  /-- `SAFE_PARAM_READ` (R176). Command returning the 256-byte safety parameter block. -/
  | safeParamRead (rq : Req)
  /-- `COMMIT_SEAL` (R673). Command that replies QUEUED, validates the working copy and checks its Mordant in order to seal the block. -/
  | commitSeal (rq : Req) (mordant : Word)
  /-- `MTR_READ` (R748). Command returning the 40-byte unsigned snapshot of Umber's registers. -/
  | mtrRead (rq : Req)
  /-- `MTR_RECORDS` (R723). Command granting, withdrawing or restarting the calling host's energy record slots. -/
  | mtrRecords (rq : Req) (slots : Byte)
  /-- `MTR_CONFIG` (R711). Command changing Umber's interval length when it is not sealed. -/
  | mtrConfig (rq : Req) (interval : Byte)
  /-- `MTR_PUBKEY` (R720). Command returning Umber's public key. -/
  | mtrPubkey (rq : Req)
  /-- `MTR_SWID` (R724). Command returning Umber's software identification. -/
  | mtrSwid (rq : Req)
  /-- `MTR_UPDATE` (R725). Command writing one chunk of a sealed Umber update image while SEAL_N is low. -/
  | mtrUpdate (rq : Req) (offset : Word) (image : List Byte)
  /-- `METER_UPDATE_DONE` (R727). Checks of a completed Umber image end: it is activated with an audit record, or it is rejected. -/
  | meterUpdateDone
  /-- `LOG_READ` (R769). Command placing the host's log cursor and returning count read-out entries. -/
  | logRead (rq : Req) (cursor : BitVec 16) (count : Byte)
  /-- `LOG_FREEZE` (R771). Command starting, extending or ending a freeze of Lampblack writing. -/
  | logFreeze (rq : Req) (seconds : Byte)
  /-- `FW_LOAD` (R844). Command writing a chunk of a stack-die firmware image into the inactive bank. -/
  | fwLoad (rq : Req) (offset : Word) (image : List Byte)
  /-- `FW_ACTIVATE` (R845). Command that replies QUEUED and checks the held firmware image for activation. -/
  | fwActivate (rq : Req) (crc : Word)
  /-- `FW_CHECK_DONE` (R845). Checks of the firmware image end: the new bank is named active, or the image is rejected. -/
  | fwCheckDone
  /-- `FW_RESTART` (R845). The member restarts on the new bank 100 ms after an activation. -/
  | fwRestart
  /-- `TRIAL_BOOT_FAIL` (R846). A newly activated bank fails to reach READY within 50 ms, and the previous bank is booted. -/
  | trialBootFail
  /-- `FW_PARTIAL_TIMEOUT` (R844). A partial firmware image is discarded after 60 min without a chunk. -/
  | fwPartialTimeout
  /-- `BIND_HOST` (R836). Command binding or removing a host id with a position, port and authority. -/
  | bindHost (rq : Req) (host position port authority : Byte)
  /-- `KEY_PROVISION` (R837). Command storing a host key, resetting C to 0 and clearing the host's lockout. -/
  | keyProvision (rq : Req) (host : Byte) (key : List Byte)
  /-- `CFG_WRITE` (R834). Command writing bytes into the working copy of the configuration image. -/
  | cfgWrite (rq : Req) (offset : BitVec 16) (bytes : List Byte)
  /-- `CFG_COMMIT` (R834). Command that replies QUEUED and checks and validates the configuration image before committing it. -/
  | cfgCommit (rq : Req) (crc : Word)
  /-- `CFG_CHECK_DONE` (R834). Validation of the configuration image ends, and the image is committed or refused. -/
  | cfgCheckDone (writeOk : Bool)
  /-- `SEAL_CHECK_DONE` (R673). Validation and Mordant comparison end, and the block is sealed or refused. -/
  | sealCheckDone (writeOk : Bool)
  /-- `MODE_REQ` (R865). A write of SYS_PWR_CTRL.MODE_REQ is a mode order, arbitrated and refused like SET_MODE. -/
  | modeReq (rq : Req) (mode : BitVec 2) (shipKey : Byte)
  /-- `OW_START` (R363). A write of CELL_CTRL.OW_START starts an open-wire test. -/
  | owStart
  /-- `OW_PERIODIC` (R363). The open-wire test period expires and a test starts. -/
  | owPeriodic
  /-- `START` (R237). A write of CHK_n_CFG.START starts a firmware job from the initial value. -/
  | start (n : Fin 4)
  /-- `CHK_END` (R211). A write of CHK_n_CFG.END ends a firmware job in read-out or compare mode. -/
  | chkEnd (n : Fin 4)
  /-- `ABORT` (R236). A write of CHK_n_CFG.ABORT abandons a firmware job without any outcome. -/
  | abort (n : Fin 4)
  /-- `SUSPEND` (R217). A write of CHK_n_CFG.SUSPEND suspends the running firmware job at a word boundary. -/
  | suspend (n : Fin 4)
  /-- `RESUME` (R217). A write of CHK_n_CFG.RESUME continues the suspended firmware job. -/
  | resume (n : Fin 4)
  /-- `DATA` (R208). A write of CHK_n_DATA feeds bytes to the unit's job. -/
  | data (n : Fin 4) (w : Word)
  /-- `EXP` (R212). A write of CHK_n_EXP arms the comparison of a compare-mode job. -/
  | exp (n : Fin 4) (w : Word)
  /-- `CONTEXT_RESTORE` (R216). A write of CHK_n_CTX1 restores a saved job context, or rejects it. -/
  | contextRestore (n : Fin 4) (ctx1 : Word)
  /-- `CHK_JOB_END` (R211). A check-value job reaches the end of its input and produces its value or its compare outcome. -/
  | chkJobEnd (n : Fin 4)
  /-- `CHK_ALV_RESYNC` (R240). A write of CHK_ALV_RESYNC sets INIT on the alive channels named. -/
  | chkAlvResync (mask : Word)
  /-- `PORT_CLR` (R310). A write of CHAIN_CTRL.PORT_CLR_N or PORT_CLR_S clears a port's counters and leaves PORT_OFF or OFF_LATCHED. -/
  | portClr (north south : Bool)
  /-- `BAL_DIAG_CLR` (R416). A write of BAL_DIAG_CLR returns channels from SHORT, OVERCURRENT or GATE to UNTESTED. -/
  | balDiagClr (mask : BitVec 16)
  /-- `ALARM_CLR` (R615). A write of WATCH_CTRL with ALARM_CLR and key 0xC3 clears a latched ALARM when P and S are empty. -/
  | alarmClr (rq : Req) (key : Byte)
  /-- `UNSEAL` (R674). A write of VERM_CTRL with UNSEAL and key 0x5E arms an unseal for 10 s. -/
  | unseal (rq : Req) (key : Byte)
  /-- `LOG_CURSOR_SET` (R770). A write of LOG_CUR.SET places the register cursor. -/
  | logCursorSet (code : BitVec 16)
  /-- `LOG_WIN_READ` (R770). A read of LOG_WIN_0 performs one log read and latches its entry. -/
  | logWinRead
  /-- `TIME_NS_READ` (R348). A read of TIME_NS latches TIME_SEC_LO and TIME_SEC_HI. -/
  | timeNsRead
  /-- `CELL_DATA_LATCH` (R399). A read of CELL_DATA_01 latches all cell results and CELL_SNUM from one instant. -/
  | cellDataLatch
  /-- `AUX_DATA_LATCH` (R400). A read of AUX_DATA_1 latches all eight AUX results. -/
  | auxDataLatch
  /-- `ISNS_DATA_LATCH` (R399). A read of ISNS_DATA latches ISNS_FLAGS. -/
  | isnsDataLatch
  /-- `RP_WRITE` (R397). A write of a ring's RP frees entries, and is ignored when the value is at or above ENTRIES. -/
  | rpWrite (aux : Bool) (value : BitVec 10)
  /-- `SPORT_CFG_WRITE` (R601). A write of SP_n_CFG restarts the port with the new settings and clears its type. -/
  | sportCfgWrite (port : Fin 2) (value : Word)
  /-- `WINDOW_WRITE` (R866). A masked write to the scratchpad window replaces one word as a host access. -/
  | windowWrite (addr : BitVec 16) (mask value : Word)
  /-- `SPI_TRANSACTION` (R173). An SPI transaction from CS_N falling to rising writes a packet or reads the oldest releasable reply. -/
  | spiTransaction (sdi : List Byte)
  /-- `UART_FRAME` (R177). A COBS frame, ended by its delimiter, is received on RXD. -/
  | uartFrame (rxd : List Bool)
  /-- `BREAK_STUCK` (R178). RXD stays low for 2 character times, and the port ignores RXD. -/
  | breakStuck
  /-- `BREAK_RELEASE` (R178). RXD has been high for 1 ms after a stuck line, and the port listens again. -/
  | breakRelease
  /-- `LOCKOUT_EXPIRY` (R172). The 60 s tag lockout of a host id ends. -/
  | lockoutExpiry (h : Fin 4)
  /-- `COMMAND_DISPATCHABLE` (R114). A RESPONSE buffer is reserved for a waiting command, which joins the current dispatch tick. -/
  | commandDispatchable
  /-- `DISPATCH_TICK_END` (R162). A 250 µs dispatch tick ends; its commands are arbitrated and then executed at the start of the next tick. -/
  | dispatchTickEnd (ecc : Ecc)
  /-- `NO_REPLY` (R158). The reply timeout of an admitted unicast command expires, and NO_REPLY is released in its place. -/
  | noReply (p : HPort) (seq : BitVec 12)
  /-- `GROUP_REPLY_TIMEOUT` (R161). RTO expires on a group or broadcast command, and the combined reply is released with 0xFE for missing positions. -/
  | groupReplyTimeout (p : HPort) (seq : BitVec 12)
  /-- `POWER_ON_RESET` (R61). VSTK falls below 7.8 V, and the stack die enters power-on reset. -/
  | powerOnReset
  /-- `POWER_UP` (R63). VSTK rises above 8.5 V, power-on reset releases, and the rails come up in order. -/
  | powerUp (boot : BootIn)
  /-- `BOOT_COMPLETE` (R827). The boot completes; READY sets and event 0x00 or 0x01 is raised. -/
  | bootComplete
  /-- `RST_N_PULSE` (R823). RST_N is released after a low of at least 1 µs, and a short or long reset results. -/
  | rstNPulse (lowUs : Nat)
  /-- `MEMBER_RESET` (R823). The reset requested by RESET_MEMBER begins 10 ms after its reply is released. -/
  | memberReset
  /-- `VSTK_LOW_SET` (R62). VSTK falls below 8.8 V; VSTK_LOW sets and balancing stops. -/
  | vstkLowSet
  /-- `VSTK_LOW_CLEAR` (R62). VSTK rises above 9.0 V, and VSTK_LOW clears. -/
  | vstkLowClear
  /-- `RAIL_FAULT` (R95). VREG or VDD33 leaves its limits, and its fault flag changes. -/
  | railFault (vregBad vdd33Bad : Bool)
  /-- `VDDIO_CHANGE` (R85). VDDIO is removed or applied; the host ports float or work again. -/
  | vddioChange (present : Bool)
  /-- `SUPPLY_UPDATE` (R97). SYS_SUPPLY is updated every 100 ms. -/
  | supplyUpdate (vstk10mV vspMV : BitVec 16)
  /-- `XTAL_TAKEN` (R90). The crystal has run within ±10 % for 1024 cycles; Ochre takes it into use and XTAL_OK sets. -/
  | xtalTaken
  /-- `XTAL_STOP` (R90). A stopped crystal is detected; XTAL_OK clears and Ochre runs on its RC oscillator. -/
  | xtalStop
  /-- `CLOCK_CHECK` (R102). A window of 32 Ochre cycles ends, and the island clocks are compared with their nominal counts. -/
  | clockCheck (dev : BitVec 25) (mosc : Bool)
  /-- `STROBE_TIMEOUT` (R103). The Vermilion output-enable strobe is missing for more than 1 ms, and the contactor drivers turn off. -/
  | strobeTimeout
  /-- `CORE_STALL` (R46). The control core has not resumed within 100 ms while an output is on; Vermilion turns the outputs off and enters class A. -/
  | coreStall
  /-- `CROSSING_MESSAGE` (R106). An on-die message enters a crossing once its flits fit, and is read in the receiving island. -/
  | crossingMessage (src dst : Fin 28) (cls : Fin 6) (bytes : List Byte)
  /-- `FABRIC_STALL` (R146). An item waits more than 10 ms at an on-die crossing, and its STALL bit sets. -/
  | fabricStall (cls : Fin 6) (wait100ns : Nat)
  /-- `IDLE_ENTRY` (R65). With IDLE_AUTO set, IDLE_DELAY ms pass without activity, and the member enters IDLE. -/
  | idleEntry
  /-- `MODE_ENTRY` (R68). An accepted SENTINEL or SHIP request takes effect 100 ms after the reply. -/
  | modeEntry
  /-- `SENTINEL_WAKE` (R69). The SENTINEL period expires; the member takes coarse samples and runs the Ochre criteria. -/
  | sentinelWake (cellUV : List Int) (auxUV : List Nat) (vtrefUV : Nat) (dieTenths : Int)
  /-- `SENTINEL_BURST` (R70). A 50 ms sensor-port burst runs every 10 s in SENTINEL. -/
  | sentinelBurst (vspOk : Bool)
  /-- `WAKE_PIN` (R65). WAKE goes high and wakes a sleeping member. -/
  | wakePin (highUs : Nat)
  /-- `HOST_WAKE_EDGE` (R82). CS_N or RXD falls while the member sleeps, and serves only as a wake source. -/
  | hostWakeEdge (p : HPort)
  /-- `WAKE_TONE` (R281). A wake tone is recognised on a port; the member repeats it on the other port and wakes. -/
  | wakeTone (sd : Side)
  /-- `WAKE_TONE_REPEAT` (R281). The sender repeats the tone at 1 ms intervals, up to 3 times, until a frame arrives. -/
  | wakeToneRepeat (sd : Side)
  /-- `WAKE_COMPLETE` (R65). The wake from SENTINEL completes, and the member reaches ACTIVE. -/
  | wakeComplete
  /-- `FRAME_TRANSMIT` (R248). A queued frame starts at the first open slot for which it holds credit. -/
  | frameTransmit (sd : Side) (frac : Nat)
  /-- `TRANSIT_FRAME` (R251). A frame not addressed to the member alone is forwarded, cut through or stored. -/
  | transitFrame (sd : Side) (f : Frame) (lq : LineQ)
  /-- `COLLISION` (R242). A readback mismatch during transmission ends the output with AB. -/
  | collision (sd : Side)
  /-- `CREDIT_FRAME` (R110). A CREDIT frame is received and its cumulative counts update the sender's credit. -/
  | creditFrame (sd : Side) (f : Frame) (lq : LineQ)
  /-- `CREDIT_FRAME_SEND` (R110). A port sends a credit frame after 20 µs of silence with freed blocks, or every 1 ms. -/
  | creditFrameSend (sd : Side)
  /-- `LINK_UP` (R273). A LINK_UP frame is received; the exchange completes and the advertised figures are taken. -/
  | linkUp (sd : Side) (f : Frame) (lq : LineQ)
  /-- `LINK_UP_RESEND` (R273). A dead or port-off port sends LINK_UP every 10 ms. -/
  | linkUpResend (sd : Side)
  /-- `LINK_DEAD` (R272). No valid frame arrives for 3 ms, and the port enters LINK_DEAD. -/
  | linkDead (sd : Side)
  /-- `BREAK_HEALED` (R275). A port has been ACTIVE for 100 ms after a dead state, and BREAK healed is broadcast. -/
  | breakHealed (sd : Side)
  /-- `BREAK` (R275). A BREAK frame is received and updates the set of dead hops. -/
  | breakFrame (sd : Side) (f : Frame) (lq : LineQ)
  /-- `ENUM` (R266). An ENUM frame arrives on the south port; the member takes its position and passes ENUM northward. -/
  | enumFrame (sd : Side) (f : Frame) (lq : LineQ)
  /-- `ENUM_TOP_TIMEOUT` (R267). The north port reaches no link within 2 ms, and the member sends ENUM_END as the top of an open ring. -/
  | enumTopTimeout
  /-- `ENUM_END` (R267). An ENUM_END frame reaches the anchor, which continues enumeration with the ring open. -/
  | enumEnd (sd : Side) (f : Frame) (lq : LineQ)
  /-- `ENUM_RETRY` (R906). No ENUM or ENUM_END arrives within 60 ms, and the anchor restarts enumeration or gives up. -/
  | enumRetry
  /-- `ENUM_DONE` (R266). An ENUM_DONE frame is received, and each member records N and the ring state. -/
  | enumDone (sd : Side) (f : Frame) (lq : LineQ)
  /-- `ACK` (R260). An ACK or NAK frame is received and releases or triggers retransmission of stream frames. -/
  | ack (sd : Side) (f : Frame) (lq : LineQ)
  /-- `ACK_TIMER` (R260). A receiver sends an ACK after 4 accepted frames or 200 µs. -/
  | ackTimer (orig : Nat) (multi : Bool) (cls : Nat) (twin : Bool)
  /-- `NAK_REPEAT` (R258). A receiver repeats the NAK for a gap every RTX. -/
  | nakRepeat (orig : Nat) (multi : Bool) (cls : Nat) (twin : Bool)
  /-- `RETRANSMIT` (R262). An origin sees no progress on a stream for RTX and sends every unacknowledged frame again. -/
  | retransmit (dest : Nat) (multi : Bool) (cls : Nat) (twin : Bool)
  /-- `VOID_FRAME` (R262). A VOID frame is received, filling its counter and delivering nothing. -/
  | voidFrame (sd : Side) (f : Frame) (lq : LineQ)
  /-- `ALARM_RESEND` (R263). A held ALARM frame is sent again on each port that is not dead. -/
  | alarmResend (sd : Side)
  /-- `COMMAND_FRAME` (R156). A COMMAND frame is received, and its command is queued for execution at the addressed member. -/
  | commandFrame (sd : Side) (f : Frame) (lq : LineQ)
  /-- `RESPONSE_FRAME` (R160). A RESPONSE frame or group report reaches the entry port. -/
  | responseFrame (sd : Side) (f : Frame) (lq : LineQ)
  /-- `EVENT_FRAME` (R803). An EVENT frame is received, and its entries are placed into the stores of the bound hosts. -/
  | eventFrame (sd : Side) (f : Frame) (lq : LineQ)
  /-- `EVENT_FRAME_SEND` (R802). An outbound event frame is sent 1 ms after its first entry or when it is full. -/
  | eventFrameSend (dest : Nat)
  /-- `SAFETY_FRAME` (R662). A SAFETY frame copy reaches Vermilion and is paired with its twin. -/
  | safetyFrame (sd : Side) (f : Frame) (lq : LineQ)
  /-- `TWIN_WINDOW` (R662). The 2 ms twin window ends without a second copy. -/
  | twinWindow (peer : Fin 24)
  /-- `METRO` (R722). A METRO frame carrying an energy record is delivered to the host's port. -/
  | metro (sd : Side) (f : Frame) (lq : LineQ)
  /-- `DATA_FRAME` (R378). A DATA frame of a stream or readout is delivered to its host. -/
  | dataFrame (sd : Side) (f : Frame) (lq : LineQ)
  /-- `HOP_TIMEOUT` (R249). No carrier is seen on a hop for 2 ms, so the end may start at any time. -/
  | hopTimeout (sd : Side)
  /-- `HB_IN_DECODE` (R283). HB_IN is decoded as RUN, WORD, STOP or LOST, and HB_OUT follows. -/
  | hbInDecode (pat : HbPat)
  /-- `SYNC_IN_EDGE` (R318). A SYNC_IN rising edge at the anchor steps or slews the counter. -/
  | syncInEdge (frac highNs : Nat)
  /-- `TIME_SET_EXPIRY` (R317). An armed TIME_SET meets no SYNC_IN edge within 1.1 s and is discarded. -/
  | timeSetExpiry
  /-- `ANCHOR_HOLDOVER` (R320). The anchor has accepted no edge for 2.5 s and enters HOLDOVER. -/
  | anchorHoldover
  /-- `BEACON_SEND` (R321). The anchor sends a TIME beacon every 10 ms. -/
  | beaconSend
  /-- `BEACON` (R325). A TIME beacon is received; the member computes its offset and forwards the beacon. -/
  | beacon (sd : Side) (f : Frame) (lq : LineQ) (frac residence : Nat)
  /-- `BEACON_TIMEOUT` (R328). No usable beacon arrives for 50 ms, and the member enters HOLDOVER. -/
  | beaconTimeout
  /-- `DELAY_MEASURE` (R324). Each second, the member sends DELAY_REQ on each hop. -/
  | delayMeasure (sd : Side)
  /-- `DELAY_REQ` (R324). A DELAY_REQ is received, and a DELAY_RESP with the turnaround is sent. -/
  | delayReq (sd : Side) (f : Frame) (lq : LineQ) (frac : Nat)
  /-- `DELAY_RESP` (R324). A DELAY_RESP is received, and the hop delay is computed. -/
  | delayResp (sd : Side) (f : Frame) (lq : LineQ) (frac : Nat)
  /-- `HOLDOVER_LIMIT` (R330). The holdover error passes 1 ms, and HOLD_LIMIT sets. -/
  | holdoverLimit
  /-- `TIME_LABEL` (R713). A time label goes to Umber, which slews or steps its time. -/
  | timeLabel
  /-- `CELL_SAMPLE` (R351). A main-filter output sample of all 16 cells completes and is flagged and stored. -/
  | cellSample (ins : List CellIn)
  /-- `LIMIT_SAMPLE` (R360). A 1 kSa/s limit sample is classed and debounced. -/
  | limitSample (ins : List CellIn)
  /-- `LIMIT_REPORT` (R362). The limit results are sent on alive channel 0 every 10 ms and on change. -/
  | limitReport
  /-- `CLAMP_TRIP` (R357). A sense pin's clamp detector trips, and CLAMP and SUSPECT are set. -/
  | clampTrip (pin : Fin 17)
  /-- `CLAMP_RELEASE` (R358). A clamp detector releases, and SUSPECT persists for 4 samples. -/
  | clampRelease (pin : Fin 17)
  /-- `SUM_CHECK` (R366). Every 100 ms, the cell sum is compared with VSTK. -/
  | sumCheck
  /-- `AUX_SAMPLE` (R367). The eight AUX inputs are captured and converted. -/
  | auxSample (auxUV : List Nat) (vtrefUV : Nat)
  /-- `VTREF_FAULT` (R369). VTREF leaves its limits; every AUX result carries VTREF_BAD. -/
  | vtrefFault
  /-- `CURRENT_SAMPLE` (R370). A 1 kSa/s safety current sample completes. -/
  | currentSample (shuntNV : Int)
  /-- `HARD_LIMIT_TIMER` (R654). The safety current has exceeded a hard limit for 100 ms, and the configured action applies. -/
  | hardLimitTimer
  /-- `CURRENT_REPORT` (R373). The current results of the last 10 ms are sent on alive channel 1. -/
  | currentReport
  /-- `REMOTE_STALE` (R372). No remote current publication has been accepted for 30 ms, and the result turns STALE. -/
  | remoteStale
  /-- `MODULATOR_STUCK` (R401). A modulator output stays at one level for 1 ms. -/
  | modulatorStuck (m : Fin 17)
  /-- `HOST_STREAM_FLUSH` (R378). A host-stream DATA frame is sent when full, or 50 ms after its first entry. -/
  | hostStreamFlush (stream : Byte)
  /-- `BAL_PERIOD` (R406). A 500 µs balance period begins, and the pulses and diagnosis run. -/
  | balPeriod (meas : BalMeas)
  /-- `BAL_TIMEOUT` (R411). No BAL_SET has come for TIMEOUT s, and balancing is cleared. -/
  | balTimeout
  /-- `LOAD_CHECK` (R415). Every LOADCHK s, each enabled external-FET channel receives a 3 ms load-check pulse. -/
  | loadCheck (startUV endUV gateOnMV gateOffMV : List Int)
  /-- `DIAG_AGE_EXPIRY` (R416). No passed test within DIAG_AGE, and the channel returns to UNTESTED. -/
  | diagAgeExpiry (ch : Fin 16)
  /-- `STIM_START` (R420). A stimulus starts at t0 or at the sweep instant. -/
  | stimStart
  /-- `STIM_END` (R421). A stimulus ends after its duration. -/
  | stimEnd
  /-- `KERNEL_TRIGGER` (R461). An engine trigger falls due and launches its slot, or counts a miss. -/
  | kernelTrigger (e : Engine)
  /-- `WATCHDOG` (R465). A kernel's cycle count reaches its budget, and it faults with WATCHDOG. -/
  | watchdog (e : Engine)
  /-- `KERNEL_NOP` (R505). Instruction NOP. -/
  | kernelNop (e : Engine)
  /-- `LI` (R505). Instruction loading a sign-extended immediate. -/
  | li (e : Engine) (d : Fin 16) (k : BitVec 18)
  /-- `LIH` (R505). Instruction loading the upper bits of a scalar register. -/
  | lih (e : Engine) (d : Fin 16) (k : BitVec 18)
  /-- `ADDI` (R505). Instruction adding an immediate. -/
  | addi (e : Engine) (d a : Fin 16) (k : BitVec 18)
  /-- `SOP` (R505). Instruction performing a scalar register operation. -/
  | sop (e : Engine) (d a b : Fin 16) (op : Fin 12)
  /-- `LDS` (R505). Instruction loading a scalar word from the scratchpad. -/
  | lds (e : Engine) (d a : Fin 16) (k : BitVec 18) (ecc : Ecc)
  /-- `STS` (R505). Instruction storing a scalar word to the scratchpad. -/
  | sts (e : Engine) (d a : Fin 16) (k : BitVec 18)
  /-- `BR` (R501). Instruction performing a conditional branch. -/
  | br (e : Engine) (cond : Fin 7) (a b : Fin 16) (target : BitVec 11)
  /-- `LOOPR` (R502). Instruction opening a hardware loop with a register count. -/
  | loopr (e : Engine) (a : Fin 16) (last : BitVec 11)
  /-- `LOOPI` (R502). Instruction opening a hardware loop with an immediate count. -/
  | loopi (e : Engine) (count : BitVec 11) (last : BitVec 11)
  /-- `END` (R463). Instruction ending the kernel and copying its operand to INDIGO_x_RESULT. -/
  | endKernel (e : Engine) (a : Fin 16)
  /-- `STW` (R505). Instruction reading the status word or clearing sticky flags. -/
  | stw (e : Engine) (d a : Fin 16) (clear : Bool)
  /-- `RING` (R505). Instruction reading WP or writing RP of a ring. -/
  | ring (e : Engine) (d a : Fin 16) (write aux : Bool)
  /-- `TSHP` (R506). Instruction setting a tile shape and zero-filling the tile. -/
  | tshp (d : Fin 16) (p : BitVec 10)
  /-- `TLD` (R506). Instruction loading a tile from the scratchpad. -/
  | tld (d a b : Fin 16) (p : BitVec 10) (ecc : Ecc)
  /-- `TST` (R506). Instruction storing a tile to the scratchpad. -/
  | tst (d a b : Fin 16)
  /-- `TEW` (R506). Instruction performing an elementwise tile operation. -/
  | tew (d a b : Fin 16) (op : Fin 5)
  /-- `TEWS` (R506). Instruction performing a tile-scalar operation or fill. -/
  | tews (d a c : Fin 16) (op : Fin 3)
  /-- `TMM` (R496). Instruction performing a tile matrix product, optionally accumulating. -/
  | tmm (d a b : Fin 16) (op : Fin 3)
  /-- `TTR` (R506). Instruction transposing a tile. -/
  | ttr (d a : Fin 16)
  /-- `TCVT` (R499). Instruction converting a tile's type with scaling. -/
  | tcvt (d a : Fin 16) (ty : Fin 4) (exponent : Byte)
  /-- `TRED` (R506). Instruction reducing a tile along its rows or columns. -/
  | tred (d a : Fin 16) (op : Fin 4)
  /-- `TMOV` (R506). Instruction moving a tile together with its descriptor. -/
  | tmov (d a : Fin 16)
  /-- `TGET` (R506). Instruction reading one tile element into a scalar. -/
  | tget (d a : Fin 16) (row col : Fin 16)
  /-- `TPUT` (R506). Instruction writing a scalar into one tile element. -/
  | tput (d a : Fin 16) (row col : Fin 16)
  /-- `TUNPK` (R506). Instruction unpacking the fields of the elements of a Q31 tile. -/
  | tunpk (d a c : Fin 16) (op : Fin 5)
  /-- `TXS` (R448). Instruction sending a tile to the TE-to-SE queue. -/
  | txs (a : Fin 16)
  /-- `TXR` (R511). Instruction receiving from the SE-to-TE queue. -/
  | txr (d : Fin 16)
  /-- `SSHP` (R508). Instruction setting a spectral register's length and zero-filling it. -/
  | sshp (d : Fin 8) (len : BitVec 9)
  /-- `SLD` (R508). Instruction loading a spectral register. -/
  | sld (d : Fin 8) (a : Fin 16) (len : BitVec 9) (ecc : Ecc)
  /-- `SST` (R508). Instruction storing a spectral register. -/
  | sst (d : Fin 8) (a : Fin 16)
  /-- `SEW` (R508). Instruction performing an elementwise complex operation. -/
  | sew (d a b : Fin 8) (op : Fin 4)
  /-- `SSCL` (R508). Instruction scaling a spectral register by a complex scalar. -/
  | sscl (d a : Fin 8) (c : Fin 16)
  /-- `SDOT` (R508). Instruction computing a complex dot product into two scalars. -/
  | sdot (d : Fin 15) (a b : Fin 8) (h : Fin 16)
  /-- `SFFT` (R509). Instruction performing a forward or inverse FFT. -/
  | sfft (d a : Fin 8) (inverse : Bool)
  /-- `SGET` (R508). Instruction reading one spectral element. -/
  | sget (d : Fin 16) (a : Fin 8) (idx : Byte)
  /-- `SPUT` (R508). Instruction writing one spectral element. -/
  | sput (d : Fin 8) (a : Fin 16) (idx : Byte)
  /-- `SXS` (R448). Instruction sending a spectral register to the SE-to-TE queue. -/
  | sxs (a : Fin 8)
  /-- `SXR` (R510). Instruction receiving from the TE-to-SE queue. -/
  | sxr (d : Fin 8)
  /-- `SWEEP_PASS` (R533). A sweep pass starts at the first grid instant after the previous gap, with stimulus and sampling. -/
  | sweepPass
  /-- `SWEEP_END` (R549). A sweep completes or ends early, records its cause, and raises the command-complete event. -/
  | sweepEnd
  /-- `MODEL_FIT_LAUNCH` (R539). The member launches the model fit for the next cell whenever the TE is idle. -/
  | modelFitLaunch
  /-- `IMPEDANCE_REPORT` (R547). Once per second, the state service sends the R0_t report on alive channel 2. -/
  | impedanceReport
  /-- `DIE_MEASURE` (R557). The die diode is measured, and the die level and rate are updated. -/
  | dieMeasure (tenths : Int)
  /-- `COMPARATOR_TRIP` (R559). The shutdown comparator trips, and the hardware shutdown lines assert. -/
  | comparatorTrip
  /-- `THROTTLE_STEP_TIMER` (R563). The die or pack throttle step rises or falls at its interval. -/
  | throttleStepTimer (pack : Bool)
  /-- `DIE_SENSOR_FAULT` (R571). An open or shorted diode, or a failed cross-check, declares the die sensor broken. -/
  | dieSensorFault (hard : Bool)
  /-- `UMBER_TEMP_READ` (R571). Umber's die temperature is read once per second as a reference. -/
  | umberTempRead (tenths : Int)
  /-- `ROR_EVAL` (R568). Each second, the AUX rate-of-rise and cross-checks are evaluated. -/
  | rorEval
  /-- `THERMAL_REPORT` (R574). The thermal report is sent on alive channel 3 every 100 ms and on change. -/
  | thermalReport
  /-- `SENT_FRAME` (R577). A SENT frame is received and checked on a sensor port. -/
  | sentFrame (port : Fin 2) (cal10ns : Nat) (pulses10ns : List Nat) (pause10ns : Option Nat)
  /-- `SERIAL_MESSAGE` (R579). An enhanced serial message completes, giving the type, the self-test result or a fault. -/
  | serialMessage (port : Fin 2) (fmt : Bool) (ident : Byte) (value : BitVec 16) (crcOk : Bool)
  /-- `SPORT_REPORT` (R580). A sensor port sends its value to the runaway watch. -/
  | sportReport (port : Fin 2)
  /-- `SPORT_STALE` (R580). No valid frame arrives within STALE_MS, and the value turns STALE. -/
  | sportStale (port : Fin 2)
  /-- `LINE_LOW` (R581). No rising edge comes within 3 ms of a falling edge, and line power is cycled. -/
  | lineLow (port : Fin 2)
  /-- `LINE_RETRY` (R581). Line power is retried every 10 s while the line stays low. -/
  | lineRetry (port : Fin 2)
  /-- `VSP_ABSENT` (R581). VSP falls below 4.5 V in mode 2 or 3. -/
  | vspAbsent
  /-- `SAT_TEST_TIMEOUT` (R583). No self-test result arrives within 10 s, and the step fails. -/
  | satTestTimeout (port : Fin 2)
  /-- `WATCH_EVAL` (R614). The runaway watch evaluates its criteria and level rules. -/
  | watchEval
  /-- `ALARM_DEFERRED_ACTIONS` (R637). After an ALARM decided in SENTINEL, the frame, record and trip follow once ACTIVE is reached. -/
  | alarmDeferredActions
  /-- `CRITERIA_STALE` (R606). The control core passes no criterion state for 1 s; C4, C5 and the zone criteria become unavailable. -/
  | criteriaStale
  /-- `CRITERION_UNAVAILABLE` (R644). A criterion has been unavailable for 60 s, and event 0x7F is raised. -/
  | criterionUnavailable (c : Fin 6)
  /-- `ZONE_SHARE_SEND` (R613). A share message goes to the zone peers every 1 s and on change. -/
  | zoneShareSend
  /-- `ZONE_SHARE_STALE` (R613). No share message from a peer has come for 3 s, and its bits stop counting. -/
  | zoneShareStale (peer : Fin 24)
  /-- `GAS_LEARN_END` (R611). 600 s of gas baseline learning end. -/
  | gasLearnEnd (port : Fin 2)
  /-- `GAS_BASELINE_UPDATE` (R611). At the end of a minute, the gas baseline moves toward the minute's mean. -/
  | gasBaselineUpdate (port : Fin 2)
  /-- `IMPEDANCE_BASELINE` (R612). Once a minute, each cell's C5 baseline ratio is adjusted. -/
  | impedanceBaseline
  /-- `WATCH_REPORT` (R618). The watch level is sent to Vermilion on alive channel 6. -/
  | watchReport
  /-- `PROOF_DUE` (R621). A proof falls due by schedule. -/
  | proofDue
  /-- `PROOF_START` (R624). A proof starts once no deferral cause holds, and runs its steps. -/
  | proofStart (meas : ProofIn)
  /-- `PROOF_COMPLETE` (R627). The satellite results are final, and the proof completes. -/
  | proofComplete
  /-- `PROOF_OVERDUE` (R623). A proof has been deferred more than 24 h, and OVERDUE sets. -/
  | proofOverdue
  /-- `INPUT_CHANGE` (R647). A safety input channel has held a new level for its filter time. -/
  | inputChange (k : Fin 4) (chB high : Bool) (samples : Nat)
  /-- `TEST_PULSE` (R648). A test-pulse window of TPA or TPB ends, and the channels are checked for cross-shorts. -/
  | testPulse (b : Bool) (levels : List (Bool × Bool))
  /-- `DISCREPANCY` (R650). The two channels of an input disagree beyond the discrepancy time. -/
  | discrepancy (k : Fin 4)
  /-- `RAMP_DONE` (R656). An output's 20 ms ramp ends, and PULLIN begins. -/
  | rampDone (o : Fin 3)
  /-- `PULLIN_DONE` (R656). PULLIN_MS ends, and the output enters HOLD. -/
  | pullinDone (o : Fin 3)
  /-- `OFF_PULSE` (R657). Every 500 ms, a 150 µs off-pulse tests that the output falls. -/
  | offPulse (o : Fin 3) (mV : BitVec 16)
  /-- `OUTPUT_SHORT` (R657). An output at its limit below 2 V for 50 µs turns off into FAULT with class A. -/
  | outputShort (o : Fin 3)
  /-- `STUCK_ON` (R657). An output commanded off stays above 2 V for 1 ms. -/
  | stuckOn (o : Fin 3)
  /-- `OPEN_LOAD` (R657). The coil current in HOLD stays below 20 mA over 100 ms. -/
  | openLoad (o : Fin 3)
  /-- `VCOIL_LOW` (R657). VCOIL stays below its threshold for 10 ms, or recovers for 100 ms. -/
  | vcoilLow (coil10mV : BitVec 12)
  /-- `PRE_MAX_TIMEOUT` (R659). OUT_PRE has been on for PRE_MAX and turns off. -/
  | preMaxTimeout
  /-- `STATE_FRAME_SEND` (R661). Vermilion sends a state frame to its STOP and CURRENT peers. -/
  | stateFrameSend
  /-- `PEER_LOST` (R663). No state frame from a STOP peer has come for SAFE_TO. -/
  | peerLost (peer : Fin 24)
  /-- `ALIVE_TIMEOUT` (R664). An on-die safety channel delivers nothing within its timeout, giving class A INTERNAL. -/
  | aliveTimeout (ch : Fin 8)
  /-- `SAFETY_MESSAGE` (R221). An on-die protected message is received on its alive channel. -/
  | safetyMessage (ch : Fin 8) (alive : Byte) (bytes : List Byte) (crc : Byte)
  /-- `CLASS_B_ESCALATE` (R667). A class B timer reaches its limit, and class A ESCALATED is set. -/
  | classBEscalate (cause : Fin 11)
  /-- `CLASS_B_TIMER_SAVE` (R667). The class B timers are written to configuration memory every 10 min. -/
  | classBTimerSave
  /-- `RESET_ARM_EXPIRY` (R669). The armed reset or unseal window of 10 s expires. -/
  | resetArmExpiry
  /-- `RESET_PULSE` (R670). The falling edge of the reset input completes or fails the reset or the unseal. -/
  | resetPulse (highMs : Nat)
  /-- `UMBER_SAMPLE` (R705). Umber samples current and voltage and accumulates energy and charge. -/
  | umberSample (shuntNV uhvUV : Int)
  /-- `INTERVAL_CLOSE` (R710). An interval boundary is reached, and Umber closes and stores a record. -/
  | intervalClose
  /-- `UMBER_SAVE` (R709). Umber writes its registers to non-volatile memory every 60 s. -/
  | umberSave
  /-- `UMBER_SUPPLY_LOSS` (R709). UVSTK falls below 8.5 V, and Umber saves its state. -/
  | umberSupplyLoss
  /-- `UMBER_POWER_UP` (R716). Umber powers up from its saved state and flags the open interval NO_TIME. -/
  | umberPowerUp (sealPin : Bool) (swid : Word)
  /-- `SWID_CHECK` (R724). Umber checks its software identification every 24 h and may enter FAULT. -/
  | swidCheck (swid : Word)
  /-- `SEAL_N_FALL` (R728). SEAL_N falls and opens the sealed-update path. -/
  | sealNFall
  /-- `SEAL_N_RISE` (R740). SEAL_N rises, and any partial image is discarded. -/
  | sealNRise
  /-- `INWARD_DISCARD` (R703). Umber discards an inward transfer outside its conditions. -/
  | inwardDiscard
  /-- `RECORD_REQUEST` (R722). With slots granted, the stack die requests the next record for a host. -/
  | recordRequest (h : Fin 4)
  /-- `RECORD_RETURNED` (R722). Umber returns a signed record, which is sent to the host as METROLOGY traffic. -/
  | recordReturned (h : Fin 4)
  /-- `MIRROR_REFRESH` (R747). The Umber mirror is refreshed from a register read every 1 s. -/
  | mirrorRefresh
  /-- `LINK_DOWN` (R704). Umber has answered nothing for 100 ms, and the inter-die link is declared down. -/
  | linkDown
  /-- `LOG_WRITE` (R754). Lampblack writes a queued record to its slot and verifies it. -/
  | logWrite (verify : List Bool)
  /-- `LOG_MEMORY_TIMEOUT` (R775). The Lampblack memory gives no answer for 5 ms. -/
  | logMemoryTimeout
  /-- `SHADOW_UPDATE` (R761). A record's repeat shadow is rewritten, at most once per second. -/
  | shadowUpdate (src : Byte)
  /-- `LOG_RATE_REFILL` (R759). The rate-limit bucket gains tokens at 4 per second. -/
  | logRateRefill
  /-- `FREEZE_END` (R773). A freeze expires, and the held entries are written. -/
  | freezeEnd
  /-- `OPERATING_MINUTE` (R756). An operating minute elapses and is counted, being saved every 10 min. -/
  | operatingMinute
  /-- `INTER_DIE_LINK_UP` (R704). The stack die receives Umber's first answer after the link was down, declares the link up, sets LINK_UP and raises event 0x95. -/
  | interDieLinkUp
  /-- `VTREF_WITHIN_LIMITS` (R369). VTREF returns within 2.85 V to 3.15 V and is no longer overloaded, clearing VTREF_FAULT and starting the 10 ms count before VTREF_BAD clears. -/
  | vtrefWithinLimits
  /-- `SD_CNT_EXPIRY` (R561). A shutdown entry passes out of the one-hour window, and SD_CNT decreases. -/
  | sdCntExpiry
  /-- `OFF_CNT_EXPIRY` (R306). An entry to PORT_OFF passes out of the one-hour window, and the port's OFF_CNT decreases. -/
  | offCntExpiry (sd : Side)
  /-- `TWIN_CAUSE_END` (R667). 60 s after the last twin occurrence, class B cause TWIN ends, possibly clearing the class B fault. -/
  | twinCauseEnd
  /-- `CLASS_B_TIMER_RESET` (R667). A class B cause has been absent for 60 s in ACTIVE or IDLE, and its escalation timer resets. -/
  | classBTimerReset (cause : Fin 11)
  /-- `LINE_POWER_RESTORE` (R581). 100 ms after LINE_LOW cut the line power in mode 2 or 3, the line power comes back on and the 3 ms check follows. -/
  | linePowerRestore (port : Fin 2) (stillLow : Bool)
  /-- `BURST_END` (R582). A SENTINEL sensor-port burst ends at 50 ms, line power goes off, and a burst with no valid frame makes the value STALE. -/
  | burstEnd (port : Fin 2)
  /-- `VSP_RESTORED` (R581). VSP rises back above 4.5 V, and a port in VSP_ABSENT leaves that state and powers its line again. -/
  | vspRestored
  /-- `UNDEFINED_ENCODING` (R489). An engine issues a word with an unassigned opcode or one belonging to the other engine, and faults with ILLEGAL. -/
  | undefinedEncoding (e : Engine) (w : Word)
deriving DecidableEq, Repr

end Sys2Proof
end

