-- ==== Sys2Proof/Decode.lean ====
section
/-! DEFINITION. The command that a word of the command table spells. No row of the table gives bits, so no word spells a command (log 1). -/

namespace Sys2Proof

/-- The command a word spells by the table's bits: none, since the table gives no row any bits. -/
def decodeTableWord (_nbits _w : Nat) : Option Instr := none

end Sys2Proof
end

