-- ==== Sys2Proof/Config.lean ====
section
/-! DEFINITION. What the specification leaves to the part: free values, each an opaque constant with no body, so that no
proof can use a value of it; and the fixed lengths of time in steps of the local clock. Every free value has its row in
`notes/assumptions/`. -/

namespace Sys2Proof.Config

open Sys2Proof

/-- The local clock runs in steps of 10 ns (R312, R314). -/
def tickNs : Nat := 10
/-- One microsecond of local clock. -/
def us : Nat := 100
/-- One millisecond of local clock. -/
def ms : Nat := 100000
/-- One second of local clock. -/
def sec : Nat := 100000000

/-- Free value: which way a result whose rounding the rule does not state is rounded (log 3); the arguments are the
numerator and the denominator, and it is asked only where the division leaves a remainder. -/
opaque roundsUp : Int → Int → Bool

/-- Free value: bytes of Umber's ECDSA signature over a SHA-256 digest (R719); the signing key is fixed in the part and not
stated (log 20). -/
opaque umberSignature : List Byte → Nat → Byte

/-- Free value: bytes of Umber's public key (R720), fixed at manufacture (log 20). -/
opaque umberPublicKey : Nat → Byte

/-- Free value: whether Oliqua's signature over a SHA-256 digest verifies (R843, R725); the key is fixed in the boot ROM and
not stated (log 21). -/
opaque oliquaVerifies : List Byte → List Byte → Bool

/-- Free value: the result byte of `CMD_RESULT` where a commit's checks pass and the memory does not take the write; the rules state none
(R673, R834, R835; log 22). The argument is a fresh index. -/
opaque failedWriteResult : Nat → Byte

/-- Free value: byte number i of a chunk whose write the kernel store did not take; the rules give only the event 0x6E (R458, R487; log 197).
The first argument is a fresh index. -/
opaque failedStoreByte : Nat → Nat → Byte

/-- Free value: the payload and sign of a NaN result that no invalid operation gave, from the type code and the operands' codes
(R498; log 40). -/
opaque nanPayload : Nat → Nat → Nat → Nat

/-- Free value: whether an inexact result that rounds up to the smallest normal number counts as tiny for `UFL` (R493, R498; log 41). -/
opaque tinyAtBoundary : Bool

/-- Free value: which of two zeros of opposite sign `MIN` or `MAX` returns (R498; log 42); the arguments are the operands' codes. -/
opaque zeroPick : Nat → Nat → Bool

/-- Free value: what an FFT gives for one part of one element, and whether it saturates (R509; log 43); the arguments are a fresh
index and the element's place. -/
opaque fftPart : Nat → Nat → Int
opaque fftSat : Nat → Bool

/-- Free value: the image of a library slot whose kernel no rule describes, byte by byte (R456; log 44). -/
opaque libraryByte : Nat → Nat → Nat

/-- Free value: the version of the kernel library (R541; log 45). -/
opaque libraryVersion : Word

/-- Free value: what the model fit gives for one cell: five parameters, iterations and convergence (R539, R542; log 46). -/
opaque fitWord : Nat → Nat → Word
opaque fitCount : Nat → Nat
opaque fitConverges : Nat → Bool

/-- Free value: the parameters of the state service's estimator as binary32: a (0 to 3, row by row), b (4, 5), k (6, 7), h (8, 9), c0 (10) and r_s (11), which no rule
gives for the library's kernel (R545; log 47). -/
opaque estimator : Nat → Word

/-- Free value: the inner resistance, in Ω, that one qualifying current step gives for a cell (R546; log 48). -/
opaque stepResistance : Nat → Nat → Rat

/-- Free value: what a field of n bits holds where the value has no code in the field and no rule says what the field shows then (log 52). -/
opaque noCode : Nat → Int → Nat

/-- Free value: the temperature, in 0.1 °C, of an AUX channel whose configured pull-up, resistance at 25 °C or B is 0 (R566; log 53). -/
opaque ntcDegenerate : Nat → Int

/-- Free value: the proportional and the integral gain of the servo, in 0.001 ppm per 1/16 ns, at the anchor and at another member; the rules state its bandwidths and not
its gains (R329; log 61). -/
opaque servoKp : Bool → Rat
opaque servoKi : Bool → Rat

/-- Free value: whether the coarse conversion of a cell in SENTINEL is outside its wide limits, which no rule states (R65, R557; log 62). The argument is the
cell's level in µV. -/
opaque outsideCoarse : Int → Bool

/-- Free value: how many shared buffer slots a class of messages on the die has (R104; log 145). -/
opaque sharedSlots : Nat → Nat

/-- Whether a low on `RXD` of so many samples, between the two lengths that R884 states, counts as a start bit (log 173). -/
opaque shortStart : Nat → Bool

/-- Whether a low of so many samples of 62.5 µs on an OSSD channel, between the two lengths that R647 states, counts (log 196). -/
opaque ossdLow : Nat → Bool

end Sys2Proof.Config
end

