-- ==== Sys2Proof/Machine/Operands.lean ====
section
/-! DEFINITION. Operand forms: little-endian fields of packets, frames, records and entries (R11), bit fields of words (R10), and
the list, counter and rounding helpers that the meanings share. -/

namespace Sys2Proof.Machine

open Sys2Proof

/-- The low n bytes of an integer in two's complement, least significant first (R11, R12). -/
def leI (n : Nat) (x : Int) : List Byte :=
  (List.range n).map fun i => BitVec.ofInt 8 (x >>> (8 * i))

/-- The low n bytes of a number, least significant first (R11). -/
def le (n x : Nat) : List Byte :=
  (List.range n).map fun i => BitVec.ofNat 8 (x >>> (8 * i))

/-- The number that bytes spell, least significant first (R11). -/
def leNat : List Byte → Nat
  | [] => 0
  | b :: t => b.toNat + 256 * leNat t

/-- The two's complement reading of an n-bit number (R12). -/
def signed (n : Nat) (x : Nat) : Int :=
  (BitVec.ofNat n x).toInt

/-- n bytes of a list from an offset on, with 0 where the list ends. -/
def slice (l : List Byte) (off n : Nat) : List Byte :=
  (List.range n).map fun i => l.getD (off + i) 0

/-- The n-byte little-endian number at an offset of a list. -/
def field (l : List Byte) (off n : Nat) : Nat := leNat (slice l off n)

/-- The number in bits `[hi:lo]` of a number (R10). -/
def bits (x hi lo : Nat) : Nat := (x >>> lo) % 2 ^ (hi + 1 - lo)

/-- Bit i of a number (R10). -/
def bitN (x i : Nat) : Bool := x.testBit i

/-- 1 for true, 0 for false. -/
def b2n (b : Bool) : Nat := if b then 1 else 0

/-- A counter that adds and saturates at its largest value (R202, R306). -/
def satAdd (top x n : Nat) : Nat := min top (x + n)

/-- A value held between two bounds. -/
def clampI (lo hi x : Int) : Int := max lo (min hi x)

/-- An element of a list by index, with a value for an index past the end. -/
def nth {α : Type} (l : List α) (i : Nat) (d : α) : α := l.getD i d

/-- A list with the element at an index changed. -/
def upd {α : Type} (l : List α) (i : Nat) (f : α → α) : List α := l.modify i f

/-- A bit vector with bit i set or cleared. -/
def setBit {n : Nat} (v : BitVec n) (i : Nat) (b : Bool) : BitVec n :=
  if b then v ||| BitVec.ofNat n (2 ^ i) else v &&& ~~~ BitVec.ofNat n (2 ^ i)

/-- The indexes of the set bits of a bit vector, ascending. -/
def ones {n : Nat} (v : BitVec n) : List Nat := (List.range n).filter fun i => v.getLsbD i

/-- The bit vector whose bit i is given by a function. -/
def maskOf (n : Nat) (f : Nat → Bool) : BitVec n :=
  (List.range n).foldl (fun v i => if f i then v ||| BitVec.ofNat n (2 ^ i) else v) 0

/-- Division rounded to the nearest integer, a tie going away from zero. -/
def roundHalfAway (a b : Int) : Int :=
  if a ≥ 0 then (2 * a + b) / (2 * b) else - ((2 * (-a) + b) / (2 * b))

/-- Division rounded to the nearest integer, a tie going to the even one (R494). -/
def roundHalfEven (a b : Int) : Int :=
  let q := a / b
  let r := a % b
  if 2 * r < b then q else if 2 * r > b then q + 1 else if q % 2 = 0 then q else q + 1

/-- Division whose rounding the rule does not state (log 3): exact where nothing remains, and otherwise one of the
two neighbours, by the free value `Config.roundsUp`. -/
def divFree (a b : Int) : Int :=
  if b = 0 then 0 else if a % b = 0 then a / b else if Config.roundsUp a b then a / b + 1 else a / b

/-- A number as a field of n bits holds it: its code where it has one, else a free value (log 52). -/
def fieldN (n : Nat) (x : Int) : Nat := if 0 ≤ x ∧ x < 2 ^ n then x.toNat else Config.noCode n x % 2 ^ n

/-- A signed number as a field of n bits holds it (R12): its two's complement where it has one, else a free value (log 52). -/
def fieldI (n : Nat) (x : Int) : Nat :=
  if -(2 ^ (n - 1) : Int) ≤ x ∧ x < (2 ^ (n - 1) : Int) then (x % 2 ^ n).toNat else Config.noCode n x % 2 ^ n

/-- A quotient rounded to an integer where the rule does not say how (log 3). -/
def roundFree (r : Rat) : Int := divFree r.num r.den

/-- The median of a list; of an even number of values, the mean of the two in the middle; none of an empty list. -/
def median (l : List Rat) : Option Rat :=
  let m := l.mergeSort (fun a b => decide (a ≤ b))
  let n := m.length
  if n = 0 then none else some ((nth m ((n - 1) / 2) 0 + nth m (n / 2) 0) / 2)

/-- Bytes of a string of ASCII character codes. -/
def asciiBytes (l : List Nat) : List Byte := l.map (BitVec.ofNat 8)

/-! ## Sines, cosines and square roots -/

/-- π in units of 2^-96. -/
def piQ : Nat := 248902613312231085230521944622

/-- The cosine and the sine of an angle x, all in units of 2^-96, from the term of degree k of their power series on: `term` is x^k / k!, and so many more terms count. -/
def trigSeries (x : Int) : Nat → Nat → Int → Int × Int
  | 0, _, _ => (0, 0)
  | n + 1, k, term =>
    let r := trigSeries x n (k + 1) (term * x / (2 ^ 96 * (k + 1 : Nat)))
    match k % 4 with
    | 0 => (r.1 + term, r.2)
    | 1 => (r.1, r.2 + term)
    | 2 => (r.1 - term, r.2)
    | _ => (r.1, r.2 - term)

/-- The cosine and the sine of 2π a / b in units of 2^-96 (R420, R535): the quarter of the circle, and the series within it; 36 terms leave less than the last digit out
(log 193). -/
def cosSin (a b : Nat) : Int × Int :=
  let r := trigSeries (piQ * (4 * (a % b) % b) / (2 * b) : Nat) 36 0 (2 ^ 96)
  match 4 * (a % b) / b with
  | 0 => r
  | 1 => (-r.2, r.1)
  | 2 => (-r.1, -r.2)
  | _ => (r.2, -r.1)

/-- The largest number with n bits or fewer, from `root` on, whose square is at most x: one bit after the other. -/
def rootBits (x : Nat) : Nat → Nat → Nat
  | 0, root => root
  | n + 1, root => let r := root + 2 ^ n; rootBits x n (if r * r ≤ x then r else root)

/-- The square root of a number that is not negative, in units of 2^-96, rounded down (R539, R542). -/
def ratSqrt (r : Rat) : Rat := mkRat (rootBits (r.num.toNat * 2 ^ 192 / r.den) 192 0) (2 ^ 96)

/-- The sum of a list of numbers. -/
def ratSum (l : List Rat) : Rat := l.foldl (· + ·) 0

/-- The mean of a list of numbers. -/
def ratMean (l : List Rat) : Rat := ratSum l / (l.length : Rat)

end Sys2Proof.Machine
end

