-- ==== Sys2Proof/Machine/Crypto.lean ====
section
/-! DEFINITION. The check values and codes that the specification names by a published standard: CRC-32C, CRC-16-CCITT and CRC-8
(R150, R205), COBS (R176), AES-128 CMAC (R169) and SHA-256 (R719, R843). -/

namespace Sys2Proof.Machine

open Sys2Proof

/-- One bit of a reflected CRC-32C register (polynomial 0x1EDC_6F41 reflected). -/
def crc32cBit (r : BitVec 32) : BitVec 32 :=
  if r.getLsbD 0 then (r >>> 1) ^^^ 0x82F63B78 else r >>> 1

/-- One byte into the running CRC-32C register. -/
def crc32cByte (r : BitVec 32) (b : Byte) : BitVec 32 :=
  (List.range 8).foldl (fun r _ => crc32cBit r) (r ^^^ b.setWidth 32)

/-- CRC-32C over bytes (R150, R205). -/
def crc32c (l : List Byte) : BitVec 32 := (l.foldl crc32cByte 0xFFFFFFFF) ^^^ 0xFFFFFFFF

/-- One bit of the CRC-16-CCITT register. -/
def crc16Bit (r : BitVec 16) : BitVec 16 :=
  if r.getLsbD 15 then (r <<< 1) ^^^ 0x1021 else r <<< 1

/-- One byte into the running CRC-16-CCITT register. -/
def crc16Byte (r : BitVec 16) (b : Byte) : BitVec 16 :=
  (List.range 8).foldl (fun r _ => crc16Bit r) (r ^^^ (b.setWidth 16 <<< 8))

/-- CRC-16-CCITT over bytes (R205). -/
def crc16 (l : List Byte) : BitVec 16 := l.foldl crc16Byte 0xFFFF

/-- One bit of the CRC-8 register. -/
def crc8Bit (r : BitVec 8) : BitVec 8 :=
  if r.getLsbD 7 then (r <<< 1) ^^^ 0x2F else r <<< 1

/-- One byte into the running CRC-8 register. -/
def crc8Byte (r : BitVec 8) (b : Byte) : BitVec 8 :=
  (List.range 8).foldl (fun r _ => crc8Bit r) (r ^^^ b)

/-- CRC-8 over bytes (R205). -/
def crc8 (l : List Byte) : BitVec 8 := (l.foldl crc8Byte 0xFF) ^^^ 0xFF

/-- COBS: the blocks of nonzero bytes, each of at most 254, behind its code byte. The first argument is the open
block, newest byte first. -/
def cobsGo (blk : List Byte) : List Byte → List Byte
  | [] => BitVec.ofNat 8 (blk.length + 1) :: blk.reverse
  | b :: t =>
    if b = 0 then (BitVec.ofNat 8 (blk.length + 1) :: blk.reverse) ++ cobsGo [] t
    else if blk.length = 253 then
      match t with
      | [] => (255 : Byte) :: (b :: blk).reverse
      | _ => ((255 : Byte) :: (b :: blk).reverse) ++ cobsGo [] t
    else cobsGo (b :: blk) t

/-- The COBS encoding of bytes, without the delimiter (R176). -/
def cobsEncode (l : List Byte) : List Byte := cobsGo [] l

/-- COBS decoding: `need` data bytes of the open block remain, `zero` says whether a zero follows it. -/
def cobsDec (need : Nat) (zero : Bool) : List Byte → Option (List Byte)
  | [] => if need = 0 then some [] else none
  | b :: t =>
    if b = 0 then none
    else if need = 0 then
      (cobsDec (b.toNat - 1) (b ≠ 255) t).map fun r => if zero then (0 : Byte) :: r else r
    else (cobsDec (need - 1) zero t).map fun r => b :: r

/-- The decoding of a COBS frame whose delimiter has been taken off; none where it is no COBS frame (R153 step 1). -/
def cobsDecode (l : List Byte) : Option (List Byte) :=
  match l with
  | [] => none
  | _ => cobsDec 0 false l

/-- Multiplication by x in the field of AES. -/
def xtime (b : Byte) : Byte := if b.getLsbD 7 then (b <<< 1) ^^^ 0x1B else b <<< 1

/-- Multiplication in the field of AES. -/
def gmul (a b : Byte) : Byte :=
  ((List.range 8).foldl (fun (p : Byte × Byte) i =>
    (if b.getLsbD i then p.1 ^^^ p.2 else p.1, xtime p.2)) ((0 : Byte), a)).1

/-- The inverse in the field of AES, as the 254th power; 0 for 0. -/
def ginv (a : Byte) : Byte :=
  let a2 := gmul a a; let a4 := gmul a2 a2; let a8 := gmul a4 a4; let a16 := gmul a8 a8
  let a32 := gmul a16 a16; let a64 := gmul a32 a32; let a128 := gmul a64 a64
  gmul a128 (gmul a64 (gmul a32 (gmul a16 (gmul a8 (gmul a4 a2)))))

/-- The AES S-box. -/
def sbox (b : Byte) : Byte :=
  let i := ginv b
  i ^^^ i.rotateLeft 1 ^^^ i.rotateLeft 2 ^^^ i.rotateLeft 3 ^^^ i.rotateLeft 4 ^^^ 0x63

/-- Bytes combined by exclusive or. -/
def xorBytes (a b : List Byte) : List Byte := List.zipWith (· ^^^ ·) a b

/-- The next AES-128 round key. -/
def aesNextKey (rcon : Byte) (k : List Byte) : List Byte :=
  let t := [sbox (k.getD 13 0) ^^^ rcon, sbox (k.getD 14 0), sbox (k.getD 15 0), sbox (k.getD 12 0)]
  let w0 := xorBytes (k.take 4) t
  let w1 := xorBytes ((k.drop 4).take 4) w0
  let w2 := xorBytes ((k.drop 8).take 4) w1
  let w3 := xorBytes ((k.drop 12).take 4) w2
  w0 ++ w1 ++ w2 ++ w3

/-- AES ShiftRows on 16 bytes in column order. -/
def shiftRows (s : List Byte) : List Byte :=
  [0, 5, 10, 15, 4, 9, 14, 3, 8, 13, 2, 7, 12, 1, 6, 11].map fun i => s.getD i 0

/-- AES MixColumns on one column. -/
def mixCol (a b c d : Byte) : List Byte :=
  [xtime a ^^^ (xtime b ^^^ b) ^^^ c ^^^ d, a ^^^ xtime b ^^^ (xtime c ^^^ c) ^^^ d,
   a ^^^ b ^^^ xtime c ^^^ (xtime d ^^^ d), (xtime a ^^^ a) ^^^ b ^^^ c ^^^ xtime d]

/-- AES MixColumns. -/
def mixColumns (s : List Byte) : List Byte :=
  ([0, 4, 8, 12].map fun i => mixCol (s.getD i 0) (s.getD (i + 1) 0) (s.getD (i + 2) 0) (s.getD (i + 3) 0)).flatten

/-- The rounds of AES-128: `n` rounds remain, the last without MixColumns. -/
def aesRounds : Nat → Byte → List Byte → List Byte → List Byte
  | 0, _, _, s => s
  | n + 1, rcon, k, s =>
    let k' := aesNextKey rcon k
    let t := shiftRows (s.map sbox)
    let t' := if n = 0 then t else mixColumns t
    aesRounds n (xtime rcon) k' (xorBytes t' k')

/-- AES-128 of one block of 16 bytes. -/
def aes128 (key blk : List Byte) : List Byte := aesRounds 10 1 key (xorBytes blk key)

/-- Doubling of a CMAC subkey (NIST SP 800-38B), on 16 bytes, most significant first. -/
def cmacDouble (l : List Byte) : List Byte :=
  let shifted := (List.range 16).map fun i =>
    (l.getD i 0 <<< 1) ||| (if (l.getD (i + 1) 0).getLsbD 7 ∧ i < 15 then (1 : Byte) else 0)
  if (l.getD 0 0).getLsbD 7 then shifted.set 15 (shifted.getD 15 0 ^^^ 0x87) else shifted

/-- The chaining of CMAC over the blocks before the last; `fuel` bounds the number of blocks. -/
def cmacChain (key k1 k2 : List Byte) : Nat → List Byte → List Byte → List Byte
  | 0, x, _ => x
  | fuel + 1, x, m =>
    if m.length > 16 then cmacChain key k1 k2 fuel (aes128 key (xorBytes x (m.take 16))) (m.drop 16)
    else if m.length = 16 then aes128 key (xorBytes x (xorBytes m k1))
    else aes128 key (xorBytes x (xorBytes (m ++ (0x80 : Byte) :: List.replicate (15 - m.length) 0) k2))

/-- AES-128 CMAC of a message (R169). -/
def cmac (key m : List Byte) : List Byte :=
  let l := aes128 key (List.replicate 16 0)
  let k1 := cmacDouble l
  cmacChain key k1 (cmacDouble k1) (m.length / 16 + 1) (List.replicate 16 0) m

/-- The 4-byte tag of R169 and R170: over the counter value, the direction byte and the message. -/
def tagOf (key : List Byte) (counter : Nat) (dir : Byte) (m : List Byte) : List Byte :=
  (cmac key (le 4 counter ++ dir :: m)).take 4

/-- The primes below 312, 64 of them: the constants of SHA-256 are taken from their roots (FIPS 180-4, which R719 and R843 name). No number below 312 is a product of primes above 17. -/
def shaPrimes : List Nat := (List.range 312).filter fun n => decide (2 ≤ n) && [2, 3, 5, 7, 11, 13, 17].all fun d => n % d != 0 || n == d

/-- The largest number below 2^36 whose e-th power is at most x, bit by bit from the top. -/
def rootBelow (e x : Nat) : Nat := ((List.range 36).reverse.map (2 ^ ·)).foldl (fun r b => if (r + b) ^ e ≤ x then r + b else r) 0

/-- The round constants of SHA-256: the first 32 bits after the point of the cube roots of the primes. -/
def shaK : List (BitVec 32) := shaPrimes.map fun p => BitVec.ofNat 32 (rootBelow 3 (p * 2 ^ 96))

/-- The initial hash value of SHA-256: the same of the square roots of the first eight. -/
def shaH0 : List (BitVec 32) := (shaPrimes.take 8).map fun p => BitVec.ofNat 32 (rootBelow 2 (p * 2 ^ 64))

/-- A big-endian 32-bit word of four bytes. -/
def beWord (l : List Byte) : BitVec 32 :=
  l.foldl (fun w b => (w <<< 8) ||| b.setWidth 32) 0

/-- The exclusive or of a word's rotations to the right. -/
def rotations (x : BitVec 32) (l : List Nat) : BitVec 32 := l.foldl (fun y n => y ^^^ x.rotateRight n) 0

/-- The word that follows 16 words of the message schedule, oldest first. -/
def shaNext : List (BitVec 32) → BitVec 32
  | p :: q :: l =>
    let z := l.getD 12 0
    l.getD 7 0 + p + (rotations q [7, 18] ^^^ (q >>> 3)) + (rotations z [17, 19] ^^^ (z >>> 10))
  | _ => 0

/-- One round of SHA-256 on its eight words, with the sum of the round's constant and its schedule word. -/
def shaRound (kw : BitVec 32) : List (BitVec 32) → List (BitVec 32)
  | [p0, p1, p2, p3, q0, q1, q2, q3] =>
    let x := q3 + kw + (q2 ^^^ (q0 &&& (q1 ^^^ q2))) + rotations q0 [6, 11, 25]
    (x + rotations p0 [2, 13, 22] + ((p0 &&& (p1 ||| p2)) ||| (p1 &&& p2))) :: p0 :: p1 :: p2 :: (x + p3) :: [q0, q1, q2]
  | l => l

/-- The 64 rounds over a block: the hash's words and the block's 16 schedule words move on together. -/
def shaRounds : List (BitVec 32) → (hash sched : List (BitVec 32)) → List (BitVec 32)
  | [], hash, _ => hash
  | k :: ks, hash, sched => shaRounds ks (shaRound (k + sched.headD 0) hash) (sched.tail ++ [shaNext sched])

/-- One block of 64 bytes joined to a hash. -/
def shaJoin (hash : List (BitVec 32)) (block : List Byte) : List (BitVec 32) :=
  (hash.zip (shaRounds shaK hash ((List.range 16).map fun i => beWord ((block.drop (4 * i)).take 4)))).map fun p => p.1 + p.2

/-- The block `j` of a message padded to whole blocks: a byte 0x80, zeros, and the message's length in bits as the last eight bytes, most significant first. -/
def shaPadded (m : List Byte) (blocks j : Nat) : List Byte :=
  (List.range 64).map fun i =>
    let n := 64 * j + i
    if n < m.length then m.getD n 0
    else if n = m.length then 0x80
    else if 64 * blocks - 8 ≤ n then BitVec.ofNat 8 (8 * m.length / 256 ^ (64 * blocks - 1 - n))
    else 0

/-- SHA-256 of a message (R719, R843). -/
def sha256 (m : List Byte) : List Byte :=
  let blocks := (m.length + 72) / 64
  ((List.range blocks).foldl (fun h j => shaJoin h (shaPadded m blocks j)) shaH0).flatMap fun w => (le 4 w.toNat).reverse

end Sys2Proof.Machine
end

