-- ==== Sys2Proof/Machine/State.lean ====
section
/-! DEFINITION. The state of one NV16 as plain data, field by field with its rule, and the state after reset.
Each field's default IS its reset value, so `State.reset` is the structure with every default. -/

namespace Sys2Proof.Machine

open Sys2Proof

/-- Why a step stops with a fault. No meaning of this model raises one: the spec gives every row an effect. A command outside
the operand range of the hardware cannot be written (the operand types exclude it). -/
inductive Fault where
  /-- Raised by no step. Kept so that the type has a name for a stop the spec might force: safe. -/
  | unspecified
deriving DecidableEq, Repr

/-- Why a step refuses a command. -/
inductive Refusal where
  /-- A row that has no meaning yet, by its mnemonic: raised by the arms of `exec` only; safe. -/
  | notModelled (mnemonic : String)
deriving DecidableEq, Repr

/-- The time states of R313, coded 0 to 4. -/
inductive TimeState where
  | unset | free | acquiring | locked | holdover
deriving DecidableEq, Repr

/-- The states of a chain port (R272), coded 0 to 4 in `CHAIN_PORT_x.STATE` (R306). -/
inductive PState where
  | linkDead | active | degraded | portOff | offLatched
deriving DecidableEq, Repr

/-- `CHAIN_STATE.RING` (R279, R305), coded 0 to 3. -/
inductive Ring where
  | notEnumerated | closed | opened | reversed
deriving DecidableEq, Repr

/-- The decoded state of `HB_IN` (R283), coded 0 to 3 (R309). -/
inductive HbIn where
  | run | word | stop | lost
deriving DecidableEq, Repr

/-- The driven state of `HB_OUT` (R282), coded 0 to 3 (R309). -/
inductive HbOut where
  | run | word | stop | off
deriving DecidableEq, Repr

/-- A cell limit result (R361), coded 0 to 3; also the class of one limit sample (R360). -/
inductive LimRes where
  | inLimits | ov | uv | invalid
deriving DecidableEq, Repr

/-- The diagnostic state of a balance channel (R416, R435), coded 0 to 5. -/
inductive Diag where
  | untested | ok | opened | short | overcurrent | gate
deriving DecidableEq, Repr

/-- The state of an engine (R462), coded 0 to 3. -/
inductive EState where
  | idle | loading | running | suspended
deriving DecidableEq, Repr

/-- How the last kernel ended (R463), coded 0 to 5. -/
inductive Term where
  | none | endd | stopped | fault | thermal | powerdown
deriving DecidableEq, Repr

/-- The die level (R558, R602), coded 0 to 4. -/
inductive DieLevel where
  | normal | warning | throttle | shutdown | cooling
deriving DecidableEq, Repr

/-- The state of a sensor port (R603), coded 0 to 5. -/
inductive SpState where
  | off | searching | running | lineLow | vspAbsent | selfTest
deriving DecidableEq, Repr

/-- The runaway level (R614, R619), coded 0 to 3. -/
inductive Level where
  | none | watch | preAlarm | alarm
deriving DecidableEq, Repr

/-- The state of a contactor output (R656), coded 0 to 4. -/
inductive OutSt where
  | off | ramp | pullin | hold | fault
deriving DecidableEq, Repr

/-- The state of a safety input (R652), coded 0 to 5. -/
inductive InpSt where
  | off | run | demand | discrepancy | cross | test
deriving DecidableEq, Repr

/-- The meter state of Umber (R701), coded 0 to 3. -/
inductive Meter where
  | uncalibrated | opened | sealed | fault
deriving DecidableEq, Repr

/-- The state of the sweep (R556), coded 0 to 3. -/
inductive SwpSt where
  | idle | waiting | running | fitting
deriving DecidableEq, Repr

/-- The state of the proof (R643), coded 0 to 3. -/
inductive ProofSt where
  | idle | deferred | running | awaiting
deriving DecidableEq, Repr

/-- A committed host binding (R166, R203). -/
structure Binding where
  uart : Bool
  auth : Auth
  pos : Nat
deriving DecidableEq, Repr

/-- A reply of R151 without its check value: header, status, flags, data, and the 4-byte tag where it carries one. -/
structure Reply where
  hdr : BitVec 16
  status : Nat
  replay : Bool
  more : Bool
  data : List Byte
  tag : Option (List Byte)
deriving DecidableEq, Repr

/-- An admitted command as it waits at its executing member (R114): its header, opcode and raw parameter bytes, the counter value its tag used (R170). -/
structure PCmd where
  rq : Req
  opc : Nat
  params : List Byte
  tagC : Option Nat
deriving DecidableEq, Repr

/-- A reply slot reserved for an admitted command (R113): the command's sequence number, header and `DEV`, the tag counter it used, the position reports of a group or broadcast command (R160), whether its frame has returned (R159), the reply once it is there, whether the entry port produced that reply itself (R171), and whether it has been released. -/
structure Slot where
  seq : Nat
  hdr : BitVec 16
  dev : Nat
  tagC : Option Nat
  reports : List (Nat × Nat × Bool)
  returned : Bool
  reply : Option Reply
  ownReply : Bool
  released : Bool
deriving DecidableEq, Repr

/-- A reply kept for replay (R171): host, sequence number, the reply, and the check value it was released with. -/
structure Kept where
  host : Nat
  seq : Nat
  reply : Reply
  crc : Word
deriving DecidableEq, Repr

/-- The fixed severity of each event source (R796, R812). -/
def severity (src : Nat) : Nat :=
  (([0,1,2,0,0,1,2,1, 3,3,0,2,1,2,1,2] ++ [0,1,2,2,2,1,1,1, 1,0,1,1,1,1,0,1] ++
    [0,2,2,1,1,2,2,2, 0,2,2,2,2,0,1,1] ++ [0,1,2,1,1,2,2,1, 1,2,2,2,2,2,1,3] ++
    [1,2,2,0,2,2,2,1, 2,1,2,1,0,3,2,0]) ++
   ([2,2,2,2,1,1,0,1, 1,2,3,1,3,2,2,2] ++ [0,0,2,2,1,0,2,0, 3,2,1,0,2,0,2,1] ++
    [0,2,2,2,1,2,2,2, 1,2,3,1,0,2,1,1] ++ [0,1,0,2,3,3,3,2, 3,2,3,1,1,2,1,2] ++
    [2,1,1,2,2,2,2,3, 1,0,1,2,3,2,2,2])).getD src 0

/-- The factory values of `EVT_ROUTE` (R801): every source to `H0`, none to `H1`–`H3`, Lampblack for severity 1 to 3. -/
def factoryRoute : List (BitVec 5) :=
  (List.range 160).map fun i => if severity i = 0 then 0b00001 else 0b10001

/-- The factory safety parameter block (R671): the defaults of the mirror registers, position 0xFF, and every field the
rule lists. Byte 0x01 takes `TRIP` 1 from its mirror default and the shunt reads 0: DESIGN CHOICE where the rule gives no value. -/
def factoryBlock : List Byte :=
  [0x01, 0x04, 0xFF, 0x00, 0x9A, 0x10, 0xD0, 0x07, 0x00, 0x00, 0x00, 0x00, 0x00, 0x00, 0x00, 0x00, 0x00, 0x00, 0xE7, 0x03] ++
  (List.replicate 16 0 ++ [0x00, 0x00, 0x64, 0x00, 0xF4, 0x01, 0x32, 0x00, 0x32, 0x00, 0x00, 0x00]) ++
  ([0x00, 0x1E, 0x0F, 0x00, 0xE8, 0x03, 0xE8, 0x03] ++ (List.replicate 4 [0x2D, 0x32, 0x3C, 0x50]).flatten) ++
  ((List.replicate 8 [0x00, 0x00, 0x6B, 0x0D]).flatten ++ [0x32, 0x00, 0x90, 0x01, 0x32, 0x32, 0x14, 0x19, 0x00, 0x00, 0xA8, 0x00]) ++
  ((List.replicate 24 [0xFF, 0x00]).flatten ++ List.replicate 92 0)

/-- The reply store of one host port (R113, R155, R171). -/
structure PortBuf where
  /-- The reply slots in command order, at most 8 (R113). -/
  slots : List Slot := []
  /-- The status slot: how many earlier admitted commands it waits for, the item, and the check value it was stored with (R155, R213). -/
  status : Option (Nat × Reply × Word) := none
  /-- Items released to the port's output and not yet delivered, with whether each holds a reply slot (R155, R175). -/
  outq : List (Bool × Reply) := []
  /-- Hosts and sequence numbers of the last 64 admitted commands of each host, newest first (R171). -/
  admitted : List (Nat × Nat) := []
  /-- The last 8 replies of each host kept for replay, newest first (R171). -/
  kept : List Kept := []
deriving DecidableEq, Repr

/-- The two host ports (R148 to R204). -/
structure HostSt where
  /-- SPI port (R173). -/
  spi : PortBuf := {}
  /-- UART port (R177). -/
  uart : PortBuf := {}
  /-- `STAT.DROP`: the previous packet was discarded at step 1 (R174). -/
  drop : Bool := false
  /-- COBS frames sent or queued on `TXD`, oldest first (R902). -/
  txd : List (List Byte) := []
  /-- Bytes the last SPI transaction put on `SDO` (R173). -/
  sdo : List Byte := []
  /-- UART bytes received since the last delimiter (R177, R178). -/
  rx : List Byte := []
  /-- A framing error has struck the frame in progress (R178). -/
  rxBad : Bool := false
  /-- `HOST_STAT.BREAK_STUCK` (R178, R201). -/
  breakStuck : Bool := false
  /-- The rate code the UART works at (R902). -/
  baudInUse : Nat := 0
  /-- A new rate code waits to take effect (R902). -/
  baudPending : Bool := false
  /-- `HOST_ERRS.CRC_CNT` (R202). -/
  crcCnt : Nat := 0
  /-- `HOST_ERRS.LEN_CNT` (R202). -/
  lenCnt : Nat := 0
  /-- `HOST_ERRS.FRAME_CNT` (R202). -/
  frameCnt : Nat := 0
  /-- `HOST_ERRS.AUTH_CNT` (R202). -/
  authCnt : Nat := 0
  /-- `HOST_ERRS2.RUNT` (R202). -/
  runt : Nat := 0
  /-- `HOST_ERRS2.REJ_LOST` (R202). -/
  rejLost : Nat := 0
  /-- `HOST_ERRS2.LATE` (R202). -/
  late : Nat := 0
  /-- Local time of the last event 0x11 (at most one per second) (R812). -/
  lastBadEvt : Option Nat := none
  /-- Rejections since that event (R799). -/
  sinceBad : Nat := 0
  /-- `AUTH_FAIL` replies since the last event 0x12 (R799). -/
  sinceAuth : Nat := 0
  /-- Refusals since the last event 0x16 (R799). -/
  sinceCredit : Nat := 0
  /-- Local time of the last event 0x12 (R202). -/
  lastAuthEvt : Option Nat := none
  /-- Local time of the last event 0x16 (R812). -/
  lastCreditEvt : Option Nat := none
deriving DecidableEq, Repr

/-- A `QUEUED` command whose sequence number the member keeps (R164, R165): the host, the number, whether it still runs, its result while it is held, whether that was returned, and the port of the host it came from (0 SPI, 1 UART). -/
structure QRes where
  host : Fin 4
  seq : Nat
  running : Bool
  result : Option (List Byte)
  returned : Bool
  port : Nat
deriving DecidableEq, Repr

/-- Commands at their executing member (R114, R162 to R165, R180 to R182). -/
structure CmdSt where
  /-- Commands waiting for a RESPONSE buffer, oldest first (R114). -/
  waiting : List PCmd := []
  /-- Commands that belong to the current dispatch tick (R162). -/
  tick : List PCmd := []
  /-- Commands of a tick that a step of the counter has ended; they execute at the start of the next tick (R335). -/
  ended : List PCmd := []
  /-- A step has ended a tick, and the next one has not begun (R335). -/
  gap : Bool := false
  /-- Number of the tick in progress: multiples of 250 000 ns that the counter had passed at its start (R162, R344). -/
  tickNo : Nat := 0
  /-- Local time at which it began (R344). -/
  tickAt : Option Nat := none
  /-- Kept `QUEUED` commands, newest first, at most 16 per host (R164, R165). -/
  results : List QRes := []
  /-- Objects whose current state a SAFETY host set (codes: 0 to 2 outputs, 3 charge limit, 4 discharge limit, 5 to 20 balance channels, 21 power mode, 22 TE, 23 SE) (R182). -/
  safetyHeld : List Nat := []
deriving DecidableEq, Repr

/-- The pins that the chapters give a level the member drives or latches. -/
structure Pins where
  /-- `VDDIO` present; DESIGN CHOICE at reset (R85). -/
  vddio : Bool := true
  /-- `WAKE` level; DESIGN CHOICE at reset (R65). -/
  wake : Bool := false
  /-- `SEAL_N` level at Umber; internal pull-up (R56) (R701). -/
  sealN : Bool := true
  /-- `VSP` at or above 4.5 V; DESIGN CHOICE at reset (R581). -/
  vsp : Bool := true
deriving DecidableEq, Repr

/-- A message on the die (R104): its class, its flits and its bytes. More than 64 bytes stay in a shared buffer slot, which the one flit of the message names. -/
structure XMsg where
  cls : Nat
  flits : Nat
  bytes : List Byte
deriving DecidableEq, Repr

/-- An on-die crossing in use (R99, R105): sending and receiving island, the messages in its queue, and those that wait at the sender for room (R106), each oldest first. -/
structure Xing where
  src : Nat
  dst : Nat
  queue : List XMsg
  waits : List XMsg
deriving DecidableEq, Repr

/-- The arbiter at the outputs of the crossings to one island (R107): the consecutive picks that passed over BULK, for each class the island served last, and the messages of the last reading, as sending island and message. -/
structure XArb where
  dst : Nat
  passed : Nat
  last : List Nat
  read : List (Nat × XMsg)
deriving DecidableEq, Repr

/-- The SYS block: power, islands and fabric (R61 to R97, R98 to R147, R823 to R859). -/
structure SysSt where
  /-- The rails of R63 are up and the core has booted up to `READY` (R63). -/
  powered : Bool := false
  /-- `SYS_PWR_STAT.MODE` (R95). -/
  mode : Mode := .active
  /-- `SYS_PWR_STAT.READY` (R95). -/
  ready : Bool := false
  /-- `SYS_PWR_STAT.VSTK_LOW` (R95). -/
  vstkLow : Bool := false
  /-- `SYS_PWR_STAT.XTAL_OK` (R95). -/
  xtalOk : Bool := false
  /-- `SYS_PWR_STAT.ANCHOR`, latched at power-up; register reset from the pin: DESIGN CHOICE low (R95, R64). -/
  anchor : Bool := false
  /-- `SYS_PWR_STAT.REFUSE` (R95). -/
  refuse : Nat := 0
  /-- `VREG_FAULT` (R95). -/
  vregFault : Bool := false
  /-- `VDD33_FAULT` (R95). -/
  vdd33Fault : Bool := false
  /-- `VTREF_FAULT` (R95). -/
  vtrefFault : Bool := false
  /-- `SYS_WAKE_SRC` (R96). -/
  wakeSrc : BitVec 8 := 0
  /-- `SYS_SUPPLY.VSTK_10MV` (R97). -/
  vstk10mV : BitVec 16 := 0
  /-- `SYS_SUPPLY.VSP_MV` (R97). -/
  vspMV : BitVec 16 := 0
  /-- `SYS_ISL_FAULT.CLK_FAIL` (R145). -/
  clkFail : BitVec 25 := 0
  /-- `SYS_ISL_FAULT.MOSC_FAIL` (R145). -/
  moscFail : Bool := false
  /-- Islands that deviated in the last window (R102). -/
  clkSuspect : BitVec 25 := 0
  /-- The main oscillator deviated in the last window (R102). -/
  moscSuspect : Bool := false
  /-- `SYS_FAB_STALL.STALL` (R146). -/
  stall : BitVec 6 := 0
  /-- `NOCREDIT_CNT` (R146). -/
  nocreditCnt : Nat := 0
  /-- `ALARM_WAIT_MAX` (R146). -/
  alarmWaitMax : Nat := 0
  /-- Crossings that hold messages (R99). -/
  xings : List Xing := []
  /-- The arbiters that have picked (R107). -/
  xarbs : List XArb := []
  /-- Islands that failed the clock check and have not been counted right since (R101, R137). -/
  clkDown : BitVec 25 := 0
  /-- Accepted SENTINEL or SHIP request not yet in effect (R68). -/
  pendingMode : Option Mode := none
  /-- An accepted IDLE request that waits (R67). -/
  idleReq : Bool := false
  /-- A wake from SENTINEL is in progress (R65). -/
  waking : Bool := false
  /-- ALARM decided in SENTINEL, its actions deferred (R637). -/
  sentinelAlarm : Bool := false
  /-- The control core has stopped and not resumed (R46). -/
  coreStalled : Bool := false
  /-- A reset requested by `RESET_MEMBER` is due (R826). -/
  resetPending : Bool := false
  /-- `SYS_RST_CAUSE`: reset as after a power-on reset (R859). -/
  rstCause : BitVec 5 := 0b00001
  /-- `SYS_FW.BANK`: false A; NV, DESIGN CHOICE A (R859). -/
  bank : Bool := false
  /-- `SYS_FW.FALLBACK` (R859). -/
  fallback : Bool := false
  /-- `SYS_FW.RECOVERY` (R859). -/
  recovery : Bool := false
  /-- `SYS_FW_VER`: no value given, DESIGN CHOICE (R859). -/
  fwVer : Word := 0x00010000
  /-- `SYS_SERIAL`: factory value not given, DESIGN CHOICE 0 (R860). -/
  serial : BitVec 64 := 0
  /-- Fitted variant; DESIGN CHOICE NV16-M at reset (R2). -/
  variant : Variant := .m
  /-- `SYS_CFG_STAT.COUNT`; NV, DESIGN CHOICE 0 (R859). -/
  cfgCount : Nat := 0
  /-- `SYS_CFG_STAT.COPY`; NV, DESIGN CHOICE 0 (R859). -/
  cfgCopy : Bool := false
  /-- `SYS_CFG_STAT.ONE_BAD` (R859). -/
  cfgOneBad : Bool := false
deriving DecidableEq, Repr

/-- The stack-die firmware banks and update (R828, R843 to R847). -/
structure FwSt where
  /-- Bytes of bank A, unlisted bytes read 0 (DESIGN CHOICE) (R828). -/
  imgA : List Host.Cell := []
  /-- Bytes of bank B (R828). -/
  imgB : List Host.Cell := []
  /-- Bank A holds an image that was once activated; DESIGN CHOICE at reset (R828). -/
  everA : Bool := true
  /-- Bank B likewise; DESIGN CHOICE (R828). -/
  everB : Bool := false
  /-- Version of the image in bank A; DESIGN CHOICE (R843). -/
  verA : Word := 0x00010000
  /-- Version of the image in bank B; DESIGN CHOICE (R843). -/
  verB : Word := 0
  /-- CRC-32C of the image in bank A; DESIGN CHOICE (R799). -/
  crcA : Word := 0
  /-- CRC-32C of the image in bank B; DESIGN CHOICE (R799). -/
  crcB : Word := 0
  /-- `SYS_FW_RCVD`: bytes of the partial image received (R859). -/
  rcvd : Nat := 0
  /-- Declared length of the image being received (R844). -/
  declared : Option Nat := none
  /-- `SYS_FW.UPD_BUSY` (R859). -/
  busy : Bool := false
  /-- The next boot is a trial of the active bank (R846). -/
  trial : Bool := false
  /-- Activations whose checks run, oldest first: the CRC parameter, the host and sequence (R845). -/
  checking : List (Word × Fin 4 × Nat) := []
  /-- A restart on the new bank is due (R845). -/
  restartDue : Bool := false
deriving DecidableEq, Repr

/-- The RW registers whose stored bits are their whole meaning, each as the 32-bit word software reads. NV resets are the factory values of the register tables (R833). -/
structure Regs where
  /-- `SYS_PWR_CTRL` RW bits: IDLE_AUTO 1, IDLE_DELAY 20, SNTL_PERIOD 10, SNTL_SPORT 1 (R94). -/
  pwrCtrl : Word := 0x004A1404
  /-- `SYS_FAB_CFG` (R147). -/
  fabCfg : Word := 15
  /-- `HOST_CFG`: BAUD 0, SPI_EN 1, UART_EN 1, RTO 10 (R200). -/
  hostCfg : Word := 0x00000A30
  /-- `CHAIN_CFG`: GROUP 0, HB_EN 1, RTX 20, RTX_MAX 8 (R304). -/
  chainCfg : Word := 0x00081402
  /-- `TIME_CFG`: SYNC_EN 1, STEP_THR 100, SLEW_MAX 200 (R348). -/
  timeCfg : Word := 0x00C86401
  /-- `CELL_CFG`: RATE 5, USED 0xFFFF, LIM_DEB 4 (R399). -/
  cellCfg : Word := 0x004FFFF5
  /-- `CELL_OW_CFG`: PERIOD 60, OW_THR 30 (R399). -/
  owCfg : Word := 0x00001E3C
  /-- `CELL_RB_CFG` (R399). -/
  cellRbCfg : Word := 0x00400000
  /-- `AUX_CFG` (R400). -/
  auxCfg : Word := 0xFF
  /-- `AUX_RB_CFG` (R400). -/
  auxRbCfg : Word := 0x00400000
  /-- `BAL_CFG`: MODE 0, INS_EN 1, TIMEOUT 60, DIAG_AGE 2, FET_DV 3, LOADCHK 60 (R435). -/
  balCfg : Word := 0x3C323C02
  /-- `INDIGO_CFG` (R485). -/
  indigoCfg : Word := 0x00004000
  /-- `INDIGO_WIN` (R485). -/
  indigoWin : Word := 0
  /-- `INDIGO_PAGE` (R485). -/
  indigoPage : Word := 0
  /-- `INDIGO_RES` (R485). -/
  indigoRes : Word := 0
  /-- `INDIGO_CTX_TE` (R485). -/
  ctxTe : Word := 0x0000BEC0
  /-- `INDIGO_CTX_SE` (R485). -/
  ctxSe : Word := 0x0000DF60
  /-- `INDIGO_TE_TRIG` (R486). -/
  trigTe : Word := 0x00010000
  /-- `INDIGO_SE_TRIG` (R486). -/
  trigSe : Word := 0x00010000
  /-- `SWP_CFG` (R556). -/
  swpCfg : Word := 0x00001414
  /-- `SWP_STATE` (R556). -/
  swpState : Word := 0x02584800
  /-- `SP_1_CFG`: MODE 0, PAUSE_OK 1, NIB 6, TICK 30, STALE_MS 10 (R603). -/
  sp1Cfg : Word := 0x00281E64
  /-- `SP_2_CFG` (R603). -/
  sp2Cfg : Word := 0x00281E64
  /-- `CHK_ALV_CFG` (R240). -/
  alvCfg : Word := 2
  /-- `EVT_CFG` (R822). -/
  evtCfg : Word := 1
  /-- `EVT_RSEL` (R822). -/
  evtRsel : Word := 0
deriving DecidableEq, Repr

/-- The configuration region (R832): what it holds survives every reset. -/
structure NvSt where
  /-- Committed configuration image; empty means no entry (DESIGN CHOICE: none committed) (R833). -/
  cfgImage : List Byte := []
  /-- The image in the copy that is not in force (R835). -/
  cfgOld : List Byte := []
  /-- Working copy of the image, 2048 bytes, unlisted bytes read 0 (DESIGN CHOICE) (R834). -/
  cfgWork : List Host.Cell := []
  /-- Commits whose checks run, oldest first (R834). -/
  cfgChecking : List (Word × Fin 4 × Nat) := []
  /-- `HOST_BIND_h`; NV: factory state, none committed (R167) (R203). -/
  bindings : List (Option Binding) := [none, none, none, none]
  /-- Host keys; none stored (R837). -/
  keys : List (List Byte) := [[], [], [], []]
  /-- `HOST_TAGCNT_h`, the tag counters C in use; NV, DESIGN CHOICE 0 (R204). -/
  tagC : List Nat := [0, 0, 0, 0]
  /-- The stored tag counters; DESIGN CHOICE 0 (R170). -/
  tagStored : List Nat := [0, 0, 0, 0]
  /-- Accepted tags since the last write of C (R170). -/
  tagSince : List Nat := [0, 0, 0, 0]
  /-- Software identification stored at activation (Umber's memory); DESIGN CHOICE 0 (R724). -/
  swid : Word := 0
  /-- `UMB_CUR_h` (R722, R747). -/
  cursor : List Nat := [0, 0, 0, 0]
  /-- Operating minute of the last proof start (R621). -/
  proofStart : Option Nat := none
deriving DecidableEq, Repr

/-- An event entry (R796, R798): source, origin position, severity, sequence number, time stamp, `LOST`, and the 12 detail bytes of R799. -/
structure Entry where
  src : Nat
  pos : Nat
  sev : Nat
  seq : Nat
  stamp : Nat
  lost : Bool
  detail : List Byte
deriving DecidableEq, Repr

/-- A held ALARM frame (R118, R263): its source and sequence, the frame, whether a copy has returned, and when it was last sent on the north and the south port. -/
structure Held where
  src : Nat
  seq : Nat
  frame : Frame
  returned : Bool
  lastN : Option Nat
  lastS : Option Nat
deriving DecidableEq, Repr

/-- The event block (R796 to R822). -/
structure EvtSt where
  /-- `EVT_SEQ`: the next sequence number of each source (VAO) (R797, R822). -/
  seqs : List Nat := List.replicate 160 0
  /-- `EVT_ROUTE` of each source: bits [3:0] hosts, bit 4 Lampblack (R801, R822). -/
  route : List (BitVec 5) := factoryRoute
  /-- `EVT_MASK_h_i` (R805, R822). -/
  masks : List (BitVec 160) := List.replicate 4 (BitVec.allOnes 160)
  /-- Event stores of the hosts bound to this member, oldest first (R806). -/
  stores : List (List Entry) := [[], [], [], []]
  /-- `EVT_LOSS` (R807, R822). -/
  loss : List Nat := [0, 0, 0, 0]
  /-- Outbound queues by destination position, oldest entry first (R804). -/
  outq : List (Nat × List Entry) := []
  /-- `EVT_OQLOSS` (R804, R822). -/
  oqLoss : Nat := 0
  /-- Local time of the last event 0x18 (R807). -/
  last18 : Option Nat := none
  /-- Discards since that event (R799). -/
  since18 : Nat := 0
  /-- Local time of the last event 0x1F (R804). -/
  last1F : Option Nat := none
  /-- The cycle of `raised`: a step of the local clock (R816). -/
  raisedAt : Nat := 0
  /-- Source and sequence number of the events raised in that cycle (R816). -/
  raised : List (Nat × Nat) := []
  /-- Discards since that event (R799). -/
  since1F : Nat := 0
  /-- Alarm hold store, at most 8, oldest first (R118). -/
  hold : List Held := []
deriving DecidableEq, Repr

/-- A stream this member originates (R256): destination (255 for a multi stream), class, twin; the next counter; whether its next frame carries FIRST (R259); the unacknowledged frames, oldest first, of which the first `sent` have been sent (R261); rounds without progress (R262); for a multi stream the ports its copies left by (1 north, 2 south), the counters whose copy has come back, and the last counter acknowledged from each leg (R261). -/
structure TxStream where
  dest : Nat
  multi : Bool
  cls : Nat
  twin : Bool
  next : Nat
  firstDue : Bool
  unacked : List Frame
  sent : Nat
  rounds : Nat
  legs : Nat
  back : List Nat
  ackN : Option Nat
  ackS : Option Nat
deriving DecidableEq, Repr

/-- A stream this member receives (R258): origin, multi, class, twin; the next counter expected; the last 64 accepted counters; whether a gap is open and when its last NAK left; accepted frames not yet acknowledged (R260). -/
structure RxStream where
  orig : Nat
  multi : Bool
  cls : Nat
  twin : Bool
  next : Nat
  recent : List Nat
  gap : Bool
  lastNak : Option Nat
  unackedRx : Nat
deriving DecidableEq, Repr

/-- A frame in a transmit queue (R107, R110): the frame, whether it is transit, the port in whose receive buffer it holds blocks, and for a forwarded beacon or an answer the start-delimiter instant of what came in, on the local clock in 1/16 ns (R323 to R325). -/
structure TxItem where
  frame : Frame
  transit : Bool
  holds : Option Side
  came : Option Int
deriving DecidableEq, Repr

/-- One chain port (R241 to R310). -/
structure ChPort where
  /-- `STATE` (R306). -/
  st : PState := .linkDead
  /-- `TEC` (R306). -/
  tec : Nat := 0
  /-- `REC` (R306). -/
  recErr : Nat := 0
  /-- Local times of the entries to `PORT_OFF` in the last hour (`OFF_CNT`) (R306, R272). -/
  offTimes : List Nat := []
  /-- Reserved blocks the peer advertised (R109). -/
  advRes : List Nat := [0, 0, 0, 0, 0, 0]
  /-- `ADV_SHARED` (R306). -/
  advShared : Nat := 0
  /-- Blocks sent per class, modulo 256 (R110). -/
  sent : List Nat := [0, 0, 0, 0, 0, 0]
  /-- Freed counts the peer returned (R110). -/
  peerFreed : List Nat := [0, 0, 0, 0, 0, 0]
  /-- Blocks this receiver has freed, modulo 256 (R110). -/
  freed : List Nat := [0, 0, 0, 0, 0, 0]
  /-- Blocks held in this receiver (R108). -/
  rxUsed : List Nat := [0, 0, 0, 0, 0, 0]
  /-- Frames received with errors, modulo 256 (R244). -/
  rxBad : Nat := 0
  /-- The peer's last `RXBAD` (R271). -/
  peerBad : Nat := 0
  /-- Frames of classes 0 to 5 and beacons waiting, oldest first (R107). -/
  txq : List TxItem := []
  /-- Link frames waiting, at most 4 (R308). -/
  linkq : List Frame := []
  /-- The last frame that started on the line, with what it holds until its end (R248). -/
  line : Option TxItem := none
  /-- The bytes of it that the port sent, from the start delimiter on (R243, R254). -/
  wire : List Byte := []
  /-- They were ended with AB (R254). -/
  aborted : Bool := false
  /-- Local time at which the last frame or tone on the hop ends; none before any since power-up (R248, R249). -/
  lineEnd : Option Nat := none
  /-- This end sent it (R248). -/
  sentLast : Bool := false
  /-- Class and blocks of the frames sent whose credit has not returned, oldest first (R271). -/
  outst : List (Nat × Nat) := []
  /-- The credits of classes 1 to 5 are written off until new figures come (R138). -/
  wroteOff : Bool := false
  /-- Local time of the last held ALARM frame while the port is off (R263). -/
  offTurnAt : Option Nat := none
  /-- Consecutive picks that passed over a ready BULK frame (R107). -/
  passed : Nat := 0
  /-- A `LINK_UP` was sent since the previous one received (R273). -/
  upSent : Bool := false
  /-- A receive error happened since the last `LINK_UP` of this port (R273). -/
  upErr : Bool := false
  /-- Which held ALARM frame is next in turn while the port is off (R263). -/
  turn : Nat := 0
  /-- Consecutive error-free exchanges while `PORT_OFF` (R273). -/
  exchanges : Nat := 0
  /-- No carrier for 2 ms: the end may start at any time (R249). -/
  anyTime : Bool := false
  /-- Wake tones sent on this port (R281). -/
  tones : Nat := 0
  /-- A frame was received since the first tone (R281). -/
  gotFrame : Bool := false
  /-- `CRC_CNT` (R307). -/
  crcCnt : Nat := 0
  /-- `CODE_CNT` (R307). -/
  codeCnt : Nat := 0
  /-- `LEN_CNT` (R307). -/
  lenCnt : Nat := 0
  /-- `NOCRED_CNT` (R307). -/
  nocredCnt : Nat := 0
  /-- Local time at which the port became `ACTIVE` after a dead or off state (R275). -/
  healDue : Option Nat := none
deriving DecidableEq, Repr

/-- The chain (R241 to R311) and the heartbeat loop. -/
structure ChainSt where
  /-- North port (R306). -/
  north : ChPort := {}
  /-- South port (R306). -/
  south : ChPort := {}
  /-- `POS` (R305). -/
  pos : Nat := 0
  /-- `ADDR` (R305, R903). -/
  addr : Bool := false
  /-- `ENUM_BUSY` (R305). -/
  enumBusy : Bool := false
  /-- `N` (R305). -/
  n : Nat := 0
  /-- `RING` (R305). -/
  ring : Ring := .notEnumerated
  /-- `CHAIN_DEAD_LO/HI` (R310). -/
  dead : BitVec 64 := 0
  /-- `CONFLICT` (R305). -/
  conflict : Bool := false
  /-- `OVERFLOW` (R305). -/
  overflow : Bool := false
  /-- `POS_CHANGED` (R305). -/
  posChanged : Bool := false
  /-- Hop N − 1 has been up since enumeration (R279). -/
  topUp : Bool := false
  /-- The last enumeration found a second anchor or a 65th member (R279). -/
  forcedOpen : Bool := false
  /-- The enumeration under way has found one (R279). -/
  enumFlag : Bool := false
  /-- The wake tone that woke the member was recognised on the south port (R281, R311). -/
  toneSouth : Bool := false
  /-- This member has answered an `ENUM` as a second anchor (R296). -/
  second : Bool := false
  /-- Attempts of the running enumeration (R906). -/
  enumTries : Nat := 0
  /-- Host and sequence of the running `ENUMERATE` (R266). -/
  enumBy : Option (Fin 4 × Nat) := none
  /-- Position of the previous enumeration (R298). -/
  prevPos : Option Nat := none
  /-- An `ENUM` held until `READY`: its next position (R830). -/
  enumHeld : Option Nat := none
  /-- `ENUM` passed northward, no link reached yet (R267). -/
  enumWaitTop : Bool := false
  /-- Streams originated (R256). -/
  tx : List TxStream := []
  /-- Streams received (R258). -/
  rx : List RxStream := []
  /-- `RTX_CNT` (R308). -/
  rtxCnt : Nat := 0
  /-- `NAK_CNT` (R308). -/
  nakCnt : Nat := 0
  /-- `VOID_CNT` (R308). -/
  voidCnt : Nat := 0
  /-- `LINKDROP` (R308). -/
  linkDrop : Nat := 0
  /-- `IN_STATE` (R309). -/
  hbIn : HbIn := .lost
  /-- A state has been decided since decoding started (R283). -/
  hbDecided : Bool := false
  /-- The last complete words received, newest first, at most 128; none for one with wrong parity (R283). -/
  hbWords : List (Option (Nat × Nat)) := []
  /-- The classes of the last 16 periods of `HB_IN`, newest first: 1 for 25 %, 2 for 50 %, 3 for 75 % duty (R282, R896). -/
  hbDuty : List Nat := []
  /-- Distinct decoded incoming words, in order of first receipt (R284). -/
  hbPass : List (Nat × Nat) := []
  /-- `WORD_POS` (R309). -/
  hbWordPos : Nat := 0
  /-- `WORD_CODE` (R309). -/
  hbWordCode : Nat := 0
deriving DecidableEq, Repr

/-- The measured delay of one hop (R324). -/
structure Hop where
  /-- `DLY` in 1/16 ns (R348). -/
  delay : Nat := 0
  /-- `UNUSABLE` (R348). -/
  unusable : Bool := false
  /-- Last valid results, newest first, at most 16 (R324). -/
  valid : List Nat := []
  /-- Discarded results in a row (R324). -/
  bad : Nat := 0
  /-- Request number of the request in flight (R322). -/
  reqNum : Nat := 0
  /-- Its departure on the local clock, in 1/16 ns, once it has left (R324). -/
  t1 : Option Int := none
deriving DecidableEq, Repr

/-- The time counter and its discipline (R312 to R349). -/
structure TimeSt where
  /-- Seconds; no reset value given beyond `UNSET`: DESIGN CHOICE 0 (R312). -/
  sec : BitVec 48 := 0
  /-- Nanoseconds, `TIME_NS` (R312, R348). -/
  ns : Nat := 0
  /-- Fraction of a nanosecond gained by the frequency correction, in 10^-8 ns (R329). -/
  frac : Int := 0
  /-- `STATE` (R313, R348). -/
  st : TimeState := .unset
  /-- `ANCHOR_STATE` (R313, R348). -/
  anchorSt : TimeState := .unset
  /-- `SET_EXPIRED` (R348). -/
  setExpired : Bool := false
  /-- The states entered lately with their local times, newest first (R345, R353). -/
  stHist : List (Nat × TimeState) := []
  /-- `HOLD_LIMIT` (R348). -/
  holdLimit : Bool := false
  /-- `EPOCH` (R348). -/
  epoch : Nat := 0
  /-- `SYNC_BAD` (R348). -/
  syncBad : Nat := 0
  /-- `SRC_PORT` (R348). -/
  srcNorth : Bool := false
  /-- `TIME_SEC_LO` latch (R348). -/
  latLo : Word := 0
  /-- `TIME_SEC_HI` latch (R348). -/
  latHi : Word := 0
  /-- `TIME_OFFSET` in 1/16 ns (R348). -/
  offset : Int := 0
  /-- `TIME_FREQ` in 0.001 ppm (R348). -/
  freq : Int := 0
  /-- The integral term of the servo, in 0.001 ppm (R329, R346). -/
  integ : Int := 0
  /-- North hop (R348). -/
  hopN : Hop := {}
  /-- South hop (R348). -/
  hopS : Hop := {}
  /-- Armed `TIME_SET` value (R316). -/
  armed : Option (Nat × Nat) := none
  /-- The value was armed in the present dispatch tick (R342). -/
  armedThisTick : Bool := false
  /-- Local time of the last accepted `SYNC_IN` edge (R318). -/
  lastEdge : Option Nat := none
  /-- No edge accepted since the last `TIME_SET` (R318). -/
  firstEdge : Bool := false
  /-- Consecutive offsets within the lock limit (R320, R328). -/
  inLock : Nat := 0
  /-- Consecutive offsets beyond the unlock limit (R320, R328). -/
  outLock : Nat := 0
  /-- Number of the next beacon the anchor sends (R322). -/
  beaconNum : Nat := 0
  /-- Local time of the last usable beacon (R328, R349). -/
  lastBeacon : Option Nat := none
  /-- Number, port and hops of the last beacon taken (R326). -/
  lastHops : Option (Nat × Bool × Nat) := none
deriving DecidableEq, Repr

/-- The two decimation filters of a channel (R351). -/
inductive Filter where
  | main | limit
deriving DecidableEq, Repr

/-- One open host stream (R374 to R378). -/
structure StreamSt where
  /-- Stream code (R374). -/
  code : Nat := 0
  /-- Host that opened it (R374). -/
  host : Nat := 0
  /-- Every m-th main sample (R375). -/
  m : Nat := 1
  /-- Samples since the last delivered (R375). -/
  cnt : Nat := 0
  /-- Granted slots (R115). -/
  slots : Nat := 0
  /-- Entries of the frame being filled (R378). -/
  buf : List (List Byte) := []
  /-- Sample number (R378). -/
  snum : Nat := 0
  /-- A frame was delivered since the last loss (R378). -/
  fresh : Bool := false
deriving DecidableEq, Repr

/-- One scratchpad ring (R376, R377, R399, R400). -/
structure RingSt where
  /-- `RB_STAT.ACTIVE` (R399). -/
  isOpen : Bool := false
  /-- `WP` (R399). -/
  wp : Nat := 0
  /-- `RP` (R399). -/
  rp : Nat := 0
  /-- `OVF` (R399). -/
  ovf : Nat := 0
  /-- Next sample number (R376). -/
  snum : Nat := 0
  /-- An entry was written since the last loss (R377). -/
  fresh : Bool := false
deriving DecidableEq, Repr

/-- A running open-wire test (R363): the phase (0 odd pins, 1 even pins, 2 settling), the phase's remaining limit samples, the reference samples, the pins whose clamp tripped (R391), those compared so far and those of them that failed. -/
structure Owt where
  phase : Nat
  left : Nat
  refs : List Int
  clamped : BitVec 17
  judged : BitVec 17
  fails : BitVec 17
deriving DecidableEq, Repr

/-- Cell, AUX and current measurement (R350 to R401). -/
structure CellSt where
  /-- Current cell codes (R399). -/
  value : List Int := List.replicate 16 0
  /-- Current cell flags (R353). -/
  flags : List (BitVec 8) := List.replicate 16 0
  /-- `CELL_DATA_k.VALUE` latch (R399). -/
  latVal : List (BitVec 24) := List.replicate 16 0
  /-- `CELL_DATA_k.FLAGS` latch (R399). -/
  latFlags : List (BitVec 8) := List.replicate 16 0
  /-- Nanoseconds of the current set's attributed instant (R399). -/
  instant : Nat := 0
  /-- `CELL_SNUM` latch (R399). -/
  snum : Nat := 0
  /-- Main filter: saturated samples still due (3 to 0) and whether under range (R356). -/
  mainRec : List (Nat × Bool) := List.replicate 16 (0, false)
  /-- Limit filter: the same (R356). -/
  limRec : List (Nat × Bool) := List.replicate 16 (0, false)
  /-- Main filter: samples that still carry SUSPECT after pin k's clamp released (R358). -/
  mainSus : List Nat := List.replicate 17 0
  /-- Limit filter: the same (R358). -/
  limSus : List Nat := List.replicate 17 0
  /-- Pins that clamped during the present main sample period (R357). -/
  mainClampSeen : BitVec 17 := 0
  /-- The same for the limit filter (R357). -/
  limClampSeen : BitVec 17 := 0
  /-- Cells with an ended pulse during the present main sample period (R353). -/
  mainBal : BitVec 16 := 0
  /-- The same for the limit filter (R353). -/
  limBal : BitVec 16 := 0
  /-- Local time of the last main sample (R353). -/
  mainAt : Nat := 0
  /-- Local time of the last limit sample (R353). -/
  limAt : Nat := 0
  /-- Local times of the last 4 ms at which main samples carried a flag, with the cells, newest first (R546). -/
  flagTimes : List (Nat × BitVec 16) := []
  /-- Main samples still to be discarded (R351). -/
  mainSkip : Nat := 3
  /-- Limit samples still to be discarded (R351). -/
  limSkip : Nat := 3
  /-- How many main samples complete up to the first one begun on the grid after a step, which carries TSTEP: 2 from the step on, 0 otherwise (R335). -/
  tstep : Nat := 0
  /-- How many limit samples complete up to the first one begun on the grid after a step, which carries TSTEP: 2 from the step on, 0 otherwise (R335). -/
  tstepLim : Nat := 0
  /-- How many AUX samples complete up to the first one begun on the grid after a step, which carries TSTEP: 2 from the step on, 0 otherwise (R335). -/
  tstepAux : Nat := 0
  /-- How many current samples complete up to the first one begun on the grid after a step, which carries TSTEP: 2 from the step on, 0 otherwise (R335). -/
  tstepCur : Nat := 0
  /-- Used cells in OVR at the last main sample (R401). -/
  ovrNow : BitVec 16 := 0
  /-- Used cells in UND at the last main sample (R401). -/
  undNow : BitVec 16 := 0
  /-- Last limit sample values (R360). -/
  limVal : List Int := List.replicate 16 0
  /-- Last limit sample flags (R360). -/
  limFlags : List (BitVec 8) := List.replicate 16 0
  /-- `CELL_LIMRES` (R399). -/
  limRes : List LimRes := List.replicate 16 .inLimits
  /-- Class and count of the running debounce (R361). -/
  deb : List (LimRes × Nat) := List.replicate 16 (.inLimits, 0)
  /-- `CELL_CLAMP` (R399). -/
  clamp : BitVec 17 := 0
  /-- `CELL_CLAMP_LAT` (R399). -/
  clampLat : BitVec 17 := 0
  /-- `CELL_OPEN` (R399). -/
  openPins : BitVec 17 := 0
  /-- Consecutive passed tests of each open pin (R365). -/
  owPass : List Nat := List.replicate 17 0
  /-- Running open-wire test (`OW_BUSY`) (R363, R399). -/
  ow : Option Owt := none
  /-- A test is deferred (R390, R412). -/
  owDeferred : Bool := false
  /-- `SUM_ERR` (R399). -/
  sumErr : Bool := false
  /-- Consecutive failed checks (R366). -/
  sumBad : Nat := 0
  /-- Consecutive passed checks while failing (R366). -/
  sumGood : Nat := 0
  /-- Modulators found stuck: bit k − 1 of `CELL_k`, bit 16 of the safety current channel (R401). -/
  stuck : BitVec 17 := 0
  /-- Current AUX codes (R400). -/
  aux : List (BitVec 16) := List.replicate 8 0
  /-- Current AUX flags (R368). -/
  auxFlags : List (BitVec 8) := List.replicate 8 0
  /-- `AUX_DATA_k.CODE` latch (R400). -/
  auxLat : List (BitVec 16) := List.replicate 8 0
  /-- `AUX_DATA_k.FLAGS` latch (R400). -/
  auxLatFlags : List (BitVec 8) := List.replicate 8 0
  /-- AUX results carry `VTREF_BAD` (R369). -/
  vtrefBad : Bool := false
  /-- Local time at which `VTREF` came back within limits (R369). -/
  vtrefOkAt : Option Nat := none
  /-- `ISNS_DATA` (R399). -/
  isnsMa : Int := 0
  /-- Current flags of the result (R371). -/
  isnsFlags : BitVec 8 := 0
  /-- `ISNS_FLAGS` latch (R399). -/
  isnsFlagsLat : BitVec 8 := 0
  /-- `ISNS_LOCAL` (R399). -/
  isnsLocal : Int := 0
  /-- Flags of the local channel (R371). -/
  localFlags : BitVec 8 := 0
  /-- Recovery of the current channel (R356) (R370). -/
  isnsRec : Nat × Bool := (0, false)
  /-- The last results, newest first, at most 10 (R373). -/
  curHist : List (Int × BitVec 8) := []
  /-- Their attributed instants on the local clock (R376). -/
  curAt : List Nat := []
  /-- Value and flags last published by `SRC_POS` (R372). -/
  remote : Int × BitVec 8 := (0, 0)
  /-- No valid publication has been accepted for 30 ms (R372). -/
  remoteStale : Bool := false
  /-- Cell ring (R376). -/
  cellRing : RingSt := {}
  /-- AUX ring (R376). -/
  auxRing : RingSt := {}
  /-- Open host streams (R374). -/
  streams : List StreamSt := []
  /-- `CELL_HS_LOSS` (R399). -/
  hsLoss : Nat := 0
  /-- Ring entries since the last TE and SE trigger (R461). -/
  trigCount : Nat × Nat := (0, 0)
deriving DecidableEq, Repr

/-- A stimulus (R419, R420): mask, waveform, duration in 10 s, frequency in mHz, bias and amplitude in mA, whether it runs yet, whether a sweep started it, its t0 as nanoseconds of the counter, the local time from which its sinks are on (R404), and that at which the pass of a sweep ends (R533, R534). -/
structure Stim where
  mask : BitVec 16
  wave : Nat
  dur : Nat
  freq : Nat
  bias : Nat
  amp : Nat
  running : Bool
  sweep : Bool
  t0 : Nat
  onAt : Nat
  offAt : Option Nat
deriving DecidableEq, Repr

/-- Balancing and stimulus (R402 to R436). -/
structure BalSt where
  /-- `BAL_ONT_k.ON_T` in 2 µs (R435). -/
  onT : List Nat := List.replicate 16 0
  /-- `BAL_STAT.THROTTLE` (R435). -/
  s : Nat := 0
  /-- Throttle step in force since the last period began (R430). -/
  sApplied : Nat := 0
  /-- `BAL_DIAG_LO/HI` (R435). -/
  diag : List Diag := List.replicate 16 .untested
  /-- Consecutive failed open or load tests (R416). -/
  openFails : List Nat := List.replicate 16 0
  /-- Consecutive passed tests (R416). -/
  passes : List Nat := List.replicate 16 0
  /-- Consecutive pulses ended at the limit (R413). -/
  limPulses : List Nat := List.replicate 16 0
  /-- Consecutive failed short tests (R414). -/
  shortFails : List Nat := List.replicate 16 0
  /-- Consecutive failed gate tests (R416). -/
  gateFails : List Nat := List.replicate 16 0
  /-- Local time of the last passed load test (R416). -/
  loadOk : List (Option Nat) := List.replicate 16 none
  /-- On-time still to be paid back, in 2 µs (R417). -/
  debt : List Nat := List.replicate 16 0
  /-- Accumulated on-time up to `accAt`, in steps of 10 ns (`BAL_ACC_k` shows ms) (R410). -/
  acc : List Nat := List.replicate 16 0
  /-- Local time up to which it is accumulated (R410). -/
  accAt : Nat := 0
  /-- A balance period is in progress (R406). -/
  inPeriod : Bool := false
  /-- Channels on during the present balance period (R414). -/
  busy : BitVec 16 := 0
  /-- On-time of the present period's pulse of each channel, in 2 µs (R413, R415). -/
  pulsed : List Nat := List.replicate 16 0
  /-- Local time of the last passed test (R418). -/
  passAt : List Nat := List.replicate 16 0
  /-- Channels held for UV, INVALID or an open pin (R411). -/
  heldCells : BitVec 16 := 0
  /-- Periods of the load-check pulse still to come (R415, R429). -/
  loadLeft : Nat := 0
  /-- The stimulus set or running (R419, R435). -/
  stim : Option Stim := none
  /-- `CLIP` (R435). -/
  clip : Bool := false
  /-- Clipped during the present sweep pass (R536). -/
  clipPass : Bool := false
  /-- `STOP_CAUSE` (R435). -/
  stopCause : Nat := 0
  /-- `BAL_STIM_CFG.WAVE` (R435). -/
  stimW : Nat := 0
  /-- `BAL_STIM_CFG.DUR` (R435). -/
  stimDur : Nat := 0
  /-- `BAL_STIM_F` (R435). -/
  stimF : Nat := 0
  /-- `BAL_STIM_I.BIAS` (R435). -/
  stimBias : Nat := 0
  /-- `BAL_STIM_I.AMP` (R435). -/
  stimAmp : Nat := 0
  /-- Local times at which each channel's last pulse begins and ends (R353, R406). -/
  pulses : List (Nat × Nat) := List.replicate 16 (0, 0)
deriving DecidableEq, Repr

/-- A tile register in use (R441): type code, rows, columns, and its elements as codes, row by row. -/
structure Tile where
  ty : Nat
  rows : Nat
  cols : Nat
  elems : List Nat
deriving DecidableEq, Repr

/-- An active hardware loop (R502): count left, start and end index. -/
structure Loop where
  count : Nat
  first : Nat
  last : Nat
deriving DecidableEq, Repr

/-- One engine of Indigo (R437 to R487). -/
structure Eng where
  /-- `STATE` (R486). -/
  st : EState := .idle
  /-- `TERM` (R486). -/
  term : Term := .none
  /-- `SLOT` (R486). -/
  slot : Nat := 0
  /-- `FAULT.CODE` (R486). -/
  faultCode : Nat := 0
  /-- `FAULT.INDEX` (R486). -/
  faultIdx : Nat := 0
  /-- `FAULT.DETAIL`, before it is cut to 16 bits (R486). -/
  faultDetail : Nat := 0
  /-- `RESULT` (R486). -/
  result : Word := 0
  /-- `IDENT` (R486). -/
  ident : Word := 0
  /-- Scalar file `A0`–`A15` (R437). -/
  a : List Word := List.replicate 16 0
  /-- `LC0` (R437). -/
  lc0 : Option Loop := none
  /-- `LC1` (R437). -/
  lc1 : Option Loop := none
  /-- Sticky flags (R493). -/
  status : BitVec 4 := 0
  /-- Word index of the next instruction (R464). -/
  pc : Nat := 0
  /-- Watchdog count (R465). -/
  cycles : Nat := 0
  /-- Tile registers of the TE; none: not in use (R437, R447). -/
  tiles : List (Option Tile) := List.replicate 16 none
  /-- Spectral registers of the SE, each element as its 32-bit word; none: not in use (R446, R447). -/
  spec : List (Option (List Nat)) := List.replicate 8 none
  /-- Operand cache, most recently used first (R445). -/
  cache : List Nat := []
  /-- Code words in program memory (R437). -/
  prog : List Word := []
  /-- The committed slot they came from, unchanged since (R460). -/
  progSlot : Option Nat := none
  /-- Budget in cycles (R465). -/
  budget : Nat := 0
  /-- Page attributes in force since the last launch or resume (R481). -/
  page : Word := 0
  /-- Trigger count (R461). -/
  trigN : Nat := 0
  /-- `A0`–`A3` of the launch being copied (R460). -/
  pendingArgs : List Word := []
  /-- The copy serves a resume (R469). -/
  pendingResume : Bool := false
  /-- Local time at which the last context save ends (R479). -/
  saveEnd : Nat := 0
  /-- Entry word of the launch being copied (R457). -/
  entryIdx : Nat := 0
  /-- Slots loaded since the save (R469). -/
  loaded : BitVec 8 := 0
deriving DecidableEq, Repr

/-- A launch deferred by the memory self-test (R472): engine, slot, arguments, and the command that asked for it; a trigger otherwise. -/
structure Defer where
  se : Bool
  slot : Nat
  args : List Word
  asked : Option (Fin 4 × Nat)
deriving DecidableEq, Repr

/-- Indigo (R437 to R526). -/
structure IndigoSt where
  /-- Tile engine (R437). -/
  te : Eng := {}
  /-- Spectral engine (R437). -/
  se : Eng := {}
  /-- 64 KiB scratchpad, unlisted bytes read 0 (R470; DESIGN CHOICE at reset) (R450). -/
  pad : List Host.Cell := []
  /-- 64 KiB kernel store, slot s at 8192 × s, unlisted bytes read 0 (DESIGN CHOICE) (R456). -/
  store : List Host.Cell := []
  /-- `INDIGO_SLOTS.VALID`; NV, DESIGN CHOICE none committed (R485). -/
  valid : BitVec 8 := 0
  /-- `INDIGO_SLOTS.DIRTY`; NV, DESIGN CHOICE 0 (R485). -/
  dirty : BitVec 8 := 0
  /-- TE-to-SE queue: type, rows, columns, codes (R448). -/
  ts : List (Nat × Nat × Nat × List Nat) := []
  /-- SE-to-TE queue: spectral words (R448). -/
  st : List (List Nat) := []
  /-- `ECC_CORR` (R485). -/
  eccCorr : Nat := 0
  /-- `TRIG_MISS` (R485). -/
  trigMiss : Nat := 0
  /-- `XFER_DROP` (R485). -/
  xferDrop : Nat := 0
  /-- Memory self-test in progress (R472). -/
  selfTest : Bool := false
  /-- Launches deferred to the end of the self-test, at most one per engine (R472). -/
  defer : List Defer := []
  /-- The hardware shutdown is in force (R471). -/
  off : Bool := false
deriving DecidableEq, Repr

/-- Impedance sweep and state service (R527 to R556). -/
structure SweepSt where
  /-- `STATE` (R556). -/
  st : SwpSt := .idle
  /-- `POINT` (R556). -/
  point : Nat := 0
  /-- `PASS` (R556). -/
  passB : Bool := false
  /-- `END` (R556). -/
  cause : Nat := 0
  /-- Sweep number, low 16 bits in `NUM` (R556). -/
  num : Nat := 0
  /-- Start seconds (R541). -/
  startSec : Nat := 0
  /-- Start nanoseconds (R541). -/
  startNs : Nat := 0
  /-- Cell mask (R529). -/
  mask : BitVec 16 := 0
  /-- Amplitude (R529). -/
  amp : Nat := 0
  /-- Highest index (R529). -/
  imax : Nat := 0
  /-- Lowest index (R529). -/
  imin : Nat := 0
  /-- Index step (R529). -/
  step : Nat := 1
  /-- `NC` (R538). -/
  nc : Bool := false
  /-- `HOLD` (R537). -/
  hold : Bool := false
  /-- Host and sequence of the command (R529). -/
  byCmd : Option (Fin 4 × Nat) := none
  /-- Cells whose samples of the present pass were flagged (R536). -/
  bad : BitVec 16 := 0
  /-- A current result of the pass was flagged (R536). -/
  curBad : Bool := false
  /-- Main samples of the integration cycles of the present pass: the time in ns after its start, and the 16 values in µV (R535). -/
  samples : List (Nat × List Int) := []
  /-- Next cell to fit, 0 to 16 (R539). -/
  fitCell : Nat := 0
  /-- Sum of each cell's samples (R542). -/
  meanSum : List Int := List.replicate 16 0
  /-- Samples summed (R542). -/
  meanCnt : Nat := 0
  /-- T0 of the present pass, as the counter's ns (R533). -/
  passT0 : Nat := 0
  /-- Local time of a qualifying current step not yet used (R546). -/
  stepAt : Option Nat := none
  /-- Tracked inner resistance in Ω; none before the first step (R545, R546). -/
  r0t : List (Option Rat) := List.replicate 16 none
  /-- Local time of its last update (R545). -/
  r0At : List Nat := List.replicate 16 0
deriving DecidableEq, Repr

/-- The thermal manager (R557 to R574, R602). -/
structure ThermSt where
  /-- `THERM_DIE.TEMP` in 0.1 °C (R602). -/
  temp : Int := 0
  /-- `THERM_DIE.RATE` in 0.01 °C/s (R602). -/
  rate : Int := 0
  /-- `DIE_LEVEL` (R602). -/
  level : DieLevel := .normal
  /-- `LATCHED` (VAO) (R602). -/
  latched : Bool := false
  /-- Local times of the entries to SHUTDOWN in the last hour (`SD_CNT`, VAO) (R561). -/
  sdTimes : List Nat := []
  /-- `RISE` (R602). -/
  rise : Bool := false
  /-- Consecutive rates above 5.0 °C/s (R562). -/
  riseHits : Nat := 0
  /-- Local time since which the rate stayed at or below 2.5 °C/s (R562). -/
  riseLow : Option Nat := none
  /-- `DIE_BROKEN` (R602). -/
  broken : Bool := false
  /-- An open or shorted diode is present (R571). -/
  hardFault : Bool := false
  /-- Seconds of disagreement (R571). -/
  xBad : Nat := 0
  /-- Seconds of agreement (R571). -/
  xGood : Nat := 0
  /-- Sum and count of the readings of the present second (R571). -/
  secSum : Int × Nat := (0, 0)
  /-- Readings of the last 2 s with their local times, newest first (R562). -/
  hist : List (Nat × Int) := []
  /-- The hardware shutdown lines are asserted (R559). -/
  lines : Bool := false
  /-- Die step (R563). -/
  sDie : Nat := 0
  /-- Pack step (R564). -/
  sPack : Nat := 0
  /-- `THERM_UMB.TEMP` (R602). -/
  umbTemp : Int := 0
  /-- Local time of the last Umber reading (R602). -/
  umbAt : Option Nat := none
  /-- `THERM_AUX_T_k.TEMP`; none reads 0x8000 (R602). -/
  auxT : List (Option Int) := List.replicate 8 none
  /-- Channels broken by comparison (R572). -/
  auxCmpBroken : BitVec 8 := 0
  /-- `DISAGREE` (R602). -/
  disagree : BitVec 8 := 0
  /-- `ROR` (R602). -/
  ror : BitVec 8 := 0
  /-- `RATE` in °C/min, exact; none reads 0 (R602). -/
  auxRate : List (Option Rat) := List.replicate 8 none
  /-- Sum and count of the valid conversions of the present second (R568). -/
  secAux : List (Int × Nat) := List.replicate 8 (0, 0)
  /-- Means of the last 60 s in 0.1 °C, newest first (R568). -/
  auxHist : List (List (Option Rat)) := List.replicate 8 []
  /-- Consecutive seconds above the level (R568). -/
  rorHi : List Nat := List.replicate 8 0
  /-- Consecutive seconds below half of it (R568). -/
  rorLo : List Nat := List.replicate 8 0
  /-- Seconds below the median (R572). -/
  lowFor : List Nat := List.replicate 8 0
  /-- Seconds above the median (R572). -/
  highFor : List Nat := List.replicate 8 0
  /-- Seconds within half of the tolerance (R572). -/
  agreeFor : List Nat := List.replicate 8 0
  /-- `GRP_LEVEL` (R602). -/
  grp : List Nat := [0, 0, 0, 0]
  /-- Level each channel has reached (R567). -/
  chLevel : List Nat := List.replicate 8 0
  /-- Conversions of the last 60 s of wakes with their local times, newest first (R569). -/
  wakeHist : List (Nat × List (Option Int)) := []
deriving DecidableEq, Repr

/-- One sensor port (R575 to R603). -/
structure SpSt where
  /-- `STATE` (R603). -/
  st : SpState := .off
  /-- `STALE` (R603). -/
  stale : Bool := true
  /-- `SAT_FAULT` (R603). -/
  satFault : Bool := false
  /-- `PROOF` (R603). -/
  proofBit : Bool := false
  /-- `LINE_PWR` (R603). -/
  linePwr : Bool := false
  /-- `TYPE` (R603). -/
  ty : Nat := 0
  /-- Local time of the last valid frame (`AGE`; none reads 0xFFFF) (R603). -/
  atClk : Option Nat := none
  /-- `CH1` (R603). -/
  ch1 : Nat := 0
  /-- `CH2` (R603). -/
  ch2 : Nat := 0
  /-- `STATUS` (R603). -/
  status : Nat := 0
  /-- `ESM.ID` (R603). -/
  esmId : Nat := 0
  /-- `ESM.DATA` (R603). -/
  esmData : Nat := 0
  /-- `FORMAT` (R603). -/
  esmFmt : Bool := false
  /-- `CRC_CNT` (R603). -/
  crcCnt : Nat := 0
  /-- `CAL_CNT` (R603). -/
  calCnt : Nat := 0
  /-- `NIB_CNT` (R603). -/
  nibCnt : Nat := 0
  /-- `ESM_CNT` (R603). -/
  esmCnt : Nat := 0
  /-- `TICK.MEAS` (R603). -/
  meas : Nat := 0
  /-- `TICK.FRAMES` (R603). -/
  frames : Nat := 0
  /-- Valid frames since power-up (R584). -/
  total : Nat := 0
  /-- Previous accepted calibration pulse (R577). -/
  prevCal : Option Nat := none
  /-- Local times of the invalid frames of the last second (R603). -/
  badTimes : List Nat := []
  /-- Local time of the last event 0x74 (R603). -/
  last74 : Option Nat := none
  /-- A SENTINEL burst is running (R582). -/
  burst : Bool := false
  /-- Local time at which the last burst began (R582). -/
  burstAt : Nat := 0
  /-- The burst yielded a valid frame (R582). -/
  burstGot : Bool := false
  /-- A self-test result is awaited (R583). -/
  awaiting : Bool := false
  /-- Local time at which the last self-test pattern began (R583). -/
  testAt : Option Nat := none
  /-- The last satellite self-test failed (R626). -/
  satFailed : Bool := false
  /-- Per whole second of local clock the sum and count of the valid pressure codes, newest first; in SENTINEL the burst values (R607). -/
  secP : List (Nat × Int × Nat) := []
deriving DecidableEq, Repr

/-- What a zone peer last shared (R613): C1, C2, one satellite, and the local time. -/
structure Share where
  c1 : Bool
  c2 : Bool
  same : Bool
  atClk : Nat
deriving DecidableEq, Repr

/-- The runaway watch and the proof (R605 to R644). -/
structure WatchSt where
  /-- `LEVEL` (VAO) (R643). -/
  level : Level := .none
  /-- `STRONG` (VAO) (R643). -/
  strong : Bool := false
  /-- `PRESENT`: P at the last evaluation (R643). -/
  own : BitVec 6 := 0
  /-- `ZONE_PRES` at the last evaluation (R643). -/
  zone : BitVec 2 := 0
  /-- `UNAVAIL` (R643). -/
  unavail : BitVec 6 := 0
  /-- Evidence seen (own C1 0–1 and C2 2–3 by port, C3 to C6 4–7, C1 and C2 of peer j 8 + 2j and 9 + 2j) and the local time it was last in P (R614). -/
  seen : List (Nat × Nat) := []
  /-- Criteria in P and the local time since which they have been in it without a break (R614). -/
  since : List (Nat × Nat) := []
  /-- Local time at which P was last not empty (R614). -/
  lastP : Nat := 0
  /-- Local time at which a PRE-ALARM condition last held (R614). -/
  lastPre : Nat := 0
  /-- Local time at which the present level was entered (R619). -/
  levelAt : Nat := 0
  /-- `WATCH_GAS_n.BASE` (VAO) (R643). -/
  gasBase : List Rat := [0, 0]
  /-- `WATCH_GAS_n.LEARN` (VAO) (R643). -/
  learn : List Bool := [true, true]
  /-- Sum and count of the valid values of the learning (R611). -/
  learnSum : List (Int × Nat) := [(0, 0), (0, 0)]
  /-- Sum and count of the valid values of the minute (R611). -/
  minSum : List (Int × Nat) := [(0, 0), (0, 0)]
  /-- The level has been NONE throughout the minute, for each port (R611). -/
  minNone : List Bool := [true, true]
  /-- Local time of the first of the consecutive valid gas values at or above the threshold (R607). -/
  gasRun : List (Option Nat) := [none, none]
  /-- Local times of the valid gas values of the last 15 s that reached ten times the threshold (R614). -/
  strongAt : List (List Nat) := [[], []]
  /-- A C1 confirmation since the last evaluation (R614). -/
  confirmed : Bool := false
  /-- Local time since which the values stayed below the threshold (R607). -/
  gasLow : List (Option Nat) := [none, none]
  /-- Ports whose C1 is present (R607). -/
  c1On : BitVec 2 := 0
  /-- Consecutive seconds at or above `P_RATE` (R607). -/
  pHits : List Nat := [0, 0]
  /-- Consecutive seconds below half of it (R607). -/
  pLow : List Nat := [0, 0]
  /-- Ports whose C2 is present (R607). -/
  c2On : BitVec 2 := 0
  /-- Local time of the last C4 detection (R607). -/
  c4At : Option Nat := none
  /-- Limit samples of the last 1000 ms: local time, unflagged cell values, unflagged current, newest first (R607). -/
  c4Hist : List (Nat × List (Option Int) × Option Int) := []
  /-- Last ratio of each cell (R612). -/
  rho : List (Option Rat) := List.replicate 16 none
  /-- C5 baseline of each cell, none while learning (R612). -/
  base5 : List (Option Rat) := List.replicate 16 none
  /-- Sum and count of the first 60 ratios (R612). -/
  learn5 : List (Rat × Nat) := List.replicate 16 (0, 0)
  /-- R0_t age at the previous report, local clock (R612). -/
  age5 : List Nat := List.replicate 16 0
  /-- Consecutive updates beyond `Z_JUMP` (R607). -/
  jump : List Nat := List.replicate 16 0
  /-- Cells whose C5 is present (R607). -/
  c5On : BitVec 16 := 0
  /-- Cells with a valid R0_t in the last report (R608). -/
  c5Valid : BitVec 16 := 0
  /-- Local time of the last impedance report (R608). -/
  c5At : Option Nat := none
  /-- C4, C5 and zone criteria unavailable (R606). -/
  coreStale : Bool := false
  /-- What each zone peer shares (R613). -/
  shares : List (Option Share) := List.replicate 24 none
  /-- Last thermal report taken in (R574). -/
  therm : List Byte := []
  /-- `PROOF_STAT.STATE` (R643). -/
  pst : ProofSt := .idle
  /-- Step 3 of the proof, its open-wire test, has not ended (R624). -/
  owDue : Bool := false
  /-- `LAST` (NV) (R643). -/
  plast : Nat := 0
  /-- `DEFER` (R643). -/
  pdefer : Nat := 0
  /-- `OVERDUE` (R643). -/
  poverdue : Bool := false
  /-- `NUM` (NV) (R643). -/
  pnum : Nat := 0
  /-- `PROOF_RES` (NV) (R643). -/
  pres : BitVec 26 := 0
  /-- Steps that failed and have not passed since (R626, R627). -/
  pfailed : BitVec 13 := 0
  /-- `pfailed` as it stood when the present proof began (R626, R629). -/
  pold : BitVec 13 := 0
  /-- Local time at which the next proof falls due (`PROOF_DUE`): 1 h after reset for position 0 (R621, R643). -/
  dueAt : Option Nat := some 360000000000
  /-- Local time at which a deferred proof fell due (R623). -/
  dueSince : Option Nat := none
  /-- Host and sequence of the `PROOF_RUN` waiting (R628). -/
  pby : List (Fin 4 × Nat) := []
  /-- Local time of the last proof start (R621). -/
  pstartAt : Nat := 0
  /-- AUX channels that failed step 5 (R626). -/
  auxBad : BitVec 8 := 0
deriving DecidableEq, Repr

/-- One safety input (R646 to R652). -/
structure InpS where
  /-- `VERM_INP` state (R698). -/
  st : InpSt := .off
  /-- Channel A reads high (R647). -/
  a : Bool := false
  /-- Channel B reads high (R647). -/
  b : Bool := false
  /-- Both channels have been sampled in the run state since the last reset or return to ACTIVE (R842). -/
  seenRun : Bool := false
  /-- Both channels have shown the demand state since DISCREPANCY began (R650). -/
  bothDemand : Bool := false
  /-- E-stop latch (NV) (R651). -/
  latch : Bool := false
  /-- Consecutive failed checks of channel A (R648). -/
  crossA : Nat := 0
  /-- The same for channel B (R648). -/
  crossB : Nat := 0
  /-- Local time at which the hand reached the actuated state (R649). -/
  actAt : Option Nat := none
  /-- The two channels disagree (R650). -/
  disagree : Bool := false
deriving DecidableEq, Repr

/-- One contactor output (R656 to R659). -/
structure OutS where
  /-- `VERM_OUT` state (R698). -/
  st : OutSt := .off
  /-- Local time at which the state was entered (R658). -/
  atClk : Nat := 0
  /-- Consecutive failed off-pulses (R657). -/
  offFails : Nat := 0
deriving DecidableEq, Repr

/-- One peer of the safety parameter block (R661 to R663). -/
structure PeerS where
  /-- `VERM_PEER.LOST` (R698). -/
  lost : Bool := false
  /-- Content in force of byte 0 (R661). -/
  byte0 : BitVec 8 := 0
  /-- Alive byte and data of the first copies whose twin window runs, oldest first (R662). -/
  firsts : List (Nat × List Byte) := []
deriving DecidableEq, Repr

/-- Vermilion (R645 to R699). -/
structure VermSt where
  /-- Safety inputs 1 to 4 (R652). -/
  inps : List InpS := [{}, {}, {}, {}]
  /-- `OUT_POS`, `OUT_NEG`, `OUT_PRE` (R656). -/
  outs : List OutS := [{}, {}, {}]
  /-- `VERM_FAULT_A` (VAO and NV) (R698). -/
  faultA : BitVec 13 := 0
  /-- The stored block failed its check at power-up or in the proof (R665). -/
  blockBad : Bool := false
  /-- `VERM_FAULT_B` (R698). -/
  faultB : BitVec 11 := 0
  /-- Time run by each class B cause (R667). -/
  bTimer : List Nat := List.replicate 11 0
  /-- Local time since which the timer runs (R667). -/
  bSince : List (Option Nat) := List.replicate 11 none
  /-- Timers as saved in configuration memory (R667). -/
  bSaved : List Nat := List.replicate 11 0
  /-- Outputs whose OPEN_LOAD cause is present (R667). -/
  openLoad : BitVec 3 := 0
  /-- `VERM_CMD_LIM.CHG` (R698). -/
  cmdChg : Nat := 65535
  /-- `VERM_CMD_LIM.DIS` (R698). -/
  cmdDis : Nat := 65535
  /-- Conditions of R654 with action 1 that hold (R653). -/
  condStop : BitVec 5 := 0
  /-- Conditions that hold with action 2 (R654). -/
  condB : BitVec 5 := 0
  /-- Conditions that hold with action 3 (R654). -/
  condA : BitVec 5 := 0
  /-- `VCOIL` low (R657). -/
  vcoilLow : Bool := false
  /-- `VERM_COIL` (R698). -/
  vcoil : BitVec 12 := 0
  /-- Local time at which the armed reset was armed (R669). -/
  armReset : Option Nat := none
  /-- Local time at which the armed unseal was armed (R674). -/
  armUnseal : Option Nat := none
  /-- A class A cause has arisen since the reset was armed (R690). -/
  newA : Bool := false
  /-- `REFUSE` (R698). -/
  refuse : Nat := 0
  /-- `RST_FAIL` (R698). -/
  rstFail : Nat := 0
  /-- `TWO_HAND` (R698). -/
  twoHand : Bool := false
  /-- Both hands have been released since the device was last enabled (R649). -/
  thReady : Bool := true
  /-- Peers 0 to 23 (R661). -/
  peers : List PeerS := List.replicate 24 {}
  /-- `TWIN_MISS` (R698). -/
  twinMiss : Nat := 0
  /-- `TWIN_DIFF` (R698). -/
  twinDiff : Nat := 0
  /-- `SINGLE` (R698). -/
  single : Nat := 0
  /-- `DISCARD` (R698). -/
  discard : Nat := 0
  /-- Misses in a row (R662). -/
  missRow : Nat := 0
  /-- Local times of the twin differences of the last 10 s (R662). -/
  diffTimes : List Nat := []
  /-- The output-enable strobe is missing (R103). -/
  strobeLost : Bool := false
  /-- On-die channels past their timeout (R664). -/
  deadCh : BitVec 8 := 0
  /-- The watch's last report shows ALARM (R655). -/
  watchAlarm : Bool := false
  /-- `HB_IN` decoded STOP (R653). -/
  hbStop : Bool := false
  /-- `HB_IN` decoded LOST (R667). -/
  hbLost : Bool := false
  /-- Current result last taken in (R654). -/
  curMsg : Int × BitVec 8 := (0, 0)
  /-- The safety parameter block in force: sealed, or the working copy in commissioning mode (NV) (R671). -/
  block : List Byte := factoryBlock
  /-- `SEALED` (NV; DESIGN CHOICE not sealed) (R698). -/
  isSealed : Bool := false
  /-- `VERM_SEAL` (NV) (R698). -/
  sealVal : Word := 0
  /-- `COMMIT_SEAL` commands whose checks run, oldest first (R673). -/
  sealing : List (Word × Fin 4 × Nat) := []
deriving DecidableEq, Repr

/-- One check-value unit (R205 to R238). -/
structure ChkU where
  /-- `MODE`: compare (R237). -/
  mode : Bool := false
  /-- `EVT_EN` (R237). -/
  evtEn : Bool := true
  /-- `NB` (R237). -/
  nb : Nat := 0
  /-- `OWNER`: the last job that held the unit was a hardware client's (R238). -/
  owner : Bool := false
  /-- `BUSY`: a firmware job is in progress (R238). -/
  busy : Bool := false
  /-- Running register (R215). -/
  run : Word := 0
  /-- Bytes consumed, modulo 65 536 (R215). -/
  count : Nat := 0
  /-- Mode of the job, set when it starts (R211). -/
  jobMode : Bool := false
  /-- `VAL` of the last ended job (R237). -/
  val : Word := 0
  /-- `EXP` (R237). -/
  expv : Word := 0
  /-- An expected value is written for this job (R212). -/
  armed : Bool := false
  /-- The input of the job has ended (R212). -/
  ended : Bool := false
  /-- `MATCH` (R238). -/
  matched : Bool := false
  /-- `MISMATCH` (R238). -/
  mismatched : Bool := false
  /-- `CTX_ERR` (R238). -/
  ctxErr : Bool := false
  /-- `TAINT` (R238). -/
  taint : Bool := false
  /-- `FAILED` (R238). -/
  failed : Bool := false
  /-- `SUSP` (R238). -/
  susp : Bool := false
  /-- `MIS_CNT` (R238). -/
  misCnt : Nat := 0
  /-- Word last written to `CTX0` (R216, R237). -/
  ctx0 : Word := 0
  /-- Word last written to `CTX1` (R237). -/
  ctx1 : Word := 0
deriving DecidableEq, Repr

/-- One alive channel (R219, R239). -/
structure Alv where
  /-- `TX` (R239). -/
  tx : Nat := 0
  /-- `LAST` (R239). -/
  last : Nat := 0
  /-- `REP_CNT` (R239). -/
  rep : Nat := 0
  /-- `SEQ_CNT` (R239). -/
  seq : Nat := 0
  /-- `LOST_CNT` (R239). -/
  lost : Nat := 0
  /-- `INIT` (R239). -/
  init : Bool := true
deriving DecidableEq, Repr

/-- The check-value cluster (R205 to R240). -/
structure ChkSt where
  /-- `CHK_0` to `CHK_3` (R205). -/
  units : List ChkU := [{}, {}, {}, {}]
  /-- Alive channels (R219). -/
  alv : List Alv := List.replicate 32 {}
  /-- Island 22 has failed its clock check since the last power-up (R234). -/
  islandDown : Bool := false
  /-- Protected messages sent on the die and not yet received: channel, then alive byte, data and CRC-8 (R220). -/
  sent : List (Nat × List Byte) := []
deriving DecidableEq, Repr

/-- A stored log record (R752): sequence number, operating minutes, power cycles, event id, byte 11, payload, repeat count, whether the shadow is good, whether the CRC-16 matches. -/
structure Rec where
  seq : Nat
  opmin : Nat
  cyc : Nat
  evid : Nat
  sevFlags : BitVec 8
  payload : List Byte
  rep : Nat
  shadowOk : Bool
  crcOk : Bool
deriving DecidableEq, Repr

/-- An entry waiting to be written (R757): event id, severity, payload, repeats counted so far, whether it came through an alarm slot, whether it was held by a freeze. -/
structure LogIn where
  evid : Nat
  sev : Nat
  payload : List Byte
  rep : Nat
  alarm : Bool
  held : Bool
deriving DecidableEq, Repr

/-- The repeat candidate of a source (R760): payload, slot and sequence of the record, local time it was written, pending increments, local time of the last shadow write. -/
structure RepCand where
  evid : Nat
  payload : List Byte
  slot : Nat
  seq : Nat
  atClk : Nat
  pending : Nat
  shadowAt : Option Nat
deriving DecidableEq, Repr

/-- One log cursor (R765). -/
structure Cursor where
  /-- Slot (R794). -/
  slot : Nat := 0
  /-- Sequence number of its record (R794). -/
  q : Nat := 0
  /-- End state (R794). -/
  atEnd : Bool := false
  /-- Placed by a slot code and not yet read (R767). -/
  byCode : Bool := false
deriving DecidableEq, Repr

/-- Lampblack (R750 to R795). -/
structure LogSt where
  /-- Records in slots 0 to 4095, by rising slot; an unlisted slot is empty (DESIGN CHOICE at reset) (R750). -/
  slots : List (Nat × Rec) := []
  /-- Last-words records in slots 4096 upward (R777). -/
  lw : List Rec := []
  /-- Retired slots (R774). -/
  retired : List Nat := []
  /-- Write queue, oldest first (R757). -/
  queue : List LogIn := []
  /-- Reserved alarm slots, oldest first (R757). -/
  alarmq : List LogIn := []
  /-- Holding queue, oldest first (R772). -/
  holdq : List LogIn := []
  /-- Start and end of the freeze in force, local time (R771). -/
  freezeEnd : Option (Nat × Nat) := none
  /-- Local time at which the previous freeze ended (R771). -/
  lastFreeze : Option Nat := none
  /-- Event 0x9A was raised in this freeze (R772). -/
  holdEvt : Bool := false
  /-- `LOG_SEQ.NEXT`: read as 0 until the scan is done (R794, R756). -/
  next : Nat := 1
  /-- `LOG_DEAD` (VAO) (R794). -/
  dead : Bool := false
  /-- `DEAD_CAUSE` (VAO) (R794). -/
  deadCause : Nat := 0
  /-- `LW_FULL` (NV) (R794). -/
  lwFull : Bool := false
  /-- `LW_FAIL` (NV) (R794). -/
  lwFail : Bool := false
  /-- `SCAN_DONE` (R794). -/
  scanDone : Bool := false
  /-- `DROP` (R794). -/
  drop : Nat := 0
  /-- `RATE` (R794). -/
  rateLoss : Nat := 0
  /-- `HOLD_LOSS` (R794). -/
  holdLoss : Nat := 0
  /-- `WFAIL` (R794). -/
  wfail : Nat := 0
  /-- Slots known damaged (`DAMAGED`) (R794). -/
  damaged : List Nat := []
  /-- Tokens in the bucket (R759). -/
  tokens : Nat := 64
  /-- Repeat candidates by source (R760). -/
  cands : List (Nat × RepCand) := []
  /-- The next record carries GAP (R764). -/
  gap : Bool := false
  /-- A drop was marked by event 0x98 since the last record written (R763). -/
  dropMarked : Bool := false
  /-- Cursors of `H0` to `H3` and the register cursor (R765). -/
  cursors : List Cursor := [{}, {}, {}, {}, {}]
  /-- `LOG_WIN_i` latch (R794). -/
  win : List Byte := List.replicate 32 0
  /-- `LOG_OPMIN` (NV, DESIGN CHOICE 0) (R794). -/
  opmin : Nat := 0
  /-- Saved operating minutes (R756). -/
  opminSaved : Nat := 0
  /-- `LOG_PWRCYC` (NV, DESIGN CHOICE 0) (R794). -/
  pwrCyc : Nat := 0
deriving DecidableEq, Repr

/-- A stored Umber record (R717, bytes 0 to 85). -/
structure URec where
  kind : Nat
  flags : BitVec 16
  seq : Nat
  start : Nat
  len : Nat
  tstate : Nat
  closeSec : Nat
  closeNs : Nat
  dur : Nat
  imp : Nat
  exp : Nat
  chg : Nat
  dis : Nat
  dImp : Nat
  dExp : Nat
  audit : Nat
  swid : Word
  crcOk : Bool
deriving DecidableEq, Repr

/-- What Umber writes to its non-volatile memory (R709): accumulators, open interval, time. -/
structure USave where
  /-- Accumulators (R709). -/
  acc : List Nat := [0, 0, 0, 0]
  /-- Flags of the open interval (R709). -/
  flags : BitVec 16 := 0
  /-- Its nominal start (R709). -/
  start : Nat := 0
  /-- Its metered duration in 250 µs (R709). -/
  dur : Nat := 0
  /-- Import and export registers at its opening (R709). -/
  accAtOpen : List Nat := [0, 0]
  /-- Umber time in ns (R709). -/
  tNs : Nat := 0
deriving DecidableEq, Repr

/-- The Umber mirror (R747), one snapshot. -/
structure Mirror where
  /-- `STATE` (R747). -/
  st : Nat := 0
  /-- `SEAL_N` (R747). -/
  sealN : Bool := false
  /-- `UPD_BUSY` (R747). -/
  updBusy : Bool := false
  /-- `TIME_OK` (R747). -/
  timeOk : Bool := false
  /-- `LENGTH` (R747). -/
  len : Nat := 0
  /-- `UMB_SEQ` (R747). -/
  seq : Nat := 0
  /-- `UMB_OLDEST` (R747). -/
  oldest : Nat := 0
  /-- `UMB_AUDIT` (R747). -/
  audit : Nat := 0
  /-- `UMB_SWID` (R747). -/
  swid : Word := 0
  /-- `UMB_FWVER` (R747). -/
  fwver : Word := 0
  /-- Import, export, charge, discharge (R747). -/
  regs : List Nat := [0, 0, 0, 0]
  /-- `UMB_I` (R747). -/
  i : Int := 0
  /-- `UMB_V` (R747). -/
  v : Int := 0
  /-- `UMB_TEMP` (R747). -/
  temp : Int := 0
  /-- `UMB_REJECT` (R747). -/
  reject : Nat := 0
  /-- `UMB_SERIAL` (R747). -/
  serial : BitVec 64 := 0
deriving DecidableEq, Repr

/-- Umber (R700 to R749) and the stack die's side of the inter-die link. -/
structure UmberSt where
  /-- Meter state; NV, DESIGN CHOICE no parameter set (R701). -/
  st : Meter := .uncalibrated
  /-- Shunt resistance in nΩ of the active parameter set; none (R726). -/
  shunt : Nat := 0
  /-- Divider ratio × 1000; none (R726). -/
  ratio : Nat := 0
  /-- Import, export (2^-32 mWh) and charge, discharge (2^-32 mAh), with their fractions (R708). -/
  acc : List Nat := [0, 0, 0, 0]
  /-- Length code in force; DESIGN CHOICE 15 min before a parameter set (R710). -/
  len : Nat := 15
  /-- Flags of the open interval (R718). -/
  flags : BitVec 16 := 0
  /-- Nominal start of the open interval, counter seconds (R710). -/
  start : Nat := 0
  /-- Its metered duration in 250 µs (R715). -/
  dur : Nat := 0
  /-- Import and export registers at its opening (R712). -/
  accAtOpen : List Nat := [0, 0]
  /-- Umber time in ns; DESIGN CHOICE 0 (R713). -/
  tNs : Nat := 0
  /-- Slew still due in ns (R713). -/
  slew : Int := 0
  /-- A label has been accepted since power-up (R747). -/
  timeOk : Bool := false
  /-- Time state of the last label (R717). -/
  tstate : Nat := 0
  /-- Interval store, oldest first, at most 4096 (R721). -/
  store : List URec := []
  /-- Last sequence number closed (R712). -/
  seq : Nat := 0
  /-- Audit counter; DESIGN CHOICE 0 (R728). -/
  audit : Nat := 0
  /-- Software identification; DESIGN CHOICE 0 (R724). -/
  swidNow : Word := 0
  /-- Firmware version; DESIGN CHOICE (R747). -/
  fwver : Word := 0x00010000
  /-- Serial number; DESIGN CHOICE 0 (R717). -/
  serial : BitVec 64 := 0
  /-- Discarded inward transfers (R703). -/
  reject : Nat := 0
  /-- 1 s mean of current in mA (R702). -/
  i : Int := 0
  /-- 1 s mean of voltage in mV (R702). -/
  v : Int := 0
  /-- Sums of the present second (R702). -/
  meanSum : Int × Int × Nat := (0, 0, 0)
  /-- Umber die temperature in 0.1 °C; DESIGN CHOICE 0 (R702). -/
  temp : Int := 0
  /-- Partial update image (R725). -/
  upd : List Byte := []
  /-- Host and sequence of the chunk that completed it (R725). -/
  updBy : Option (Fin 4 × Nat) := none
  /-- What was last saved (R709). -/
  saved : USave := {}
  /-- Umber is powered; DESIGN CHOICE (R709). -/
  powered : Bool := true
  /-- `LINK_UP` (R747). -/
  linkUp : Bool := false
  /-- The mirror (R747). -/
  mirror : Mirror := {}
  /-- Granted slots per host (R723). -/
  slots : List Nat := [0, 0, 0, 0]
  /-- A record on its way to each host (R722). -/
  inflight : List (Option URec) := [none, none, none, none]
  /-- The next request starts from the oldest stored record (R723). -/
  restart : List Bool := [false, false, false, false]
deriving DecidableEq, Repr

/-- One NV16 (R27) and the queue of the commands that wait. `pending` is the model's own: the commands from outside, first in, first out. -/
structure State where
  /-- MODEL'S OWN FIELD: the queue of waiting commands; DESIGN CHOICE empty. -/
  pending : List Instr := []
  /-- Local clock, in steps of 10 ns; DESIGN CHOICE 0 (R314). -/
  clk : Nat := 0
  /-- MODEL'S OWN FIELD: how many free values have been drawn; DESIGN CHOICE 0. -/
  freeCtr : Nat := 0
  /-- SYS block (R61). -/
  sys : SysSt := {}
  /-- Pins (R56). -/
  pins : Pins := {}
  /-- RW registers (R876). -/
  regs : Regs := {}
  /-- Configuration region (R832). -/
  nv : NvSt := {}
  /-- Firmware banks (R828). -/
  fw : FwSt := {}
  /-- Host ports (R148). -/
  host : HostSt := {}
  /-- Commands at their executing member (R162). -/
  cmd : CmdSt := {}
  /-- Event block (R796). -/
  evt : EvtSt := {}
  /-- Chain and heartbeat (R241). -/
  chain : ChainSt := {}
  /-- Time counter (R312). -/
  time : TimeSt := {}
  /-- Measurement (R350). -/
  cell : CellSt := {}
  /-- Balancing (R402). -/
  bal : BalSt := {}
  /-- Indigo (R437). -/
  indigo : IndigoSt := {}
  /-- Sweeps (R527). -/
  sweep : SweepSt := {}
  /-- Thermal manager (R557). -/
  therm : ThermSt := {}
  /-- Sensor port 1 (R575). -/
  sp1 : SpSt := {}
  /-- Sensor port 2 (R575). -/
  sp2 : SpSt := {}
  /-- Runaway watch and proof (R605). -/
  watch : WatchSt := {}
  /-- Vermilion (R645). -/
  verm : VermSt := {}
  /-- Check-value cluster (R205). -/
  chk : ChkSt := {}
  /-- Lampblack (R750). -/
  log : LogSt := {}
  /-- Umber (R700). -/
  umber : UmberSt := {}
  /-- Tag failure counts (VAO) (R172). -/
  tagFails : List Nat := [0, 0, 0, 0]
  /-- Hosts in tag lockout (VAO) (R172, R201). -/
  lockout : List Bool := [false, false, false, false]
  /-- The cycle of `occ`: a step of the local clock (R871). -/
  occAt : Nat := 0
  /-- Occurrences of that cycle that set W1C bits: register address and bits (R871). -/
  occ : List (Nat × Word) := []
  /-- Stream and energy-record items delivered to hosts at this member and not yet collected: host, payload (R115). -/
  hostData : List (Nat × List Byte) := []
deriving DecidableEq, Repr

/-- The machine right after reset: power-on reset has released, nothing has booted, and every field holds its reset value. -/
def State.reset : State := {}

end Sys2Proof.Machine
end

