-- ==== Sys2Proof/Machine/Flags.lean ====
section
/-! DEFINITION. Flags and pin levels that the specification derives from other state: status words, `IRQ_N`, `ALARM_N`, the
driven state of `HB_OUT`, the flag bytes of measured values. Each is computed where it is read and stored nowhere. -/

namespace Sys2Proof.Machine

open Sys2Proof

/-- The number in bits `[hi:lo]` of a stored register word (R10). -/
def rf (w : Word) (hi lo : Nat) : Nat := bits w.toNat hi lo

/-- The code of a power mode (R94). -/
def modeCode : Mode → Nat
  | .active => 0 | .idle => 1 | .sentinel => 2 | .ship => 3

/-- The mode a code names (R94). -/
def modeOf (n : Nat) : Mode :=
  if n = 0 then .active else if n = 1 then .idle else if n = 2 then .sentinel else .ship

/-- The code of an authority class (R149). -/
def authCode : Auth → Nat
  | .operator => 0 | .energy => 1 | .meter => 2 | .safety => 3

/-- The authority class a code names (R149). -/
def authOf (n : Nat) : Auth :=
  if n = 0 then .operator else if n = 1 then .energy else if n = 2 then .meter else .safety

/-- The code of a time state (R313). -/
def TimeState.code : TimeState → Nat
  | .unset => 0 | .free => 1 | .acquiring => 2 | .locked => 3 | .holdover => 4

/-- The code of a chain port state (R306). -/
def PState.code : PState → Nat
  | .linkDead => 0 | .active => 1 | .degraded => 2 | .portOff => 3 | .offLatched => 4

/-- The code of the ring state (R305). -/
def Ring.code : Ring → Nat
  | .notEnumerated => 0 | .closed => 1 | .opened => 2 | .reversed => 3

/-- The code of the decoded heartbeat state (R309). -/
def HbIn.code : HbIn → Nat
  | .run => 0 | .word => 1 | .stop => 2 | .lost => 3

/-- The code of the driven heartbeat state (R309). -/
def HbOut.code : HbOut → Nat
  | .run => 0 | .word => 1 | .stop => 2 | .off => 3

/-- The runaway level as `WATCH_READ` codes it (R619). -/
def Level.code : Level → Nat
  | .none => 0 | .watch => 1 | .preAlarm => 2 | .alarm => 3

/-- A proof runs and stands between two times from its start, in ms (R624). -/
def proofPhase (s : State) (lo hi : Nat) : Bool :=
  (s.watch.pst == .running || s.watch.pst == .awaiting) && decide (s.watch.pstartAt + lo * Config.ms ≤ s.clk) &&
    decide (s.clk < s.watch.pstartAt + hi * Config.ms)

/-- `SYS_PWR_STAT` (R95). -/
def pwrStat (s : State) : Nat :=
  modeCode s.sys.mode + 4 * b2n s.sys.ready + 8 * b2n s.sys.vstkLow + 16 * b2n s.sys.xtalOk + 32 * b2n s.sys.anchor +
    256 * (s.sys.refuse % 16) + 65536 * b2n s.sys.vregFault + 131072 * b2n s.sys.vdd33Fault + 262144 * b2n s.sys.vtrefFault

/-- `SYS_SUPPLY` (R97). -/
def supplyWord (s : State) : Nat := s.sys.vstk10mV.toNat + 65536 * s.sys.vspMV.toNat

/-- No binding is committed: the factory state of R167. -/
def isFactory (s : State) : Bool := s.nv.bindings.all (·.isNone)

/-- The committed binding of a host (R166). -/
def binding (s : State) (h : Nat) : Option Binding := nth s.nv.bindings h none

/-- The binding of a host that this member takes as its own (R903): it names the member's valid position. -/
def ownBinding (s : State) (h : Nat) : Option Binding :=
  match binding s h with
  | some b => if s.chain.addr && b.pos == s.chain.pos then some b else none
  | none => none

/-- The hosts whose event stores this member keeps: its own bound hosts, or host 0 in the factory state (R167, R806). -/
def localHosts (s : State) : List Nat :=
  if isFactory s then [0] else (List.range 4).filter fun h => (ownBinding s h).isSome

/-- The host that a port of this member serves (R166, R167). -/
def portHost (s : State) (p : HPort) : Option Nat :=
  if isFactory s then some 0
  else (List.range 4).find? fun h =>
    match ownBinding s h with
    | some b => b.uart == (p == .uart)
    | none => false

/-- The reply store of a host port. -/
def portBuf (s : State) (p : HPort) : PortBuf := match p with | .spi => s.host.spi | .uart => s.host.uart

/-- The oldest releasable item of the SPI port, if any (R173, R174). -/
def spiReleasable (s : State) : Bool := !s.host.spi.outq.isEmpty

/-- Whether a host of this member has unread events (R806). -/
def unread (s : State) (h : Nat) : Nat := (nth s.evt.stores h []).length

/-- `IRQ_N` is low: a local host has an unread entry, or `IRQ_RPLY` is set and a reply is releasable to the SPI host (R809);
without `VDDIO` it is released (R85). -/
def irqLow (s : State) : Bool :=
  s.pins.vddio && ((localHosts s).any (fun h => unread s h != 0) || (rf s.regs.evtCfg 0 0 == 1 && spiReleasable s))

/-- `ALARM_N` is low: the runaway latch is set, or Ochre has decided ALARM in SENTINEL (R72, R617). -/
def alarmLow (s : State) : Bool := s.watch.level == .alarm || s.sys.sentinelAlarm

/-- Some contactor output is driven: `RAMP`, `PULLIN` or `HOLD` (R656). -/
def anyOutputOn (s : State) : Bool :=
  s.verm.outs.any fun o => o.st == .ramp || o.st == .pullin || o.st == .hold

/-- Some chain port is `PORT_OFF` or `OFF_LATCHED` (R284 code 0x3). -/
def anyPortOff (s : State) : Bool :=
  [s.chain.north.st, s.chain.south.st].any fun p => p == .portOff || p == .offLatched

/-- `HB_IN` is evaluated and counts for `HB_OUT`: enabled, decided, and not at the anchor (R283, R284, R288). -/
def hbForwards (s : State) : Bool :=
  rf s.regs.chainCfg 1 1 == 1 && s.chain.hbDecided && !s.sys.anchor

/-- The fault codes of R284 that the member has, in the order of R285. Code 0xF stands for the severity-3 conditions that last:
a failed check-value unit, a stuck modulator, the thermal shutdown, Umber in `FAULT` (DEDUCED, log 30). -/
def hbFaults (s : State) : List Nat :=
  (if s.verm.faultA ≠ 0 then [0x4] else []) ++
  (if s.sys.clkFail ≠ 0 ∨ s.sys.moscFail then [0x7] else []) ++
  (if s.chk.units.any (·.failed) ∨ s.cell.stuck ≠ 0 ∨ s.therm.lines ∨ s.therm.latched ∨ s.umber.mirror.st = 3 then [0xF] else []) ++
  (if s.log.dead then [0x2] else []) ++
  (if anyPortOff s then [0x3] else []) ++
  (if s.watch.pfailed ≠ 0 then [0x6] else []) ++
  (if s.verm.faultB ≠ 0 then [0x5] else []) ++
  (if hbForwards s && s.chain.hbIn == .lost then [0x1] else [])

/-- The code of the member's own heartbeat word, if it has a fault; the proof's test word takes its place (R285). -/
def hbOwnCode (s : State) : Option Nat :=
  if proofPhase s 70 134 then some 0 else (hbFaults s).head?

/-- The words the member sends on `HB_OUT` in WORD, as position and code, in turn (R284). -/
def hbOutWords (s : State) : List (Nat × Nat) :=
  let p := if s.chain.addr then s.chain.pos else 0x3F
  let inc := if hbForwards s && s.chain.hbIn == .word then s.chain.hbPass else []
  match hbOwnCode s with
  | none => inc
  | some c => if inc.isEmpty then [(p, c)] else (inc.map fun w => [(p, c), w]).flatten

/-- The duties, in percent, of the 16 periods of a word on `HB_OUT` (R282): 4 of 75 %, the position and the code with the least significant bit first, even parity over those ten
bits, 1 of 25 %. -/
def hbWordPeriods (pos code : Nat) : List Nat :=
  let data := (List.range 10).map fun i => (pos % 64 + 64 * (code % 16)).testBit i
  let duty (b : Bool) : Nat := if b then 75 else 25
  [75, 75, 75, 75] ++ data.map duty ++ [duty ((data.filter id).length % 2 == 1), 25]

/-- The class of a period by its duty (R282, R896): 1 for 25 %, 2 for 50 %, 3 for 75 %; exactly 37.5 % and 62.5 % are 50 %. -/
def dutyClass (highNs lengthNs : Nat) : Nat :=
  if 1000 * highNs < 375 * lengthNs then 1 else if 1000 * highNs ≤ 625 * lengthNs then 2 else 3

/-- The driven state of `HB_OUT` (R282, R284, R302). -/
def hbOutState (s : State) : HbOut :=
  if s.sys.mode == .sentinel || s.sys.mode == .ship || !s.sys.powered then .off
  else if !s.evt.hold.isEmpty || (hbForwards s && s.chain.hbIn == .stop) then .stop
  else if (hbOwnCode s).isSome || (hbForwards s && (s.chain.hbIn == .word || s.chain.hbIn == .lost)) then .word
  else .run

/-- The duties, in percent, of the periods of 1 ms that `HB_OUT` runs through in turn (R282, R284): the pin stands high in STOP and low in OFF. -/
def hbOutPeriods (s : State) : List Nat :=
  match hbOutState s with
  | .run => [50]
  | .word => ((hbOutWords s).map fun w => hbWordPeriods w.1 w.2).flatten
  | .stop => [100]
  | .off => [0]

/-- `CHAIN_STATE` (R305). -/
def chainState (s : State) : Nat :=
  let c := s.chain
  let hop := ((List.range 64).find? fun i => c.dead.getLsbD i).getD 0
  c.pos % 64 + 64 * b2n c.addr + 128 * b2n c.enumBusy + 256 * (c.n % 128) + 65536 * c.ring.code +
    262144 * hop + 16777216 * b2n c.conflict + 33554432 * b2n c.overflow + 67108864 * b2n c.posChanged

/-- The number of entries to `PORT_OFF` in the last hour, `OFF_CNT` (R306). -/
def offCnt (s : State) (p : ChPort) : Nat :=
  (p.offTimes.filter fun t => s.clk < t + 3600 * Config.sec).length

/-- `CHAIN_PORT_N` or `CHAIN_PORT_S` (R306). -/
def chainPort (s : State) (p : ChPort) : Nat :=
  p.tec % 256 + 256 * (p.recErr % 256) + 65536 * p.st.code + 1048576 * (offCnt s p % 16) + 16777216 * (p.advShared % 256)

/-- `CHAIN_HB` (R309): before `HB_IN` has been decided it reads LOST (R283). -/
def chainHb (s : State) : Nat :=
  (if s.chain.hbDecided then s.chain.hbIn.code else 3) + 4 * (hbOutState s).code + 16 * (s.chain.hbWordPos % 64) +
    1024 * (s.chain.hbWordCode % 16)

/-- The counter's time in milliseconds modulo 2^31, or 0x7FFF_FFFF while `UNSET` (R798). -/
def eventStamp (s : State) : Nat :=
  if s.time.st == .unset then 0x7FFFFFFF else (s.time.sec.toNat * 1000 + s.time.ns / 1000000) % 2 ^ 31

/-- The routed hosts of a source: all of them for severity 3, else by `EVT_ROUTE` (R800); the factory-state host is served under the same
register (R167, R801). -/
def routesHost (s : State) (src h : Nat) : Bool :=
  severity src == 3 || (nth s.evt.route src 0).getLsbD h

/-- Lampblack is a target of a source (R800). -/
def routesLog (s : State) (src : Nat) : Bool :=
  severity src == 3 || (nth s.evt.route src 0).getLsbD 4

/-- The mask of a host lets a source through; severity 3 always passes (R805). -/
def maskOpen (s : State) (h src : Nat) : Bool :=
  severity src == 3 || (nth s.evt.masks h 0).getLsbD src

end Sys2Proof.Machine
end

