-- ==== Sys2Proof/Machine/Ops.lean ====
section
/-! DEFINITION. The named operations over the byte memories, the time, and the events: raising an event with its routing, the
event stores, the outbound queues and Lampblack's intake (R757, R796 to R811). -/

namespace Sys2Proof.Machine

open Sys2Proof

/-- The outcome of a step of this model. -/
abbrev Out := Host.Outcome State Fault Refusal

/-! ## Byte memories: lists of address and byte in one canonical form -/

/-- The byte at an address; an unlisted address reads 0 (log 5). -/
def memGet (m : List Host.Cell) (a : Nat) : Byte :=
  match m with
  | [] => 0
  | (k, v) :: t => if a = k then v else memGet t a

/-- The memory with the byte at an address replaced, in canonical form. -/
def memPut (a : Nat) (b : Byte) : List Host.Cell → List Host.Cell
  | [] => if b = 0 then [] else [(a, b)]
  | (k, v) :: t =>
    if a < k then (if b = 0 then (k, v) :: t else (a, b) :: (k, v) :: t)
    else if a = k then (if b = 0 then t else (a, b) :: t)
    else (k, v) :: memPut a b t

/-- The canonical form: addresses strictly rising from a lower bound, no byte equal to what an unlisted address reads as. -/
def Memory.wfFrom (lo : Nat) : List Host.Cell → Bool
  | [] => true
  | (k, v) :: t => decide (lo ≤ k) && v != 0 && Memory.wfFrom (k + 1) t

/-- The canonical form of a byte memory. -/
def Memory.wf (m : List Host.Cell) : Bool := Memory.wfFrom 0 m

/-- n bytes from an address upward. -/
def memRead (m : List Host.Cell) (a n : Nat) : List Byte := (List.range n).map fun i => memGet m (a + i)

/-- Bytes stored from an address upward. -/
def memWrite (m : List Host.Cell) (a : Nat) : List Byte → List Host.Cell
  | [] => m
  | b :: t => memWrite (memPut a b m) (a + 1) t

/-- Bytes stored from an address upward, each address taken within a window of the given size at a base (wrapping). -/
def memWriteMod (m : List Host.Cell) (base size a : Nat) : List Byte → List Host.Cell
  | [] => m
  | b :: t => memWriteMod (memPut (base + a % size) b m) base size (a + 1) t

/-- The bytes of a window of a memory removed. -/
def memClear (m : List Host.Cell) (lo hi : Nat) : List Host.Cell := m.filter fun c => c.1 < lo || hi ≤ c.1

/-! ## Free values -/

/-- A fresh index for a free value: the counter of the model's own field, advanced. -/
def drawFree (s : State) : Nat × State := (s.freeCtr, { s with freeCtr := s.freeCtr + 1 })

/-! ## Occurrences that set W1C bits -/

/-- An occurrence that sets W1C bits of a register, noted for the present cycle (R871). -/
def noteOcc (a : Nat) (bits : Word) (s : State) : State :=
  if bits = 0 then s else { s with occAt := s.clk, occ := (a, bits) :: (if s.occAt = s.clk then s.occ else []) }

/-- The W1C bits of a register whose condition has occurred in the present cycle: a clear in the same cycle leaves them (R871). -/
def occurred (s : State) (a : Nat) : Word :=
  if s.occAt = s.clk then (s.occ.filter fun x => x.1 == a).foldl (fun (w : Word) x => w ||| x.2) 0 else 0

/-! ## Events -/

/-- The 12 detail bytes of an event from its four fields (R799). -/
def det (inst val st ext : Int) : List Byte := leI 2 inst ++ leI 4 val ++ leI 2 st ++ leI 4 ext

/-- The instance field of two bytes. -/
def inst2 (a b : Nat) : Int := (a % 256 + 256 * (b % 256) : Nat)

/-- The detail of group 0x00 with a given instance and a given CRC (R799). -/
def sysDetailWith (inst : Nat) (crc : Nat) (s : State) : List Byte :=
  det inst (supplyWord s) (pwrStat s % 65536 : Nat) crc

/-- The CRC-32C of the image in the active bank (R799). -/
def activeCrc (s : State) : Nat := if s.sys.bank then s.fw.crcB.toNat else s.fw.crcA.toNat

/-- The detail of group 0x00 for events that concern no island and no image of their own. -/
def sysDetail (s : State) : List Byte := sysDetailWith s.sys.wakeSrc.toNat (activeCrc s) s

/-- The 16 bytes of an event entry (R798). -/
def entryBytes (e : Entry) : List Byte :=
  le 1 e.src ++ le 1 (e.pos % 64 + 64 * (e.sev % 4)) ++ le 2 e.seq ++ le 4 (e.stamp % 2 ^ 31 + 2 ^ 31 * b2n e.lost) ++
    slice e.detail 0 8

/-- The entry that 16 bytes spell (R798). -/
def entryOf (l : List Byte) : Entry :=
  { src := field l 0 1, pos := bits (field l 1 1) 5 0, sev := bits (field l 1 1) 7 6, seq := field l 2 2,
    stamp := bits (field l 4 4) 30 0, lost := bitN (field l 4 4) 31, detail := slice l 8 8 ++ [0, 0, 0, 0] }

/-- The index of the oldest entry of the lowest severity present, with that severity; none for an empty list (R116, R758, R804). -/
def weakest (sevs : List Nat) : Option (Nat × Nat) :=
  match sevs.min? with
  | none => none
  | some v => some (sevs.findIdx (· == v), v)

/-- A reply's bytes before its tag and check value: header, `STATUS`, `LEN`, data (R151). -/
def replyHead (r : Reply) : List Byte :=
  le 2 r.hdr.toNat ++ le 1 r.status ++
    le 2 (r.data.length % 1024 + 1024 * b2n r.tag.isSome + 2048 * b2n r.replay + 4096 * b2n r.more) ++ r.data

/-- The bytes of a reply (R151). -/
def replyBytes (r : Reply) : List Byte :=
  let b := replyHead r ++ r.tag.getD []
  b ++ le 4 (crc32c b).toNat

/-- The check value of a reply (R151). -/
def replyCrc (r : Reply) : Word := crc32c (replyHead r ++ r.tag.getD [])

/-- A frame on `TXD`: the COBS encoding and one delimiter (R176). -/
def uartFrame (b : List Byte) : List Byte := cobsEncode b ++ [0]

/-- The UART port drives `TXD`: the host supply is there (R85) and the port is enabled (R200). -/
def uartSends (s : State) : Bool := s.pins.vddio && rf s.regs.hostCfg 5 5 == 1

/-- An `EVENT_NOTICE` on the UART port to a host whose unread count has risen from 0 (R179). -/
def eventNotice (h : Nat) (s : State) : State :=
  if uartSends s && portHost s .uart == some h then
    let a := match ownBinding s h with | some b => authCode b.auth | none => 0
    let r : Reply := { hdr := BitVec.ofNat 16 (h + 4 * a), status := 0x02, replay := false, more := false,
                       data := le 1 (unread s h), tag := none }
    { s with host.txd := s.host.txd ++ [uartFrame (replyBytes r)] }
  else s

/-- At most one event per second of a kind: whether another may be raised now. -/
def secondPassed (s : State) : Option Nat → Bool
  | none => true
  | some t => t + Config.sec ≤ s.clk

/-- Events that a raise brings about: source, the one host it is for (R800), detail. -/
abbrev Due := List (Nat × Option Nat × List Byte)

/-- An entry is one that this member raised in the present cycle (R816). -/
def raisedNow (s : State) (e : Entry) : Bool :=
  s.evt.raisedAt == s.clk && e.pos == (if s.chain.addr then s.chain.pos else 0) && s.evt.raised.contains (e.src, e.seq)

/-- An entry added to a list: entries raised in one cycle stand in ascending source order (R816). -/
def addEntry (s : State) (e : Entry) (l : List Entry) : List Entry :=
  let n := if raisedNow s e then (l.reverse.takeWhile fun x => raisedNow s x && decide (e.src < x.src)).length else 0
  l.take (l.length - n) ++ e :: l.drop (l.length - n)

/-- An entry placed into a host's event store (R806, R116): a masked entry is not stored (R805); a full store discards its oldest entry
of the lowest severity, counts it, and the new entry carries `LOST` (R819); the discard is due as event 0x18 (R807). -/
def storeEntry (e : Entry) (h : Nat) (p : State × Due) : State × Due :=
  let s := p.1
  if !maskOpen s h e.src then p
  else
    let st := nth s.evt.stores h []
    if st.length < 32 then
      let s1 := { s with evt.stores := s.evt.stores.set h (addEntry s e st) }
      (if st.isEmpty then eventNotice h s1 else s1, p.2)
    else
      let i := match weakest (st.map (·.sev)) with | some (i, _) => i | none => 0
      let st' := addEntry s { e with lost := true } (st.eraseIdx i)
      let s1 := { s with evt.stores := s.evt.stores.set h st', evt.loss := upd s.evt.loss h (fun n => satAdd 255 n 1), evt.since18 := s.evt.since18 + 1 }
      if secondPassed s s.evt.last18 then
        let d := det (inst2 h (b2n ((portHost s .uart) == some h))) 0 0 (s1.evt.since18 : Nat)
        ({ s1 with evt.last18 := some s.clk, evt.since18 := 0 }, p.2 ++ [(0x18, none, d)])
      else (s1, p.2)

/-- An entry appended to the outbound queue of a destination (R804). -/
def queueEntry (e : Entry) (pos : Nat) (p : State × Due) : State × Due :=
  let s := p.1
  let q := (s.evt.outq.lookup pos).getD []
  let put (l : List Entry) (s : State) : State :=
    { s with evt.outq := (pos, l) :: s.evt.outq.filter (fun x => x.1 != pos) }
  if q.length < 32 then (put (addEntry s e q) s, p.2)
  else
    let i := match weakest (q.map (·.sev)) with | some (i, v) => if v < e.sev then i else 0 | none => 0
    let s1 := put (addEntry s e (q.eraseIdx i)) { s with evt.oqLoss := satAdd 65535 s.evt.oqLoss 1, evt.since1F := s.evt.since1F + 1 }
    if secondPassed s s.evt.last1F then
      ({ s1 with evt.last1F := some s.clk, evt.since1F := 0 }, p.2 ++ [(0x1F, none, det pos 0 0 (s1.evt.since1F : Nat))])
    else (s1, p.2)

/-- The detail of a Lampblack event of group 0x90 about the log's state (R799). -/
def logDetail (slot : Nat) (s : State) : List Byte :=
  det 0 (s.log.next : Nat) (b2n s.log.dead + 2 * b2n s.log.freezeEnd.isSome + 4 * b2n s.log.lwFull + 8 * b2n s.log.lwFail : Nat) slot

/-- A queue of log entries with one added: where it is full, the oldest entry of the lowest severity present gives way to a more severe
one, else the new entry is lost; the flag says whether an entry was lost (R758, R772). -/
def boundedPush (cap : Nat) (q : List LogIn) (e : LogIn) : List LogIn × Bool :=
  if q.length < cap then (q ++ [e], false)
  else
    match weakest (q.map (·.sev)) with
    | some (i, v) => if v < e.sev then (q.eraseIdx i ++ [e], true) else (q, true)
    | none => (q, true)

/-- The freeze in force ends now (R771); event 0x99 is due, and 0x9A too where a severity-3 event ended it (R773). -/
def endFreeze (broken : Bool) (p : State × Due) : State × Due :=
  let s := p.1
  if s.log.freezeEnd.isNone then p
  else
    let s1 := { s with log.freezeEnd := none, log.lastFreeze := some s.clk, log.holdEvt := false }
    (s1, p.2 ++ [(0x99, none, logDetail 0 s1)] ++ (if broken then [(0x9A, none, logDetail 0 s1)] else []))

/-- An entry added to the write queue (R758): a lost entry counts, and event 0x98 is due on the first drop after a written record (R795). -/
def queueLog (e : LogIn) (s : State) : State × Due :=
  let r := boundedPush 16 s.log.queue e
  if r.2 then
    let s1 := { s with log.queue := r.1, log.drop := satAdd 65535 s.log.drop 1, log.gap := true, log.dropMarked := true }
    (s1, if s.log.dropMarked then [] else [(0x98, none, logDetail 0 s1)])
  else ({ s with log.queue := r.1 }, [])

/-- Lampblack takes in an event (R757, R758, R792): class 0 items into a reserved alarm slot, others into the write queue; a repeat of a
queued entry adds to its count; a severity-3 event ends a freeze (R771). -/
def logIntake (src : Nat) (d : List Byte) (p : State × Due) : State × Due :=
  let s := p.1
  let e : LogIn := { evid := src, sev := severity src, payload := d, rep := 0, alarm := src == 0x7A, held := false }
  let i := s.log.queue.findIdx fun q => q.evid == src && q.payload == d && q.rep < 0xFFFF
  let r : State × Due :=
    if src == 0x7A then
      if s.log.alarmq.length < 4 then ({ s with log.alarmq := s.log.alarmq ++ [e] }, [])
      else
        let j := s.log.alarmq.findIdx fun q => q.evid == src
        ({ s with log.alarmq := s.log.alarmq.eraseIdx (if j < 4 then j else 0) ++ [e], log.gap := true }, [])
    else if i < s.log.queue.length then
      ({ s with log.queue := upd s.log.queue i (fun q => { q with rep := q.rep + 1 }) }, [])
    else queueLog e s
  if severity src = 3 then endFreeze true (r.1, p.2 ++ r.2) else (r.1, p.2 ++ r.2)

/-- The member notes a wake source: one wake shows every source (R89, R96). -/
def noteWake (bit : Nat) (s : State) : State :=
  if s.sys.waking then { s with sys.wakeSrc := setBit s.sys.wakeSrc bit true }
  else { s with sys.wakeSrc := setBit 0 bit true, sys.waking := true }

/-- Decoding of `HB_IN` starts afresh (R283). -/
def hbAfresh (s : State) : State := { s with chain.hbDecided := false, chain.hbWords := [], chain.hbPass := [], chain.hbDuty := [] }

/-- IDLE is left, or an IDLE request is cancelled, for a cause of R65; the change of mode is due as event 0x04. No SAFETY host set the mode that follows (R182). -/
def leaveIdleDue (bit : Nat) (p : State × Due) : State × Due :=
  let s := { p.1 with sys.idleReq := false }
  if s.sys.mode == .idle then
    let s1 := hbAfresh { s with sys.mode := .active, sys.wakeSrc := setBit 0 bit true, cmd.safetyHeld := s.cmd.safetyHeld.filter (· != 21) }
    (s1, p.2 ++ [(0x04, none, sysDetail s1)])
  else (s, p.2)

/-- An accepted SENTINEL or SHIP request that is not yet in effect is abandoned for a wake source (R88). -/
def abandonEntry (p : State × Due) : State × Due :=
  let s := p.1
  if s.sys.pendingMode.isSome then
    let s1 := { s with sys.pendingMode := none, sys.refuse := 7 }
    (s1, p.2 ++ [(0x05, none, sysDetail s1)])
  else p

/-- What an event of severity 2 or 3 does to the power mode (R65, R88, R811). -/
def eventWake (src : Nat) (p : State × Due) : State × Due :=
  if severity src < 2 then p
  else
    let p1 := leaveIdleDue 6 p
    let p2 := if severity src = 3 ∧ p1.1.sys.pendingMode = some .sentinel then abandonEntry p1 else p1
    if p2.1.sys.mode == .sentinel then (noteWake 6 p2.1, p2.2) else p2

/-- Raising an event once: its number and entry, the routing to the local hosts, the other members, and Lampblack, and what it does to the
mode. The second part lists the events that this raise makes due. -/
def raiseCore (src : Nat) (only : Option Nat) (d : List Byte) (s : State) : State × Due :=
  let seq := nth s.evt.seqs src 0
  let e : Entry := { src := src, pos := if s.chain.addr then s.chain.pos else 0, sev := severity src, seq := seq,
                     stamp := eventStamp s, lost := false, detail := d }
  let s1 := { s with evt.seqs := s.evt.seqs.set src ((seq + 1) % 65536), evt.raisedAt := s.clk,
                     evt.raised := (src, seq) :: (if s.evt.raisedAt = s.clk then s.evt.raised else []) }
  let toHost (h : Nat) : Bool := match only with | some k => h == k | none => routesHost s src h
  let p1 := ((localHosts s).filter toHost).foldl (fun p h => storeEntry e h p) (s1, [])
  let remote := if s.chain.addr && src != 0x7A then
      (((List.range 4).filter toHost).filterMap fun h =>
        match binding s h with | some b => if b.pos == s.chain.pos then none else some b.pos | none => none).eraseDups
    else []
  let p2 := remote.foldl (fun p pos => queueEntry e pos p) p1
  let p3 := if routesLog s src then logIntake src d p2 else p2
  eventWake src p3

/-- Raising the events that are due, in order, with the events each makes due behind them; `fuel` bounds their number. -/
def raiseDue : Nat → Due → State → State
  | 0, _, s => s
  | _ + 1, [], s => s
  | n + 1, (src, only, d) :: t, s =>
    let r := raiseCore src only d s
    raiseDue n (t ++ r.2) r.1

/-- Raising an event (R796). -/
def raise (src : Nat) (d : List Byte) (s : State) : State := raiseDue 16 [(src, none, d)] s

/-- Raising the command-complete event for one host (R163, R800). -/
def raiseFor (h : Nat) (src : Nat) (d : List Byte) (s : State) : State := raiseDue 16 [(src, some h, d)] s

/-- Raising an event of group 0x00 that concerns no island and no image (R799). -/
def raiseSys (src : Nat) (s : State) : State := raise src (sysDetail s) s

/-- Running an operation that leaves events due, and raising them. -/
def settle (p : State × Due) : State := raiseDue 16 p.2 p.1

/-- A frame, kernel, packet or proof brings the member out of IDLE (R65). -/
def leaveIdle (bit : Nat) (s : State) : State := settle (leaveIdleDue bit (s, []))

/-- A command-complete event (R163, R164, R165): the result is held where the command is still among those kept, and the event is raised at every completion, on the port the
command came in by, or else the one its host is bound to. -/
def completeQueued (h : Fin 4) (seq : Nat) (result : List Byte) (s : State) : State :=
  let i := s.cmd.results.findIdx fun r => r.host == h && r.seq == seq && r.running
  let s1 := { s with cmd.results := upd s.cmd.results i fun r => { r with running := false, result := some result } }
  let port := match s.cmd.results[i]? with
    | some r => r.port
    | none => match binding s h.val with | some b => b2n b.uart | none => 0
  raiseFor h.val 0x10 (det (inst2 h.val port) seq 0 0) s1

/-! ## Jobs of the check-value units -/

/-- The address of `CHK_n_STAT` (R238). -/
def chkStatAt (n : Nat) : Nat := 0x3818 + 0x20 * n

/-- A job has held unit n: of a hardware client, which gives the unit back to the firmware job it suspended, or of the firmware (R209, R238). -/
def noteOwner (n : Nat) (hw : Bool) (s : State) : State :=
  { s with chk.units := upd s.chk.units n fun u => { u with owner := hw && !u.busy } }

/-- A check-value unit ends a compare-mode job (R211): `MATCH` or `MISMATCH`, and a mismatch is counted. -/
def compareDone (n : Nat) (ok hw : Bool) (s : State) : State :=
  let s1 := noteOwner n hw (noteOcc (chkStatAt n) (if ok then 4 else 8) s)
  { s1 with chk.units := upd s1.chk.units n fun u =>
      { u with matched := ok, mismatched := !ok, misCnt := if ok then u.misCnt else satAdd 255 u.misCnt 1 } }

/-- The detail of a check-unit event (R799): unit or channel, value, time state, `EPOCH`. -/
def chkDetail (inst val : Nat) (s : State) : List Byte := det (inst2 inst 0) val s.time.st.code s.time.epoch

/-- A compare-mode job with `EVT_EN` = 1 of a hardware client or of the member's own firmware ends: a mismatch raises the unit's event too (R211, R213, R214). -/
def compareJob (n : Nat) (ok hw : Bool) (val : Nat) (s : State) : State :=
  let s1 := compareDone n ok hw s
  if ok then s1 else raise (0x38 + n) (chkDetail n val s1) s1

end Sys2Proof.Machine
end

