-- ==== Sys2Proof/Machine/Clock.lean ====
section
/-! DEFINITION. One step of 10 ns of the local clock, and with it of the time counter (R312, R314): what the machine does while no command
waits (log 2). -/

namespace Sys2Proof.Machine

open Sys2Proof

/-- The time counter moved on by a number of nanoseconds, below one second (R312). -/
def addNs (n : Nat) (s : State) : State :=
  if s.time.ns + n < 1000000000 then { s with time.ns := s.time.ns + n }
  else { s with time.ns := s.time.ns + n - 1000000000, time.sec := s.time.sec + 1 }

/-- One step of the local clock: the time counter advances by 10 ns at the corrected rate (R312, R329) while the stack die is powered and the
member is not in SHIP (R65), where it stands still. -/
def clockTick (s : State) : State :=
  let s1 := { s with clk := s.clk + 1 }
  if s.sys.powered && s.sys.mode != .ship then
    let f := s.time.frac + s.time.freq
    let carry := f / 100000000
    addNs (10 + carry).toNat { s1 with time.frac := f % 100000000 }
  else s1

end Sys2Proof.Machine
end

