-- ==== Sys2Proof/Machine/ChainOps.lean ====
section
/-! DEFINITION. The chain's shared operations: the ports and their queues, the route of a frame, the streams an origin sends, link frames,
the state of the ring (R241 to R279). -/

namespace Sys2Proof.Machine

open Sys2Proof

/-- A chain port of the member. -/
def port (s : State) : Side → ChPort
  | .north => s.chain.north
  | .south => s.chain.south

/-- The state with a chain port changed. -/
def setPort (sd : Side) (f : ChPort → ChPort) (s : State) : State :=
  match sd with
  | .north => { s with chain.north := f s.chain.north }
  | .south => { s with chain.south := f s.chain.south }

/-- The other port. -/
def otherSide : Side → Side
  | .north => .south
  | .south => .north

/-- 0 for north, 1 for south (R799). -/
def sideCode : Side → Nat
  | .north => 0
  | .south => 1

/-- The port carries traffic of every class: `ACTIVE` or `DEGRADED` (R272). -/
def portUp (p : ChPort) : Bool := p.st == .active || p.st == .degraded

/-- The frame length n of R108: start delimiter, header, body, CRC. -/
def frameLen (f : Frame) : Nat := 1 + 16 + f.body.length + 4

/-- The blocks of 64 bytes that a length takes (R108). -/
def blocksOf (n : Nat) : Nat := (n + 63) / 64

/-- The blocks the largest frame of a class takes; link and beacon frames are limited to one block (R108, R246). -/
def classLimit (c : Nat) : Nat := if c ≤ 1 then 1 else if c = 2 then 4 else if c ≤ 5 then 9 else 1

/-- A frame this member originates, before its stream numbers it (R244, R253, R255). -/
def mkFrame (s : State) (cls dest kind plen : Nat) (multi tag : Bool) (body : List Byte) : Frame :=
  { cls := cls, blk := blocksOf (21 + body.length), south := false, dest := dest, orig := if s.chain.addr then s.chain.pos else 0,
    turned := false, first := false, kind := kind, rexmit := false, tag := tag, seq := 0, twin := false, multi := multi,
    plen := plen, hops := 0, cred := [], rxbad := 0, body := body }

/-- The detail of a chain event about a port (R799). -/
def portDetail (s : State) (sd : Side) (ext : Nat) : List Byte :=
  let p := port s sd
  det (inst2 (sideCode sd) 0) (p.tec + 256 * p.recErr : Nat) p.st.code ext

/-- A frame of this member put into a port's transmit queue, in the port's direction. -/
def enqueue (sd : Side) (f : Frame) (s : State) : State :=
  setPort sd (fun p => { p with txq := p.txq ++ [{ frame := { f with south := sd == .south }, transit := false, holds := none, came := none }] }) s

/-- A beacon frame of this member put into a port's queue, with the instant from which its stamp counts. -/
def enqueueAt (sd : Side) (inst : Int) (f : Frame) (s : State) : State :=
  setPort sd (fun p => { p with txq := p.txq ++ [{ frame := { f with south := sd == .south }, transit := false, holds := none, came := some inst }] }) s

/-- A link frame put into a port's link buffer of 4 entries; where it is full the frame is discarded, counted and reported (R308, R311). -/
def enqueueLink (sd : Side) (f : Frame) (s : State) : State :=
  if (port s sd).linkq.length < 4 then
    setPort sd (fun p => { p with linkq := p.linkq ++ [{ f with south := sd == .south }] }) s
  else raise 0x2F (portDetail s sd 0) { s with chain.linkDrop := satAdd 255 s.chain.linkDrop 1 }

/-- The hops of the path from a position up to another, over a ring of n (R276). -/
def hopsNorth (n a b : Nat) : List Nat := (List.range ((b + n - a) % n)).map fun i => (a + i) % n

/-- No hop of a list is dead. -/
def clearHops (s : State) (l : List Nat) : Bool := l.all fun h => !s.chain.dead.getLsbD h

/-- The port an origin sends a unicast frame by (R276): northward where that path is clear, else southward; none where the destination is
unreachable. A position at or above N lies round the whole ring, northward, while no hop is dead. -/
def routeTo (s : State) (dest : Nat) : Option Side :=
  let n := s.chain.n
  if dest < n then
    if clearHops s (hopsNorth n s.chain.pos dest) then some .north
    else if clearHops s (hopsNorth n dest s.chain.pos) then some .south
    else none
  else if s.chain.dead = 0 then some .north else none

/-- A transmitted stream's key matches. -/
def txIs (dest : Nat) (multi : Bool) (cls : Nat) (twin : Bool) (t : TxStream) : Bool :=
  (t.multi == multi) && (t.cls == cls) && (t.twin == twin) && (multi || t.dest == dest)

/-- The stream of a key, new where there is none yet: its counter starts at 0 and its first frame carries `FIRST` (R259). -/
def txGet (s : State) (dest : Nat) (multi : Bool) (cls : Nat) (twin : Bool) : TxStream :=
  (s.chain.tx.find? (txIs dest multi cls twin)).getD
    { dest := if multi then 255 else dest, multi := multi, cls := cls, twin := twin, next := 0, firstDue := true, unacked := [],
      sent := 0, rounds := 0, legs := 0, back := [], ackN := none, ackS := none }

/-- The stream of a key stored. -/
def txPut (t : TxStream) (s : State) : State :=
  if s.chain.tx.any (txIs t.dest t.multi t.cls t.twin) then
    { s with chain.tx := s.chain.tx.map fun u => if txIs t.dest t.multi t.cls t.twin u then t else u }
  else { s with chain.tx := s.chain.tx ++ [t] }

/-- One frame of a stream put on the line's queues: a unicast frame by its route; a twin copy by its own direction while that path is clear
(R264, R265); a multi frame northward, or out of both ports while any hop is dead (R278). The second part is false where no path is clear. -/
def dispatchFrame (t : TxStream) (f : Frame) (s : State) : State × Bool :=
  if t.multi then
    if s.chain.dead = 0 then (txPut { t with legs := 1 } (enqueue .north f s), true)
    else
      let n := (port s .north).st != .linkDead && portUp (port s .north)
      let so := portUp (port s .south)
      let s1 := if n then enqueue .north f s else s
      let s2 := if so then enqueue .south f s1 else s1
      (txPut { t with legs := b2n n + 2 * b2n so } s2, n || so)
  else if t.cls = 1 then
    let n := s.chain.n
    let clear := if t.twin then clearHops s (hopsNorth n f.dest s.chain.pos) else clearHops s (hopsNorth n s.chain.pos f.dest)
    if clear then (enqueue (if t.twin then .south else .north) f s, true) else (s, false)
  else
    match routeTo s f.dest with
    | some sd => (enqueue sd f s, true)
    | none => (s, false)

/-- A stream sends its waiting frames while fewer than 8 are unacknowledged (R261); `fuel` bounds the number. -/
def pump : Nat → Nat → Bool → Nat → Bool → State → State
  | 0, _, _, _, _, s => s
  | k + 1, dest, multi, cls, twin, s =>
    let t := txGet s dest multi cls twin
    if t.sent < 8 then
      match t.unacked[t.sent]? with
      | some f =>
        let r := dispatchFrame t f s
        if r.2 then
          let t' := txGet r.1 dest multi cls twin
          pump k dest multi cls twin (txPut { t' with sent := t'.sent + 1 } r.1)
        else s
      | none => s
    else s

/-- A frame numbered in its stream, kept until it is acknowledged, and sent as soon as the stream may (R256, R261). -/
def sendStream (twin : Bool) (f : Frame) (s : State) : State :=
  let t := txGet s f.dest f.multi f.cls twin
  let g := { f with seq := t.next, first := t.firstDue, twin := twin }
  let t' := { t with next := (t.next + 1) % 16384, firstDue := false, unacked := t.unacked ++ [g] }
  pump 8 f.dest f.multi f.cls twin (txPut t' s)

/-- Whether a unicast frame to a position is treated at once as returned: no member holds it, and some hop is dead (R276, R303). -/
def returnsAtOnce (s : State) (dest : Nat) : Bool := !(dest < s.chain.n) && s.chain.dead != 0

/-- An ALARM frame sent out of both ports at once with the same counter and held until it is acknowledged (R118, R263): a full hold store gives
up the oldest frame of the same source, or else the oldest. A member without a position sends none (R255). -/
def sendAlarm (e : Entry) (s : State) : State :=
  let t := txGet s 255 true 0 false
  let f := { mkFrame s 0 0xFF 0xA 16 true false (entryBytes e) with seq := t.next, first := t.firstDue }
  let s1 := txPut { t with next := (t.next + 1) % 16384, firstDue := false } s
  let out (sd : Side) : Bool := s.chain.addr && (port s sd).st != .linkDead
  let last (sd : Side) : Option Nat := if out sd then some s.clk else none
  let h : Held := { src := e.src, seq := e.seq, frame := f, returned := false, lastN := last .north, lastS := last .south }
  let q := s1.evt.hold
  let q' :=
    if q.length < 8 then q ++ [h]
    else
      let j := q.findIdx fun x => x.src == e.src
      q.eraseIdx (if j < q.length then j else 0) ++ [h]
  let s2 := { s1 with evt.hold := q' }
  let s3 := if out .north then enqueue .north f s2 else s2
  if out .south then enqueue .south f s3 else s3

/-- An acknowledgement entry (R260). -/
def ackEntry (cls : Nat) (nak multi twin : Bool) (counter : Nat) : List Byte :=
  le 1 (cls % 8 + 8 * b2n nak + 16 * b2n multi + 32 * b2n twin) ++ le 2 (counter % 16384)

/-- An `ACK` frame of one entry sent to an origin by its route (R260); a NAK is counted when it is sent (R308). A member without a position sends none (R255). -/
def sendAck (dest : Nat) (entry : List Byte) (s : State) : State :=
  match if s.chain.addr then routeTo s dest else none with
  | some sd =>
    let s1 := if bitN (field entry 0 1) 3 then { s with chain.nakCnt := satAdd 255 s.chain.nakCnt 1 } else s
    enqueueLink sd (mkFrame s1 6 dest 0x5 3 false false entry) s1
  | none => s

/-- The hop number of a member's port (R275): hop h joins position h's north port to position h + 1's south port. -/
def hopOf (s : State) : Side → Nat
  | .north => s.chain.pos
  | .south => if s.chain.n = 0 then 63 else (s.chain.pos + s.chain.n - 1) % s.chain.n

/-- The hop of a member's port is among the dead hops it knows (R275). -/
def hopDead (s : State) (sd : Side) : Bool := s.chain.addr && s.chain.n != 0 && s.chain.dead.getLsbD (hopOf s sd)

/-- The state of the ring from the dead hops (R279): open while hop N − 1 has never been up since the enumeration and no other hop is dead, reversed when another is. A reset
that keeps N forgets the dead hops and keeps whether hop N − 1 has been up (log 147). -/
def ringNow (c : ChainSt) : Ring :=
  if c.ring == .notEnumerated then .notEnumerated
  else if c.forcedOpen then .opened
  else if !c.topUp && (c.dead &&& ~~~BitVec.ofNat 64 (2 ^ (c.n - 1))) == 0 then .opened
  else if c.dead = 0 then .closed
  else .reversed

/-- `RING` follows the dead hops; a change raises event 0x27 (R279). -/
def updateRing (s : State) : State :=
  let r := ringNow s.chain
  if r == s.chain.ring then s
  else
    let s1 := { s with chain.ring := r }
    raise 0x27 (det (inst2 (((List.range 64).find? fun i => s.chain.dead.getLsbD i).getD 0) 0) 0 r.code 0) s1

/-- A hop is noted dead or healed (R275). -/
def noteHop (hop : Nat) (isDead : Bool) (s : State) : State :=
  updateRing { s with chain.dead := setBit s.chain.dead hop isDead,
                      chain.topUp := s.chain.topUp || (!isDead && hop + 1 == s.chain.n) }

/-- A `BREAK` link frame broadcast out of a port, by a member that knows its hop (R255, R275). -/
def sendBreak (out : Side) (hop : Nat) (healed : Bool) (s : State) : State :=
  if s.chain.addr && s.chain.n != 0 then
    enqueueLink out (mkFrame s 6 0xFF 0x6 2 false false (le 1 hop ++ le 1 (b2n healed))) s
  else s

/-- The `LINK_UP` frame with the figures of R108 (R109, R245). -/
def linkUpFrame (s : State) : Frame :=
  mkFrame s 6 0xFC 0x1 8 false false (le 1 2 ++ le 1 2 ++ le 1 8 ++ le 1 18 ++ le 1 18 ++ le 1 18 ++ le 1 14 ++ le 1 1)

/-- A `LINK_UP` queued on a port; both ends count their freed blocks anew with it (R109, R273). -/
def sendLinkUp (sd : Side) (s : State) : State :=
  let one (i : TxItem) : TxItem := if i.holds == some sd then { i with holds := none } else i
  let drop (p : ChPort) : ChPort := { p with txq := p.txq.map one, line := p.line.map one }
  let s1 := setPort .north drop (setPort .south drop s)
  enqueueLink sd (linkUpFrame s) (setPort sd (fun p => { p with upSent := true, upErr := false, freed := [0, 0, 0, 0, 0, 0], rxUsed := [0, 0, 0, 0, 0, 0] }) s1)

/-- An `ENUM` frame with a next position, sent to the neighbour (R245, R266). -/
def sendEnum (sd : Side) (next : Nat) (s : State) : State :=
  enqueueLink sd (mkFrame s 6 0xFC 0x2 2 false false (le 1 next ++ le 1 0)) s

end Sys2Proof.Machine
end

