-- ==== Sys2Proof/Machine/ChainWire.lean ====
section
/-! DEFINITION. A frame as bytes on the line, and the line's slots: the link header and the frame CRC byte for byte, what a reception of raw bytes stands for, when an
end may start (R11, R241 to R250). -/

namespace Sys2Proof.Machine

open Sys2Proof

/-! ## Bytes -/

/-- The 16 bytes of the link header (R244, R11). -/
def headerBytes (f : Frame) : List Byte :=
  le 1 (f.cls % 8 + 8 * (f.blk % 16) + 128 * b2n f.south) ++ le 1 f.dest ++ le 1 (f.orig % 64 + 64 * b2n f.turned + 128 * b2n f.first) ++
    le 1 (f.kind % 16 + 16 * b2n f.rexmit + 32 * b2n f.tag) ++ le 2 (f.seq % 16384 + 16384 * b2n f.twin + 32768 * b2n f.multi) ++
    le 2 (f.plen % 1024 + 1024 * (f.hops % 64)) ++ ((List.range 6).map fun k => le 1 (nth f.cred k 0)).flatten ++ le 1 f.rxbad ++ le 1 0

/-- A frame from its start delimiter 0xE7 through its CRC-32C (R243, R253): header and body, with the CRC over both. -/
def frameBytes (f : Frame) : List Byte :=
  let l := headerBytes f ++ f.body
  0xE7 :: (l ++ le 4 (crc32c l).toNat)

/-- The frame that a link header and a body spell (R244); its reserved bits are not looked at (log 146). -/
def frameOf (h body : List Byte) : Frame :=
  let ctl := field h 0 1
  let o := field h 2 1
  let k := field h 3 1
  let q := field h 4 2
  let p := field h 6 2
  { cls := bits ctl 2 0, blk := bits ctl 6 3, south := bitN ctl 7, dest := field h 1 1, orig := bits o 5 0, turned := bitN o 6, first := bitN o 7,
    kind := bits k 3 0, rexmit := bitN k 4, tag := bitN k 5, seq := bits q 13 0, twin := bitN q 14, multi := bitN q 15, plen := bits p 9 0,
    hops := bits p 15 10, cred := (List.range 6).map fun i => field h (8 + i) 1, rxbad := field h 14 1, body := body }

/-- The frame length n of R108 in local clock steps from the beginning of the preamble to the end of the delimiter (R241, R243): 8 bits of 125 ns a byte, two bytes
before it, two bit times after it. -/
def lineTime (n : Nat) : Nat := 100 * (n + 2) + 25

/-- What bytes received from the start delimiter up to ED stand for (R243, R246, R247): the frame, and how it counts. -/
def rawFrame (l : List Byte) : Option Frame × LineQ :=
  match l with
  | [] => (none, .codeBad)
  | d :: r =>
    if d ≠ 0xE7 ∨ r.length < 16 then (none, .codeBad)
    else
      let f := frameOf (r.take 16) ((r.drop 16).take (r.length - 20))
      if 512 < f.plen then (some f, .tooLong)
      else if r.length < 20 then (some f, .codeBad)
      else if (crc32c (r.take (r.length - 4))).toNat = field r (r.length - 4) 4 then (some f, .ok)
      else (some f, .crcBad)

/-- A reception as a frame and how the line delivered it: raw bytes stand for themselves. -/
def arrived (f : Frame) (lq : LineQ) : Frame × LineQ :=
  match lq with
  | .raw l => let r := rawFrame l; (r.1.getD f, r.2)
  | _ => (f, lq)

/-! ## Slots -/

/-- A slot open to a class begins some local clock steps after the last end on the hop (R248): 1.0 µs of silence, six slots of 0.5 µs taken in turn by the receiving
and the sending end, and then any instant. -/
def slotOpen (receiving : Bool) (t cls : Nat) : Bool :=
  if t < 100 then false
  else
    let k := (t - 100) / 50
    if 6 ≤ k then true
    else (t - 100) % 50 == 0 && ((k % 2 == 0) == receiving) && (4 ≤ k || cls == 0 || (2 ≤ k && (cls == 1 || cls == 7)))

/-- The line of a port is idle: no frame of this end, and no tone, is on it (R248). -/
def lineIdle (p : ChPort) (clk : Nat) : Bool := match p.lineEnd with | some e => decide (e ≤ clk) | none => true

/-- A frame of a class may start on a port now (R248, R249): before any end seen on the hop, only after 2 ms without carrier. -/
def mayStart (p : ChPort) (clk cls : Nat) : Bool :=
  lineIdle p clk && (p.anyTime || (match p.lineEnd with | some e => slotOpen (!p.sentLast) (clk - e) cls | none => false))

/-- A frame that came in or a tone has ended on a hop: the slots count from here, with the sending end as told (R248, R249). -/
def lineEnds (sent : Bool) (at_ : Nat) (p : ChPort) : ChPort := { p with lineEnd := some at_, sentLast := sent, anyTime := false }

/-- The hop was past S5 a number of clock steps ago, when a frame began to come in on the other port (R252). -/
def pastS5 (p : ChPort) (clk ago : Nat) : Bool :=
  match p.lineEnd with
  | some e => decide (e + 400 + ago ≤ clk)
  | none => p.anyTime

/-- The local clock in 1/16 ns, a number of steps from now, with the place within the step (R312, R314). -/
def localFine (s : State) (steps : Int) (frac : Nat) : Int := ((s.clk : Int) + steps) * 160 + frac

/-- The clock steps from the start-delimiter instant of a frame that has come in to its end (R323). -/
def sinceSd (f : Frame) : Int := (lineTime (frameLen f) : Int) - 300

end Sys2Proof.Machine
end

