-- ==== Sys2Proof/Machine/HostOps.lean ====
section
/-! DEFINITION. The reply stores of the host ports and what becomes of a command's outcome: reply slots, the order of release, the status
slot, combined replies, tags on replies, `QUEUED` results (R113, R123, R151 to R171, R202). -/

namespace Sys2Proof.Machine

open Sys2Proof

/-- Status codes (R152). -/
def stOk : Nat := 0x00
def stQueued : Nat := 0x01
def stBadOpcode : Nat := 0x10
def stBadParam : Nat := 0x11
def stBadDev : Nat := 0x12
def stNoTarget : Nat := 0x13
def stFraming : Nat := 0x20
def stLenTooLong : Nat := 0x21
def stCrcFail : Nat := 0x22
def stAuthFail : Nat := 0x23
def stOverruled : Nat := 0x2C
def stNotFitted : Nat := 0x30
def stSealed : Nat := 0x31
def stLockedOut : Nat := 0x40
def stNoCredit : Nat := 0x41
def stNoReply : Nat := 0x42
def stDuplicate : Nat := 0x50

/-- The state with a port's reply store changed. -/
def setBuf (p : HPort) (f : PortBuf → PortBuf) (s : State) : State :=
  match p with
  | .spi => { s with host.spi := f s.host.spi }
  | .uart => { s with host.uart := f s.host.uart }

/-- 0 for SPI, 1 for UART (R203). -/
def hportCode : HPort → Nat
  | .spi => 0
  | .uart => 1

/-- The detail of a host-port event: host id and port, sequence number, status, count (R799). -/
def hostDetail (hdr : BitVec 16) (p : HPort) (status count : Nat) : List Byte :=
  det (inst2 (hdr.toNat % 4) (hportCode p)) (hdr.toNat / 16 : Nat) status count

/-- An `AUTH_FAIL` reply that leaves a host port is counted, and reported by event 0x12 at most once per second (R202). -/
def countAuth (p : HPort) (r : Reply) (s : State) : State :=
  if r.status ≠ stAuthFail then s
  else
    let s1 := { s with host.authCnt := satAdd 255 s.host.authCnt 1, host.sinceAuth := s.host.sinceAuth + 1 }
    if secondPassed s s.host.lastAuthEvt then
      raise 0x12 (hostDetail r.hdr p stAuthFail s1.host.sinceAuth) { s1 with host.lastAuthEvt := some s.clk, host.sinceAuth := 0 }
    else s1

/-- What is noted when a reply leaves a store: `AUTH_FAIL` is counted (R202) unless it is sent again (R171), a `NO_REPLY` of the port raises event 0x15 (R812). -/
def noteReleased (p : HPort) (r : Reply) (s : State) : State :=
  if r.status = stNoReply ∧ r.data = [] then raise 0x15 (hostDetail r.hdr p stNoReply 1) s
  else if r.replay then s
  else countAuth p r s

/-- A released item leaves for the port's output, its check value a job of `CHK_0` (R206): on SPI it waits there until it is delivered, on UART it is sent at once (R155), and
lost where the port does not drive `TXD` (log 150). -/
def output (p : HPort) (fromSlot : Bool) (r : Reply) (s : State) : State :=
  let s1 := noteOwner 0 true s
  match p with
  | .spi => setBuf .spi (fun b => { b with outq := b.outq ++ [(fromSlot, r)] }) s1
  | .uart => if uartSends s then { s1 with host.txd := s.host.txd ++ [uartFrame (replyBytes r)] } else s1

/-- The host a slot's command came from. -/
def slotHost (sl : Slot) : Nat := sl.hdr.toNat % 4

/-- The host a port's status item is for: the one bound to the port, whatever the header says (R191), or the one the header names. -/
def statusHost (p : HPort) (r : Reply) (s : State) : Nat := (portHost s p).getD (r.hdr.toNat % 4)

/-- How many commands of a host still wait for the release of their reply. -/
def openSlots (b : PortBuf) (h : Nat) : Nat := (b.slots.filter fun x => slotHost x == h && !x.released).length

/-- The first slot whose reply may be released: it is there, and no earlier command of its host waits (R123). `held` lists the hosts with one that does. -/
def readySlot (held : List Nat) : Nat → List Slot → Option (Nat × Slot × Reply)
  | _, [] => none
  | i, x :: t =>
    if x.released || held.contains (slotHost x) then readySlot held (i + 1) t
    else
      match x.reply with
      | some r => some (i, x, r)
      | none => readySlot (slotHost x :: held) (i + 1) t

/-- The status item that may be released: every earlier command of its host is answered, and no earlier status item is undelivered (R155). -/
def readyStatus (p : HPort) (s : State) : Option (Reply × Word) :=
  let b := portBuf s p
  match b.status with
  | some (waits, r, c) =>
    if (waits = 0 ∨ openSlots b (statusHost p r s) = 0) ∧ !b.outq.any (fun x => !x.1) then some (r, c) else none
  | none => none

/-- A rejection that is lost: counted, and reported by event 0x17 (R155, R213). -/
def rejectLost (p : HPort) (r : Reply) (s : State) : State :=
  raise 0x17 (hostDetail r.hdr p r.status 1) { s with host.rejLost := satAdd 255 s.host.rejLost 1 }

/-- The status item leaves its slot (R155): a rejection is checked again on `CHK_0` against the value it was stored with, and discarded where that fails (R206, R213). -/
def releaseStatus (p : HPort) (r : Reply) (c : Word) (s : State) : State :=
  let s1 := setBuf p (fun b => { b with status := none }) s
  if r.replay then noteReleased p r (output p false r s1)
  else
    let ok := replyCrc r == c
    let s2 := compareJob 0 ok false c.toNat s1
    if ok then noteReleased p r (output p false r s2) else rejectLost p r s2

/-- A reply joins the last 8 kept for its host (R171). -/
def keepReply (k : Kept) (l : List Kept) : List Kept := k :: (l.filter fun x => x.host == k.host).take 7 ++ l.filter fun x => x.host != k.host

/-- The reply of a slot leaves it (R123, R171): it is kept, unless the port produced it itself, and the status item of its host waits for one fewer. -/
def releaseSlot (p : HPort) (i : Nat) (sl : Slot) (r : Reply) (s : State) : State :=
  let f (b : PortBuf) : PortBuf :=
    { b with
      slots := match p with
        | .spi => upd b.slots i (fun x => { x with released := true })
        | .uart => b.slots.eraseIdx i
      kept := if sl.ownReply then b.kept else keepReply { host := slotHost sl, seq := sl.seq, reply := r, crc := replyCrc r } b.kept
      status := b.status.map fun x => if statusHost p x.2.1 s = slotHost sl then (x.1 - 1, x.2) else x }
  noteReleased p r (output p true r (setBuf p f s))

/-- One item is released from a port's store: the status item where it may be, or else the next reply in its host's order (R123, R155); none where nothing may be. -/
def releaseOne (p : HPort) (s : State) : Option State :=
  match readyStatus p s with
  | some (r, c) => some (releaseStatus p r c s)
  | none => (readySlot [] 0 (portBuf s p).slots).map fun x => releaseSlot p x.1 x.2.1 x.2.2 s

/-- Everything that may be released from a port's store is (R123). -/
def releaseAll : Nat → HPort → State → State
  | 0, _, s => s
  | n + 1, p, s =>
    match releaseOne p s with
    | some t => releaseAll n p t
    | none => s

/-- The release of a port's store; at most 8 replies of each host and two status items leave it at once. -/
def release (p : HPort) (s : State) : State := releaseAll 34 p s

/-- An item for the status slot (R155): it waits for the replies to the earlier admitted commands of its host; a newer item replaces an unreleased one, which is lost. -/
def toStatus (p : HPort) (r : Reply) (s : State) : State :=
  let b := portBuf s p
  let s1 := setBuf p (fun b => { b with status := some (openSlots b (statusHost p r s), r, replyCrc r) }) s
  release p (match b.status with | some x => rejectLost p x.2.1 s1 | none => s1)

/-- A reply without data, flags or tag. -/
def bareReply (hdr : BitVec 16) (status : Nat) : Reply :=
  { hdr := hdr, status := status, replay := false, more := false, data := [], tag := none }

/-- A rejection by the entry port goes to the status slot (R155). -/
def reject (p : HPort) (hdr : BitVec 16) (status : Nat) (s : State) : State := toStatus p (bareReply hdr status) s

/-- The tag a reply carries (R170): over the counter value its command used, direction 0x01; a `TAG_SYNC` reply over C, direction 0x02. -/
def tagReply (s : State) (h : Nat) (tagC : Option Nat) (sync : Bool) (r : Reply) : Reply :=
  let key := nth s.nv.keys h []
  let body (r : Reply) : List Byte := replyHead { r with tag := some [] }
  if sync then { r with tag := some (tagOf key (nth s.nv.tagC h 0) 0x02 (body r)) }
  else match tagC with
    | some c => { r with tag := some (tagOf key c 0x01 (body r)) }
    | none => r

/-- A reply of the entry port's own for the command in a slot, tagged where the command's tag verified (R170). -/
def slotReply (s : State) (sl : Slot) (status : Nat) : Reply := tagReply s (slotHost sl) sl.tagC false (bareReply sl.hdr status)

/-- A slot's reply is set, and whatever may now be released is. -/
def fillSlot (p : HPort) (i : Nat) (own : Bool) (r : Reply) (s : State) : State :=
  release p (setBuf p (fun b => { b with slots := upd b.slots i fun x => { x with reply := some r, ownReply := own } }) s)

/-- The data of a combined reply (R159): per position its status, 0xFF outside the group, 0xFE where nothing was reported. -/
def combinedData (n : Nat) (reports : List (Nat × Nat × Bool)) : List Nat :=
  (List.range n).map fun pos =>
    match reports.find? (fun x => x.1 == pos) with
    | some (_, st, outside) => if outside then 0xFF else st
    | none => 0xFE

/-- The status of a combined reply (R159). -/
def combinedStatus (data : List Nat) : Nat :=
  match data.find? (fun d => d != 0xFF && d != stOk && d != stQueued) with
  | some d => if d = 0xFE then stNoReply else d
  | none => stOk

/-- The combined reply of the group or broadcast command in a slot (R159, R161). -/
def combine (p : HPort) (i : Nat) (s : State) : State :=
  match (portBuf s p).slots[i]? with
  | some sl =>
    let d := combinedData s.chain.n sl.reports
    let r := { bareReply sl.hdr (combinedStatus d) with data := d.map (BitVec.ofNat 8) }
    fillSlot p i false (tagReply s (slotHost sl) sl.tagC false r) s
  | none => s

/-- The combined reply leaves once the frame has returned and every enumerated position has reported (R159). -/
def combineIfComplete (p : HPort) (i : Nat) (s : State) : State :=
  match (portBuf s p).slots[i]? with
  | some sl =>
    if sl.returned && sl.reply.isNone && (List.range s.chain.n).all (fun pos => sl.reports.any fun x => x.1 == pos) then combine p i s else s
  | none => s

/-- The slot of a host's command by its sequence number that still waits for its reply. -/
def slotIdx (b : PortBuf) (h seq : Nat) : Nat := b.slots.findIdx fun x => slotHost x == h && x.seq == seq && x.reply.isNone

/-- The oldest slot of a sequence number that still waits for its reply, whichever host's it is. -/
def waitingSlot (b : PortBuf) (seq : Nat) : Nat := b.slots.findIdx fun x => x.seq == seq && x.reply.isNone

/-- A reply that comes too late is discarded and counted (R158, R161). -/
def lateReply (s : State) : State := { s with host.late := satAdd 255 s.host.late 1 }

/-- A sequence number joins the host's last 64 admitted; a reply kept under that number of an earlier round is none of the new command's (R171, R192). -/
def noteAdmitted (h seq : Nat) (b : PortBuf) : PortBuf :=
  { b with admitted := (h, seq) :: (b.admitted.filter fun x => x.1 == h).take 63 ++ b.admitted.filter (fun x => x.1 != h),
           kept := b.kept.filter fun x => x.host != h || x.seq != seq }

/-- The header of a command or reply (R148). -/
def headerOf (rq : Req) : BitVec 16 := BitVec.ofNat 16 (rq.host.val + 4 * authCode rq.auth + 16 * rq.seq.toNat)

/-- A status report of a group or broadcast command from a position enters the slot (R159, R160). -/
def reportTo (p : HPort) (h seq pos status : Nat) (outside : Bool) (s : State) : State :=
  let b := portBuf s p
  let i := slotIdx b h seq
  if i < b.slots.length then
    combineIfComplete p i
      (setBuf p (fun b => { b with slots := upd b.slots i fun x => { x with reports := x.reports ++ [(pos, status, outside)] } }) s)
  else lateReply s

/-- A reply for a command of one of this member's hosts (R123). A command row that names a port but that no packet admitted stands for its admission
too: it takes a slot of its own (log 8). -/
def replyTo (p : HPort) (rq : Req) (sync : Bool) (r : Reply) (s : State) : State :=
  let b := portBuf s p
  let h := rq.host.val
  let seq := rq.seq.toNat
  let i := slotIdx b h seq
  if i < b.slots.length then
    fillSlot p i false (tagReply s h (match b.slots[i]? with | some sl => sl.tagC | none => none) sync r) s
  else if b.admitted.contains (h, seq) then lateReply s
  else
    let sl : Slot := { seq := seq, hdr := r.hdr, dev := rq.dev.toNat, tagC := none, reports := [], returned := false, reply := none,
                       ownReply := false, released := false }
    let s1 := setBuf p (fun b => noteAdmitted h seq { b with slots := b.slots ++ [sl] }) s
    fillSlot p b.slots.length false (tagReply s h none sync r) s1

/-- The member is addressed by a `DEV` byte: its position, 0xFD at the entry member, broadcast, or the group it is in (R148, R270). -/
def addressed (s : State) (dev : Nat) : Bool :=
  dev == 0xFD || dev == 0xFF || (dev == 0xFE && rf s.regs.chainCfg 0 0 == 1) || (s.chain.addr && dev == s.chain.pos)

/-- The outcome of a command: the state after it, the status, the data, whether more can be read (R151), and whether a `QUEUED` command is among those kept
already. -/
structure Res where
  st : State
  status : Nat
  data : List Byte := []
  more : Bool := false
  kept : Bool := false

/-- A result with status only. -/
def Res.of (status : Nat) (s : State) : Res := { st := s, status := status }

/-- The executing member answers a command (R156, R160): to its own host port, as a report where the command was sent to a group, or as a
`RESPONSE` frame to the entry member. `outside` says that the member is outside the group addressed. -/
def respond (rq : Req) (sync outside : Bool) (r : Res) : State :=
  let s := r.st
  let grp := rq.dev.toNat == 0xFE || rq.dev.toNat == 0xFF
  let reply : Reply := { hdr := headerOf rq, status := r.status, replay := false, more := r.more, data := r.data, tag := none }
  match rq.orig with
  | .port p => if grp then reportTo p rq.host.val rq.seq.toNat s.chain.pos r.status outside s else replyTo p rq sync reply s
  | .chain pos =>
    let reply' := if grp then { reply with data := le 1 (b2n outside), more := false } else reply
    sendStream false (mkFrame s 3 pos 0x9 reply'.data.length false false (replyBytes reply')) s

/-- The port of a command's host, 0 SPI and 1 UART: where the command came in, or the host's binding (R203, R799). -/
def reqPort (rq : Req) (s : State) : Nat :=
  match rq.orig with
  | .port p => hportCode p
  | .chain _ => match binding s rq.host.val with | some b => b2n b.uart | none => 0

/-- A command that answered `QUEUED` is kept with its sequence number, among the host's last 16 (R165). -/
def keepQueued (rq : Req) (s : State) : State :=
  let mine := (s.cmd.results.filter fun r => r.host == rq.host).take 15
  let rest := s.cmd.results.filter fun r => r.host != rq.host
  let new : QRes := { host := rq.host, seq := rq.seq.toNat, running := true, result := none, returned := false, port := reqPort rq s }
  { s with cmd.results := new :: mine ++ rest }

end Sys2Proof.Machine
end

