-- ==== Sys2Proof/Machine/Cmd.lean ====
section
/-! DEFINITION. The opcode table of R176 and what every command shares at its executing member: the checks of steps 11 to 13, the orders that
a SAFETY host holds (R182), the reply. -/

namespace Sys2Proof.Machine

open Sys2Proof

/-- A row of the opcode table: the authorities permitted as a mask (1 OPERATOR, 2 ENERGY, 4 METER, 8 SAFETY), flag B, and the bounds of the
parameter count (R176). -/
structure OpRow where
  auth : Nat
  bcast : Bool
  lo : Nat
  hi : Nat

/-- The opcode table of R176: the rows below 0x60. -/
def opTableA : List (Nat × OpRow) :=
  [(0x00, ⟨15, true, 0, 0⟩), (0x01, ⟨15, false, 0, 0⟩), (0x02, ⟨15, false, 3, 3⟩), (0x03, ⟨9, true, 10, 10⟩),
   (0x04, ⟨9, true, 2, 2⟩), (0x05, ⟨9, true, 1, 1⟩), (0x06, ⟨12, false, 4, 4⟩), (0x07, ⟨1, false, 1, 1⟩),
   (0x10, ⟨15, false, 1, 1⟩), (0x11, ⟨15, false, 3, 3⟩), (0x12, ⟨15, false, 20, 20⟩), (0x13, ⟨15, false, 2, 2⟩),
   (0x20, ⟨1, false, 0, 0⟩), (0x21, ⟨11, false, 0, 0⟩)] ++
  [(0x30, ⟨1, false, 10, 10⟩), (0x31, ⟨15, false, 0, 0⟩), (0x40, ⟨11, false, 0, 0⟩), (0x41, ⟨11, false, 0, 0⟩),
   (0x42, ⟨11, false, 0, 0⟩), (0x43, ⟨1, true, 3, 3⟩), (0x44, ⟨1, true, 1, 1⟩), (0x50, ⟨1, false, 4, 4⟩),
   (0x51, ⟨9, true, 2, 2⟩), (0x52, ⟨1, true, 12, 12⟩)]

/-- The opcode table of R176: the rows from 0x60 on. -/
def opTableB : List (Nat × OpRow) :=
  [(0x60, ⟨1, true, 3, 512⟩), (0x61, ⟨1, true, 5, 5⟩), (0x62, ⟨1, true, 2, 18⟩), (0x63, ⟨9, true, 1, 1⟩),
   (0x64, ⟨3, false, 4, 4⟩), (0x65, ⟨1, true, 16, 16⟩), (0x70, ⟨11, false, 1, 1⟩), (0x71, ⟨15, false, 0, 0⟩),
   (0x72, ⟨9, true, 0, 0⟩), (0x80, ⟨9, false, 2, 2⟩), (0x81, ⟨11, true, 4, 4⟩), (0x82, ⟨9, false, 0, 0⟩),
   (0x83, ⟨1, false, 1, 257⟩), (0x84, ⟨11, false, 0, 0⟩), (0x85, ⟨1, false, 4, 4⟩)] ++
  [(0x90, ⟨15, false, 0, 0⟩), (0x91, ⟨5, true, 1, 1⟩), (0x92, ⟨4, true, 1, 1⟩), (0x93, ⟨15, false, 0, 0⟩),
   (0x94, ⟨15, false, 0, 0⟩), (0x95, ⟨1, false, 4, 512⟩), (0x98, ⟨11, false, 3, 3⟩), (0x99, ⟨1, true, 1, 1⟩),
   (0xA0, ⟨1, true, 4, 512⟩), (0xA1, ⟨1, true, 4, 4⟩), (0xB0, ⟨1, true, 4, 4⟩), (0xB1, ⟨1, true, 17, 17⟩),
   (0xC0, ⟨1, true, 2, 512⟩), (0xC1, ⟨1, true, 4, 4⟩)]

/-- The row of an opcode; none for an unknown one (R153 step 11). -/
def opRow (opc : Nat) : Option OpRow := (opTableA ++ opTableB).lookup opc

/-- A register address that R864 admits: METER reads only in the Umber mirror, SAFETY writes only in WATCH and VERM. -/
def metersReadOk (addr count : Nat) : Bool :=
  0x4800 ≤ addr && addr + 4 * (count - 1) ≤ 0x4BFF && 1 ≤ count && count ≤ 64

/-- An address in WATCH or VERM (R864). -/
def safetyWriteOk (addr : Nat) : Bool := (0x2C00 ≤ addr && addr ≤ 0x2FFF) || (0x3000 ≤ addr && addr ≤ 0x37FF)

/-- The checks of steps 11 to 13 that concern the opcode alone (R153, R176, R829): the status of the first that fails. In recovery mode only
four commands at `DEV` 0xFD from host 0 are executed. -/
def precheck (opc : Nat) (rq : Req) (s : State) : Option Nat :=
  if s.sys.recovery then
    if (opc == 0x00 || opc == 0x01 || opc == 0xA0 || opc == 0xA1) && rq.host == 0 && rq.dev == 0xFD then none else some stBadOpcode
  else
    match opRow opc with
    | none => some stBadOpcode
    | some r =>
      if !r.auth.testBit (authCode rq.auth) then some stAuthFail
      else if 0x90 ≤ opc && opc ≤ 0x95 && s.sys.variant == .s then some stNotFitted
      else none

/-- An object that orders contend for (R180), as its number: 0 to 2 outputs, 3 charge limit, 4 discharge limit, 5 to 20 balance channels,
21 the power mode, 22 and 23 the engines. -/
abbrev Obj := Nat

/-- An object whose current state a SAFETY host set may not be moved to a less safe state by another host (R182). -/
def heldAgainst (rq : Req) (o : Obj) (lessSafe : Bool) (s : State) : Bool :=
  s.cmd.safetyHeld.contains o && rq.auth != .safety && lessSafe

/-- An order on objects took effect: they are held by SAFETY, or no longer (R182). -/
def noteOrder (rq : Req) (os : List Obj) (s : State) : State :=
  let rest := s.cmd.safetyHeld.filter fun o => !os.contains o
  { s with cmd.safetyHeld := if rq.auth == .safety then os ++ rest else rest }

/-- A command is overruled: event 0x1C, status `OVERRULED`, no effect (R152, R181, R182). -/
def overruled (rq : Req) (s : State) : Res :=
  Res.of stOverruled (raise 0x1C (det (inst2 rq.host.val (reqPort rq s)) rq.seq.toNat stOverruled 1) s)

/-- A group command reaches a member outside the group: it executes nothing and reports `OK` (R160). -/
def outsideGroup (rq : Req) (s : State) : Bool := rq.dev.toNat == 0xFE && rf s.regs.chainCfg 0 0 == 0

/-- A command at its executing member: the shared checks, its own effect, and the answer (R153, R156, R160, R163). -/
def runCmd (opc : Nat) (rq : Req) (f : State → Res) (s : State) : State :=
  if outsideGroup rq s then respond rq false true (Res.of stOk s)
  else
    match precheck opc rq s with
    | some st => respond rq false false (Res.of st s)
    | none =>
      let r := f s
      let r' := if r.status = stQueued ∧ opc ≠ 0x13 ∧ !r.kept then { r with st := keepQueued rq r.st } else r
      respond rq (opc == 0x06 && r.status == stOk) false r'

end Sys2Proof.Machine
end

