-- ==== Sys2Proof/Machine/HostPort.lean ====
section
/-! DEFINITION. The two host ports: the admission of packets by the ordered checks of R153, tags and lockout (R168 to R172), SPI transactions (R173
to R175), UART frames (R176 to R179), and the timeouts of replies. -/

namespace Sys2Proof.Machine

open Sys2Proof

/-- A rejection of the first three kinds is reported by event 0x11 at most once per second (R812). -/
def reportBad (p : HPort) (hdr : BitVec 16) (status : Nat) (s : State) : State :=
  let s1 := { s with host.sinceBad := s.host.sinceBad + 1 }
  if secondPassed s s.host.lastBadEvt then
    raise 0x11 (hostDetail hdr p status s1.host.sinceBad) { s1 with host.lastBadEvt := some s.clk, host.sinceBad := 0 }
  else s1

/-- A packet as its bytes spell it (R148). -/
structure Pkt where
  hdr : BitVec 16
  dev : Nat
  opc : Nat
  n : Nat
  tagged : Bool
  raw : List Byte

/-- The host id a header names (R148). -/
def pktHost (k : Pkt) : Nat := k.hdr.toNat % 4

/-- The sequence number a header carries (R148). -/
def pktSeq (k : Pkt) : Nat := k.hdr.toNat / 16

/-- The authority a header claims (R149). -/
def pktAuth (k : Pkt) : Auth := authOf (k.hdr.toNat / 4 % 4)

/-- The fields of a packet of at least 10 bytes (R148). -/
def pktOf (l : List Byte) : Pkt :=
  { hdr := BitVec.ofNat 16 (field l 0 2), dev := field l 2 1, opc := field l 3 1, n := field l 4 2 % 1024,
    tagged := bitN (field l 4 2) 10, raw := l }

/-- The length a packet has by its `LEN` (R153 step 3). -/
def pktLen (k : Pkt) : Nat := 10 + k.n + 4 * b2n k.tagged

/-- The request an admitted packet makes, as the executing member sees it (R148). -/
def pktReq (k : Pkt) (o : Origin) : Req :=
  { host := Fin.ofNat 4 (pktHost k), auth := pktAuth k, seq := BitVec.ofNat 12 (pktSeq k), orig := o, dev := BitVec.ofNat 8 k.dev }

/-- Step 6 of R153: the host id is bound to this port with the authority named, or is host 0 as OPERATOR in the factory state; in recovery mode, host 0. -/
def boundHere (p : HPort) (k : Pkt) (s : State) : Bool :=
  if s.sys.recovery then pktHost k == 0
  else if isFactory s then pktHost k == 0 && pktAuth k == .operator
  else
    match ownBinding s (pktHost k) with
    | some b => b.uart == (p == .uart) && b.auth == pktAuth k
    | none => false

/-- The tag of a packet verifies against C + 1 (R169). -/
def tagVerifies (k : Pkt) (s : State) : Bool :=
  let h := pktHost k
  let c := nth s.nv.tagC h 0
  let key := nth s.nv.keys h []
  k.tagged && !key.isEmpty && c < 0xFFFFFFFF && tagOf key (c + 1) 0x00 (k.raw.take (6 + k.n)) == slice k.raw (6 + k.n) 4

/-- An accepted tag (R169, R170, R172): C advances, is written to configuration memory after 64 accepted tags, and the failure count clears. -/
def acceptTag (h : Nat) (s : State) : State :=
  let c := nth s.nv.tagC h 0 + 1
  let since := nth s.nv.tagSince h 0 + 1
  let s1 := { s with nv.tagC := s.nv.tagC.set h c, tagFails := s.tagFails.set h 0 }
  if since ≥ 64 then { s1 with nv.tagStored := s1.nv.tagStored.set h c, nv.tagSince := s1.nv.tagSince.set h 0 }
  else { s1 with nv.tagSince := s1.nv.tagSince.set h since }

/-- A failure at step 7 (R172): the eighth locks the host id out. -/
def failTag (p : HPort) (k : Pkt) (s : State) : State :=
  let h := pktHost k
  let n := nth s.tagFails h 0 + 1
  if n ≥ 8 then
    raise 0x13 (hostDetail k.hdr p stAuthFail n) { s with tagFails := s.tagFails.set h 0, lockout := s.lockout.set h true }
  else { s with tagFails := s.tagFails.set h n }

/-- Step 7 of R153, the rule of R168: the state after it, and the counter a verified tag used; none where the step fails. -/
def tagStep (p : HPort) (k : Pkt) (s : State) : State × Option (Option Nat) :=
  let h := pktHost k
  if s.sys.recovery then (if k.tagged then (failTag p k s, none) else (s, some none))
  else if pktAuth k == .meter || pktAuth k == .safety then
    if tagVerifies k s then (acceptTag h s, some (some (nth s.nv.tagC h 0 + 1)))
    else if !k.tagged && k.opc == 0x06 then (s, some none)
    else (failTag p k s, none)
  else if k.tagged then (failTag p k s, none)
  else ({ s with tagFails := s.tagFails.set h 0 }, some none)

/-- Step 9 of R153: `DEV` names a target; before the first enumeration, and at a member without a position, which sends link frames only, only 0xFD does (R255, R269). -/
def devValid (k : Pkt) (s : State) : Bool :=
  let row := opRow k.opc
  (k.dev == 0xFD ||
    (s.chain.addr && s.chain.n != 0 && (k.dev < 64 || ((k.dev == 0xFE || k.dev == 0xFF) && (match row with | some r => r.bcast | none => false))))) &&
  (k.opc != 0x06 || k.dev == 0xFD || (s.chain.addr && k.dev == s.chain.pos))

/-- A `DUPLICATE` reply (R171). -/
def rejectDuplicate (p : HPort) (k : Pkt) (s : State) : State := reject p k.hdr stDuplicate (raise 0x1D (hostDetail k.hdr p stDuplicate 1) s)

/-- A repeated sequence number draws the reply kept for the host again with `REPLAY`, or `DUPLICATE` (R171). The kept reply is checked again on `CHK_0` first; where that fails it is
discarded (R206, R213). A tagged reply keeps its first tag (log 155). -/
def duplicate (p : HPort) (k : Pkt) (s : State) : State :=
  match (portBuf s p).kept.find? fun x => x.host == pktHost k && x.seq == pktSeq k with
  | some x =>
    let ok := replyCrc x.reply == x.crc
    let s1 := compareJob 0 ok false x.crc.toNat s
    if ok then toStatus p { x.reply with replay := true } s1
    else rejectDuplicate p k (setBuf p (fun b => { b with kept := b.kept.filter fun y => y.host != x.host || y.seq != x.seq }) s1)
  | none => rejectDuplicate p k s

/-- The parameters of a packet. -/
def pktParams (k : Pkt) : List Byte := slice k.raw 6 k.n

/-- An admitted packet (R113, R156): a reply slot is reserved; the command waits here where this member is addressed, and leaves as a `COMMAND`
frame where another member or a group is. -/
def admitCmd (p : HPort) (k : Pkt) (tagC : Option Nat) (s : State) : State :=
  let sl : Slot := { seq := pktSeq k, hdr := k.hdr, dev := k.dev, tagC := tagC, reports := [], returned := false, reply := none,
                     ownReply := false, released := false }
  let s1 := setBuf p (fun b => noteAdmitted (pktHost k) (pktSeq k) { b with slots := b.slots ++ [sl] }) s
  let here := k.dev == 0xFD || k.dev == 0xFE || k.dev == 0xFF || (s.chain.addr && k.dev == s.chain.pos)
  let cmd : PCmd := { rq := pktReq k (.port p), opc := k.opc, params := pktParams k, tagC := tagC }
  let s2 := if here then { s1 with cmd.waiting := s1.cmd.waiting ++ [cmd] } else s1
  let grp := k.dev == 0xFE || k.dev == 0xFF
  if here && !grp then s2
  else if !grp && returnsAtOnce s2 k.dev then
    let b := portBuf s2 p
    fillSlot p (slotIdx b (pktHost k) (pktSeq k)) true (slotReply s2 sl stNoTarget) s2
  else sendStream false (mkFrame s2 4 k.dev 0x8 k.n grp k.tagged k.raw) s2

/-- A refused admission is counted and reported at most once per second (R146, R812). -/
def refuseCredit (p : HPort) (k : Pkt) (s : State) : State :=
  let s1 := { s with sys.nocreditCnt := satAdd 255 s.sys.nocreditCnt 1, host.sinceCredit := s.host.sinceCredit + 1 }
  if secondPassed s s.host.lastCreditEvt then
    raise 0x16 (hostDetail k.hdr p stNoCredit s1.host.sinceCredit) { s1 with host.lastCreditEvt := some s.clk, host.sinceCredit := 0 }
  else s1

/-- A rejection after step 7, tagged where the packet's tag verified (R155, R170). -/
def rejectTagged (p : HPort) (k : Pkt) (tagC : Option Nat) (status : Nat) (s : State) : State :=
  toStatus p (tagReply s (pktHost k) tagC false (bareReply k.hdr status)) s

/-- How many reply slots a host has reserved at a port (R113). -/
def slotsOf (b : PortBuf) (h : Nat) : Nat := (b.slots.filter fun x => slotHost x == h).length

/-- Steps 7 to 10 of R153 for a packet whose sequence number is new. -/
def admitNew (p : HPort) (k : Pkt) (s : State) : State :=
  match tagStep p k s with
  | (s1, none) => reject p k.hdr stAuthFail s1
  | (s1, some tagC) =>
    if !devValid k s1 then rejectTagged p k tagC stBadDev s1
    else if 8 ≤ slotsOf (portBuf s1 p) (pktHost k) then rejectTagged p k tagC stNoCredit (refuseCredit p k s1)
    else admitCmd p k tagC s1

/-- Steps 5 to 10 of R153. -/
def admission (p : HPort) (k : Pkt) (s : State) : State :=
  if nth s.lockout (pktHost k) false then reject p k.hdr stLockedOut s
  else if !boundHere p k s then reject p k.hdr stAuthFail s
  else if (portBuf s p).admitted.contains (pktHost k, pktSeq k) then duplicate p k s
  else admitNew p k s

/-- Steps 2 to 10 of R153 for at least 10 bytes; `whole` says whether every byte of the packet's own length was received, and nothing more on UART. Step 4 is a job of `CHK_0` (R206, R213). -/
def packetChecks (p : HPort) (k : Pkt) (lenOk : Bool) (s : State) : State :=
  if k.n > 512 then
    reject p k.hdr stLenTooLong (reportBad p k.hdr stLenTooLong { s with host.lenCnt := satAdd 255 s.host.lenCnt 1 })
  else if !lenOk || field k.raw 4 2 / 2048 ≠ 0 then
    reject p k.hdr stFraming (reportBad p k.hdr stFraming { s with host.frameCnt := satAdd 255 s.host.frameCnt 1 })
  else if (crc32c (k.raw.take (pktLen k - 4))).toNat ≠ field k.raw (pktLen k - 4) 4 then
    let s1 := compareDone 0 false true s
    reject p k.hdr stCrcFail (reportBad p k.hdr stCrcFail { s1 with host.crcCnt := satAdd 255 s1.host.crcCnt 1 })
  else admission p k (compareDone 0 true true s)

/-- A packet discarded at step 1 (R153). -/
def runt (s : State) : State := { s with host.runt := satAdd 255 s.host.runt 1 }

/-- The host ports take packets: the member is `READY`, awake, and its host supply is present (R63, R82, R85, R174). -/
def portsAwake (s : State) : Bool :=
  s.sys.ready && !s.sys.waking && (s.sys.mode == .active || s.sys.mode == .idle) && s.pins.vddio

/-- `STAT` (R174). -/
def spiStat (s : State) : Nat :=
  b2n (spiReleasable s) +
    2 * b2n (match portHost s .spi with | some h => unread s h != 0 | none => false) +
    4 * b2n (!portsAwake s) + 8 * b2n s.host.drop

/-- The item at the head of the SPI output is delivered; its slot is freed (R175). -/
def spiDelivered (s : State) : State :=
  match s.host.spi.outq with
  | [] => s
  | (fromSlot, r) :: t =>
    let i := s.host.spi.slots.findIdx fun x => x.released && x.hdr == r.hdr
    release .spi (setBuf .spi (fun b => { b with outq := t, slots := if fromSlot then b.slots.eraseIdx i else b.slots }) s)

/-- The bytes of a packet in an SPI write: the packet's length is taken from its `LEN`, and what follows is ignored (R175). -/
def spiPacket (l : List Byte) (s : State) : State :=
  if l.length < 10 then { runt s with host.drop := true }
  else
    let k := pktOf l
    let k' := { k with raw := l.take (pktLen k) }
    packetChecks .spi k' (decide (pktLen k ≤ l.length)) (leaveIdle 2 { s with host.drop := false })

/-- The item at the head of the SPI output as its bytes. -/
def spiItem (s : State) : List Byte := match s.host.spi.outq with | (_, r) :: _ => replyBytes r | [] => []

/-- The output's head is delivered where the host clocks 3 + L bytes (R175). -/
def spiRead (n : Nat) (s : State) : State := if spiItem s ≠ [] ∧ 3 + (spiItem s).length ≤ n then spiDelivered s else s

/-- What `SDO` carries in a transaction of n bytes that began at `s`: `STAT`, the item's length, the item (R173). -/
def spiOut (n : Nat) (s : State) (item : List Byte) : List Byte := (le 1 (spiStat s) ++ le 2 item.length ++ item ++ List.replicate n 0).take n

/-- SPI_TRANSACTION (R173 to R175, R193): `SDO` carries `STAT`, then the oldest releasable item, which is delivered when the host clocks all of
it; a write operation brings a packet. Where nothing is releasable at the start, an item that becomes so during the write is carried in the same transaction (R193, log 9); the slot
that a delivery frees is free for the packet of the same transaction (log 160). -/
def execSpiTransaction (sdi : List Byte) (s : State) : Out :=
  if rf s.regs.hostCfg 4 4 = 0 ∨ !s.pins.vddio then .next s
  else
    let n := sdi.length
    let s1 := { s with host.sdo := spiOut n s (spiItem s) }
    if !portsAwake s then .next s1
    else
      match sdi with
      | [] => .next s1
      | op :: rest =>
        if op ≠ 0xA5 ∧ op ≠ 0x5A then .next { s1 with host.drop := true }
        else if op = 0x5A then .next (spiRead n s1)
        else if spiItem s ≠ [] then .next (spiPacket rest (spiRead n s1))
        else
          let s2 := spiPacket rest s1
          .next (spiRead n { s2 with host.sdo := spiOut n s (spiItem s2) })

/-! ## The UART receiver -/

/-- Sample k of a bit line that is high once the samples end. -/
def sampleAt (l : List Bool) (k : Nat) : Bool := l.getD k true

/-- The majority of three samples (R177). -/
def majority (a b c : Bool) : Bool := (a && b) || (a && c) || (b && c)

/-- Data bit k, 0 to 7, of a character whose start bit begins at the first sample: the majority of samples 7, 8 and 9 of its 16 (R177). -/
def rxBit (l : List Bool) (k : Nat) : Bool :=
  let i := 16 * (k + 1)
  majority (sampleAt l (i + 6)) (sampleAt l (i + 7)) (sampleAt l (i + 8))

/-- The data byte of a character, least significant bit first. -/
def rxByte (l : List Bool) : Byte := BitVec.ofNat 8 ((List.range 8).foldl (fun v k => v + 2 ^ k * b2n (rxBit l k)) 0)

/-- The sample of the stop bit, 1 to 16, at which a falling edge is detected; none without one (R177). -/
def stopEdge (l : List Bool) : Option Nat := ((List.range 16).map (· + 1)).find? fun j => sampleAt l (142 + j) && !sampleAt l (143 + j)

/-- The stop bit is valid (R177): no falling edge before its sample 7, and a majority of 1 among samples 7, 8 and 9, where one that an edge comes before counts as 1. -/
def stopValid (l : List Bool) : Bool :=
  let e := (stopEdge l).getD 17
  let v (j : Nat) : Bool := e ≤ j || sampleAt l (143 + j)
  decide (7 ≤ e) && majority (v 7) (v 8) (v 9)

/-- How many samples a character takes: up to the edge that ends its stop bit, or all 160 (R177). -/
def charLen (l : List Bool) : Nat := match stopEdge l with | some j => 143 + j | none => 160

/-- How many of a line's samples are low from the first on. -/
def lowRun (l : List Bool) : Nat := (l.takeWhile (!·)).length

/-- A low that begins here is a start bit (R884): one of 5 samples or more is, one of a single sample is not; between them the part decides (log 173). -/
def startsChar (l : List Bool) : Bool := decide (5 ≤ lowRun l) || (decide (2 ≤ lowRun l) && Config.shortStart (lowRun l))

/-- The characters in a line's samples, 16 to a bit, after a sample `last`; none stands for one with a framing error (R177). `skip` samples belong to the character before. -/
def rxChars : List Bool → (last : Bool) → (skip : Nat) → List (Option Byte)
  | [], _, _ => []
  | x :: t, _, skip + 1 => rxChars t x skip
  | x :: t, last, 0 =>
    if last && !x && startsChar (x :: t) then (if stopValid (x :: t) then some (rxByte (x :: t)) else none) :: rxChars t x (charLen (x :: t) - 1)
    else rxChars t x 0

/-- A delimiter ends a UART frame (R82, R153, R176): an empty one is ignored, one that COBS does not decode or that is shorter than 10 bytes is discarded at step 1. -/
def endUartFrame (s : State) : State :=
  let s1 := { s with host.rx := [], host.rxBad := false }
  if s.host.rxBad ∨ s.host.rx = [] then s1
  else
    match cobsDecode s.host.rx with
    | none => runt s1
    | some l =>
      if l.length < 10 then runt s1
      else packetChecks .uart (pktOf l) (decide (pktLen (pktOf l) = l.length)) (leaveIdle 3 s1)

/-- A received character (R178): a framing error discards the frame in progress up to the next delimiter, and is counted once. -/
def takeChar (s : State) (c : Option Byte) : State :=
  match c with
  | none =>
    if s.host.rxBad then s else { s with host.rx := [], host.rxBad := true, host.frameCnt := satAdd 255 s.host.frameCnt 1 }
  | some b => if b = 0 then endUartFrame s else if s.host.rxBad then s else { s with host.rx := s.host.rx ++ [b] }

/-- UART_FRAME (R153, R176 to R178): the samples of `RXD`, 16 to a bit at the port's rate, on a line that was high; a port that is off, asleep or ignoring `RXD` takes none. -/
def execUartFrame (rxd : List Bool) (s : State) : Out :=
  if rf s.regs.hostCfg 5 5 = 0 ∨ !portsAwake s ∨ s.host.breakStuck then .next s
  else .next ((rxChars rxd true 0).foldl takeChar s)

/-- BREAK_STUCK (R178): `RXD` low for 2 character times; the frame in progress is lost up to the next delimiter. -/
def execBreakStuck (s : State) : Out :=
  .next (raise 0x14 (det (inst2 ((portHost s .uart).getD 0) 1) 0 0 1) { s with host.breakStuck := true, host.rx := [], host.rxBad := true })

/-- BREAK_RELEASE (R178): `RXD` has been high for 1 ms. -/
def execBreakRelease (s : State) : Out := .next { s with host.breakStuck := false }

/-- LOCKOUT_EXPIRY (R172): the 60 s of a tag lockout end. -/
def execLockoutExpiry (h : Fin 4) (s : State) : Out := .next { s with lockout := s.lockout.set h.val false }

/-- COMMAND_DISPATCHABLE (R114, R162): a RESPONSE buffer is reserved for the oldest waiting command, which joins the current tick. -/
def execCommandDispatchable (s : State) : Out :=
  match s.cmd.waiting with
  | [] => .next s
  | c :: t => .next { s with cmd.waiting := t, cmd.tick := s.cmd.tick ++ [c] }

/-- NO_REPLY (R158): the reply timeout of a unicast command ends with no reply; the port answers `NO_REPLY` in its place. -/
def execNoReply (p : HPort) (seq : BitVec 12) (s : State) : Out :=
  let b := portBuf s p
  let i := waitingSlot b seq.toNat
  match b.slots[i]? with
  | some sl => if sl.dev = 0xFE ∨ sl.dev = 0xFF then .next s else .next (fillSlot p i true (slotReply s sl stNoReply) s)
  | none => .next s

/-- GROUP_REPLY_TIMEOUT (R161): the combined reply of a group or broadcast command leaves with 0xFE for every position that has not reported. -/
def execGroupReplyTimeout (p : HPort) (seq : BitVec 12) (s : State) : Out :=
  let b := portBuf s p
  let i := waitingSlot b seq.toNat
  match b.slots[i]? with
  | some sl => if sl.dev = 0xFE ∨ sl.dev = 0xFF then .next (combine p i s) else .next s
  | none => .next s

/-- BAUD_CHANGE (R902, R197): the frames that were queued on `TXD` have gone out; the UART works at the new rate. -/
def execBaudChange (s : State) : Out :=
  if s.host.baudPending then
    .next (raise 0x1E (det (inst2 ((portHost s .uart).getD 0) 1) 0 0 0)
      { s with host.baudInUse := rf s.regs.hostCfg 2 0, host.baudPending := false })
  else .next s

end Sys2Proof.Machine
end

