-- ==== Sys2Proof/Machine/ChainRx.lean ====
section
/-! DEFINITION. What a chain port does with whatever arrives on its hop: the checks of R246, errors and port states, credits, streams and their
acknowledgement, forwarding (R109 to R139, R246 to R279). -/

namespace Sys2Proof.Machine

open Sys2Proof

/-- A list of per-class counts with the count of a class moved on, modulo 256 (R110). -/
def addBlk (l : List Nat) (c n : Nat) : List Nat := upd l c fun x => (x + n) % 256

/-- The chain ports run: powered, and not in SENTINEL or SHIP (R65). -/
def chainOn (s : State) : Bool := s.sys.powered && (s.sys.mode == .active || s.sys.mode == .idle)

/-! ## Blocks and streams -/

/-- The blocks a queue item holds in a receive buffer are freed (R110). -/
def freeHold (i : TxItem) (s : State) : State :=
  match i.holds with
  | none => s
  | some sd =>
    setPort sd (fun p => { p with freed := addBlk p.freed i.frame.cls i.frame.blk,
                                  rxUsed := upd p.rxUsed i.frame.cls fun x => x - i.frame.blk }) s

/-- A stream received matches its key (R256). -/
def rxIs (orig : Nat) (multi : Bool) (cls : Nat) (twin : Bool) (r : RxStream) : Bool :=
  (r.orig == orig) && (r.multi == multi) && (r.cls == cls) && (r.twin == twin)

/-- A stream received, by its key. -/
def rxGet (orig : Nat) (multi : Bool) (cls : Nat) (twin : Bool) (s : State) : Option RxStream :=
  s.chain.rx.find? (rxIs orig multi cls twin)

/-- A stream received stored. -/
def rxPut (r : RxStream) (s : State) : State :=
  if s.chain.rx.any (rxIs r.orig r.multi r.cls r.twin) then
    { s with chain.rx := s.chain.rx.map fun u => if rxIs r.orig r.multi r.cls r.twin u then r else u }
  else { s with chain.rx := s.chain.rx ++ [r] }

/-- The ACK of a received stream: every frame up to the last accepted one (R260). -/
def sendStreamAck (r : RxStream) (s : State) : State :=
  sendAck r.orig (ackEntry r.cls false r.multi r.twin ((r.next + 16383) % 16384)) (rxPut { r with unackedRx := 0 } s)

/-- The member at the end of a leg acknowledges a multi frame that goes no further (R261, R278). -/
def ackLegEnd (f : Frame) (s : State) : State :=
  if 5 < f.cls then s
  else match rxGet f.orig f.multi f.cls f.twin s with
    | some r => sendStreamAck r s
    | none => s

/-! ## Acknowledgement at the origin -/

/-- A multi frame of this member is acknowledged, which counts as its return (R159, R261). -/
def multiDone (f : Frame) (s : State) : State :=
  if f.kind = 8 then
    let seq := field f.body 0 2 / 16
    let go (p : HPort) (s : State) : State :=
      let i := (portBuf s p).slots.findIdx fun x => x.hdr.toNat == field f.body 0 2 && x.seq == seq && x.reply.isNone
      if i < (portBuf s p).slots.length then
        combineIfComplete p i (setBuf p (fun b => { b with slots := upd b.slots i fun x => { x with returned := true } }) s)
      else s
    go .uart (go .spi s)
  else s

/-- The sent frames of a stream that a test names are acknowledged (R261, R262): progress, and the stream may send more. -/
def releaseFrames (dest : Nat) (multi : Bool) (cls : Nat) (twin : Bool) (test : Frame → Bool) (s : State) : State :=
  let t := txGet s dest multi cls twin
  let sentF := t.unacked.take t.sent
  let done := sentF.filter test
  if done.isEmpty then s
  else
    let left := sentF.filter fun f => !test f
    let t' := { t with unacked := left ++ t.unacked.drop t.sent, sent := left.length, rounds := 0,
                       back := t.back.filter fun b => left.any fun f => f.seq == b }
    let s1 := pump 8 dest multi cls twin (txPut t' s)
    if multi then done.foldl (fun s f => multiDone f s) s1 else s1

/-- A counter is at or before another in a stream (R256, R260). -/
def upTo (c seq : Nat) : Bool := decide ((c + 16384 - seq) % 16384 < 8192)

/-- The frame is still queued on some port, so that no second copy is made of it. -/
def stillQueued (f : Frame) (s : State) : Bool :=
  (s.chain.north.txq ++ s.chain.south.txq).any fun i =>
    !i.transit && i.frame.cls == f.cls && i.frame.seq == f.seq && i.frame.dest == f.dest && i.frame.multi == f.multi && i.frame.twin == f.twin

/-- A frame sent again keeps its counter and carries `REXMIT` (R262); it is counted (R308). -/
def sendAgain (t : TxStream) (f : Frame) (s : State) : State :=
  if stillQueued f s then s
  else
    let r := dispatchFrame t { f with rexmit := true } s
    if r.2 then { r.1 with chain.rtxCnt := satAdd 255 r.1.chain.rtxCnt 1 } else s

/-- The path of a stream's frames is clear: it is sent again only then (R265, R276). -/
def streamClear (t : TxStream) (s : State) : Bool :=
  if t.multi then portUp s.chain.north || portUp s.chain.south
  else if t.cls = 1 then
    clearHops s (if t.twin then hopsNorth s.chain.n t.dest s.chain.pos else hopsNorth s.chain.n s.chain.pos t.dest)
  else (routeTo s t.dest).isSome

/-- `RTX_MAX`, where 0 acts as 1 (R304). -/
def rtxMax (s : State) : Nat := max 1 (rf s.regs.chainCfg 19 16)

/-- A round of R262: every unacknowledged frame of the stream that has been sent is sent again, oldest first; after `RTX_MAX` rounds without progress the
oldest gives way to a `VOID` of its class and counter. -/
def resendRound (t : TxStream) (s : State) : State :=
  if t.sent = 0 ∨ !streamClear t s then s
  else
    match t.unacked with
    | [] => s
    | old :: rest =>
      let void := rtxMax s ≤ t.rounds && old.kind != 0xE
      let v : Frame := { old with kind := 0xE, tag := false, plen := 0, body := [], blk := 1 }
      let t' := { t with rounds := t.rounds + 1, unacked := if void then v :: rest else t.unacked }
      let s1 := txPut t' s
      let s2 := if void then
          raise 0x2A (det (inst2 0 0) (s1.chain.north.tec + 256 * s1.chain.north.recErr : Nat) s1.chain.ring.code old.seq)
            { s1 with chain.voidCnt := satAdd 255 s1.chain.voidCnt 1 }
        else s1
      (t'.unacked.take t'.sent).foldl (fun s f => sendAgain (txGet s t.dest t.multi t.cls t.twin) f s) s2

/-- An ACK or NAK entry reaches the origin (R260 to R262); `leg` is the port it came by. -/
def takeAckEntry (sd : Side) (from_ : Nat) (e : List Byte) (s : State) : State :=
  let b := field e 0 1
  let cls := b % 8
  let multi := bitN b 4
  let twin := bitN b 5
  let c := field e 1 2 % 16384
  if !(s.chain.tx.any (txIs from_ multi cls twin)) then s
  else
    let t := txGet s from_ multi cls twin
    if bitN b 3 then
      let s1 := txPut { t with back := t.back.filter fun x => !upTo x c } s
      resendRound (txGet s1 from_ multi cls twin) s1
    else if multi then
      let t' := match sd with | .north => { t with ackN := some c } | .south => { t with ackS := some c }
      let leg (bit : Nat) (a : Option Nat) (q : Nat) : Bool := !t'.legs.testBit bit || (match a with | some x => upTo x q | none => false)
      releaseFrames from_ true cls twin (fun f => leg 0 t'.ackN f.seq && leg 1 t'.ackS f.seq) (txPut t' s)
    else releaseFrames from_ false cls twin (fun f => upTo c f.seq) s

/-- The entries of an `ACK` payload, one after the other. -/
def takeAcks (sd : Side) (from_ : Nat) (body : List Byte) (s : State) : State :=
  (List.range (body.length / 3)).foldl (fun s i => takeAckEntry sd from_ (slice body (3 * i) 3) s) s

/-- A unicast command of this member's host finds no member (R157, R303): its slot is answered `NO_TARGET`, tagged where its command was (R170). -/
def noTarget (f : Frame) (s : State) : State :=
  if f.kind = 8 then
    let go (p : HPort) (s : State) : State :=
      let i := (portBuf s p).slots.findIdx fun x => x.hdr.toNat == field f.body 0 2 && x.reply.isNone
      match (portBuf s p).slots[i]? with
      | some sl => fillSlot p i true (slotReply s sl stNoTarget) s
      | none => s
    go .uart (go .spi s)
  else s

/-- While a hop is dead, the frames of a stream to a position that no member holds count as returned (R276, R303). -/
def returnUnheld (s : State) : State :=
  let gone (t : TxStream) : Bool := !t.multi && returnsAtOnce s t.dest
  (s.chain.tx.filter gone).foldl (fun s t => t.unacked.foldl (fun s f => noTarget f s) (txPut { t with unacked := [], sent := 0, rounds := 0, back := [] } s)) s

/-- A frame of this member has come back to it (R112, R157, R261, R263, R303). -/
def takeReturned (f : Frame) (s : State) : State :=
  if 5 < f.cls then s
  else if f.cls = 0 then
    { s with evt.hold := s.evt.hold.map fun h => if h.frame.seq == f.seq then { h with returned := true } else h }
  else if f.multi then
    let t := txGet s f.dest true f.cls f.twin
    let s1 := if s.chain.tx.any (txIs f.dest true f.cls f.twin) then txPut { t with back := f.seq :: t.back.filter (· != f.seq) } s else s
    multiDone f s1
  else noTarget f (releaseFrames f.dest false f.cls f.twin (fun g => g.seq == f.seq) s)

/-! ## Losing a hop -/

/-- What becomes of a frame of classes 1 to 5 queued for a port that is lost (R138, R277): it moves to the other port, a unicast transit frame turned; a transit frame has
nowhere to go where the other port is lost too. -/
def movedItem (otherUp : Bool) (i : TxItem) : Option TxItem :=
  if i.frame.cls = 0 ∨ 5 < i.frame.cls then none
  else if !i.transit then some i
  else if !otherUp then none
  else if i.frame.multi then some i
  else some { i with frame := { i.frame with turned := true } }

/-- The queues of a lost port (R138): classes 1 to 5 go to the other port ahead of what waits there, link frames and beacons are discarded, class 0 stays
queued only where the port is off. The credits of classes 1 to 5 are written off, those of class 0 too where the link is dead. -/
def moveQueue (sd : Side) (deadLink : Bool) (s : State) : State :=
  let q := (port s sd).txq
  let move := movedItem (portUp (port s (otherSide sd)))
  let stay := if deadLink then [] else q.filter fun i => i.frame.cls == 0
  let moved := (q.filterMap move).map fun i => { i with frame := { i.frame with south := sd == .north } }
  let gone := q.filter fun i => (move i).isNone && (deadLink || i.frame.cls != 0)
  let s1 := setPort sd (fun p => { p with txq := stay, linkq := [], wroteOff := true, advShared := if deadLink then 0 else p.advShared,
                                          advRes := if deadLink then [0, 0, 0, 0, 0, 0] else p.advRes }) s
  let s2 := setPort (otherSide sd) (fun p => { p with txq := moved ++ p.txq }) s1
  gone.foldl (fun s i => (if i.transit && i.frame.multi then ackLegEnd i.frame else id) (freeHold i s)) s2

/-- A hop of this member is lost (R138, R275): the queues move, the hop is noted dead, and `BREAK` leaves by the other port. -/
def loseHop (sd : Side) (deadLink : Bool) (s : State) : State :=
  let s1 := moveQueue sd deadLink (setPort sd (fun p => { p with healDue := none, exchanges := 0 }) s)
  if s.chain.addr && s.chain.n != 0 then
    sendBreak (otherSide sd) (hopOf s sd) false (returnUnheld (noteHop (hopOf s sd) true s1))
  else s1

/-- Entry to `PORT_OFF`, or to `OFF_LATCHED` at the third entry within one hour (R272). -/
def enterPortOff (sd : Side) (s : State) : State :=
  let times := s.clk :: ((port s sd).offTimes.filter fun t => s.clk < t + 3600 * Config.sec)
  let s1 := setPort sd (fun p => { p with st := if 3 ≤ times.length then .offLatched else .portOff, offTimes := times, upSent := false }) s
  loseHop sd false (raise (0x25 + sideCode sd) (portDetail s1 sd 0) s1)

/-- A port's state follows its counters while its link is up (R272). -/
def judgePort (sd : Side) (s : State) : State :=
  let p := port s sd
  if !portUp p then s
  else if 255 ≤ p.tec || 255 ≤ p.recErr then enterPortOff sd s
  else if 127 < p.tec || 127 < p.recErr then
    if p.st == .active then
      let s1 := setPort sd (fun p => { p with st := .degraded }) s
      raise (0x23 + sideCode sd) (portDetail s1 sd 0) s1
    else s
  else setPort sd (fun p => { p with st := .active }) s

/-- A receive error of a frame (R271, R244, R273), and the counter of `CHAIN_ERRS_x` that names its kind. -/
def rxError (sd : Side) (count : ChPort → ChPort) (s : State) : State :=
  judgePort sd (setPort sd (fun p => count { p with recErr := satAdd 255 p.recErr 8, rxBad := (p.rxBad + 1) % 256, upErr := true, exchanges := 0 }) s)

/-- The counters of `CHAIN_ERRS_x` (R307). -/
def countCrc (p : ChPort) : ChPort := { p with crcCnt := satAdd 255 p.crcCnt 1 }
def countCode (p : ChPort) : ChPort := { p with codeCnt := satAdd 255 p.codeCnt 1 }
def countLen (p : ChPort) : ChPort := { p with lenCnt := satAdd 255 p.lenCnt 1 }
def countNocred (p : ChPort) : ChPort := { p with nocredCnt := satAdd 255 p.nocredCnt 1 }

/-! ## Credits -/

/-- The blocks left for a class, from reserved and shared blocks and the blocks in use (R110). -/
def availOf (res : List Nat) (shared : Nat) (used : List Nat) (c : Nat) : Nat :=
  let inShared := ((List.range 6).map fun k => nth used k 0 - nth res k 0).sum
  (nth res c 0 - min (nth used c 0) (nth res c 0)) + (shared - inShared)

/-- The blocks a port has sent in each class that are not yet returned (R110). -/
def usedBlks (p : ChPort) : List Nat := (List.range 6).map fun k => (nth p.sent k 0 + 256 - nth p.peerFreed k 0) % 256

/-- The credit a port holds for a class (R110): none of classes 1 to 5 while they are written off (R138). -/
def avail (p : ChPort) (c : Nat) : Nat := if p.wroteOff && c != 0 then 0 else availOf p.advRes p.advShared (usedBlks p) c

/-- The frames of a class, oldest first, that a number of returned blocks covers: how many, and the frames whose credit is still out (R271). -/
def popFreed (c : Nat) : Nat → List (Nat × Nat) → Nat × List (Nat × Nat)
  | _, [] => (0, [])
  | a, (k, b) :: t =>
    if k ≠ c then let r := popFreed c a t; (r.1, (k, b) :: r.2)
    else if b ≤ a then let r := popFreed c (a - b) t; (r.1 + 1, r.2)
    else (0, (k, b) :: t)

/-- The room a port's own receiver has for a class (R108). -/
def rxRoom (p : ChPort) (c : Nat) : Nat := availOf [2, 2, 8, 18, 18, 18] 14 p.rxUsed c

/-- A valid frame's `CRED` and `RXBAD` (R110, R135, R271): returns beyond what is outstanding are ignored and counted as receive errors; each frame whose credit returns
without a rise of `RXBAD` takes 1 off `TEC`. -/
def peerCounts (sd : Side) (f : Frame) (s : State) : State :=
  let p := port s sd
  let adv (k : Nat) : Nat := (nth f.cred k 0 + 256 - nth p.peerFreed k 0) % 256
  let ok (k : Nat) : Bool := decide (adv k ≤ nth (usedBlks p) k 0)
  let bad := ((List.range 6).filter fun k => !ok k).length
  let got := (List.range 6).foldl (fun (r : Nat × List (Nat × Nat)) k =>
    if ok k then let q := popFreed k (adv k) r.2; (r.1 + q.1, q.2) else r) (0, p.outst)
  let rise := (f.rxbad + 256 - p.peerBad) % 256
  let tec := if rise ≠ 0 then satAdd 255 p.tec (8 * rise) else p.tec - got.1
  judgePort sd (setPort sd (fun p => { p with
    peerFreed := (List.range 6).map (fun k => if ok k then nth f.cred k 0 else nth p.peerFreed k 0), peerBad := f.rxbad, tec := tec, outst := got.2,
    recErr := satAdd 255 p.recErr (8 * bad), upErr := p.upErr || bad != 0 }) s)

/-- The blocks of a frame that goes no further are freed at once (R110). -/
def freeNow (sd : Side) (f : Frame) (s : State) : State :=
  if 5 < f.cls then s else setPort sd (fun p => { p with freed := addBlk p.freed f.cls f.blk }) s

/-! ## The checks of a received frame -/

/-- Head and trail of a frame kind together, in bytes (R245); none for a kind that the table does not hold. -/
def fixedLen (kind : Nat) : Option Nat :=
  if kind ≤ 7 then some 0
  else if kind = 8 then some 10
  else if kind = 9 then some 9
  else if kind = 0xB then some 3
  else if kind ≤ 0xE then some 0
  else none

/-- The number of bytes, `BLK`, and the inner `LEN` are as R246 asks. -/
def shapeOk (f : Frame) : Bool :=
  match fixedLen f.kind with
  | none => false
  | some k =>
    (f.body.length == k + f.plen + 4 * b2n f.tag) && (f.blk == blocksOf (21 + f.body.length)) && decide (f.blk ≤ classLimit f.cls) &&
      (f.kind != 8 || field f.body 4 2 % 1024 == f.plen) && (f.kind != 9 || field f.body 3 2 % 1024 == f.plen)

/-- What is counted for a frame that the line or R246 spoils (R271, R307); a fragment that ends with AB, and a whole frame, count nothing. -/
def spoiled (f : Frame) (lq : LineQ) : Option (ChPort → ChPort) :=
  match lq with
  | .aborted => none
  | .codeBad => some countCode
  | .tooLong => some countLen
  | .crcBad => some countCrc
  | .raw _ => some countCode
  | .ok => if 512 < f.plen then some countLen else if !shapeOk f then some countCode else none

/-- A transmission that has ended holds nothing in a receive buffer any more (R110, log 148). -/
def lineDone (sd : Side) (s : State) : State :=
  let p := port s sd
  match p.line with
  | some i => if i.holds.isSome && lineIdle p s.clk then freeHold i (setPort sd (fun p => { p with line := some { i with holds := none } }) s) else s
  | none => s

/-- Both ports' transmissions that have ended. -/
def linesDone (s : State) : State := lineDone .south (lineDone .north s)

/-- A frame on a hop, up to its acceptance there (R134, R246, R247, R254, R271, R272): whether it goes on. A port that is not up takes only ALARM and link frames, and
discards every other one with no count and no credit; a frame spoiled on the line frees the blocks it had taken (R110, R291). -/
def hopIn (sd : Side) (f : Frame) (lq : LineQ) (s : State) : State × Bool :=
  if !chainOn s then (s, false)
  else
    let s := setPort sd (lineEnds false s.clk) (linesDone s)
    let p := port s sd
    if !portUp p && f.cls != 0 && f.cls != 6 then (s, false)
    else if lq = .aborted then (s, false)
    else
      let room := decide (f.blk ≤ rxRoom p f.cls)
      match spoiled f lq with
      | some count => (rxError sd count (if f.cls ≤ 5 && room then freeNow sd f s else s), false)
      | none =>
        if f.cls ≤ 5 && !room then (rxError sd countNocred s, false)
        else
          let s1 := setPort sd (fun p => { p with recErr := p.recErr - 1, gotFrame := true }) s
          (if f.kind = 1 then setPort sd (fun p => { p with peerBad := f.rxbad }) s1 else peerCounts sd f s1, true)

/-! ## Streams -/

/-- A frame delivered here is judged by its stream (R258, R259); `leg` says that a multi frame ends its leg here. The second part says whether it is
accepted. -/
def acceptStream (sd : Side) (leg : Bool) (f : Frame) (s : State) : State × Bool :=
  let acks := (!f.multi || leg) && f.cls != 0
  let note (r : RxStream) (s : State) : State :=
    let r' := { r with next := (f.seq + 1) % 16384, recent := (f.seq :: r.recent).take 64, gap := false, unackedRx := r.unackedRx + b2n acks }
    if acks && (leg || 4 ≤ r'.unackedRx) then sendStreamAck r' s else rxPut r' s
  match rxGet f.orig f.multi f.cls f.twin s with
  | none =>
    let r : RxStream := { orig := f.orig, multi := f.multi, cls := f.cls, twin := f.twin, next := f.seq, recent := [], gap := false, lastNak := none,
                          unackedRx := 0 }
    (note r (raise 0x2E (portDetail s sd f.seq) s), true)
  | some r =>
    if r.recent.contains f.seq then (if acks then sendStreamAck r s else s, false)
    else if f.first then (note r (raise 0x2E (portDetail s sd f.seq) s), true)
    else if f.seq = r.next then (note r s, true)
    else
      let due := match r.lastNak with | none => true | some t => decide (t + Config.ms ≤ s.clk)
      if due then
        let s1 := rxPut { r with gap := true, lastNak := some s.clk } s
        (sendAck r.orig (ackEntry r.cls true r.multi r.twin r.next) s1, false)
      else (rxPut { r with gap := true } s, false)

/-! ## Forwarding -/

/-- A transit frame put into a port's queue; its blocks stay held in the receiver it came by (R110, R252). -/
def queueTransit (out came : Side) (inst : Option Int) (f : Frame) (s : State) : State :=
  if f.cls = 6 then enqueueLink out f s
  else
    let i : TxItem := { frame := { f with south := out == .south }, transit := true, holds := if f.cls ≤ 5 then some came else none, came := inst }
    let s1 := setPort out (fun p => { p with txq := p.txq ++ [i] }) s
    if f.cls ≤ 5 then setPort came (fun p => { p with rxUsed := upd p.rxUsed f.cls fun x => x + f.blk }) s1 else s1

/-- A port passes a transit frame on (R138, R139, R277, R278): its hop is not lost; ALARM frames pass an off port too, and link frames to all cross a hop that is up
whatever is known of it. -/
def passes (s : State) (sd : Side) (f : Frame) : Bool :=
  let p := port s sd
  if f.cls = 0 then p.st != .linkDead
  else portUp p && (!hopDead s sd || (f.cls == 6 && 0xFE ≤ f.dest))

/-- The outgoing hop takes a copy while the frame comes in (R252): it was past S5 when the frame began, and nothing of the class's turn or before waits there. -/
def cutsThrough (s : State) (out : Side) (f : Frame) : Bool :=
  let p := port s out
  lineIdle p s.clk && pastS5 p s.clk (lineTime (frameLen f)) && p.txq.isEmpty && p.linkq.isEmpty

/-- There is credit for a transit frame (R111). -/
def credited (p : ChPort) (f : Frame) : Bool := 5 < f.cls || f.blk ≤ avail p f.cls

/-- A cut-through copy that the member ends with AB after a number of bytes (R252 to R254, R291); a frame without credit ends after the start delimiter. -/
def cutCopy (out : Side) (f : Frame) (n : Nat) (s : State) : State :=
  if cutsThrough s out f && passes s out f then
    let p := port s out
    let g := { f with south := out == .south, hops := min 63 (f.hops + 1), cred := p.freed, rxbad := p.rxBad }
    let k := if credited p f then n else 1
    let start := s.clk - lineTime (frameLen f)
    setPort out (fun p => { lineEnds true (start + lineTime k) p with line := none, wire := (frameBytes g).take k, aborted := true }) s
  else s

/-- A whole cut-through copy (R252, R253): it carries the outgoing hop's counts under a new CRC, and has ended with the frame that came in; the blocks that frame took
are free again. -/
def cutWhole (out came : Side) (f : Frame) (s : State) : State :=
  let p := port s out
  let g := { f with south := out == .south, cred := p.freed, rxbad := p.rxBad }
  freeNow came f (setPort out (fun p => { lineEnds true s.clk p with
    line := some { frame := g, transit := true, holds := none, came := none }, wire := frameBytes g, aborted := false,
    sent := if f.cls ≤ 5 then addBlk p.sent f.cls f.blk else p.sent, outst := if f.cls ≤ 5 then p.outst ++ [(f.cls, f.blk)] else p.outst }) s)

/-- A frame not addressed to this member alone goes on (R251 to R253, R277, R278): out of the other port, cut through or stored; where that hop is lost, a unicast frame turns
back once, and a multi frame ends its leg. The second part says that it goes no further. `cut` is the frame as a cut-through copy carries it, `inst` the instant from which
a stored beacon's residence counts. -/
def forwardAs (came : Side) (f cut : Frame) (inst : Option Int) (s : State) : State × Bool :=
  let out := otherSide came
  let up (f : Frame) : Frame := { f with hops := min 63 (f.hops + 1) }
  if passes s out f then
    if cutsThrough s out f && credited (port s out) f then (cutWhole out came (up cut) s, false)
    else (queueTransit out came inst (up f) (cutCopy out f 1 s), false)
  else if f.multi || 0xFE ≤ f.dest || f.turned then (s, true)
  else (queueTransit came came inst { up f with turned := true } s, false)

/-- A frame of classes 0 to 6 that goes on. -/
def forward (came : Side) (f : Frame) (s : State) : State × Bool := forwardAs came f f none s

end Sys2Proof.Machine
end

