-- ==== Sys2Proof/Machine/VermOps.lean ====
section
/-! DEFINITION. Vermilion's shared operations: the safety parameter block, alive channels, stop demands, the contactor outputs, the class A and
class B faults, the effective limits (R219 to R222, R645 to R671). -/

namespace Sys2Proof.Machine

open Sys2Proof

/-! ## The safety parameter block -/

/-- An n-byte field of the safety parameter block in force (R671). -/
def blk (s : State) (off n : Nat) : Nat := field s.verm.block off n

/-- The type of input k, counted from 0 (R646, R671). -/
def inpType (s : State) (k : Nat) : Nat := blk s (0x14 + 4 * k) 1

/-- The feed of a channel of input k: 0 none, 1 `TPA`, 2 `TPB` (R671). -/
def inpFeed (s : State) (k : Nat) (chB : Bool) : Nat :=
  if chB then bits (blk s (0x16 + 4 * k) 1) 3 2 else bits (blk s (0x16 + 4 * k) 1) 1 0

/-- The position of peer j, 0xFF where unused, and its roles (R671). -/
def peerPos (s : State) (j : Nat) : Nat := blk s (0x74 + 2 * j) 1
def peerRole (s : State) (j bit : Nat) : Bool := peerPos s j != 0xFF && bitN (blk s (0x75 + 2 * j) 1) bit

/-- The action of the condition i of R654: 0 report only, 1 stop, 2 class B, 3 class A. -/
def condAction (s : State) (i : Nat) : Nat := bits (blk s 0x12 2) (2 * i + 1) (2 * i)

/-- The member runs in commissioning mode (R675). -/
def commissioning (s : State) : Bool := !s.verm.isSealed

/-! ## Check-value units and alive channels -/

/-- `CHK_3` has failed, or island 22 has: its alive channels deliver nothing (R225, R234). -/
def chk3Failed (s : State) : Bool := (nth s.chk.units 3 {}).failed || s.chk.islandDown

/-- An alive channel changed. -/
def updAlv (ch : Nat) (f : Alv → Alv) (s : State) : State := { s with chk.alv := upd s.chk.alv ch f }

/-- `CHK_ALV_CFG.MAXD`, where 0 acts as 1 (R240). -/
def maxD (s : State) : Nat := max 1 (rf s.regs.alvCfg 3 0)

/-- A protected message is judged by its CRC-8 over channel, alive byte and data, and by its alive byte (R220, R221, R222); the second part says
whether it is accepted. -/
def aliveCheck (ch a : Nat) (data : List Byte) (crc : Byte) (s : State) : State × Bool :=
  if chk3Failed s then (s, false)
  else if crc8 (BitVec.ofNat 8 ch :: BitVec.ofNat 8 a :: data) ≠ crc then
    (raise 0x3B (chkDetail ch a s) (compareDone 3 false true s), false)
  else
    let s := compareDone 3 true true s
    let c := nth s.chk.alv ch {}
    let d := (a + 256 - c.last) % 256
    if c.init then (updAlv ch (fun c => { c with last := a, init := false }) s, true)
    else if d = 0 then (raise 0x3C (chkDetail ch a s) (updAlv ch (fun c => { c with rep := satAdd 15 c.rep 1 }) s), false)
    else if d ≤ maxD s then (updAlv ch (fun c => { c with last := a, lost := satAdd 15 c.lost (d - 1) }) s, true)
    else (raise 0x3D (chkDetail ch a s) (updAlv ch (fun c => { c with last := a, seq := satAdd 15 c.seq 1 }) s), false)

/-- The protected form of data on a channel with the channel's next alive byte, which advances (R220, R233). -/
def protect (ch : Nat) (data : List Byte) (s : State) : List Byte × State :=
  let a := (nth s.chk.alv ch {}).tx
  let body := BitVec.ofNat 8 a :: data
  (body ++ [crc8 (BitVec.ofNat 8 ch :: body)], updAlv ch (fun c => { c with tx := (a + 1) % 256 }) s)

/-- A protected message sent to Vermilion and the watch on an on-die channel (R219): it stands among the messages sent until it is delivered. -/
def sendOnDie (ch : Nat) (data : List Byte) (s : State) : State :=
  let r := protect ch data s
  { r.2 with chk.sent := s.chk.sent ++ [(ch, r.1)] }

/-! ## Stop demands and outputs -/

/-- An output is driven (R656). -/
def driven (o : OutS) : Bool := o.st == .ramp || o.st == .pullin || o.st == .hold

/-- An input of type 1, 2 or 4 calls for a stop (R653). -/
def inputStops (s : State) : Bool :=
  (List.range 4).any fun k =>
    let i := nth s.verm.inps k {}
    (([1, 2, 4].contains (inpType s k)) && (i.st == .demand || i.st == .discrepancy || i.st == .cross)) || i.latch

/-- A stop demand of the member's own, without what its peers call for (R653, R661). -/
def ownStop (s : State) : Bool :=
  inputStops s || (commissioning s && !s.verm.twoHand) || (s.verm.hbStop && rf s.regs.chainCfg 1 1 == 1) ||
    s.verm.condStop != 0 || s.verm.vcoilLow

/-- A STOP peer calls for a stop: its state frame reports stop demand or class A, or it is lost (R653, R663). -/
def peerStops (s : State) : Bool :=
  (List.range 24).any fun j =>
    let p := nth s.verm.peers j {}
    peerRole s j 0 && (p.lost || p.byte0.getLsbD 0 || p.byte0.getLsbD 1)

/-- A stop demand is present: `VERM_STAT.STOP` (R653). -/
def stopDemand (s : State) : Bool := ownStop s || peerStops s

/-- The detail of a Vermilion event (R799). -/
def vermDetail (inst : Nat) (val : Int) (st ext : Nat) : List Byte := det (inst2 inst 0) val st ext

/-- Output o changed. -/
def updOut (o : Nat) (f : OutS → OutS) (s : State) : State := { s with verm.outs := upd s.verm.outs o f }

/-- An output turns off or into `FAULT`; a change from a driven state to `OFF` raises event 0x80 (R659), and `FAULT` has events of its own. -/
def turnOff (o : Nat) (dst : OutSt) (s : State) : State :=
  let x := nth s.verm.outs o {}
  let s1 := updOut o (fun x => { x with st := dst, atClk := s.clk, offFails := 0 }) s
  if driven x then
    let s2 := { s1 with cmd.safetyHeld := s1.cmd.safetyHeld.filter (· != o) }
    if dst == .off then raise 0x80 (vermDetail o s.cell.isnsMa 0 s.verm.refuse) s2 else s2
  else s1

/-- Every driven output turns off together (R645). -/
def allOff (s : State) : State :=
  (List.range 3).foldl (fun s o => if driven (nth s.verm.outs o {}) then turnOff o .off s else s) s

/-- While a stop demand is present every output is off (R653). -/
def enforceStop (s : State) : State := if stopDemand s then allOff s else s

/-- An output's `OPEN_LOAD` cause stands while the output stays in `FAULT` (R667). -/
def openLoadNow (s : State) : BitVec 3 :=
  maskOf 3 fun o => s.verm.openLoad.getLsbD o && (nth s.verm.outs o {}).st == .fault

/-! ## The results of a proof -/

/-- The result of a step enters `PROOF_RES`: 1 pass, 2 fail, 3 not applicable (R625, R643); a step that passes ends its own effect, and a failed one is
remembered until it passes (R626, R627). -/
def stepResult (k r : Nat) (s : State) : State :=
  let p := setBit (setBit s.watch.pres (2 * k) (bitN r 0)) (2 * k + 1) (bitN r 1)
  { s with watch.pres := p, watch.pfailed := if r = 1 then setBit s.watch.pfailed k false else if r = 2 then setBit s.watch.pfailed k true else s.watch.pfailed }

/-- Pass or fail. -/
def passFail (k : Nat) (ok : Bool) (s : State) : State := stepResult k (if ok then 1 else 2) s

/-- One event 0x7D for each failed step of a set, with `PROOF_RES` (R627). -/
def reportFailed (steps : List Nat) (s : State) : State :=
  (steps.filter fun k => bits s.watch.pres.toNat (2 * k + 1) (2 * k) == 2).foldl
    (fun s _ => raise 0x7D (det 0 0 s.watch.level.code s.watch.pres.toNat) s) s

/-- A pulse test in progress ends with a class A fault, and its step records fail (R694). -/
def endPulseTest (s : State) : State :=
  if proofPhase s 140 640 && bits s.watch.pres.toNat 19 18 == 1 then reportFailed [9] (stepResult 9 2 s) else s

/-! ## Fault classes -/

/-- A class A cause is set (R665, R666): every output turns off, and at entry event 0x88 is raised. A new cause spoils an armed reset (R690) and a pulse test (R694). -/
def classA (bit : Nat) (s : State) : State :=
  let fresh := !s.verm.faultA.getLsbD bit
  let s1 := allOff { s with verm.faultA := setBit s.verm.faultA bit true, verm.newA := s.verm.newA || (fresh && s.verm.armReset.isSome) }
  let s2 := if s.verm.faultA = 0 then raise 0x88 (vermDetail 0 s1.verm.faultA.toNat 1 s.verm.refuse) s1 else s1
  if fresh then endPulseTest s2 else s2

/-- The present time of a class B cause's timer (R667). -/
def bTime (s : State) (c : Nat) : Nat :=
  nth s.verm.bTimer c 0 + (match nth s.verm.bSince c none with | some t => s.clk - t | none => 0)

/-- The timers of class B hold in SENTINEL and SHIP, and run again after them (R667). -/
def holdTimers (s : State) : State := { s with verm.bTimer := (List.range 11).map (bTime s), verm.bSince := List.replicate 11 none }
def runTimers (s : State) : State :=
  { s with verm.bSince := (List.range 11).map fun c => if s.verm.faultB.getLsbD c then some s.clk else none }

/-- A class B cause is present or absent (R667, R668): its timer runs or holds; entry into and clearing of the class raise event 0x89. -/
def classB (c : Nat) (present : Bool) (s : State) : State :=
  if s.verm.faultB.getLsbD c = present then s
  else
    let f := setBit s.verm.faultB c present
    let s1 := { s with verm.faultB := f, verm.bTimer := s.verm.bTimer.set c (bTime s c),
                       verm.bSince := s.verm.bSince.set c (if present then some s.clk else none) }
    if (s.verm.faultB = 0) ≠ (f = 0) then raise 0x89 (vermDetail 0 f.toNat (b2n (f != 0)) s.verm.refuse) s1 else s1

/-- The class B cause that a condition of R654 with action 2 gives. -/
def condCause (i : Nat) : Nat := if i < 3 then 0 else if i = 3 then 1 else 2

/-- The class A cause bit that a condition of R654 with action 3 gives (R665). -/
def condBitA (i : Nat) : Nat := if i < 3 then 8 else if i = 3 then 9 else 10

/-- A condition of R654 holds or ends, and its action is taken. -/
def setCond (i : Nat) (holds : Bool) (s : State) : State :=
  let a := condAction s i
  let s1 := { s with verm.condStop := setBit s.verm.condStop i (holds && a == 1),
                     verm.condB := setBit s.verm.condB i (holds && a == 2),
                     verm.condA := setBit s.verm.condA i (holds && a == 3) }
  let c := condCause i
  let s2 := classB c ((List.range 5).any fun j => condCause j == c && s1.verm.condB.getLsbD j) s1
  let s3 := if holds && a == 3 then classA (condBitA i) s2 else s2
  enforceStop s3

/-- The class A causes whose condition holds now (R670): `SHORT`, `STUCK_ON` and `ESCALATED` are absent once their output is off. -/
def presentA (s : State) : Nat :=
  let on := anyOutputOn s
  b2n (s.verm.faultA.getLsbD 0 && on) + 2 * b2n (s.verm.faultA.getLsbD 1 && on) +
  4 * b2n (s.verm.inps.any fun i => 3 ≤ i.crossA || 3 ≤ i.crossB) + 8 * b2n (s.verm.deadCh != 0) + 16 * b2n (chk3Failed s) +
  32 * b2n s.verm.strobeLost + 64 * b2n s.sys.coreStalled +
  128 * b2n (s.verm.watchAlarm && bitN (blk s 0x01 1) 2) +
  256 * b2n (s.verm.condA &&& 0b111 != 0) + 512 * b2n (s.verm.condA.getLsbD 3) + 1024 * b2n (s.verm.condA.getLsbD 4) +
  2048 * b2n (s.verm.faultA.getLsbD 11 && on) +
  4096 * b2n (s.verm.blockBad || (s.verm.isSealed && s.chain.addr && blk s 0x02 1 != s.chain.pos))

/-- The lowest of the limits that are present; a hard or degraded limit of 0 counts as absent (R660). -/
def effLimit (s : State) (cmd hard degraded : Nat) : Nat :=
  let a := if hard = 0 then cmd else min cmd hard
  if s.verm.faultB ≠ 0 ∧ degraded ≠ 0 then min a degraded else a

/-- `VERM_LIMIT` (R660, R698). -/
def limitChg (s : State) : Nat := effLimit s s.verm.cmdChg (blk s 0x0A 2) (blk s 0x0E 2)
def limitDis (s : State) : Nat := effLimit s s.verm.cmdDis (blk s 0x0C 2) (blk s 0x10 2)

/-- Byte 0 of the state frame: own stop demand, class A, class B, some output driven (R661; DEDUCED, log 31: a stop that a peer calls for is left
out). -/
def stateByte0 (s : State) : Nat :=
  b2n (ownStop s) + 2 * b2n (s.verm.faultA != 0) + 4 * b2n (s.verm.faultB != 0) + 8 * b2n (anyOutputOn s)

/-- The safety supervisor's islands run: outside SENTINEL and SHIP (R65). -/
def vermRuns (s : State) : Bool := s.sys.mode == .active || s.sys.mode == .idle

/-- The drive of an output in 0.1 % of the 20 kHz period (R656): a linear ramp over 20 ms, 100 % in `PULLIN`, 30 % in `HOLD`. -/
def outDuty (s : State) (o : Nat) : Nat :=
  let x := nth s.verm.outs o {}
  match x.st with
  | .ramp => min 1000 ((s.clk - x.atClk) * 1000 / (20 * Config.ms))
  | .pullin => 1000
  | .hold => 300
  | .off | .fault => 0

/-! ## Inputs -/

/-- An input is under test (R652, R676): the pulse test takes the inputs of types 1 to 5 one after the other from 140 ms on, each for 0.8 ms (DESIGN CHOICE, log 169). -/
def underTest (s : State) (k : Nat) : Bool :=
  let t := s.watch.pstartAt + 140 * Config.ms + 800 * k * Config.us
  proofPhase s 140 640 && decide (1 ≤ inpType s k) && decide (inpType s k ≤ 5) && decide (t ≤ s.clk) && decide (s.clk < t + 800 * Config.us)

/-- Channel A shows the demand level of the input's type (R646); a hand's actuated level counts for type 3. -/
def demandA (ty : Nat) (i : InpS) : Bool := (ty == 1 || ty == 2 || ty == 3 || ty == 4) && !i.a

/-- Channel B shows the demand level of the input's type (R646). -/
def demandB (ty : Nat) (i : InpS) : Bool :=
  if ty == 1 || ty == 4 then !i.b else if ty == 2 || ty == 3 then i.b else false

/-- The channels of an input disagree: one shows the demand level and the other does not (R650). -/
def disagrees (ty : Nat) (i : InpS) : Bool := demandA ty i != demandB ty i

/-- The state of an input after a change of a channel (R646, R650, R652, R686, R842). -/
def nextInp (ty : Nat) (i : InpS) : InpS :=
  let dA := demandA ty i
  let dB := demandB ty i
  let run := !dA && !dB
  let i1 := { i with disagree := disagrees ty i }
  if 3 ≤ i.crossA || 3 ≤ i.crossB then { i1 with st := .cross }
  else if ty = 0 || ty = 5 || 5 < ty then { i1 with st := .off }
  else if i.st == .discrepancy then
    let bd := i.bothDemand || (dA && dB)
    if bd && run then { i1 with st := .run, bothDemand := false, seenRun := true } else { i1 with bothDemand := bd }
  else if run then { i1 with st := .run, seenRun := true }
  else { i1 with st := .demand }

/-- An input's entry into demand or run is reported, and an e-stop demand latches once the input has been in the run state (R651, R699; a hand raises
nothing, R649). -/
def noteInput (k ty : Nat) (old new : InpS) (s : State) : State :=
  let s1 := { s with verm.inps := s.verm.inps.set k new }
  if ty = 3 then s1
  else if new.st == .demand && old.st != .demand then
    let s2 := if ty = 1 && old.seenRun then { s1 with verm.inps := s1.verm.inps.set k { new with latch := true } } else s1
    if old.seenRun then raise 0x81 (vermDetail (k + 1) 0 2 s.verm.refuse) s2 else s2
  else if new.st == .run && old.st != .run then raise 0x82 (vermDetail (k + 1) 0 1 s.verm.refuse) s1
  else s1

/-- The commissioning two-hand device after a change of one of its hands (R649): both hands actuated within 500 ms of each other, from a state in
which both were released; a hand is actuated with A low and B high. -/
def evalTwoHand (s : State) : State :=
  let f := blk s 0x25 1
  if f ≠ 1 ∧ f ≠ 3 then { s with verm.twoHand := false }
  else
    let h1 := nth s.verm.inps (f - 1) {}
    let h2 := nth s.verm.inps f {}
    let act (i : InpS) : Bool := !i.a && i.b
    let rel (i : InpS) : Bool := i.a && !i.b
    let stamp (i : InpS) : InpS := { i with actAt := if act i then (match i.actAt with | some t => some t | none => some s.clk) else none }
    let s1 := { s with verm.inps := upd (upd s.verm.inps (f - 1) stamp) f stamp }
    if rel h1 && rel h2 then { s1 with verm.thReady := true, verm.twoHand := false }
    else if act h1 && act h2 then
      match (stamp h1).actAt, (stamp h2).actAt with
      | some t1, some t2 =>
        if s.verm.twoHand then s1
        else if s.verm.thReady && (max t1 t2 - min t1 t2) ≤ 500 * Config.ms then { s1 with verm.twoHand := true, verm.thReady := false }
        else { s1 with verm.thReady := false }
      | _, _ => s1
    else { s1 with verm.twoHand := false }

end Sys2Proof.Machine
end

