-- ==== Sys2Proof/Machine/ChainLink.lean ====
section
/-! DEFINITION. Link frames: `LINK_UP` exchanges, `BREAK`, and the enumeration (R266 to R279, R296 to R298, R830, R903 to R906). -/

namespace Sys2Proof.Machine

open Sys2Proof

/-- The detail of an event about the ring and its enumeration (R799). -/
def ringDetail (s : State) (ext : Nat) : List Byte := det 0 0 s.chain.ring.code ext

/-! ## Enumeration -/

/-- Cause `CONFIG` where an enumeration gives a position that differs from the one in the sealed block (R696). -/
def judgeConfig (s : State) : State :=
  if s.verm.isSealed && blk s 0x02 1 != s.chain.pos then classA 12 s else s

/-- This member's own streams end (R266 step 3): the old ones are discarded, and the next frame of each stream carries `FIRST` (R259). -/
def dropStreams (s : State) : State :=
  let keep (p : ChPort) : ChPort := { p with txq := p.txq.filter fun i => i.transit || i.frame.cls == 0 || 5 < i.frame.cls }
  setPort .north keep (setPort .south keep { s with chain.tx := [], chain.rx := [] })

/-- `ENUM` goes on northward after the `LINK_UP` exchange, or waits for a link (R266, R267). -/
def passEnum (s : State) : State :=
  let s1 := sendLinkUp .north s
  if portUp s1.chain.north then sendEnum .north (s1.chain.pos + 1) { s1 with chain.enumWaitTop := false }
  else { s1 with chain.enumWaitTop := true }

/-- `ENUM_END` sent southward to position 0 (R267, R296, R297). -/
def sendEnumEnd (count flags : Nat) (s : State) : State :=
  enqueueLink .south (mkFrame s 6 0 0x3 2 false false (le 1 count ++ le 1 flags)) s

/-- A member takes its position (R266 step 3, R298, R696, R903). -/
def takePosition (k : Nat) (s : State) : State :=
  let changed := match s.chain.prevPos with | some p => p != k | none => false
  let s1 := dropStreams { s with chain.pos := k, chain.addr := true, chain.prevPos := some k, chain.dead := 0, chain.topUp := false,
                                 chain.enumFlag := false, chain.posChanged := s.chain.posChanged || changed }
  judgeConfig (if changed then raise 0x29 (ringDetail s1 0) (noteOcc 0x804 (setBit 0 26 true) s1) else s1)

/-- An attempt of the anchor (R259, R266 step 2): its streams begin anew, as those of a member do at step 3 (log 94). -/
def enumAttempt (s : State) : State := passEnum (dropStreams { s with chain.dead := 0, chain.topUp := false, chain.second := false })

/-- The anchor's steps 5 and 6 (R266, R267, R296, R297): N and the ring state are recorded and broadcast, event 0x28, the command completes. -/
def enumFinish (n flags : Nat) (s : State) : State :=
  let opn := flags % 8 ≠ 0
  let conf := bitN flags 1
  let ovf := bitN flags 2
  let ring : Ring := if opn then .opened else .closed
  let s1 := { s with chain.n := n, chain.enumBusy := false, chain.enumWaitTop := false, chain.ring := ring, chain.topUp := !opn,
                     chain.dead := if opn then BitVec.ofNat 64 (2 ^ (n - 1)) else 0, chain.forcedOpen := conf || ovf,
                     chain.conflict := s.chain.conflict || conf, chain.overflow := s.chain.overflow || ovf }
  let s2 := if conf || ovf then raise 0x29 (ringDetail s1 n) (noteOcc 0x804 (setBit (setBit 0 24 conf) 25 ovf) s1) else s1
  let s3 := if opn || s.chain.ring != ring then raise 0x27 (det (inst2 (n - 1) 0) 0 ring.code 0) s2 else s2
  let f := mkFrame s3 6 0xFF 0x4 2 false false (le 1 n ++ le 1 ring.code)
  let s4 := enqueueLink .north f s3
  let s5 := if opn && portUp s4.chain.south then enqueueLink .south f s4 else s4
  let s6 := judgeConfig (raise 0x28 (ringDetail s5 n) s5)
  match s.chain.enumBy with
  | some (h, q) => completeQueued h q (le 1 n) { s6 with chain.enumBy := none }
  | none => s6

/-- The ring reads open at a second anchor and at the 65th member, which end the enumeration (R279, R296, R297). -/
def foundHere (s : State) : State :=
  let s1 := { s with chain.forcedOpen := true, chain.enumFlag := true, chain.ring := .opened }
  if s.chain.ring == .opened then s1 else raise 0x27 (ringDetail s1 0) s1

/-- An `ENUM` on the south port of a member that is `READY` (R266, R296, R297). -/
def enumStep (next : Nat) (s : State) : State :=
  if s.sys.anchor then
    (if s.chain.enumBusy then enumFinish next 0 s else sendEnumEnd next 2 (foundHere { s with chain.second := true }))
  else if 64 ≤ next then sendEnumEnd 64 4 (foundHere { s with chain.addr := false })
  else passEnum (takePosition next s)

/-- An `ENUM` arrives (R830, R904): only on the south port, and held until `READY`. -/
def takeEnum (sd : Side) (f : Frame) (s : State) : State :=
  if sd == .north then s
  else if !s.sys.ready then { s with chain.enumHeld := some (field f.body 0 1) }
  else enumStep (field f.body 0 1) s

/-- An `ENUM_END` reaches the anchor (R267, R296, R297). -/
def takeEnumEnd (f : Frame) (s : State) : State :=
  if s.sys.anchor && s.chain.enumBusy then enumFinish (field f.body 0 1) (field f.body 1 1) s else s

/-- An `ENUM_END` with the conflict or overflow flag passes (R279): the ring reads open until an enumeration finds neither. -/
def passEnumEnd (f : Frame) (s : State) : State :=
  if f.kind = 3 ∧ (bitN (field f.body 1 1) 1 ∨ bitN (field f.body 1 1) 2) then { s with chain.forcedOpen := true, chain.enumFlag := true } else s

/-- An `ENUM_DONE` is received (R266 step 5): N and the ring state are recorded. -/
def takeEnumDone (f : Frame) (s : State) : State :=
  let n := field f.body 0 1
  let c := field f.body 1 1 % 4
  let ring : Ring := if c = 0 then .notEnumerated else if c = 1 then .closed else if c = 2 then .opened else .reversed
  let s1 := { s with chain.n := n, chain.ring := ring, chain.topUp := ring == .closed, chain.forcedOpen := s.chain.enumFlag,
                     chain.dead := if ring == .closed then 0 else if ring == .opened then BitVec.ofNat 64 (2 ^ (n - 1)) else s.chain.dead }
  if s.chain.ring == ring then s1 else raise 0x27 (det (inst2 (n - 1) 0) 0 ring.code 0) s1

/-! ## Links -/

/-- A `LINK_UP` exchange is complete (R272, R273): a dead link comes up; a port that is off counts it; an `ENUM` that waits for the link goes on. -/
def linkComplete (sd : Side) (s : State) : State :=
  let p := port s sd
  match p.st with
  | .linkDead =>
    let s1 := judgePort sd (setPort sd (fun p => { p with st := .active, healDue := some s.clk }) s)
    let s2 := raise 0x20 (portDetail s1 sd 0) s1
    if sd == .north && s2.chain.enumWaitTop then sendEnum .north (s2.chain.pos + 1) { s2 with chain.enumWaitTop := false } else s2
  | .portOff =>
    if (match p.offTimes with | t :: _ => decide (t + Config.sec ≤ s.clk) | [] => true) then
      if 15 ≤ p.exchanges then
        setPort sd (fun p => { p with st := .active, tec := 0, recErr := 0, exchanges := 0, healDue := some s.clk }) s
      else setPort sd (fun p => { p with exchanges := p.exchanges + 1 }) s
    else s
  | _ => s

/-- A valid `LINK_UP` (R109, R273): the peer's figures are taken; the port answers unless it has sent one since the previous one received. -/
def takeLinkUp (sd : Side) (f : Frame) (s : State) : State :=
  let p := port s sd
  let s1 := setPort sd (fun p => { p with advRes := (slice f.body 0 6).map (·.toNat), advShared := field f.body 6 1,
                                          sent := [0, 0, 0, 0, 0, 0], peerFreed := [0, 0, 0, 0, 0, 0], outst := [], wroteOff := false }) s
  if p.upSent then
    let s2 := setPort sd (fun p => { p with upSent := false }) s1
    if p.upErr then s2 else linkComplete sd s2
  else linkComplete sd (sendLinkUp sd s1)

/-- A `BREAK` (R275): the set of dead hops follows. -/
def takeBreak (f : Frame) (s : State) : State :=
  if s.chain.n = 0 then s else returnUnheld (noteHop (field f.body 0 1 % 64) (field f.body 1 1 == 0) s)

/-- A link frame taken in by this member, by its kind (R245). -/
def takeLink (sd : Side) (f : Frame) (s : State) : State :=
  match f.kind with
  | 1 => takeLinkUp sd f s
  | 2 => takeEnum sd f s
  | 3 => takeEnumEnd f s
  | 4 => takeEnumDone f s
  | 5 => takeAcks sd f.orig (slice f.body 0 f.plen) s
  | 6 => takeBreak f s
  | _ => s

end Sys2Proof.Machine
end

