-- ==== Sys2Proof/Machine/ChainDeliver.lean ====
section
/-! DEFINITION. What becomes of a chain frame that a member takes in, by its kind, and the reception of any frame (R156 to R161, R232, R254, R262, R372,
R378, R613, R661 to R663, R722, R803). -/

namespace Sys2Proof.Machine

open Sys2Proof

/-! ## Commands, replies, events, items -/

/-- A `COMMAND` frame (R156, R160): its command waits for execution here. -/
def takeCommand (f : Frame) (s : State) : State :=
  let k := pktOf f.body
  { s with cmd.waiting := s.cmd.waiting ++ [{ rq := pktReq k (.chain f.orig), opc := k.opc, params := slice f.body 6 f.plen, tagC := none }] }

/-- A `RESPONSE` frame (R123, R156, R159 to R161): a reply, or a report of a group or broadcast command; too late, it is discarded and counted. -/
def takeResponse (f : Frame) (s : State) : State :=
  let hdr := BitVec.ofNat 16 (field f.body 0 2)
  let seq := hdr.toNat / 16
  let find (p : HPort) : Option (HPort × Nat × Slot) :=
    let i := (portBuf s p).slots.findIdx fun x => x.hdr == hdr && x.reply.isNone
    ((portBuf s p).slots[i]?).map fun sl => (p, i, sl)
  match (find .spi).orElse fun _ => find .uart with
  | none => lateReply s
  | some (p, i, sl) =>
    if sl.dev = 0xFE ∨ sl.dev = 0xFF then reportTo p (slotHost sl) seq f.orig (field f.body 2 1) (bitN (field f.body 5 1) 0) s
    else
      let r : Reply := { hdr := hdr, status := field f.body 2 1, replay := false, more := bitN (field f.body 3 2) 12, data := slice f.body 5 f.plen, tag := none }
      fillSlot p i false (tagReply s (hdr.toNat % 4) sl.tagC false r) s

/-- An entry of an `EVENT` frame enters the stores of the bound hosts it is routed to (R803); a command-complete entry only that of its host (R800). The host of the factory
state receives none from another member (R167). -/
def takeEntry (s : State) (e : Entry) : State :=
  let hosts := (if isFactory s then [] else localHosts s).filter fun h => if e.src = 0x10 then h == field e.detail 0 1 % 4 else routesHost s e.src h
  settle (hosts.foldl (fun p h => storeEntry e h p) (s, []))

/-- An `EVENT` frame (R803): its entries in frame order; an entry whose source does not exist is passed over. -/
def takeEvents (f : Frame) (s : State) : State :=
  ((List.range (f.plen / 16)).map fun i => entryOf (slice f.body (16 * i) 16)).foldl (fun s e => if e.src < 160 then takeEntry s e else s) s

/-- An item delivered to a host of this member (R115, R378, R722). -/
def deliverItem (host : Nat) (payload : List Byte) (s : State) : State := { s with hostData := s.hostData ++ [(host, payload)] }

/-- A `METRO` frame names its host in the record (R717). -/
def takeMetro (f : Frame) (s : State) : State := deliverItem (field f.body 86 1 % 4) (slice f.body 0 f.plen) s

/-- A `DATA` frame names no host: it is for the first host bound here (R378, log 36). -/
def takeData (f : Frame) (s : State) : State := deliverItem ((localHosts s).headD 0) (slice f.body 0 f.plen) s

/-! ## Safety frames -/

/-- Peer j changed. -/
def updPeer (j : Nat) (f : PeerS → PeerS) (s : State) : State := { s with verm.peers := upd s.verm.peers j f }

/-- The peer j that shares a zone with this member (R613). -/
def zonePeer (s : State) (j : Nat) : Bool := peerRole s j 1

/-- A share of a peer's criteria (R613), with the safer of it and what stands where `merge` is set: a criterion present is the safer state. -/
def applyShare (j : Nat) (merge : Bool) (d : List Byte) (s : State) : State :=
  if !zonePeer s j ∨ field d 0 1 ≠ blk s 0x70 1 then s
  else
    let old : Share := (nth s.watch.shares j none).getD { c1 := false, c2 := false, same := false, atClk := 0 }
    let c1 := bitN (field d 1 1) 0
    let c2 := bitN (field d 1 1) 1
    let n : Share := { c1 := c1 || (merge && old.c1), c2 := c2 || (merge && old.c2), same := bitN (field d 2 1) 0, atClk := s.clk }
    { s with watch.shares := s.watch.shares.set j (some n) }

/-- Byte 0 of a peer's state frame takes effect, and what follows from it: `PEER_LOST` ends where the frame proves the peer (R653, R661, R663). -/
def applyByte0 (j : Nat) (b : BitVec 8) (proves : Bool) (s : State) : State :=
  let s1 := updPeer j (fun p => { p with byte0 := b, lost := p.lost && !proves }) s
  enforceStop (classB 6 (s1.verm.peers.any (·.lost)) s1)

/-- The current a peer publishes (R372): taken where the block names the peer as the source. -/
def applyCurrent (j : Nat) (d : List Byte) (s : State) : State :=
  if blk s 0x03 1 == peerPos s j && peerRole s j 2 then
    { s with cell.remote := (signed 32 (field d 2 4), BitVec.ofNat 8 (field d 1 1)), cell.remoteStale := false }
  else s

/-- Content of a SAFETY frame applied in full (R662). -/
def applyAll (j : Nat) (proves : Bool) (d : List Byte) (s : State) : State :=
  if d.length = 8 then applyCurrent j d (applyByte0 j (BitVec.ofNat 8 (field d 0 1)) proves s)
  else if d.length = 4 then applyShare j false d s
  else s

/-- The part of the content that moves toward the safer state (R662): bits that call for a stop or report a fault, criteria present. -/
def applySafer (j : Nat) (d : List Byte) (s : State) : State :=
  if d.length = 8 then applyByte0 j ((nth s.verm.peers j {}).byte0 ||| BitVec.ofNat 8 (field d 0 1)) false s
  else if d.length = 4 then applyShare j true d s
  else s

/-- The second copies disagree (R662): the safer of the two contents stands, the current is discarded, and the third difference within 10 s sets
class B cause `TWIN`. -/
def twinDiffers (j : Nat) (d1 d2 : List Byte) (s : State) : State :=
  let times := s.clk :: (s.verm.diffTimes.filter fun t => s.clk < t + 10 * Config.sec)
  let s1 := { s with verm.twinDiff := satAdd 255 s.verm.twinDiff 1, verm.diffTimes := times }
  let s2 :=
    if d1.length = 8 ∧ d2.length = 8 then applyByte0 j (BitVec.ofNat 8 (field d1 0 1) ||| BitVec.ofNat 8 (field d2 0 1)) false s1
    else applySafer j d2 s1
  if 3 ≤ times.length then classB 7 true s2 else s2

/-- A copy discarded by the alive check counts as missing (R223). -/
def discardCopy (s : State) : State := { s with verm.discard := satAdd 255 s.verm.discard 1 }

/-- A copy of a peer's SAFETY frame at Vermilion (R117, R232, R264, R265, R662). -/
def takeSafety (f : Frame) (s : State) : State :=
  let ch := field f.body 0 1
  let j := ch - 8
  let a := field f.body 1 1
  let d := slice f.body 2 f.plen
  let crc := f.body.getD (2 + f.plen) 0
  if ch < 8 ∨ 32 ≤ ch ∨ peerPos s j ≠ f.orig ∨ !vermRuns s then s
  else if s.chain.ring != .closed then
    let r := aliveCheck ch a d crc s
    if r.2 then applyAll j true d (classB 5 true { r.1 with verm.single := satAdd 255 r.1.verm.single 1 }) else discardCopy r.1
  else
    match (nth s.verm.peers j {}).firsts.find? (fun x => x.1 == a) with
    | some (_, d1) =>
      if chk3Failed s then s
      else if crc8 (BitVec.ofNat 8 ch :: BitVec.ofNat 8 a :: d) ≠ crc then discardCopy (raise 0x3B (chkDetail ch a s) (compareDone 3 false true s))
      else
        let s1 := updPeer j (fun p => { p with firsts := p.firsts.filter fun x => x.1 != a }) (compareDone 3 true true s)
        let s2 := { s1 with verm.missRow := 0 }
        if d1 = d then applyAll j true d s2 else twinDiffers j d1 d s2
    | none =>
      let r := aliveCheck ch a d crc s
      if r.2 then applySafer j d (updPeer j (fun p => { p with firsts := p.firsts ++ [(a, d)] }) r.1) else discardCopy r.1

/-- The twin window of a first copy ends without a second one (R662): its content is applied; the third miss in a row sets class B cause `TWIN`. -/
def twinMissed (j : Nat) (s : State) : State :=
  match (nth s.verm.peers j {}).firsts with
  | [] => s
  | (_, d) :: t =>
    let s1 := updPeer j (fun p => { p with firsts := t }) s
    let s2 := { s1 with verm.twinMiss := satAdd 255 s.verm.twinMiss 1, verm.missRow := s.verm.missRow + 1 }
    let s3 := if 3 ≤ s2.verm.missRow then classB 7 true s2 else s2
    applyAll j false d s3

/-! ## Reception -/

/-- A frame of a stream that its destination has accepted, by its kind (R245); a `VOID` delivers nothing (R262). -/
def deliverKind (f : Frame) (s : State) : State :=
  match f.kind with
  | 0x8 => takeCommand f s
  | 0x9 => takeResponse f s
  | 0xA => takeEvents f s
  | 0xB => takeSafety f s
  | 0xC => takeMetro f s
  | 0xD => takeData f s
  | _ => s

/-- A frame of classes 0 to 5 that this member takes in (R65, R257, R258). -/
def takeIn (sd : Side) (leg : Bool) (f : Frame) (s : State) : State :=
  if !s.sys.ready then s
  else
    let r := acceptStream sd leg f (leaveIdle 4 s)
    if r.2 then deliverKind f r.1 else r.1

/-- `CHAIN_STATE.RING` reads closed again: class B cause `SINGLE_PATH` ends (R662, R667). -/
def judgeSingle (s : State) : State := if s.chain.ring == .closed then classB 5 false s else s

/-- The frame comes back to its origin, where it leaves the ring (R112, R254): every group or broadcast frame, and a unicast frame that nobody answered; a
turned unicast frame passes on. A second anchor takes the `ENUM_DONE` of the first, which carries its own position, as any member does (R296). -/
def comesHome (f : Frame) (s : State) : Bool :=
  s.chain.addr && f.orig == s.chain.pos && (f.multi || 0xFE ≤ f.dest || !f.turned) && !(s.chain.second && f.cls == 6 && f.kind == 4)

/-- How many bytes of an outgoing copy a member sends before AB where the frame does not go on, or its CRC fails (R252 to R254, R291): through `CTL` where `DEST` names it or the
neighbour alone, through `DEST` where the frame has come home, else all up to the CRC. -/
def cutAt (f : Frame) (s : State) : Nat :=
  if f.dest = 0xFC ∨ (s.chain.addr ∧ f.dest = s.chain.pos) then 2
  else if comesHome f s then 3
  else frameLen f - 4

/-- A frame that has passed the checks of its hop (R112, R251, R254, R255): neighbour frames end here; a frame to this position is taken in; a frame of this
member's own leaves the ring; a group or broadcast frame is taken in and goes on; any other goes on. -/
def route (sd : Side) (f : Frame) (s : State) : State :=
  let stays := cutCopy (otherSide sd) f (cutAt f s) s
  if f.dest = 0xFC then takeLink sd f stays
  else if s.chain.addr && f.dest == s.chain.pos then
    if f.cls = 6 then takeLink sd f stays else takeIn sd false f (freeNow sd f stays)
  else if comesHome f s then takeReturned f (freeNow sd f stays)
  else
    let r := forward sd f s
    let s1 := if r.2 then freeNow sd f r.1 else r.1
    if f.cls = 6 then (if 0xFE ≤ f.dest then takeLink sd f s1 else passEnumEnd f s1)
    else if 0xFE ≤ f.dest && s.chain.addr then takeIn sd r.2 f s1
    else s1

/-- The reception of a frame other than a beacon on a port (R245 to R279): where its CRC or a code fails after a copy of it has begun, the copy ends with AB (R253, R291). -/
def receive (sd : Side) (f : Frame) (lq : LineQ) (s : State) : State :=
  let a := arrived f lq
  let r := hopIn sd a.1 a.2 s
  if r.2 then (if a.1.cls == 7 || a.1.kind == 7 then r.1 else judgeSingle (route sd a.1 r.1))
  else if chainOn s && (a.2 == .crcBad || a.2 == .codeBad) then cutCopy (otherSide sd) a.1 (cutAt a.1 s) r.1
  else r.1

end Sys2Proof.Machine
end

