-- ==== Sys2Proof/Machine/CellOps.lean ====
section
/-! DEFINITION. The measurement's shared operations: rates and grid instants, the flags of a sample, rings and host streams, the open-wire test, and the
evidence that limit samples give criterion C4 (R332, R351 to R365, R374 to R379, R607). -/

namespace Sys2Proof.Machine

open Sys2Proof

/-! ## Rates and instants -/

/-- The output rate of a code in samples per second (R352); code 7 acts as 6. -/
def rateOf (code : Nat) : Nat := 250 * 2 ^ min code 6

/-- `CELL_CFG.RATE` (R399). -/
def cellRate (s : State) : Nat := min (rf s.regs.cellCfg 2 0) 6

/-- `CELL_CFG.USED` names a cell, counted from 0 (R399). -/
def cellUsed (s : State) (k : Nat) : Bool := bitN (rf s.regs.cellCfg 19 4) k

/-- A channel of `AUX_CFG.USED`, counted from 0 (R400). -/
def auxUsed (s : State) (k : Nat) : Bool := bitN (rf s.regs.auxCfg 7 0) k

/-- The measurement runs (R65). -/
def measuring (s : State) : Bool := s.sys.powered && (s.sys.mode == .active || s.sys.mode == .idle)

/-- The nanoseconds of the grid instant that a sample of a filter at a rate is attributed to: the last one that lies at least 1.5 sample periods, the half
length of the filter's impulse response, before its completion (R332, R352; log 37). -/
def gridInstant (rate : Nat) (s : State) : Nat :=
  let t := 1000000000 / rate
  ((2 * s.time.ns + 2000000000 - 3 * t) / (2 * t) * t) % 1000000000

/-- That instant on the local clock. -/
def instantClk (rate : Nat) (s : State) : Nat := s.clk - (s.time.ns + 1000000000 - gridInstant rate s) % 1000000000 / 10

/-- The time state was `HOLDOVER` at a local time (R345, R353). -/
def heldAt (t : Nat) (s : State) : Bool :=
  match s.time.stHist.find? fun x => x.1 ≤ t with
  | some x => x.2 == .holdover
  | none => s.time.stHist.isEmpty && s.time.st == .holdover

/-- How many samples of a filter complete up to the first one on the grid after a step, once one more has completed (R335, R351): a discarded sample is none of
those. -/
def tstepLeft (discarded : Bool) (n : Nat) : Nat := if discarded then max (min 1 n) (n - 1) else n - 1

/-- `CELL_CFG.RATE` takes a code: a change raises event 0x4F, and the channels' first 3 samples are discarded (R351, R401). -/
def setRate (code : Nat) (s : State) : State :=
  if code = cellRate s then s
  else
    let s1 := { s with regs.cellCfg := BitVec.ofNat 32 (s.regs.cellCfg.toNat / 8 * 8 + code % 8), cell.mainSkip := 3 }
    raise 0x4F (det 0 code 0 0) s1

/-! ## Flags -/

/-- Pins (0 to 16) of a set that bear on cell k (counted from 0) within a reach: its own two pins, or also the pins one cell further (R357). -/
def nearPin (pins : BitVec 17) (reach k : Nat) : Bool :=
  (List.range 17).any fun p => pins.getLsbD p && decide (k ≤ p + reach) && decide (p ≤ k + 1 + reach)

/-- The current flag byte of a cell sample but for the over-range bits (R353, R357, R358, R365): the pins that clamped in its period, the pins whose SUSPECT
persists, whether an open-wire test runs, the open pins, the time flags, the balance switch. -/
def sampleFlags (clampSeen suspect openPins : BitVec 17) (ow tstep hold bal : Bool) (k : Nat) : Nat :=
  4 * b2n (nearPin clampSeen 0 k) + 8 * b2n (nearPin clampSeen 1 k || nearPin suspect 1 k || ow) + 16 * b2n (nearPin openPins 0 k) +
    32 * b2n tstep + 64 * b2n hold + 128 * b2n bal

/-- One sample of a channel (R355, R356): the saturated code while the input was beyond a threshold during its period and for two samples after, else the
measured value. The comparators have tripped above 5.330 V and below −0.530 V; between those levels and the nominal ones they say so themselves. The state is how many saturated
samples are still due and whether they are under range. -/
def rangeOf (i : CellIn) (r : Nat × Bool) : Int × Nat × (Nat × Bool) :=
  if i.ovr || decide (5330000 < i.uV) then (0x7FFFFF, 1, (2, false))
  else if i.und || decide (i.uV < -530000) then (-0x800000, 2, (2, true))
  else if r.1 ≠ 0 then (if r.2 then (-0x800000, 2, (r.1 - 1, r.2)) else (0x7FFFFF, 1, (r.1 - 1, r.2)))
  else (i.uV, 0, r)

/-- The pins whose count is not 0. -/
def countPins (l : List Nat) : BitVec 17 := maskOf 17 fun p => nth l p 0 != 0

/-! ## Streams -/

/-- An item for a host: delivered here, or sent to the member of its bound port as a BULK `DATA` frame (R115, R378). -/
def sendItem (host : Nat) (payload : List Byte) (s : State) : State :=
  match binding s host with
  | some b =>
    if s.chain.addr && b.pos != s.chain.pos then sendStream false (mkFrame s 5 b.pos 0xD payload.length false false payload) s
    else deliverItem host payload s
  | none => deliverItem host payload s

/-- The items for a host leave by the chain (R115): those for a host of this member are read as they are delivered, and each read grants one further slot (log 58). -/
def itemLeaves (host : Nat) (s : State) : Bool :=
  match binding s host with
  | some b => s.chain.addr && b.pos != s.chain.pos
  | none => false

/-- A frame of a host stream leaves against a granted slot (R115, R378). -/
def flushStream (x : StreamSt) (s : State) : StreamSt × State :=
  if x.buf.isEmpty ∨ x.slots = 0 then (x, s)
  else
    ({ x with buf := [], slots := if itemLeaves x.host s then x.slots - 1 else x.slots, fresh := true },
      sendItem x.host (le 1 x.code ++ le 1 x.buf.length ++ x.buf.flatten) s)

/-- Entries of a full frame of a stream (R378). -/
def streamCap (code : Nat) : Nat := if code = 0x10 then 6 else if code = 0x11 then 15 else 42

/-- An entry for one host stream (R378): without a granted slot it is discarded and counted, with event 0x4C on the first loss after a delivered frame. -/
def pushEntry (x : StreamSt) (e : List Byte) (s : State) : StreamSt × State :=
  let y := { x with snum := (x.snum + 1) % 2 ^ 32 }
  if x.slots = 0 then
    let s1 := { s with cell.hsLoss := satAdd 65535 s.cell.hsLoss 1 }
    ({ y with fresh := false }, if x.fresh then raise 0x4C (det x.code 0 0 0) s1 else s1)
  else
    let z := { y with buf := x.buf ++ [e] }
    if streamCap x.code ≤ z.buf.length then flushStream z s else (z, s)

/-- An entry, made from its sample number, for the open host stream of a code; a cell stream takes every m-th sample (R375, R378). -/
def streamEntry (code : Nat) (e : Nat → List Byte) (s : State) : State :=
  let i := s.cell.streams.findIdx fun x => x.code == code
  match s.cell.streams[i]? with
  | none => s
  | some x =>
    let c := x.cnt + 1
    let put (x : StreamSt) (s : State) : State := { s with cell.streams := s.cell.streams.set i x }
    if c < x.m then put { x with cnt := c } s
    else
      let r := pushEntry { x with cnt := 0 } (e x.snum) s
      put r.1 r.2

/-- The number of entries of a ring by its configuration register (R399). -/
def ringEntries (cfg : Word) : Nat := max 16 (min 512 (rf cfg 25 16))

/-- The base of a ring, a multiple of 16 (R399). -/
def ringBase (cfg : Word) : Nat := rf cfg 15 0 / 16 * 16

/-- An entry, made from its sample number, for a scratchpad ring (R376, R377): written where the next slot is not the one at `RP`; else lost and counted, with event
0x4B on the first loss after a written entry. The flag says whether it was written. -/
def ringEntry (cfg : Word) (size : Nat) (inst : Nat) (e : Nat → List Byte) (r : RingSt) (s : State) : RingSt × State × Bool :=
  if !r.isOpen then (r, s, false)
  else
    let n := ringEntries cfg
    let r1 := { r with snum := (r.snum + 1) % 2 ^ 32 }
    if (r.wp + 1) % n ≠ r.rp then
      ({ r1 with wp := (r.wp + 1) % n, fresh := true },
       { s with indigo.pad := memWriteMod s.indigo.pad 0 65536 (ringBase cfg + r.wp * size) (e r.snum) }, true)
    else
      ({ r1 with ovf := satAdd 65535 r.ovf 1, fresh := false }, if r.fresh then raise 0x4B (det inst 0 0 0) s else s, false)

/-- A signed current saturated to 24 bits (R376). -/
def cur24 (i : Int) : List Byte := leI 3 (clampI (-0x7FFFFF) 0x7FFFFF i)

/-- The current result whose attributed instant lies nearest a local time; of two as near the later one, and the present result where none is kept (R376). -/
def currentAt (t : Nat) (s : State) : Int × BitVec 8 :=
  let far (x : Nat) : Nat := max x t - min x t
  match (s.cell.curAt.zip s.cell.curHist) with
  | [] => (s.cell.isnsMa, s.cell.isnsFlags)
  | x :: l => (l.foldl (fun b y => if far y.1 < far b.1 then y else b) x).2

/-- A cell ring entry of 80 bytes (R376). -/
def cellEntry (s : State) (snum : Nat) : List Byte :=
  let fl := (s.cell.flags.map (·.toNat)).foldl (· ||| ·) 0
  let c := currentAt (instantClk (rateOf (cellRate s)) s) s
  le 4 snum ++ le 4 s.cell.instant ++ cur24 c.1 ++ [c.2] ++ le 1 s.time.st.code ++ le 1 fl ++ [0, 0] ++
    ((List.range 16).map fun k => leI 3 (nth s.cell.value k 0) ++ [nth s.cell.flags k 0]).flatten

/-- An AUX ring entry of 32 bytes (R376). -/
def auxEntry (s : State) (inst snum : Nat) : List Byte :=
  le 4 snum ++ le 4 inst ++ ((List.range 8).map fun k => le 2 (nth s.cell.aux k 0).toNat ++ [nth s.cell.auxFlags k 0]).flatten

/-! ## Results of a proof's steps -/

/-! ## The open-wire test -/

/-- A coherent sweep of this member waits, runs or is being fitted (R390, R552). -/
def sweepBusy (s : State) : Bool := s.sweep.st != .idle

/-- A stimulus runs. -/
def stimRuns (s : State) : Bool := match s.bal.stim with | some x => x.running | none => false

/-- An open-wire test about to begin: the next limit sample is its reference (R363). -/
def owFirst : Owt := { phase := 0, left := 5, refs := [], clamped := 0, judged := 0, fails := 0 }

/-- An open-wire test starts, or is deferred behind a sweep or a running stimulus (R363, R390, R412); a start while one runs changes nothing. -/
def startOw (s : State) : State :=
  if s.cell.ow.isSome ∨ !measuring s then s
  else if sweepBusy s ∨ stimRuns s then { s with cell.owDeferred := true }
  else { s with cell.ow := some owFirst, cell.owDeferred := false }

/-- A deferred open-wire test starts once nothing holds it back (R390, R412, R552). -/
def startDeferredOw (s : State) : State := if s.cell.owDeferred then startOw s else s

/-- `CELL_OW_CFG.OW_THR` in µV: below 10 acts as 10, above 100 as 100 (R399). -/
def owThr (s : State) : Int := 10000 * (max 10 (min 100 (rf s.regs.owCfg 15 8)) : Nat)

/-- A pin's result in an open-wire test (R365): a failed pin is open; an open pin closes after two tests passed in a row. -/
def owResult (fails : Bool) (p : Nat) (s : State) : State :=
  let isOpen := s.cell.openPins.getLsbD p
  let set (b : Bool) (n : Nat) (s : State) : State :=
    { s with cell.openPins := setBit s.cell.openPins p b, cell.owPass := s.cell.owPass.set p n }
  if fails then
    let s1 := set true 0 s
    if isOpen then s1 else raise 0x42 (det p 0 0 0) s1
  else if isOpen then
    if 1 ≤ nth s.cell.owPass p 0 then raise 0x43 (det p 0 0 0) (set false 0 s) else set true 1 s
  else s

/-- A pin at its compare step (R365, R392): it fails where a used cell that uses the pin differs from its reference, or shows OVR or UND. -/
def owPinFails (refs vals : List Int) (flags : List Nat) (s : State) (p : Nat) : Bool :=
  (List.range 16).any fun k =>
    cellUsed s k && (k == p || k + 1 == p) && (decide (owThr s < |nth vals k 0 - nth refs k 0|) || bitN (nth flags k 0) 0 || bitN (nth flags k 0) 1)

/-- The pins of a phase compared: odd pins in the first, even pins in the second (R363). -/
def owCompare (o : Owt) (vals : List Int) (flags : List Nat) (s : State) : Owt :=
  let mine : BitVec 17 := maskOf 17 fun p => p % 2 == 1 - o.phase
  { o with judged := o.judged ||| mine, fails := o.fails ||| (mine &&& maskOf 17 (owPinFails o.refs vals flags s)) }

/-- The results of a test at its end (R365, R391): a pin whose clamp tripped during the test is not evaluated, and its declared state stands (log 164). -/
def owDeclare (o : Owt) (s : State) : State :=
  ((List.range 17).filter fun p => o.judged.getLsbD p && !o.clamped.getLsbD p).foldl (fun s p => owResult (o.fails.getLsbD p) p s) s

/-- A limit sample during a test (R363): the reference, the two compare steps, the settling, and the declarations. -/
def owSample (vals : List Int) (flags : List Nat) (s : State) : State :=
  match s.cell.ow with
  | none => s
  | some o =>
    let o1 := if o.refs.isEmpty then { o with refs := vals } else o
    if 1 < o.left then { s with cell.ow := some { o1 with left := o.left - 1 } }
    else if o.phase = 0 then { s with cell.ow := some { owCompare o1 vals flags s with phase := 1, left := 4 } }
    else if o.phase = 1 then { s with cell.ow := some { owCompare o1 vals flags s with phase := 2, left := 3 } }
    else owDeclare o { s with cell.ow := none }

/-! ## Evidence for criterion C4 -/

/-- A cell's present value against its samples of the preceding second, newest first, while the currents over the span differ by less than the limit (R607);
a flagged sample or current ends the span (R608). -/
def c4Step (mv di v lo hi : Int) : List (Option Int × Option Int) → Bool
  | (some x, some c) :: t =>
    let lo := min lo c
    let hi := max hi c
    if hi - lo < di then decide (mv < |v - x|) || c4Step mv di v lo hi t else false
  | _ => false

/-- A limit sample enters the evidence of C4 (R607, R608): the values of used cells that carry no flag, and the current unless it is OVR, UND or STALE. The
control core, which computes it, passes its criteria with it (R606). -/
def noteC4 (s : State) : State :=
  let cells := (List.range 16).map fun k => if cellUsed s k && nth s.cell.limFlags k 0 == 0 then some (nth s.cell.limVal k 0) else none
  let cur : Option Int := if s.cell.isnsFlags &&& 0x0B = 0 then some s.cell.isnsMa else none
  let mv : Int := 1000 * (max 10 (field s.verm.block 0x6D 1) : Nat)
  let di : Int := 100 * (max 1 (field s.verm.block 0x6E 1) : Nat)
  let old := s.watch.c4Hist.filter fun h => s.clk ≤ h.1 + 1000 * Config.ms
  let hit := (List.range 16).any fun k =>
    match nth cells k none, cur with
    | some v, some c => c4Step mv di v c c (old.map fun h => (nth h.2.1 k none, h.2.2))
    | _, _ => false
  { s with watch.c4Hist := (s.clk, cells, cur) :: old, watch.c4At := if hit then some s.clk else s.watch.c4At,
           watch.coreStale := s.watch.coreStale && s.sys.coreStalled }

/-! ## Balancing as the samples see it -/

/-- A channel is enabled (its on-time is not 0) or carries a stimulus. -/
def chActive (s : State) (k : Nat) : Bool :=
  nth s.bal.onT k 0 != 0 || (match s.bal.stim with | some x => x.mask.getLsbD k | none => false)

/-- A channel's cell gives a cause to hold it (R411): limit result UV or INVALID, or an open sense pin. -/
def holdCause (s : State) (k : Nat) : Bool :=
  nth s.cell.limRes k .inLimits == .uv || nth s.cell.limRes k .inLimits == .invalid || nearPin s.cell.openPins 0 k

/-- The code of a channel state (R435). -/
def diagCode : Diag → Nat
  | .untested => 0 | .ok => 1 | .opened => 2 | .short => 3 | .overcurrent => 4 | .gate => 5

/-- The detail of a balance event about channel k, counted from 0 (R799): on-time in µs, channel state, cause. -/
def balDetail (k cause : Nat) (s : State) : List Byte := det (k + 1 : Nat) (2 * nth s.bal.onT k 0 : Nat) (diagCode (nth s.bal.diag k .untested)) cause

/-- The channels held for UV, INVALID or an open pin follow their causes (R411); entry raises event 0x57 (DEDUCED, log 50: only an active channel is held). -/
def noteHeld (s : State) : State :=
  let h := maskOf 16 fun k => chActive s k && holdCause s k
  ((List.range 16).filter fun k => h.getLsbD k && !s.bal.heldCells.getLsbD k).foldl (fun s k => raise 0x57 (balDetail k 0 s) s)
    { s with bal.heldCells := h }

/-- How long a channel's pulse was on between two local times. -/
def onBetween (t0 t1 : Nat) (p : Nat × Nat) : Nat := min t1 p.2 - max t0 p.1

/-- A channel is off because of its state (R411), until BAL_DIAG_CLR. -/
def diagOff (s : State) (k : Nat) : Bool :=
  let d := nth s.bal.diag k .untested
  d == .short || d == .overcurrent || d == .gate

/-- A channel is held or off whatever it carries (R411, R559, R624): the open-wire test, the proof, its cell's causes, its state, the hardware shutdown, `VSTK_LOW`. -/
def chHeld (s : State) (k : Nat) : Bool :=
  s.cell.ow.isSome || proofPhase s 10 51 || holdCause s k || diagOff s k || s.therm.lines || s.sys.vstkLow

/-- A stimulus has been on after a local time: that of a sweep ends with its pass, before the gap (R534). -/
def onAfter (x : Stim) (since : Nat) : Bool := match x.offAt with | some t => decide (since < t) | none => true

/-- A stimulus is set on a channel; `run` asks for one that runs, which no sweep's does in the gap after its pass (R534). -/
def stimOn (s : State) (run : Bool) (k : Nat) : Bool :=
  match s.bal.stim with
  | some x => x.mask.getLsbD k && (!run || (x.running && onAfter x s.clk))
  | none => false

/-- The channels whose switch has carried the stimulus' current after a local time (R404, R411, R420): of a running stimulus, those not held or off. -/
def sinksSince (since : Nat) (s : State) : BitVec 16 :=
  match s.bal.stim with
  | some x => if x.running && decide (x.onAt ≤ s.clk) && onAfter x since then maskOf 16 fun k => x.mask.getLsbD k && !chHeld s k else 0
  | none => 0

/-- The channels whose switch carries the stimulus' current now. -/
def sinks (s : State) : BitVec 16 := sinksSince s.clk s

/-- Cells whose balance switch was on during a sample period that began at a local time (R353, R421): pulses and sinks that ended in it, pulses that reach into it, and
sinks. -/
def balOn (ended : BitVec 16) (since : Nat) (s : State) : BitVec 16 :=
  ended ||| sinksSince since s ||| maskOf 16 fun k =>
    let p := nth s.bal.pulses k (0, 0)
    decide (p.1 < p.2) && decide (p.1 ≤ s.clk) && decide (since < p.2)

end Sys2Proof.Machine
end

