-- ==== Sys2Proof/Machine/BalOps.lean ====
section
/-! DEFINITION. Balancing's shared operations: effective on-times, what holds a channel, how a stimulus ends, what clears balancing, the channel states
(R402 to R422). -/

namespace Sys2Proof.Machine

open Sys2Proof

/-- `BAL_CFG.MODE` is external-FET (R402, R435). -/
def balExternal (s : State) : Bool := rf s.regs.balCfg 0 0 == 1

/-- The largest on-time in steps of 2 µs (R406). -/
def balMaxOn (s : State) : Nat := if balExternal s then 248 else 124

/-- The effective on-time in steps of 2 µs at the throttle step in force (R409, R430). -/
def balEff (s : State) (k : Nat) : Nat := nth s.bal.onT k 0 / 2 ^ s.bal.sApplied

/-- The partner of a channel in its pair, both counted from 0 (R403). -/
def pairOf (k : Nat) : Nat := if k % 2 = 0 then k + 1 else k - 1

/-- A channel emits no pulses although it is enabled (R411, R421, R424, R559, R624): held, off, its own or its partner's stimulus, or a sweep
that stimulates either, until it ends (R532). -/
def balHeld (s : State) (k : Nat) : Bool :=
  chHeld s k || stimOn s true k || (!balExternal s && stimOn s true (pairOf k)) ||
    (s.sweep.st == .running && (s.sweep.mask.getLsbD k || s.sweep.mask.getLsbD (pairOf k)))

/-! ## Pulses -/

/-- 1 µs on the local clock: what the hardware keeps between the turn-off of one switch of a pair and the turn-on of its partner (R404). -/
def interlock : Nat := Config.us

/-- The on-time up to now is accumulated (R410). -/
def settleAcc (s : State) : State :=
  { s with bal.acc := s.bal.acc.mapIdx fun k t => t + onBetween s.bal.accAt s.clk (nth s.bal.pulses k (0, 0)), bal.accAt := s.clk }

/-- The switches of a set of channels turn off now (R411): pulses end, and those still to come are dropped; none of them is tested. -/
def cutPulses (mask : BitVec 16) (s : State) : State :=
  { s with bal.pulses := s.bal.pulses.mapIdx fun k p => if mask.getLsbD k then (p.1, min p.2 (max p.1 s.clk)) else p,
           bal.pulsed := s.bal.pulsed.mapIdx fun k n => if mask.getLsbD k && decide (s.clk < (nth s.bal.pulses k (0, 0)).2) then 0 else n }

/-- The sample periods in progress have seen the switches that are on now (R353). -/
def markSinks (s : State) : State := { s with cell.mainBal := s.cell.mainBal ||| sinks s, cell.limBal := s.cell.limBal ||| sinks s }

/-- When a switch may turn on, at the earliest, after its partner's pulse that has begun by then (R404). -/
def afterPartner (s : State) (k at_ : Nat) : Nat :=
  let q := nth s.bal.pulses (pairOf k) (0, 0)
  if !balExternal s && decide (q.1 < q.2) && decide (q.1 ≤ at_) then max at_ (q.2 + interlock) else at_

/-! ## The stimulus -/

/-- The partners of a set of channels, in internal mode (R403). -/
def partners (mask : BitVec 16) (s : State) : BitVec 16 := if balExternal s then 0 else maskOf 16 fun k => mask.getLsbD (pairOf k)

/-- A stimulus turns on (R404, R420, R421): its channels' and their partners' pulses end now, and its sinks follow no earlier than the interlock lets them. -/
def turnOnStim (x : Stim) (s : State) : State :=
  let s1 := cutPulses (x.mask ||| partners x.mask s) (settleAcc s)
  let at_ := (ones x.mask).foldl (fun t k => max t (afterPartner s1 k s.clk)) s.clk
  { s1 with bal.stim := some { x with running := true, onAt := at_ }, bal.busy := s.bal.busy ||| x.mask }

/-- The counter in ns (R312). -/
def counterNs (s : State) : Nat := s.time.sec.toNat * 1000000000 + s.time.ns

/-- The first whole second of the counter at least 10 ms from now (R420). -/
def stimT0 (s : State) : Nat := (counterNs s + 10000000 + 999999999) / 1000000000 * 1000000000

/-- The phase of a stimulus at a time of the counter, in 10^-12 cycles (R420): it follows the counter through every step (R428). -/
def stimPhase (x : Stim) (t : Nat) : Nat := ((x.freq : Int) * ((t : Int) - x.t0) % 1000000000000).toNat

/-- The last instant of the 16 kSa/s grid (R332, R420). -/
def stimGrid (s : State) : Nat := counterNs s / 62500 * 62500

/-- The setpoint of the sinks in µA (R420): bias + amplitude × sin(2πf(t − t0)), whose last digit no rule states (log 165), or
bias ± amplitude by the half of the cycle. -/
def stimSetpoint (x : Stim) (s : State) : Int :=
  let p := stimPhase x (stimGrid s)
  if x.wave = 1 then 1000 * x.bias + divFree (1000 * x.amp * (cosSin p 1000000000000).2) (2 ^ 96)
  else if p < 500000000000 then 1000 * x.bias + 1000 * x.amp else 1000 * x.bias - 1000 * x.amp

/-- A gate that the square stimulus of external-FET mode holds on: in the first half of each cycle (R420). -/
def stimGate (x : Stim) (s : State) : Bool := balExternal s && decide (stimPhase x (stimGrid s) < 500000000000)

/-- The stimulus on the channels of a mask ends (R421): the rest of a stimulus goes on; one without channels left ends with event 0x56, and a deferred open-wire
test starts (R412). -/
def endStim (mask : BitVec 16) (cause : Nat) (s : State) : State :=
  match s.bal.stim with
  | none => s
  | some x =>
    if x.mask &&& mask = 0 then s
    else if x.mask &&& ~~~mask ≠ 0 then { markSinks s with bal.stim := some { x with mask := x.mask &&& ~~~mask } }
    else
      let s1 := { markSinks s with bal.stim := none, bal.stimW := 0 }
      let k := (ones x.mask).headD 0
      startDeferredOw (noteHeld (raise 0x56 (balDetail k cause s1) s1))

/-- A cause of R411 is recorded (R435). -/
def noteStop (cause : Nat) (s : State) : State := { s with bal.stopCause := cause }

/-- The on-times of the channels of a mask set to 0 (R407, R411). -/
def clearOn (mask : BitVec 16) (s : State) : State :=
  noteHeld { s with bal.onT := s.bal.onT.mapIdx fun k t => if mask.getLsbD k then 0 else t,
                    bal.debt := s.bal.debt.mapIdx fun k t => if mask.getLsbD k then 0 else t }

/-- Something stands on the channels of a mask that a cause of R411 would clear. -/
def balStands (mask : BitVec 16) (s : State) : Bool := (List.range 16).any fun k => mask.getLsbD k && chActive s k

/-- Balancing and stimulus of the channels of a mask are cleared for a cause of R411, which is recorded where it cleared something (log 51). -/
def clearBal (mask : BitVec 16) (cause : Nat) (s : State) : State :=
  if balStands mask s then clearOn mask (endStim mask cause (noteStop cause s)) else s

/-- All 16 channels. -/
def allCh : BitVec 16 := BitVec.allOnes 16

/-- A channel enters a state (R416, R436): the event of the state, 0x54 for an enabled channel that turns `UNTESTED`. -/
def setDiag (k : Nat) (d : Diag) (s : State) : State :=
  if nth s.bal.diag k .untested == d then s
  else
    let s1 := { s with bal.diag := s.bal.diag.set k d }
    match d with
    | .opened => raise 0x50 (balDetail k 0 s1) s1
    | .short => raise 0x51 (balDetail k 0 s1) s1
    | .overcurrent => raise 0x52 (balDetail k 0 s1) s1
    | .gate => raise 0x53 (balDetail k 0 s1) s1
    | .untested => if nth s.bal.onT k 0 ≠ 0 then raise 0x54 (balDetail k 0 s1) s1 else s1
    | .ok => s1

/-- A load test was passed within the last 2 × `LOADCHK` s (R416, R418). -/
def loadFresh (s : State) (k : Nat) : Bool :=
  match nth s.bal.loadOk k none with
  | some t => rf s.regs.balCfg 31 24 != 0 && s.clk ≤ t + 2 * rf s.regs.balCfg 31 24 * Config.sec
  | none => false

/-- The state follows the tests passed (R416): `OK` from `UNTESTED` or `OPEN` after two in a row, in external-FET mode with a fresh load test. -/
def judgeOk (k : Nat) (s : State) : State :=
  let d := nth s.bal.diag k .untested
  if (d == .untested || d == .opened) && 2 ≤ nth s.bal.passes k 0 && (!balExternal s || loadFresh s k) then setDiag k .ok s else s

/-- An open or load test failed (R413, R415, R416). -/
def failOpen (k : Nat) (s : State) : State :=
  let n := nth s.bal.openFails k 0 + 1
  let s1 := { s with bal.openFails := s.bal.openFails.set k n, bal.passes := s.bal.passes.set k 0 }
  let d := nth s.bal.diag k .untested
  if 2 ≤ n && (d == .untested || d == .ok) then setDiag k .opened s1 else s1

/-- `BAL_CFG.DIAG_AGE` on the local clock, where 0 acts as 1 (R435). -/
def diagAge (s : State) : Nat := max 1 (rf s.regs.balCfg 19 16) * Config.sec

/-- An open or gate test was passed (R416); one passed longer ago than `DIAG_AGE` no longer counts with it (R418). In external-FET mode the load tests count for
themselves. -/
def passTest (k : Nat) (s : State) : State :=
  let n := if s.clk ≤ nth s.bal.passAt k 0 + diagAge s then nth s.bal.passes k 0 + 1 else 1
  judgeOk k { s with bal.passes := s.bal.passes.set k n, bal.passAt := s.bal.passAt.set k s.clk,
                     bal.openFails := if balExternal s then s.bal.openFails else s.bal.openFails.set k 0 }

/-- The channel state as software reads it (R418): `OK` never on the strength of a test older than `DIAG_AGE`, nor in external-FET mode without a fresh load test. -/
def diagShown (s : State) (k : Nat) : Diag :=
  let d := nth s.bal.diag k .untested
  if d == .ok && (decide (nth s.bal.passAt k 0 + diagAge s < s.clk) || (balExternal s && !loadFresh s k)) then .untested else d

/-- All tests of every channel start anew, as at power-up and at a change of `MODE` (R416). -/
def untestAll (s : State) : State :=
  { s with bal.diag := List.replicate 16 .untested, bal.openFails := List.replicate 16 0, bal.passes := List.replicate 16 0,
           bal.limPulses := List.replicate 16 0, bal.shortFails := List.replicate 16 0, bal.gateFails := List.replicate 16 0,
           bal.loadOk := List.replicate 16 none }

end Sys2Proof.Machine
end

