-- ==== Sys2Proof/Machine/FloatOps.lean ====
section
/-! DEFINITION. The arithmetic of Indigo's element types: Q15, Q31, binary16 and binary32 with the rounding, saturation and exception rules
of R494 to R500. Every result is computed exactly on integers and rounded once. -/

namespace Sys2Proof.Machine

open Sys2Proof

/-- A floating-point value: a NaN (signalling or quiet), an infinity, or sign × m × 2^e. -/
inductive FNum where
  | nan (signalling : Bool)
  | inf (neg : Bool)
  | fin (neg : Bool) (m : Nat) (e : Int)
deriving DecidableEq, Repr

/-- Sticky flags of R493, as a number: 1 `SAT`, 2 `INV`, 4 `OVF`, 8 `UFL`. -/
abbrev Flags := Nat

/-- Precision, least exponent and bias of a floating-point type: code 2 binary16, code 3 binary32 (R439). -/
def fPrec (ty : Nat) : Nat := if ty = 2 then 11 else 24
def fEmin (ty : Nat) : Int := if ty = 2 then -14 else -126
def fBias (ty : Nat) : Int := if ty = 2 then 15 else 127

/-- The exponent field of infinities and NaNs. -/
def fTop (ty : Nat) : Nat := if ty = 2 then 31 else 255

/-- The value of a code; a binary32 subnormal reads as zero of the same sign (R498). -/
def fOf (ty code : Nat) : FNum :=
  let p := fPrec ty
  let man := code % 2 ^ (p - 1)
  let ex := code / 2 ^ (p - 1) % (fTop ty + 1)
  let neg := code / 2 ^ (p - 1) / (fTop ty + 1) % 2 == 1
  if ex = fTop ty then (if man = 0 then .inf neg else .nan (man < 2 ^ (p - 2)))
  else if ex = 0 then (if ty = 2 then .fin neg man (fEmin ty - (p - 1)) else .fin neg 0 0)
  else .fin neg (man + 2 ^ (p - 1)) (ex - fBias ty - (p - 1))

/-- The sign bit of a type in place. -/
def fSign (ty : Nat) (neg : Bool) : Nat := if neg then 2 ^ (fPrec ty - 1) * (fTop ty + 1) else 0

/-- The code of an infinity. -/
def fInf (ty : Nat) (neg : Bool) : Nat := fSign ty neg + fTop ty * 2 ^ (fPrec ty - 1)

/-- The default NaN (R498): 0x7E00 or 0x7FC0_0000. -/
def fNan (ty : Nat) : Nat := fTop ty * 2 ^ (fPrec ty - 1) + 2 ^ (fPrec ty - 2)

/-- A quotient by a power of two rounded to nearest, ties to even (R494). -/
def shiftRne (m sh : Nat) : Nat :=
  let q := m >>> sh
  let r := m - q <<< sh
  if 2 * r < 2 ^ sh then q else if 2 ^ sh < 2 * r then q + 1 else q + q % 2

/-- An exact value sign × m × 2^e rounded once to a type (R494, R498). -/
def fRound (ty : Nat) (neg : Bool) (m : Nat) (e : Int) : Nat × Flags :=
  if m = 0 then (fSign ty neg, 0)
  else
    let p := fPrec ty
    let top : Int := (Nat.log2 m : Int) + e
    let q : Int := max top (fEmin ty) - (p - 1)
    let k0 := if q ≤ e then m <<< (e - q).toNat else shiftRne m (q - e).toNat
    let exact := if q ≤ e then true else k0 <<< (q - e).toNat == m
    let k := if k0 = 2 ^ p then k0 / 2 else k0
    let q1 := if k0 = 2 ^ p then q + 1 else q
    let tiny := decide (top < fEmin ty) && !exact && (decide (k < 2 ^ (p - 1)) || Config.tinyAtBoundary)
    if k < 2 ^ (p - 1) then
      if ty = 2 then (fSign ty neg + k, if tiny then 8 else 0) else (fSign ty neg, 8)
    else
      let ex := (q1 + (p - 1) + fBias ty).toNat
      if fTop ty ≤ ex then (fInf ty neg, 4)
      else (fSign ty neg + ex * 2 ^ (p - 1) + (k - 2 ^ (p - 1)), if tiny then 8 else 0)

/-- Whether a value is a signalling NaN: an operation on it is invalid. -/
def FNum.isSnan : FNum → Bool
  | .nan b => b
  | _ => false

/-- A signed number on a common exponent. -/
def fScaled (neg : Bool) (m : Nat) (e to_ : Int) : Int :=
  let v : Int := (m <<< (e - to_).toNat : Nat)
  if neg then -v else v

/-- The exact sum, and whether the operation is invalid. An exact zero is negative only where both operands are. -/
def fAdd (x y : FNum) : FNum × Bool :=
  match x, y with
  | .nan b, y => (.nan false, b || y.isSnan)
  | x, .nan b => (.nan false, b || x.isSnan)
  | .inf a, .inf b => if a = b then (.inf a, false) else (.nan false, true)
  | .inf a, _ => (.inf a, false)
  | _, .inf b => (.inf b, false)
  | .fin n1 m1 e1, .fin n2 m2 e2 =>
    let e := min e1 e2
    let v := fScaled n1 m1 e1 e + fScaled n2 m2 e2 e
    (.fin (if v = 0 then n1 && n2 else decide (v < 0)) v.natAbs e, false)

/-- The exact product, and whether the operation is invalid. -/
def fMul (x y : FNum) : FNum × Bool :=
  match x, y with
  | .nan b, y => (.nan false, b || y.isSnan)
  | x, .nan b => (.nan false, b || x.isSnan)
  | .inf a, .inf b => (.inf (a != b), false)
  | .inf a, .fin n m _ => if m = 0 then (.nan false, true) else (.inf (a != n), false)
  | .fin n m _, .inf b => if m = 0 then (.nan false, true) else (.inf (n != b), false)
  | .fin n1 m1 e1, .fin n2 m2 e2 => (.fin (n1 != n2) (m1 * m2) (e1 + e2), false)

/-- The negative of a value. -/
def FNum.negate : FNum → FNum
  | .nan b => .nan b
  | .inf n => .inf !n
  | .fin n m e => .fin (!n) m e

/-- An exact result written in a type: an invalid operation gives the default NaN and `INV`; any other NaN is a quiet NaN whose sign and payload are free
(R498, log 40). -/
def fWrite (ty a b : Nat) (r : FNum × Bool) : Nat × Flags :=
  match r.1 with
  | .nan _ =>
    if r.2 then (fNan ty, 2)
    else
      let free := Config.nanPayload ty a b
      (fSign ty (free % 2 == 1) + fNan ty + free / 2 % 2 ^ (fPrec ty - 2), 0)
  | .inf n => (fInf ty n, 0)
  | .fin n m e => fRound ty n m e

/-- One fused multiply-add rounded to binary32 (R497): acc + x × y; the factors have a type of their own. -/
def fFma (ty acc x y : Nat) : Nat × Flags :=
  let p := fMul (fOf ty x) (fOf ty y)
  let r := fAdd p.1 (fOf 3 acc)
  fWrite 3 acc (x + 2 ^ 32 * y) (r.1, p.2 || r.2)

/-- Strictly less, for values that are no NaN. -/
def fLess (x y : FNum) : Bool :=
  match x, y with
  | .inf a, .inf b => a && !b
  | .inf a, _ => a
  | _, .inf b => !b
  | .fin n1 m1 e1, .fin n2 m2 e2 => let e := min e1 e2; decide (fScaled n1 m1 e1 e < fScaled n2 m2 e2 e)
  | _, _ => false

/-- A value written back unchanged, but for a binary32 subnormal, which reads as zero (R498). -/
def fCopy (ty code : Nat) : Nat :=
  match fOf ty code with
  | .fin n 0 _ => fSign ty n
  | _ => code

/-- `MIN` and `MAX` (R498): the other operand where exactly one is a NaN; a signalling NaN makes the operation invalid. -/
def fPick (ty : Nat) (greater : Bool) (a b : Nat) : Nat × Flags :=
  let x := fOf ty a
  let y := fOf ty b
  let inv := if x.isSnan || y.isSnan then 2 else 0
  match x, y with
  | .nan s, .nan t => fWrite ty a b (.nan false, s || t)
  | .nan _, _ => (fCopy ty b, inv)
  | _, .nan _ => (fCopy ty a, inv)
  | _, _ =>
    if fLess x y then (fCopy ty (if greater then b else a), 0)
    else if fLess y x then (fCopy ty (if greater then a else b), 0)
    else (fCopy ty (if Config.zeroPick a b then a else b), 0)

/-- The size of an element in bytes (R439). -/
def tySize (ty : Nat) : Nat := if ty = 0 ∨ ty = 2 then 2 else 4

/-- The wider type (R507). -/
def tyWide (ty : Nat) : Nat := if ty = 0 then 1 else if ty = 2 then 3 else ty

/-- Fraction bits of a fixed-point type (R439). -/
def qFrac (ty : Nat) : Nat := if ty = 0 then 15 else 31

/-- A fixed-point code as a signed number. -/
def qOf (ty code : Nat) : Int := signed (8 * tySize ty) code

/-- An integer as a fixed-point code, saturated (R495). -/
def qWrite (ty : Nat) (x : Int) : Nat × Flags :=
  let n := 8 * tySize ty
  let hi : Int := 2 ^ (n - 1) - 1
  let y := clampI (-hi - 1) hi x
  ((y % 2 ^ n).toNat, if x = y then 0 else 1)

/-- Sum and product of two elements of a type, and their flags (R494, R495, R517). -/
def eAdd (ty a b : Nat) : Nat × Flags :=
  if ty < 2 then qWrite ty (qOf ty a + qOf ty b) else fWrite ty a b (fAdd (fOf ty a) (fOf ty b))
def eSub (ty a b : Nat) : Nat × Flags :=
  if ty < 2 then qWrite ty (qOf ty a - qOf ty b) else fWrite ty a b (fAdd (fOf ty a) (fOf ty b).negate)
def eMul (ty a b : Nat) : Nat × Flags :=
  if ty < 2 then qWrite ty (roundHalfEven (qOf ty a * qOf ty b) (2 ^ qFrac ty)) else fWrite ty a b (fMul (fOf ty a) (fOf ty b))

/-- The lesser or greater of two elements (R498, R506). -/
def ePick (ty : Nat) (greater : Bool) (a b : Nat) : Nat × Flags :=
  if ty < 2 then (if (qOf ty a < qOf ty b) = greater then b else a, 0) else fPick ty greater a b

/-- A conversion of an element by 2^e to another type (R499). -/
def eConvert (src dst code : Nat) (e : Int) : Nat × Flags :=
  let x : FNum := if src < 2 then let v := qOf src code; .fin (decide (v < 0)) v.natAbs (-(qFrac src : Int)) else fOf src code
  if dst < 2 then
    match x with
    | .nan _ => (0, 2)
    | .inf n => qWrite dst (if n then -(2 ^ 40) else 2 ^ 40)
    | .fin n m ex =>
      let k := ex + e + qFrac dst
      let v := if 0 ≤ k then m <<< (min k 600).toNat else shiftRne m (-k).toNat
      qWrite dst (if n then -(v : Int) else v)
  else
    match x with
    | .fin n m ex => fRound dst n m (ex + e)
    | _ => fWrite dst code 0 (x, x.isSnan)

/-- Results in order with their flags joined. -/
def joinFlags (l : List (Nat × Flags)) : List Nat × Flags := (l.map (·.1), l.foldl (fun f x => f ||| x.2) 0)

/-- A complex Q15 element as its two parts (R439). -/
def cRe (w : Nat) : Int := signed 16 (w % 65536)
def cIm (w : Nat) : Int := signed 16 (w / 65536)

/-- A complex element of two integer parts, each saturated to Q15 (R500). -/
def cWrite (re im : Int) : Nat × Flags :=
  let a := qWrite 0 re
  let b := qWrite 0 im
  (a.1 + 65536 * b.1, a.2 ||| b.2)

/-- A complex Q15 product, or the product with the conjugate of the second factor (R500). -/
def cMul (conj : Bool) (a b : Nat) : Nat × Flags :=
  let bi := if conj then -cIm b else cIm b
  cWrite (roundHalfEven (cRe a * cRe b - cIm a * bi) 32768) (roundHalfEven (cRe a * bi + cIm a * cRe b) 32768)

/-- A binary32 code as an exact number, 0 for a NaN or an infinity. -/
def f32Rat (code : Nat) : Rat :=
  match fOf 3 code with
  | .fin n m e =>
    let v : Rat := if 0 ≤ e then ((m <<< e.toNat : Nat) : Rat) else mkRat m (2 ^ (-e).toNat)
    if n then -v else v
  | _ => 0

end Sys2Proof.Machine
end

