-- ==== Sys2Proof/Machine/IndigoIsa.lean ====
section
/-! DEFINITION. Indigo's instruction words: the instructions of both engines with their fields, their encoding and the decoding of a word
(R488 to R490, R505, R506, R508). -/

namespace Sys2Proof.Machine

open Sys2Proof

/-- An instruction of Indigo, with the fields of its format (R488). -/
inductive IInstr where
  | nop
  | li (d : Fin 16) (k : BitVec 18)
  | lih (d : Fin 16) (k : BitVec 18)
  | addi (d a : Fin 16) (k : BitVec 18)
  | sop (d a b : Fin 16) (op : Fin 12)
  | lds (d a : Fin 16) (k : BitVec 18)
  | sts (d a : Fin 16) (k : BitVec 18)
  | br (cond : Fin 7) (a b : Fin 16) (target : BitVec 11)
  | loopr (a : Fin 16) (last : BitVec 11)
  | loopi (count last : BitVec 11)
  | endK (a : Fin 16)
  | stw (d a : Fin 16) (clear : Bool)
  | ring (d a : Fin 16) (write aux : Bool)
  | tshp (d : Fin 16) (p : BitVec 10)
  | tld (d a b : Fin 16) (p : BitVec 10)
  | tst (d a b : Fin 16)
  | tew (d a b : Fin 16) (op : Fin 5)
  | tews (d a c : Fin 16) (op : Fin 3)
  | tmm (d a b : Fin 16) (op : Fin 3)
  | ttr (d a : Fin 16)
  | tcvt (d a : Fin 16) (ty : Fin 4) (e : Byte)
  | tred (d a : Fin 16) (op : Fin 4)
  | tmov (d a : Fin 16)
  | tget (d a row col : Fin 16)
  | tput (d a row col : Fin 16)
  | tunpk (d a c : Fin 16) (op : Fin 5)
  | txs (a : Fin 16)
  | txr (d : Fin 16)
  | sshp (d : Fin 8) (len : BitVec 9)
  | sld (d : Fin 8) (a : Fin 16) (len : BitVec 9)
  | sst (d : Fin 8) (a : Fin 16)
  | sew (d a b : Fin 8) (op : Fin 4)
  | sscl (d a : Fin 8) (c : Fin 16)
  | sdot (d : Fin 15) (a b : Fin 8) (h : Fin 16)
  | sfft (d a : Fin 8) (inverse : Bool)
  | sget (d : Fin 16) (a : Fin 8) (i : Byte)
  | sput (d : Fin 8) (a : Fin 16) (i : Byte)
  | sxs (a : Fin 8)
  | sxr (d : Fin 8)
deriving DecidableEq, Repr

/-- Format R (R488). -/
def wordR (op d a b c f : Nat) : Word := BitVec.ofNat 32 (op * 2 ^ 26 + d * 2 ^ 22 + a * 2 ^ 18 + b * 2 ^ 14 + c * 2 ^ 10 + f)

/-- Format I (R488). -/
def wordI (op d a k : Nat) : Word := BitVec.ofNat 32 (op * 2 ^ 26 + d * 2 ^ 22 + a * 2 ^ 18 + k)

/-- The word of an instruction (R488, R505, R506, R508). -/
def encodeI : IInstr → Word
  | .nop => wordR 0x00 0 0 0 0 0
  | .li d k => wordI 0x01 d 0 k.toNat
  | .lih d k => wordI 0x02 d 0 k.toNat
  | .addi d a k => wordI 0x03 d a k.toNat
  | .sop d a b op => wordR 0x04 d a b 0 op
  | .lds d a k => wordI 0x05 d a k.toNat
  | .sts d a k => wordI 0x06 d a k.toNat
  | .br cond a b target => wordI 0x07 cond a (b * 2 ^ 14 + target.toNat)
  | .loopr a last => wordI 0x08 0 a last.toNat
  | .loopi count last => wordI 0x09 0 0 (count.toNat * 2 ^ 11 + last.toNat)
  | .endK a => wordR 0x0A 0 a 0 0 0
  | .stw d a clear => wordR 0x0B d a 0 0 (if clear then 1 else 0)
  | .ring d a write aux => wordR 0x0C d a 0 0 ((if write then 1 else 0) + (if aux then 4 else 0))
  | .tshp d p => wordR 0x10 d 0 0 0 p.toNat
  | .tld d a b p => wordR 0x11 d a b 0 p.toNat
  | .tst d a b => wordR 0x12 d a b 0 0
  | .tew d a b op => wordR 0x13 d a b 0 op
  | .tews d a c op => wordR 0x14 d a 0 c op
  | .tmm d a b op => wordR 0x15 d a b 0 op
  | .ttr d a => wordR 0x16 d a 0 0 0
  | .tcvt d a ty e => wordR 0x17 d a 0 0 (ty + 4 * e.toNat)
  | .tred d a op => wordR 0x18 d a 0 0 op
  | .tmov d a => wordR 0x19 d a 0 0 0
  | .tget d a row col => wordR 0x1A d a 0 0 (row + 16 * col)
  | .tput d a row col => wordR 0x1B d a 0 0 (row + 16 * col)
  | .tunpk d a c op => wordR 0x1C d a 0 c op
  | .txs a => wordR 0x1D 0 a 0 0 0
  | .txr d => wordR 0x1E d 0 0 0 0
  | .sshp d len => wordR 0x20 d 0 0 0 len.toNat
  | .sld d a len => wordR 0x21 d a 0 0 len.toNat
  | .sst d a => wordR 0x22 d a 0 0 0
  | .sew d a b op => wordR 0x23 d a b 0 op
  | .sscl d a c => wordR 0x24 d a 0 c 0
  | .sdot d a b h => wordR 0x25 d a b 0 h
  | .sfft d a inverse => wordR 0x26 d a 0 0 (if inverse then 1 else 0)
  | .sget d a i => wordR 0x27 d a 0 0 i.toNat
  | .sput d a i => wordR 0x28 d a 0 0 i.toNat
  | .sxs a => wordR 0x29 0 a 0 0 0
  | .sxr d => wordR 0x2A d 0 0 0 0

/-- The scalar and control instruction that the fields of a word spell (R505); a field without use must be 0 (R489, log 49). -/
def decodeScalar (op d a b c f k : Nat) : Option IInstr :=
  let D := Fin.ofNat 16 d
  let A := Fin.ofNat 16 a
  let B := Fin.ofNat 16 b
  match op with
  | 0x00 => if d = 0 ∧ a = 0 ∧ k = 0 then some .nop else none
  | 0x01 => if a = 0 then some (.li D (BitVec.ofNat 18 k)) else none
  | 0x02 => if a = 0 then some (.lih D (BitVec.ofNat 18 k)) else none
  | 0x03 => some (.addi D A (BitVec.ofNat 18 k))
  | 0x04 => if c = 0 ∧ f < 12 then some (.sop D A B (Fin.ofNat 12 f)) else none
  | 0x05 => some (.lds D A (BitVec.ofNat 18 k))
  | 0x06 => some (.sts D A (BitVec.ofNat 18 k))
  | 0x07 => if d < 7 ∧ k / 2 ^ 11 % 8 = 0 then some (.br (Fin.ofNat 7 d) A B (BitVec.ofNat 11 k)) else none
  | 0x08 => if d = 0 ∧ k / 2 ^ 11 = 0 then some (.loopr A (BitVec.ofNat 11 k)) else none
  | 0x09 => if d = 0 ∧ a < 16 ∧ k / 2 ^ 11 + a * 2 ^ 7 < 2 ^ 11 then
      some (.loopi (BitVec.ofNat 11 (k / 2 ^ 11 + a * 2 ^ 7)) (BitVec.ofNat 11 k)) else none
  | 0x0A => if d = 0 ∧ k = 0 then some (.endK A) else none
  | 0x0B => if b = 0 ∧ c = 0 ∧ f < 2 then some (.stw D A (f == 1)) else none
  | 0x0C => if b = 0 ∧ c = 0 ∧ f < 8 ∧ f / 2 % 2 = 0 then some (.ring D A (f % 2 == 1) (f / 4 == 1)) else none
  | _ => none

/-- The tile instruction that the fields of a word spell (R506). -/
def decodeTile (op d a b c f : Nat) : Option IInstr :=
  let D := Fin.ofNat 16 d
  let A := Fin.ofNat 16 a
  let B := Fin.ofNat 16 b
  let C := Fin.ofNat 16 c
  match op with
  | 0x10 => if a = 0 ∧ b = 0 ∧ c = 0 then some (.tshp D (BitVec.ofNat 10 f)) else none
  | 0x11 => if c = 0 then some (.tld D A B (BitVec.ofNat 10 f)) else none
  | 0x12 => if c = 0 ∧ f = 0 then some (.tst D A B) else none
  | 0x13 => if c = 0 ∧ f < 5 then some (.tew D A B (Fin.ofNat 5 f)) else none
  | 0x14 => if b = 0 ∧ f < 3 then some (.tews D A C (Fin.ofNat 3 f)) else none
  | 0x15 => if c = 0 ∧ f < 3 then some (.tmm D A B (Fin.ofNat 3 f)) else none
  | 0x16 => if b = 0 ∧ c = 0 ∧ f = 0 then some (.ttr D A) else none
  | 0x17 => if b = 0 ∧ c = 0 then some (.tcvt D A (Fin.ofNat 4 f) (BitVec.ofNat 8 (f / 4))) else none
  | 0x18 => if b = 0 ∧ c = 0 ∧ f < 4 then some (.tred D A (Fin.ofNat 4 f)) else none
  | 0x19 => if b = 0 ∧ c = 0 ∧ f = 0 then some (.tmov D A) else none
  | 0x1A => if b = 0 ∧ c = 0 ∧ f < 256 then some (.tget D A (Fin.ofNat 16 f) (Fin.ofNat 16 (f / 16))) else none
  | 0x1B => if b = 0 ∧ c = 0 ∧ f < 256 then some (.tput D A (Fin.ofNat 16 f) (Fin.ofNat 16 (f / 16))) else none
  | 0x1C => if b = 0 ∧ f < 5 then some (.tunpk D A C (Fin.ofNat 5 f)) else none
  | 0x1D => if d = 0 ∧ b = 0 ∧ c = 0 ∧ f = 0 then some (.txs A) else none
  | 0x1E => if a = 0 ∧ b = 0 ∧ c = 0 ∧ f = 0 then some (.txr D) else none
  | _ => none

/-- The spectral instruction that the fields of a word spell (R508); spectral register numbers 8 to 15 and lengths above 256 are undefined (R446, R488). -/
def decodeSpec (op d a b c f : Nat) : Option IInstr :=
  let D := Fin.ofNat 8 d
  let A := Fin.ofNat 8 a
  let B := Fin.ofNat 8 b
  let A16 := Fin.ofNat 16 a
  match op with
  | 0x20 => if d < 8 ∧ a = 0 ∧ b = 0 ∧ c = 0 ∧ f < 256 then some (.sshp D (BitVec.ofNat 9 f)) else none
  | 0x21 => if d < 8 ∧ b = 0 ∧ c = 0 ∧ f < 256 then some (.sld D A16 (BitVec.ofNat 9 f)) else none
  | 0x22 => if d < 8 ∧ b = 0 ∧ c = 0 ∧ f = 0 then some (.sst D A16) else none
  | 0x23 => if d < 8 ∧ a < 8 ∧ b < 8 ∧ c = 0 ∧ f < 4 then some (.sew D A B (Fin.ofNat 4 f)) else none
  | 0x24 => if d < 8 ∧ a < 8 ∧ b = 0 ∧ f = 0 then some (.sscl D A (Fin.ofNat 16 c)) else none
  | 0x25 => if d < 15 ∧ a < 8 ∧ b < 8 ∧ c = 0 ∧ f < 16 then some (.sdot (Fin.ofNat 15 d) A B (Fin.ofNat 16 f)) else none
  | 0x26 => if d < 8 ∧ a < 8 ∧ b = 0 ∧ c = 0 ∧ f < 2 then some (.sfft D A (f == 1)) else none
  | 0x27 => if a < 8 ∧ b = 0 ∧ c = 0 ∧ f < 256 then some (.sget (Fin.ofNat 16 d) A (BitVec.ofNat 8 f)) else none
  | 0x28 => if d < 8 ∧ b = 0 ∧ c = 0 ∧ f < 256 then some (.sput D A16 (BitVec.ofNat 8 f)) else none
  | 0x29 => if d = 0 ∧ a < 8 ∧ b = 0 ∧ c = 0 ∧ f = 0 then some (.sxs A) else none
  | 0x2A => if d < 8 ∧ a = 0 ∧ b = 0 ∧ c = 0 ∧ f = 0 then some (.sxr D) else none
  | _ => none

/-- The instruction that a word spells for an engine; none where the encoding is undefined or belongs to the other engine (R489). -/
def decodeI (e : Engine) (w : Word) : Option IInstr :=
  let n := w.toNat
  let op := n / 2 ^ 26
  let d := n / 2 ^ 22 % 16
  let a := n / 2 ^ 18 % 16
  let b := n / 2 ^ 14 % 16
  let c := n / 2 ^ 10 % 16
  let f := n % 2 ^ 10
  let k := n % 2 ^ 18
  if op < 0x10 then decodeScalar op d a b c f k
  else match e with
    | .te => decodeTile op d a b c f
    | .se => decodeSpec op d a b c f

end Sys2Proof.Machine
end

