-- ==== Sys2Proof/Machine/IndigoOps.lean ====
section
/-! DEFINITION. Indigo's shared operations: the engines, the scratchpad with its pages, how a kernel ends, launching and copying code, the
context format (R437 to R484). -/

namespace Sys2Proof.Machine

open Sys2Proof

/-- An engine of Indigo. -/
def eng (s : State) : Engine → Eng
  | .te => s.indigo.te
  | .se => s.indigo.se

/-- The state with an engine changed. -/
def setEng (e : Engine) (f : Eng → Eng) (s : State) : State :=
  match e with
  | .te => { s with indigo.te := f s.indigo.te }
  | .se => { s with indigo.se := f s.indigo.se }

/-- 0 for the TE, 1 for the SE (R457). -/
def engCode : Engine → Nat
  | .te => 0
  | .se => 1

/-- The engine of a code. -/
def engOf (n : Nat) : Engine := if n = 0 then .te else .se

/-- The other engine. -/
def otherEng : Engine → Engine
  | .te => .se
  | .se => .te

/-- The code of a termination (R463). -/
def termCode : Term → Nat
  | .none => 0 | .endd => 1 | .stopped => 2 | .fault => 3 | .thermal => 4 | .powerdown => 5

/-- The detail of an Indigo event (R799): engine and slot, result or fault detail, `TERM` and fault code, word index. -/
def engDetail (e : Engine) (val idx : Nat) (s : State) : List Byte :=
  let g := eng s e
  det (inst2 (engCode e) g.slot) val (inst2 (termCode g.term) g.faultCode) idx

/-- The code of an engine state (R462). -/
def estateCode : EState → Nat
  | .idle => 0 | .loading => 1 | .running => 2 | .suspended => 3

/-! ## The scratchpad -/

/-- The little-endian word at a scratchpad offset. -/
def padWord (s : State) (a : Nat) : Nat := leNat (memRead s.indigo.pad a 4)

/-- Bytes stored into the scratchpad; nothing lands beyond its 64 KiB. -/
def padWrite (a : Nat) (l : List Byte) (s : State) : State :=
  { s with indigo.pad := memWrite s.indigo.pad a (l.take (65536 - a)) }

/-- The base of an engine's context area; the low 4 bits are ignored (R485). -/
def ctxBase (s : State) : Engine → Nat
  | .te => rf s.regs.ctxTe 15 4 * 16
  | .se => rf s.regs.ctxSe 15 4 * 16

/-- A kernel may not touch a byte: it lies in a context area, or its page's attribute does not permit the access (R451). -/
def denied (s : State) (e : Engine) (write : Bool) (a : Nat) : Bool :=
  let inArea (b : Nat) : Bool := b ≤ a && a < b + 8352
  let attr := rf (eng s e).page (2 * (a / 4096) + 1) (2 * (a / 4096))
  inArea (ctxBase s .te) || inArea (ctxBase s .se) || !(attr == 3 || (attr == 1 && !write))

/-- The fault of an access to runs of bytes (R450, R451, R453, R492): its lowest code with the detail. `runs` lists first byte and length, `bads` the offsets with an
uncorrectable error. -/
def accessFault (s : State) (e : Engine) (write aligned : Bool) (base : Nat) (runs : List (Nat × Nat)) (bads : List Nat) : Option (Nat × Nat) :=
  if !aligned then some (4, base)
  else if runs.any (fun r => 65536 < r.1 + r.2) then some (5, base)
  else
    match (runs.flatMap fun r => (List.range r.2).map fun i => r.1 + i).find? (denied s e write) with
    | some a => some (6, a)
    | none =>
      match bads.find? (fun w => runs.any fun r => r.1 < w + 4 && w < r.1 + r.2) with
      | some w => some (9, w)
      | none => none

/-- Corrected errors in the words read are counted, each with event 0x67 (R453). -/
def noteCorrected (corr : List Nat) (runs : List (Nat × Nat)) (s : State) : State :=
  (corr.filter fun w => runs.any fun r => r.1 < w + 4 && w < r.1 + r.2).foldl
    (fun s w => raise 0x67 (det 0 w 0 0) { s with indigo.eccCorr := satAdd 255 s.indigo.eccCorr 1 }) s

/-- What a host access to the scratchpad meets (R453): corrected errors, and event 0x68 for each uncorrectable one; the stored bits stand. -/
def hostEcc (ecc : Ecc) (lo n : Nat) (s : State) : State :=
  (ecc.bad.filter fun w => lo < w + 4 && w < lo + n).foldl (fun s w => raise 0x68 (det 0 w 0 0) s) (noteCorrected ecc.corr [(lo, n)] s)

/-! ## Slots and images -/

/-- A byte of a slot: the kernel store for 0 to 7, and the library, whose images no rule states, for 0x80 to 0x8F (R456, log 44). -/
def slotByte (s : State) (slot i : Nat) : Nat :=
  if slot < 8 then (memGet s.indigo.store (8192 * slot + i)).toNat else Config.libraryByte slot i % 256

/-- A little-endian field of a slot. -/
def slotField (s : State) (slot off n : Nat) : Nat := leNat ((List.range n).map fun i => BitVec.ofNat 8 (slotByte s slot (off + i)))

/-- A library slot (R456). -/
def librarySlot (slot : Nat) : Bool := 0x80 ≤ slot && slot ≤ 0x8F

/-- A slot that exists (R456). -/
def slotExists (slot : Nat) : Bool := slot < 8 || librarySlot slot

/-- The engine an image names (R457, R527). -/
def imageEngine (s : State) (slot : Nat) : Nat :=
  if slot = 0x80 ∨ slot = 0x82 then 0 else if slot = 0x81 then 1 else if librarySlot slot then slotField s slot 1 1 % 2 else slotField s slot 1 1

/-- The number of code words of an image, its entry, its argument bytes, its budget and ident (R457); of a library image each within the range of R457. -/
def imageWords (s : State) (slot : Nat) : Nat := if librarySlot slot then 1 + slotField s slot 2 2 % 2044 else slotField s slot 2 2
def imageEntry (s : State) (slot : Nat) : Nat := if librarySlot slot then slotField s slot 4 2 % imageWords s slot else slotField s slot 4 2
def imageArgs (s : State) (slot : Nat) : Nat := if librarySlot slot then 4 * (slotField s slot 6 1 % 5) else slotField s slot 6 1
def imageIdent (s : State) (slot : Nat) : Nat := slotField s slot 12 4

/-- The watchdog budget of an image in cycles (R457, R485). -/
def imageBudget (s : State) (slot : Nat) : Nat :=
  let b := slotField s slot 8 4
  1024 * (if b = 0 then max 1 (rf s.regs.indigoCfg 15 0) else b)

/-- The code words of an image. -/
def imageCode (s : State) (slot : Nat) : List Word :=
  (List.range (imageWords s slot)).map fun i => BitVec.ofNat 32 (slotField s slot (16 + 4 * i) 4)

/-- The header of a customer slot meets R457. -/
def headerOk (s : State) (slot : Nat) : Bool :=
  let n := slotField s slot 2 2
  slotField s slot 0 1 == 1 && slotField s slot 1 1 ≤ 1 && 1 ≤ n && n ≤ 2044 && slotField s slot 4 2 < n &&
    [0, 4, 8, 12, 16].contains (slotField s slot 6 1) && slotField s slot 7 1 == 0

/-- A slot is committed; the library always is (R456, R458). -/
def committed (s : State) (slot : Nat) : Bool := if slot < 8 then s.indigo.valid.getLsbD slot else librarySlot slot

/-- The slots whose kernels run on Oliqua's own code with the effects of R527: they have no instruction rows. -/
def serviceSlot (slot : Nat) : Bool := slot == 0x80 || slot == 0x81 || slot == 0x82

/-! ## The context format -/

/-- Bytes of a tile register in the fragment layout (R444). -/
def tileImage (t : Tile) : List Byte :=
  (List.range 512).map fun off =>
    let lane := off / 64
    let r := if tySize t.ty = 2 then lane + 8 * (off % 64 / 32) else lane
    let c := if tySize t.ty = 2 then off % 32 / 2 else off % 64 / 4
    let i := off % tySize t.ty
    if r < t.rows ∧ c < t.cols then BitVec.ofNat 8 (nth t.elems (r * t.cols + c) 0 >>> (8 * i)) else 0

/-- The descriptor of a tile register (R441). -/
def tileDesc (t : Tile) : Nat := t.ty + 16 * (t.rows - 1) + 256 * (t.cols - 1)

/-- A tile register read back from its descriptor and image (R441, R444). -/
def tileOf (desc : Nat) (img : List Byte) : Tile :=
  let ty := bits desc 1 0
  let rows := bits desc 7 4 + 1
  let cols := bits desc 11 8 + 1
  let off (r c : Nat) : Nat := if tySize ty = 2 then 64 * (r % 8) + 32 * (r / 8) + 2 * c else 64 * (r % 8) + 4 * c
  { ty := ty, rows := rows, cols := cols,
    elems := (List.range (rows * cols)).map fun i => field img (off (i / cols) (i % cols)) (tySize ty) }

/-- A shape is valid (R441). -/
def shapeValid (ty rows cols : Nat) : Bool :=
  rows * cols * tySize ty ≤ 512 && (tySize ty == 2 || rows ≤ 8) && 1 ≤ rows && 1 ≤ cols && rows ≤ 16 && cols ≤ 16

/-- A tile descriptor is valid (R441). -/
def tileDescOk (desc : Nat) : Bool :=
  desc == bits desc 1 0 + 16 * bits desc 7 4 + 256 * bits desc 11 8 && shapeValid (bits desc 1 0) (bits desc 7 4 + 1) (bits desc 11 8 + 1)

/-- A loop state as 8 bytes (R468). -/
def loopBytes : Option Loop → List Byte
  | none => le 8 0
  | some l => le 2 l.count ++ le 2 l.first ++ le 2 l.last ++ le 2 0

/-- A loop state read back. -/
def loopOf (l : List Byte) : Option Loop :=
  if field l 0 2 = 0 then none else some { count := field l 0 2, first := field l 2 2, last := field l 4 2 }

/-- The in-use mask of an engine (R447, R468). -/
def inUse (e : Engine) (g : Eng) : Nat :=
  match e with
  | .te => (maskOf 16 fun i => (nth g.tiles i none).isSome).toNat
  | .se => (maskOf 16 fun i => (nth g.spec i none).isSome).toNat

/-- The descriptors of R468: 16 of 4 bytes. -/
def descBytes (e : Engine) (g : Eng) : List Byte :=
  match e with
  | .te => (g.tiles.map fun t => le 4 (match t with | some t => tileDesc t | none => 0)).flatten
  | .se => (g.spec.map fun t => le 4 (match t with | some l => l.length | none => 0)).flatten ++ le 32 0

/-- The register images of R468, one for each register in use. -/
def imageBytes (e : Engine) (g : Eng) : List Byte :=
  match e with
  | .te => (g.tiles.filterMap fun t => t.map tileImage).flatten
  | .se => (g.spec.filterMap fun t => t.map fun l => ((List.range 256).map fun i => le 4 (nth l i 0)).flatten).flatten

/-- A saved context (R468) with its cause. -/
def contextBytes (e : Engine) (cause : Nat) (g : Eng) : List Byte :=
  (le 1 1 ++ le 1 (engCode e) ++ le 1 g.slot ++ le 1 cause) ++ (le 2 g.pc ++ le 2 (inUse e g) ++ le 2 g.status.toNat ++ le 2 0) ++
    le 4 g.cycles ++ (g.a.map fun x => le 4 x.toNat).flatten ++ (loopBytes g.lc0 ++ loopBytes g.lc1) ++ descBytes e g ++ imageBytes e g

/-- The time a save of n bytes takes, in steps of 10 ns: 64 bytes in each cycle of 160 MHz (R438, R452, log 168). -/
def saveTime (n : Nat) : Nat := ((n + 63) / 64 * 5 + 7) / 8

/-- The context of an engine written to its area (R468); until the time this takes is over, a shutdown can still abandon it (R479). -/
def saveContext (e : Engine) (cause : Nat) (s : State) : State :=
  let c := contextBytes e cause (eng s e)
  setEng e (fun g => { g with saveEnd := s.clk + saveTime c.length }) (padWrite (ctxBase s e) c s)

/-- The context in an engine's area is accepted for a resume (R469). -/
def contextOk (e : Engine) (s : State) : Bool :=
  let b := ctxBase s e
  let c := memRead s.indigo.pad b 160
  let slot := field c 2 1
  let mask := field c 6 2
  let desc (i : Nat) : Nat := field c (96 + 4 * i) 4
  field c 0 1 == 1 && field c 1 1 == engCode e && (field c 3 1 == 1 || field c 3 1 == 2) && committed s slot &&
    (8 ≤ slot || !(eng s e).loaded.getLsbD slot) &&
    match e with
    | .te => (List.range 16).all fun i => !bitN mask i || tileDescOk (desc i)
    | .se => mask < 256 && (List.range 8).all fun i => !bitN mask i || (1 ≤ desc i && desc i ≤ 256)

/-- The engine as its context area holds it (R469): every saved field, and exactly the masked registers in use. -/
def restoreContext (e : Engine) (s : State) : Eng :=
  let b := ctxBase s e
  let c := memRead s.indigo.pad b 160
  let mask := field c 6 2
  let desc (i : Nat) : Nat := field c (96 + 4 * i) 4
  let before (i : Nat) : Nat := ((List.range i).filter fun j => bitN mask j).length
  let g := eng s e
  let g1 := { g with slot := field c 2 1, pc := field c 4 2, status := BitVec.ofNat 4 (field c 8 2), cycles := field c 12 4,
                     a := (List.range 16).map (fun i => BitVec.ofNat 32 (field c (16 + 4 * i) 4)),
                     lc0 := loopOf (slice c 80 8), lc1 := loopOf (slice c 88 8), cache := [], page := s.regs.indigoPage }
  let tile (i : Nat) : Option Tile :=
    if bitN mask i then some (tileOf (desc i) (memRead s.indigo.pad (b + 160 + 512 * before i) 512)) else none
  let spec (i : Nat) : Option (List Nat) :=
    if bitN mask i then some ((List.range (desc i)).map fun j => padWord s (b + 160 + 1024 * before i + 4 * j)) else none
  match e with
  | .te => { g1 with tiles := (List.range 16).map tile }
  | .se => { g1 with spec := (List.range 8).map spec }

/-! ## How a kernel ends -/

/-- A kernel ends with a termination (R463): the engine is idle again. -/
def endKernel (e : Engine) (t : Term) (s : State) : State := setEng e (fun g => { g with st := .idle, term := t }) s

/-- A fault (R464, R466, R482): code, word index and detail are recorded, the context is saved where that is asked, and the kernel ends. -/
def takeFault (e : Engine) (code idx detail : Nat) (s : State) : State :=
  let s1 := setEng e (fun g => { g with faultCode := code, faultIdx := idx, faultDetail := detail }) s
  let s2 := if rf s.regs.indigoCfg 16 16 = 1 then saveContext e 3 s1 else s1
  let s3 := endKernel e .fault s2
  let s4 := raise (match e with | .te => 0x62 | .se => 0x63) (engDetail e detail idx s3) s3
  if code = 9 then raise 0x68 (det 0 detail 0 0) s4 else s4

/-- A kernel reaches its end instruction (R463, R504). -/
def takeEnd (e : Engine) (result : Word) (s : State) : State :=
  let idx := (eng s e).pc
  let s1 := endKernel e .endd (setEng e (fun g => { g with result := result, lc0 := none, lc1 := none }) s)
  raise (match e with | .te => 0x60 | .se => 0x61) (engDetail e result.toNat idx s1) s1

/-- A kernel is stopped without a save (R463, R467). -/
def takeStop (e : Engine) (s : State) : State :=
  let s1 := endKernel e .stopped s
  raise 0x65 (engDetail e (eng s1 e).result.toNat (eng s1 e).pc s1) s1

/-- A kernel is suspended with its context saved (R467, R472). -/
def takeSuspend (e : Engine) (cause : Nat) (s : State) : State :=
  let s1 := saveContext e cause s
  let s2 := setEng e (fun g => { g with st := .suspended, loaded := 0 }) s1
  raise 0x6B (engDetail e (eng s2 e).result.toNat (eng s2 e).pc s2) s2

/-! ## Launching -/

/-- A launch that is no resume empties the inbound queue of its engine (R449). -/
def emptyInbound (e : Engine) (s : State) : State :=
  let n : Nat := match e with | .te => s.indigo.st.length | .se => s.indigo.ts.length
  if n = 0 then s
  else
    let s1 := { s with indigo.xferDrop := satAdd 255 s.indigo.xferDrop n }
    let s2 := match e with | .te => { s1 with indigo.st := [] } | .se => { s1 with indigo.ts := [] }
    raise 0x6A (det (inst2 (engCode e) 0) n 0 0) s2

/-- The engine's half of program memory holds a slot as committed (R460). -/
def resident (e : Engine) (slot : Nat) (s : State) : Bool := (eng s e).progSlot == some slot

/-- A launch starts (R65, R460): it brings the member out of IDLE, and the code is copied where it is not resident. The engine is `LOADING` until CODE_COPY_DONE, which for
resident code follows at once. -/
def beginLaunch (e : Engine) (slot : Nat) (args : List Word) (s : State) : State :=
  let s1 := emptyInbound e (leaveIdle 7 s)
  setEng e (fun g => { g with st := .loading, slot := slot, ident := BitVec.ofNat 32 (imageIdent s slot), entryIdx := imageEntry s slot, budget := imageBudget s slot,
                              pendingArgs := args, pendingResume := false }) s1

/-- The copy is complete and the engine starts (R460): a launch sets the scalars and clears loop states, flags, in-use flags and cache; a resume restores the
context (R469). -/
def startEngine (e : Engine) (s : State) : State :=
  let g := eng s e
  let slot := if g.pendingResume then field (memRead s.indigo.pad (ctxBase s e) 4) 2 1 else g.slot
  let s1 := if resident e slot s then s else setEng e (fun g => { g with prog := imageCode s slot, progSlot := some slot }) s
  if g.pendingResume then
    setEng e (fun _ => { restoreContext e s1 with st := .running, pendingResume := false, budget := imageBudget s slot,
                                                  ident := BitVec.ofNat 32 (imageIdent s slot) }) s1
  else
    setEng e (fun g => { g with st := .running, pc := g.entryIdx, cycles := 0, status := 0, lc0 := none, lc1 := none,
                                a := (List.range 16).map (fun i => if i < 4 then nth g.pendingArgs i 0 else 0), tiles := List.replicate 16 none,
                                spec := List.replicate 8 none, cache := [], page := s.regs.indigoPage }) s1

/-- An engine that is `LOADING`, if any: no other Indigo command executes while a copy runs (R460). -/
def loading (s : State) : Bool := s.indigo.te.st == .loading || s.indigo.se.st == .loading

end Sys2Proof.Machine
end

