-- ==== Sys2Proof/Machine/SweepOps.lean ====
section
/-! DEFINITION. The impedance sweep's shared operations: its points and passes, its result block, how it ends, the model fit and the state service (R527 to
R556). -/

namespace Sys2Proof.Machine

open Sys2Proof

/-- The frequency of an index in mHz (R530): 50 mHz × 10^(i/10), rounded. -/
def sweepFreq (i : Nat) : Nat :=
  ([50, 63, 79, 100, 126, 158, 199, 251, 315, 397] ++ [500, 629, 792, 998, 1256, 1581, 1991, 2506, 3155, 3972] ++
    [5000, 6295, 7924, 9976, 12559, 15811, 19905, 25059, 31548, 39716] ++
    [50000, 62946, 79245, 99763, 125594, 158114, 199054, 250594, 315479, 397164] ++
    [500000, 629463, 792447, 997631, 1255943, 1581139, 1990536]).getD i 0

/-- The number of points P (R530). -/
def sweepP (imax imin step : Nat) : Nat := (imax - imin) / step + 1

/-- The points of the present sweep. -/
def sweepCount (s : State) : Nat := sweepP s.sweep.imax s.sweep.imin s.sweep.step

/-- The odd cells (bits 0, 2, …) or the even cells of a mask (R533). -/
def passCells (mask : BitVec 16) (passB : Bool) : BitVec 16 := mask &&& (if passB then 0xAAAA else 0x5555)

/-- Integration cycles of a point (R533): max(2, ⌈0.5 s × f⌉). -/
def sweepCycles (mHz : Nat) : Nat := max 2 ((mHz + 1999) / 2000)

/-- The duration of a sweep in nanoseconds, rounded up (R533): its passes, each with a settling cycle, and gaps of 10 ms. -/
def sweepNs (mask : BitVec 16) (imax imin step : Nat) : Nat :=
  let passes := b2n (passCells mask false != 0) + b2n (passCells mask true != 0)
  ((List.range (sweepP imax imin step)).map fun p =>
    let f := sweepFreq (imax - p * step)
    passes * ((sweepCycles f + 1) * 1000000000000 / f + 10000000)).foldl (· + ·) 0

/-- The base of the result block and of the state table (R541, R545). -/
def resBase (s : State) : Nat := rf s.regs.indigoRes 15 0
def stateBase (s : State) : Nat := rf s.regs.swpState 15 4 * 16

/-- The default NaN of binary32 (R498). -/
def nan32 : Nat := 0x7FC00000

/-- The result block as a sweep begins (R544): CRC 0 and NaN in every point entry. -/
def initBlock (s : State) : State :=
  padWrite (resBase s + 544) ((List.replicate (32 * sweepCount s) (le 4 nan32)).flatten) (padWrite (resBase s + 28) (le 4 0) s)

/-- A number of Ω as binary32, rounded to nearest. -/
def ratBits (r : Rat) : Nat :=
  let neg := decide (r < 0)
  let m := r.num.natAbs * 2 ^ 200 / r.den
  (fRound 3 neg (2 * m + (if m * r.den = r.num.natAbs * 2 ^ 200 then 0 else 1)) (-201)).1

/-! ## The demodulator -/

/-- The frequency of the present point in mHz (R530, R533). -/
def passFreq (s : State) : Nat := sweepFreq (s.sweep.imax - s.sweep.point * s.sweep.step)

/-- Samples, each with its time, without their least-squares straight line (R535). -/
def lineRemoved (l : List (Nat × Rat)) : List (Nat × Rat) :=
  let mt := ratMean (l.map fun x => (x.1 : Rat))
  let mv := ratMean (l.map (·.2))
  let slope := ratSum (l.map fun x => (x.1 - mt) * (x.2 - mv)) / ratSum (l.map fun x => (x.1 - mt) * (x.1 - mt))
  l.map fun x => (x.1, x.2 - mv - slope * (x.1 - mt))

/-- The cosine and the sine of the phase of a frequency in mHz after a time in ns. -/
def cosSinAt (f t : Nat) : Rat × Rat :=
  let r := cosSin (f * t) 1000000000000
  (mkRat r.1 (2 ^ 96), mkRat r.2 (2 ^ 96))

/-- The phasor of samples at a frequency (R535): (2 / N) Σ v_n e^(−j2πf(t_n − t0)). -/
def phasorOf (f : Nat) (l : List (Nat × Rat)) : Rat × Rat :=
  (2 * ratMean (l.map fun x => x.2 * (cosSinAt f x.1).1), -2 * ratMean (l.map fun x => x.2 * (cosSinAt f x.1).2))

/-- The response of the main filter at a frequency (R351, R535): sinc³ over the 4.096 MHz bits of a sample period. Its delay is taken out by the attributed instant (log 192). -/
def filterGain (rate f : Nat) : Rat :=
  let d := 4096000 / rate
  let r := mkRat (cosSin f (2000 * rate)).2 d / ((cosSin f (2000 * 4096000)).2 : Rat)
  r * r * r

/-- The mean square of what is left of samples without their line once a sinusoid is removed too (R536). -/
def residualSquare (f : Nat) (w : Rat × Rat) (l : List (Nat × Rat)) : Rat :=
  ratMean (l.map fun x =>
    let c := cosSinAt f x.1
    let r := x.2 - (w.1 * c.1 - w.2 * c.2)
    r * r)

/-- A cell's samples of the integration cycles of the present pass, without their line (R535). -/
def passSamples (s : State) (c : Nat) : List (Nat × Rat) := lineRemoved (s.sweep.samples.map fun x => (x.1, ((nth x.2 c 0 : Int) : Rat)))

/-- A cell's voltage phasor V in µV (R535). -/
def cellPhasor (s : State) (c : Nat) : Rat × Rat :=
  let w := phasorOf (passFreq s) (passSamples s c)
  let g := filterGain (rateOf (cellRate s)) (passFreq s)
  (w.1 / g, w.2 / g)

/-- The impedance of a point (R535): Z = −V / I with I = −jA, in Ω as binary32. -/
def pointZ (s : State) (v : Rat × Rat) : List Byte :=
  let a : Rat := 1000 * (s.sweep.amp : Rat)
  le 4 (ratBits (v.2 / a)) ++ le 4 (ratBits (-v.1 / a))

/-- The ratio of |V| / √2 to the root-mean-square residual lies below `SWP_CFG.SNR_MIN` in dB (R536). -/
def snrLow (s : State) (v : Rat × Rat) (square : Rat) : Bool :=
  decide ((v.1 * v.1 + v.2 * v.2) ^ 10 < 10 ^ rf s.regs.swpCfg 7 0 * (2 * square) ^ 10)

/-- The point of a stimulated cell is invalid (R536): its samples, the current or the sink were bad, the ratio is too small, or no sample was taken at all. -/
def pointBad (s : State) (c : Nat) : Bool :=
  s.sweep.samples.isEmpty || s.sweep.bad.getLsbD c || s.sweep.curBad || s.bal.clipPass ||
    snrLow s (cellPhasor s c) (residualSquare (passFreq s) (phasorOf (passFreq s) (passSamples s c)) (passSamples s c))

/-- Where the entry of a cell in the present pass stands (R543). -/
def passEntry (s : State) (c : Nat) : Nat := resBase s + 544 + 128 * s.sweep.point + 8 * c

/-- The fault that the demodulator's stores of the present pass meet, as any kernel's (R450, R451). -/
def passFault (s : State) : Option (Nat × Nat) :=
  accessFault s .se true (resBase s % 4 == 0) (resBase s) ((ones (passCells s.sweep.mask s.sweep.passB)).map fun c => (passEntry s c, 8)) []

/-- The points of the pass that has ended are stored (R535, R536, R543): NaN in both parts where one is invalid. -/
def storePass (s : State) : State :=
  (ones (passCells s.sweep.mask s.sweep.passB)).foldl
    (fun t c => padWrite (passEntry s c) (if pointBad s c then le 4 nan32 ++ le 4 nan32 else pointZ s (cellPhasor s c)) t) s

/-- The impedance of a point in the result block, as stored. -/
def storedZ (s : State) (c p : Nat) : Nat × Nat :=
  (padWord s (resBase s + 544 + 128 * p + 8 * c), padWord s (resBase s + 544 + 128 * p + 8 * c + 4))

/-- The points of a cell in the result block that are valid: no part is a NaN (R536, R540). -/
def validAt (s : State) (c : Nat) : List Nat :=
  (List.range (sweepCount s)).filter fun p =>
    let isNan (w : Nat) : Bool := match fOf 3 w with | .nan _ => true | _ => false
    !isNan (storedZ s c p).1 && !isNan (storedZ s c p).2

/-- How many points of a cell are valid (R540, R542). -/
def validPoints (s : State) (c : Nat) : Nat := (validAt s c).length

/-- The model at a frequency in mHz (R539), from R0, L, R1, τ1 and σ: R0 + j2πf L + R1 / (1 + j2πf τ1) + σ (1 − j) / √(2πf). -/
def modelZ (par : Nat → Rat) (f : Nat) : Rat × Rat :=
  let w : Rat := mkRat (2 * piQ * f) (1000 * 2 ^ 96)
  let k := par 2 / (1 + w * par 3 * (w * par 3))
  let d := par 4 / ratSqrt w
  (par 0 + k + d, w * par 1 - k * (w * par 3) - d)

/-- The weighted root-mean-square residual of a model over the valid points of a cell, as a fraction of |Z| (R539, R542). -/
def fitResidual (s : State) (c : Nat) (par : Nat → Rat) : Rat :=
  ratSqrt (ratMean ((validAt s c).map fun p =>
    let z := storedZ s c p
    let m := modelZ par (sweepFreq (s.sweep.imax - p * s.sweep.step))
    let x := f32Rat z.1
    let y := f32Rat z.2
    ((m.1 - x) * (m.1 - x) + (m.2 - y) * (m.2 - y)) / (x * x + y * y)))

/-- One entry of the model table (R542): parameters and residual, valid points, iterations, status, mean voltage. Where no fit was run the rules state no
parameters: they are free (log 46). -/
def fitEntry (s : State) (cell : Nat) (params : List Nat) (iters status : Nat) : State :=
  let mean := if s.sweep.meanCnt = 0 then 0 else divFree (nth s.sweep.meanSum cell 0) s.sweep.meanCnt
  padWrite (resBase s + 32 + 32 * cell)
    ((params.map (le 4)).flatten ++ le 2 (validPoints s cell) ++ le 1 iters ++ le 1 status ++ leI 4 mean) s

/-- The fault that the fit of a cell meets, as any kernel's (R450, R451): it loads the cell's points and stores its entry. -/
def fitFault (s : State) (cell : Nat) : Option (Nat × Nat) :=
  let b := resBase s
  (accessFault s .te false (b % 4 == 0) b ((List.range (sweepCount s)).map fun p => (b + 544 + 128 * p + 8 * cell, 8)) []).orElse fun _ =>
    accessFault s .te true (b % 4 == 0) (b + 32 + 32 * cell) [(b + 32 + 32 * cell, 32)] []

/-- An entry without a fit. -/
def unfitted (cell status : Nat) (s : State) : State :=
  let d := drawFree s
  fitEntry d.2 cell ((List.range 6).map fun i => (Config.fitWord d.1 i).toNat) 0 status

/-- The fit of one cell (R539, R540): each parameter is finite and at least 0, at most 20 iterations; without convergence the status is 3 after 20 of them. The residual
is that of the parameters found (R542). A fit with status 0 sets R0_t (R546). -/
def fitCell (cell : Nat) (s : State) : State :=
  let d := drawFree s
  let par (i : Nat) : Nat := min 0x7F7FFFFF ((Config.fitWord d.1 i).toNat % 2 ^ 31)
  let conv := Config.fitConverges d.1
  let s1 := fitEntry d.2 cell ((List.range 5).map par ++ [ratBits (fitResidual s cell fun i => f32Rat (par i))]) (if conv then Config.fitCount d.1 % 21 else 20) (if conv then 0 else 3)
  if conv then { s1 with sweep.r0t := s1.sweep.r0t.set cell (some (f32Rat (par 0))), sweep.r0At := s1.sweep.r0At.set cell s.clk } else s1

/-- The header, written last with the CRC over the rest of the block (R541, R544). -/
def writeHeader (s : State) : State :=
  let w := s.sweep
  let n := sweepCount s
  let head := le 4 w.num ++ le 6 w.startSec ++ le 4 w.startNs ++ le 1 n ++ le 1 w.cause ++ le 2 w.mask.toNat ++ le 1 w.amp ++ le 1 w.imax ++ le 1 w.step ++
    le 1 (b2n w.nc + 2 * b2n w.hold) ++ le 2 0 ++ le 4 Config.libraryVersion.toNat
  let rest := memRead s.indigo.pad (resBase s + 32) (512 + 128 * n)
  padWrite (resBase s) (head ++ le 4 (crc32c (head ++ rest)).toNat) s

/-- The sweep's fit has ended: the block is complete, and what waited for it may start (R544, R552). -/
def finishSweep (s : State) : State :=
  startDeferredOw (writeHeader { s with sweep.st := .idle, sweep.fitCell := 16 })

/-- Cells from the next one on that need no fit get their entries: outside the mask, or with fewer than 3 valid points (R540, R542). After the last cell the sweep
is finished. -/
def skipUnfit : Nat → State → State
  | 0, s => s
  | n + 1, s =>
    let c := s.sweep.fitCell
    if 16 ≤ c then finishSweep s
    else if !s.sweep.mask.getLsbD c then skipUnfit n (unfitted c 1 { s with sweep.fitCell := c + 1 })
    else if validPoints s c < 3 then skipUnfit n (unfitted c 2 { s with sweep.fitCell := c + 1 })
    else s

/-- The cells from the next one on end without a fit (R549): status 4 in the mask. -/
def abandonFit : Nat → State → State
  | 0, s => s
  | n + 1, s =>
    let c := s.sweep.fitCell
    if 16 ≤ c then finishSweep s
    else abandonFit n (unfitted c (if s.sweep.mask.getLsbD c then 4 else 1) { s with sweep.fitCell := c + 1 })

/-- The demodulator ends with its sweep (R527, R528): its result word is stated nowhere. -/
def endDemod (s : State) : State :=
  if s.indigo.se.st == .running && s.indigo.se.slot == 0x81 then
    let d := drawFree s
    takeEnd .se (Config.fitWord d.1 6) d.2
  else s

/-- The points that a sweep completed are kept, and its fit is next (R549). -/
def closePoints (cause : Nat) (s : State) : State :=
  let s1 := if s.sweep.st == .waiting then initBlock s else if cause = 1 then storePass s else s
  { s1 with sweep.cause := cause, sweep.st := .fitting, sweep.fitCell := 0 }

/-- A sweep's own stimulus ends with it. -/
def endSweepStim (s : State) : State :=
  if (match s.bal.stim with | some x => x.sweep | none => false) = true then endStim allCh 0 s else s

/-- The command that started the sweep completes (R529): sweep number, end cause, point count. -/
def reportSweep (cause : Nat) (s : State) : State :=
  match s.sweep.byCmd with
  | some c => completeQueued c.1 c.2 (le 2 s.sweep.num ++ le 1 cause ++ le 1 (sweepCount s)) { s with sweep.byCmd := none }
  | none => s

/-- A sweep ends with a cause (R549): the points completed are kept, the stimulus ends, the command completes (R529), and the fit follows, except after causes
5, 7 and 9. -/
def endSweep (cause : Nat) (s : State) : State :=
  let noFit := cause == 5 || cause == 7 || cause == 9
  let fit (s : State) : State := if noFit then abandonFit 17 s else skipUnfit 17 s
  match s.sweep.st with
  | .idle => s
  | .fitting => if noFit then abandonFit 17 { s with sweep.cause := cause } else s
  | _ => fit (reportSweep cause (endDemod (endSweepStim (closePoints cause s))))

/-- A grid instant of a rate at or after a time (R334): seconds and nanoseconds. -/
def gridAfter (rate sec ns : Nat) : Nat × Nat :=
  let t := 1000000000 / rate
  let n := (ns + t - 1) / t * t
  if n < 1000000000 then (sec, n) else (sec + 1, 0)

/-- The pass after the present one, as point and pass (R533): a pass without cells is skipped; none after the last. -/
def nextPass (s : State) : Option (Nat × Bool) :=
  let w := s.sweep
  let hasA := passCells w.mask false != 0
  let hasB := passCells w.mask true != 0
  if !w.passB && hasB then some (w.point, true)
  else if w.point + 1 < sweepCount s then some (w.point + 1, !hasA)
  else none

/-- A pass starts (R533, R534): the stimulus on its cells, and no sample of it taken yet. -/
def startPass (p : Nat × Bool) (s : State) : State :=
  let f := sweepFreq (s.sweep.imax - p.1 * s.sweep.step)
  let cells := passCells s.sweep.mask p.2
  let x : Stim := { mask := cells, wave := 1, dur := 0, freq := f, bias := s.sweep.amp, amp := s.sweep.amp, running := true, sweep := true, t0 := counterNs s, onAt := s.clk,
                    offAt := some (s.clk + (sweepCycles f + 1) * 100000000000 / max 1 f) }
  let s1 := turnOnStim x (markSinks s)
  noteHeld { s1 with sweep.st := .running, sweep.point := p.1, sweep.passB := p.2, sweep.bad := 0, sweep.curBad := false, sweep.passT0 := counterNs s, sweep.samples := [],
                     bal.clipPass := false, bal.stimW := 1, bal.stimDur := 0, bal.stimF := f, bal.stimBias := s.sweep.amp, bal.stimAmp := s.sweep.amp }

/-- The present pass has not ended: its stimulus is on (R533, R534). -/
def inPass (s : State) : Bool := s.sweep.st == .running && (match s.bal.stim with | some x => onAfter x s.clk | none => false)

/-- The time in ns from the start of the present pass to an instant of the counter, where the instant lies in the integration cycles: one settling cycle has passed, and
not all cycles (R533). -/
def integrationTime (s : State) (t : Nat) : Option Nat :=
  let d := t - s.sweep.passT0
  let phase := passFreq s * d
  if s.sweep.st == .running && s.sweep.passT0 ≤ t && 1000000000000 ≤ phase && phase < (sweepCycles (passFreq s) + 1) * 1000000000000 then some d else none

/-- The attributed instant of the main samples that complete now, as the counter's ns (R332, R351). -/
def mainInstant (s : State) : Nat := counterNs s - (s.time.ns + 1000000000 - gridInstant (rateOf (cellRate s)) s) % 1000000000

/-- What the main samples tell a sweep (R535 to R537, R542): the samples of the integration cycles, flagged cells of the pass, `HOLD`, and the sums for the mean voltage. -/
def sweepSample (s : State) : State :=
  if s.sweep.st != .running then s
  else
    let s1 := { s with sweep.meanSum := s.sweep.meanSum.mapIdx fun k x => x + nth s.cell.value k 0, sweep.meanCnt := s.sweep.meanCnt + 1 }
    match integrationTime s (mainInstant s) with
    | none => s1
    | some d =>
      let fl (k : Nat) : BitVec 8 := nth s.cell.flags k 0
      let cells := passCells s.sweep.mask s.sweep.passB
      { s1 with sweep.samples := (d, s.cell.value) :: s.sweep.samples, sweep.bad := s.sweep.bad ||| maskOf 16 fun k => cells.getLsbD k && (fl k &&& 0x1F != 0),
                sweep.hold := s.sweep.hold || (List.range 16).any fun k => cells.getLsbD k && (fl k).getLsbD 6 }

/-! ## The state service -/

/-- `SWP_STATE.AGE_MAX` in s, where 0 acts as 1 (R556). -/
def ageMax (s : State) : Nat := max 1 (rf s.regs.swpState 31 16)

/-- The age of a cell's R0_t in s (R545). -/
def r0Age (s : State) (k : Nat) : Nat := min 65535 ((s.clk - nth s.sweep.r0At k 0) / Config.sec)

/-- A cell's R0_t is valid (R546). -/
def r0Valid (s : State) (k : Nat) : Bool := (nth s.sweep.r0t k none).isSome && r0Age s k ≤ ageMax s

/-- Two current results in a row qualify as a step (R546): they differ enough and neither carries a flag. -/
def stepQualifies (s : State) (old new : Int × BitVec 8) : Bool :=
  let da : Int := 100 * (max 1 (rf s.regs.swpCfg 15 8) : Nat)
  old.2 == 0 && new.2 == 0 && decide (da ≤ |new.1 - old.1|)

/-- A qualifying step more than 1 ms ago moves R0_t of every cell whose samples around it carry no flag (R546). The resistance that the step shows is free: the rules
do not say which samples give ΔV (log 48). -/
def trackStep (s : State) : State :=
  match s.sweep.stepAt with
  | none => s
  | some t =>
    if s.clk < t + Config.ms then s
    else
      let d := drawFree s
      let clean (k : Nat) : Bool := !(s.cell.flagTimes.any fun x => x.2.getLsbD k && t ≤ x.1 + Config.ms && x.1 ≤ t + Config.ms)
      let new (k : Nat) (r : Option Rat) : Option Rat :=
        if clean k then some (match r with | none => Config.stepResistance d.1 k | some r => r + (Config.stepResistance d.1 k - r) / 8) else r
      { d.2 with sweep.stepAt := none, sweep.r0t := d.2.sweep.r0t.mapIdx new,
                 sweep.r0At := d.2.sweep.r0At.mapIdx fun k x => if clean k then s.clk else x }

/-- A binary32 sum, a product and a difference, rounded (R497, R498). -/
def add32 (a b : Nat) : Nat := (fWrite 3 a b (fAdd (fOf 3 a) (fOf 3 b))).1
def mul32 (a b : Nat) : Nat := (fWrite 3 a b (fMul (fOf 3 a) (fOf 3 b))).1
def sub32 (a b : Nat) : Nat := (fWrite 3 a b (fAdd (fOf 3 a) (fOf 3 b).negate)).1

/-- A fused multiply-add in binary32 (R497). -/
def fma32 (acc x y : Nat) : Nat := (fFma 3 acc x y).1

/-- An integer as binary32. -/
def int32 (v : Int) : Nat := (fRound 3 (decide (v < 0)) v.natAbs 0).1

/-- A state of charge held between 0.0 and 1.0 (R545). -/
def chargeRange (x : Nat) : Nat := if fLess (fOf 3 x) (fOf 3 0) then 0 else if fLess (fOf 3 0x3F800000) (fOf 3 x) then 0x3F800000 else x

/-- The estimator of the worked kernel for one cell (R545), in that kernel's order and roundings: the state of charge and the polarisation x, the current u in mA, the
measured voltage in µV, and the gate. Its parameters are those of log 47. -/
def estimate (x : Nat × Nat) (u v : Int) (gate : Bool) : Nat × Nat :=
  let par (i : Nat) : Nat := (Config.estimator i).toNat
  let i := int32 u
  let x0 := fma32 (fma32 (fma32 0 (par 0) x.1) (par 1) x.2) (par 4) i
  let x1 := fma32 (fma32 (fma32 0 (par 2) x.1) (par 3) x.2) (par 5) i
  let pred := add32 (add32 (fma32 (fma32 0 (par 8) x0) (par 9) x1) (par 10)) (mul32 i (par 11))
  let r := mul32 (sub32 (int32 v) pred) (if gate then 0x3F800000 else 0)
  (chargeRange (fma32 x0 (par 6) r), fma32 x1 (par 7) r)

/-- Where the newest entry of the cell ring stands (R376, R377). -/
def newestEntry (s : State) : Nat :=
  ringBase s.regs.cellRbCfg + 80 * ((s.cell.cellRing.wp + ringEntries s.regs.cellRbCfg - 1) % ringEntries s.regs.cellRbCfg)

/-- One run of the state service (R545, R553): the 16 entries of the state table. The estimator takes the newest entry of the cell ring; a current with `OVR`, `UND` or
`STALE` leaves its two values alone, and a cell with one of the flags of mask 0x1F has its gate closed. The ring's entries are consumed (R385, log 194). -/
def runStateService (s : State) : State :=
  let s1 := trackStep s
  let entry := memRead s.indigo.pad (newestEntry s) 80
  let skip := (entry.getD 11 0) &&& 0x0B != 0
  let gated (k : Nat) : Bool := (entry.getD (19 + 4 * k) 0) &&& 0x1F != 0
  let old (k : Nat) : Nat × Nat := (padWord s (stateBase s + 16 * k), padWord s (stateBase s + 16 * k + 4))
  let new (k : Nat) : Nat × Nat :=
    if skip then old k else estimate (old k) (signed 24 (field entry 8 3)) (signed 24 (field entry (16 + 4 * k) 3)) (!gated k)
  let bytes (k : Nat) : List Byte :=
    le 4 (new k).1 ++ le 4 (new k).2 ++ le 4 (match nth s1.sweep.r0t k none with | some r => ratBits r | none => 0) ++
      le 2 (r0Age s1 k) ++ le 1 (b2n (r0Valid s1 k) + 2 * b2n (gated k)) ++ le 1 0
  padWrite (stateBase s) ((List.range 16).map bytes).flatten { s1 with cell.cellRing.rp := s1.cell.cellRing.wp }

/-- The state service runs on its trigger alone (R528). -/
def stateServiceOn (s : State) : Bool := rf s.regs.trigTe 1 0 == 1 && rf s.regs.trigTe 15 8 == 0x80

/-- A library kernel of the TE reaches its end (R463): its result word is stated nowhere. -/
def endLibrary (s : State) : State :=
  let d := drawFree s
  takeEnd .te (Config.fitWord d.1 6) d.2

/-- The state service as a kernel (R527, R545): its loads and stores meet the pages' attributes (R451). -/
def stateService (s : State) : State :=
  match (accessFault s .te false true (newestEntry s) [(newestEntry s, 80)] []).orElse fun _ => accessFault s .te true true (stateBase s) [(stateBase s, 256)] [] with
  | some f => takeFault .te f.1 (eng s .te).pc f.2 s
  | none => endLibrary (runStateService s)

/-- The model fit of the next cell as a kernel (R527, R539): a fault ends the sweep (R549). -/
def modelFit (s : State) : State :=
  let c := s.sweep.fitCell
  if s.sweep.st == .fitting && c < 16 then
    match fitFault s c with
    | some f => endSweep 9 (takeFault .te f.1 (eng s .te).pc f.2 s)
    | none => endLibrary (skipUnfit 17 (fitCell c { s with sweep.fitCell := c + 1 }))
  else endLibrary s

/-- What a library kernel of R527 does when its engine starts: the state service and the model fit do their work and end; the demodulator runs with its sweep. -/
def runLibrary (e : Engine) (s : State) : State :=
  let g := eng s e
  if g.st == .running && g.slot == 0x80 && e == .te then stateService s
  else if g.st == .running && g.slot == 0x82 && e == .te then modelFit s
  else s

end Sys2Proof.Machine
end

