-- ==== Sys2Proof/Machine/Balance.lean ====
section
/-! DEFINITION. Balancing and stimulus: the commands, the balance period with its pulses and diagnosis, load checks, timeouts, the stimulus' start and end
(R402 to R436). -/

namespace Sys2Proof.Machine

open Sys2Proof

/-- The arbitration objects of the channels of a mask (R408). -/
def chObjs (mask : BitVec 16) : List Obj := (ones mask).map (5 + ·)

/-- A mask names an unused cell (R407, R419). -/
def namesUnused (s : State) (mask : BitVec 16) : Bool := (ones mask).any fun k => !cellUsed s k

/-- `BAL_SET` (R407, R411, R432): the channels of the mask take the on-time; a channel that a SAFETY host set to a safer state overrules the command. -/
def cmdBalSet (rq : Req) (mask onTime : BitVec 16) (s : State) : Res :=
  let n := onTime.toNat / 2
  if balMaxOn s < n ∨ namesUnused s mask then Res.of stBadParam s
  else if (ones mask).any fun k => heldAgainst rq (5 + k) (nth s.bal.onT k 0 < n) s then overruled rq s
  else
    let s1 := { s with bal.onT := s.bal.onT.mapIdx fun k t => if mask.getLsbD k then n else t,
                       bal.debt := s.bal.debt.mapIdx fun k t => if mask.getLsbD k && nth s.bal.onT k 0 != n then 0 else t }
    Res.of stOk (noteHeld (noteOrder rq (chObjs mask) s1))

/-- BAL_SET (R407). -/
def execBalSet (rq : Req) (mask onTime : BitVec 16) (s : State) : Out := .next (runCmd 0x50 rq (cmdBalSet rq mask onTime) s)

/-- `BAL_STOP` (R407, R411): on-times 0 and no stimulus on the channels of the mask; on a swept channel it ends the sweep (R549). -/
def cmdBalStop (rq : Req) (mask : BitVec 16) (s : State) : Res :=
  let swept := s.sweep.st != .idle && s.sweep.st != .fitting && (s.sweep.mask &&& mask != 0)
  let s1 := clearBal mask 1 s
  let s2 := if swept then endSweep 2 s1 else s1
  Res.of stOk (noteOrder rq (chObjs mask) s2)

/-- BAL_STOP (R407). -/
def execBalStop (rq : Req) (mask : BitVec 16) (s : State) : Out := .next (runCmd 0x51 rq (cmdBalStop rq mask) s)

/-- The parameters of a stimulus are refused (R419). -/
def stimBad (s : State) (mask : BitVec 16) (wave dur freq bias amp : Nat) : Bool :=
  decide (2 < wave) || decide (freq < 50) || decide (2000000 < freq) || (wave != 0 && dur == 0) || (wave == 1 && balExternal s) ||
    decide (200 < bias + amp) || decide (bias < amp) ||
    (!balExternal s && (List.range 8).any fun j => mask.getLsbD (2 * j) && mask.getLsbD (2 * j + 1)) || namesUnused s mask

/-- `STIM_SET` (R419 to R421): a stimulus set on the channels of the mask, in place of one already set, or ended there with waveform 0, which on a swept channel ends
the sweep (R549). -/
def cmdStimSet (rq : Req) (mask : BitVec 16) (wave dur : Byte) (freq : Word) (bias amp : BitVec 16) (s : State) : Res :=
  if stimBad s mask wave.toNat dur.toNat freq.toNat bias.toNat amp.toNat then Res.of stBadParam s
  else if wave = 0 then
    let swept := s.sweep.st != .idle && s.sweep.st != .fitting && (s.sweep.mask &&& mask != 0)
    let s1 := endStim mask 0 s
    Res.of stOk (noteOrder rq (chObjs mask) (if swept then endSweep 2 s1 else s1))
  else if (ones mask).any fun k => heldAgainst rq (5 + k) (!stimOn s false k) s then overruled rq s
  else if mask = 0 then Res.of stOk s
  else
    let s1 := endStim allCh 0 s
    let x : Stim := { mask := mask, wave := wave.toNat, dur := dur.toNat, freq := freq.toNat, bias := bias.toNat, amp := amp.toNat, running := false, sweep := false, t0 := stimT0 s, offAt := none,
                      onAt := 0 }
    let s2 := { s1 with bal.stim := some x, bal.stimW := wave.toNat, bal.stimDur := dur.toNat, bal.stimF := freq.toNat, bal.stimBias := bias.toNat, bal.stimAmp := amp.toNat }
    Res.of stOk (noteHeld (noteOrder rq (chObjs mask) s2))

/-- STIM_SET (R419). -/
def execStimSet (rq : Req) (mask : BitVec 16) (wave dur : Byte) (freq : Word) (bias amp : BitVec 16) (s : State) : Out :=
  .next (runCmd 0x52 rq (cmdStimSet rq mask wave dur freq bias amp) s)

/-- STIM_START (R420): the stimulus that waits begins once the counter has reached its t0. -/
def execStimStart (s : State) : Out :=
  if !measuring s then .next s
  else match s.bal.stim with
    | some x => .next (if x.running || decide (counterNs s < x.t0) then s else turnOnStim x s)
    | none => .next s

/-- STIM_END (R421): the duration of a stimulus of its own is over. -/
def execStimEnd (s : State) : Out :=
  match s.bal.stim with
  | some x => if x.running && !x.sweep then .next (endStim allCh 0 s) else .next s
  | none => .next s

/-- BAL_TIMEOUT (R411): no `BAL_SET` for `TIMEOUT` s; balancing is cleared, and a stimulus goes on. -/
def execBalTimeout (s : State) : Out :=
  if rf s.regs.balCfg 15 8 = 0 ∨ s.bal.onT.all (· == 0) then .next s
  else
    let s1 := clearOn allCh (noteStop 2 s)
    .next (raise 0x55 (det 0 0 0 2) s1)

/-- BAL_DIAG_CLR (R416): channels return from `SHORT`, `OVERCURRENT` or `GATE` to `UNTESTED`. -/
def clearDiag (mask : BitVec 16) (s : State) : State :=
  (ones mask).foldl (fun s k =>
    let d := nth s.bal.diag k .untested
    if d == .short || d == .overcurrent || d == .gate then
      setDiag k .untested { s with bal.passes := s.bal.passes.set k 0, bal.openFails := s.bal.openFails.set k 0, bal.limPulses := s.bal.limPulses.set k 0,
                                   bal.shortFails := s.bal.shortFails.set k 0, bal.gateFails := s.bal.gateFails.set k 0 }
    else s) s

/-- BAL_DIAG_CLR (R416). -/
def execBalDiagClr (mask : BitVec 16) (s : State) : Out := .next (clearDiag mask s)

/-- DIAG_AGE_EXPIRY (R416, R418): no test was passed in time. -/
def execDiagAgeExpiry (ch : Fin 16) (s : State) : Out :=
  let k := ch.val
  if nth s.bal.diag k .untested == .ok then .next (setDiag k .untested { s with bal.passes := s.bal.passes.set k 0 }) else .next s

/-! ## Tests -/

/-- The load test of a channel (R415, R416): the limit sample at the end of its pulse lies at least `FET_DV` below that at its start. -/
def loadTest (startUV endUV : List Int) (k : Nat) (s : State) : State :=
  let dv : Int := 1000 * (max 1 (rf s.regs.balCfg 23 20) : Nat)
  if dv ≤ nth startUV k 0 - nth endUV k 0 then
    judgeOk k { s with bal.loadOk := s.bal.loadOk.set k (some s.clk), bal.openFails := s.bal.openFails.set k 0 }
  else failOpen k s

/-- The open test of an internal channel (R413, R423): a mean current below 15 mA fails. -/
def openTest (mA k : Nat) (s : State) : State := if mA < 15 then failOpen k s else passTest k s

/-- A gate that fails its check (R415, R423): below 4.0 V 10 µs after turn-on, or more than 0.5 V off 10 µs after turn-off. -/
def gateBad (onMV offMV : Int) : Bool := decide (onMV < 4000) || decide (500 < |offMV|)

/-- The gate test of an external-FET channel that pulsed for at least 24 µs (R415, R416). -/
def gateTest (onMV offMV : Int) (k : Nat) (s : State) : State :=
  if gateBad onMV offMV then
    let n := nth s.bal.gateFails k 0 + 1
    let s1 := { s with bal.gateFails := s.bal.gateFails.set k n, bal.passes := s.bal.passes.set k 0 }
    if 2 ≤ n then setDiag k .gate s1 else s1
  else passTest k { s with bal.gateFails := s.bal.gateFails.set k 0 }

/-- LOAD_CHECK (R415, R429): each enabled external-FET channel that is not held receives a pulse of 3 ms, with its gate test, and the limit samples at its start and end
decide. -/
def execLoadCheck (startUV endUV gateOnMV gateOffMV : List Int) (s : State) : Out :=
  if !measuring s ∨ !balExternal s ∨ rf s.regs.balCfg 31 24 = 0 then .next s
  else
    let test (s : State) (k : Nat) : State :=
      gateTest (nth gateOnMV k 0) (nth gateOffMV k 0) k
        (loadTest startUV endUV k { s with bal.pulses := s.bal.pulses.set k (s.clk, s.clk + 3 * Config.ms) })
    let chs := (List.range 16).filter fun k => nth s.bal.onT k 0 != 0 && !balHeld s k
    .next (chs.foldl test { settleAcc s with bal.loadLeft := 6 })

/-! ## The balance period -/

/-- The pulse of channel k in a period, in steps of 2 µs, and the debt it leaves (R409, R417, R429, R431): the inserted pulse of 24 µs in the channel's own period of the
second, else the effective on-time less what is owed. -/
def pulseOf (s : State) (period k : Nat) : Nat × Nat :=
  let eff := balEff s k
  let debt := nth s.bal.debt k 0
  if balHeld s k ∨ eff = 0 then (0, debt)
  else if balExternal s && s.bal.loadLeft != 0 then (0, debt)
  else if rf s.regs.balCfg 1 1 = 1 ∧ eff < 12 ∧ period = k then (12, debt + (12 - eff))
  else (eff - min eff debt, debt - min eff debt)

/-- Where a switch stood at its limit for 2 µs within its pulse, its on-time up to there in µs (R413). -/
def limitedAt (m : BalMeas) (s : State) (k : Nat) : Option Nat :=
  match nth m.limitUs k none with
  | some t => if !balExternal s && decide (t < 2 * nth s.bal.pulsed k 0) then some t else none
  | none => none

/-- A switch that its limit turned off was off for the rest of its pulse (R413). -/
def cutLimited (m : BalMeas) (s : State) : State :=
  { s with bal.pulses := s.bal.pulses.mapIdx fun k p =>
      match limitedAt m s k with | some t => (p.1, min p.2 (p.1 + t * Config.us)) | none => p }

/-- The open test and the switch limit of an internal channel that pulsed (R413, R416); a pulse that the limit ended within 24 µs has no window to measure in. -/
def internalTests (m : BalMeas) (k : Nat) (s : State) : State :=
  let l := limitedAt m s k
  let n := if l.isSome then nth s.bal.limPulses k 0 + 1 else 0
  let s1 := { s with bal.limPulses := s.bal.limPulses.set k n }
  let s2 := if l.getD (2 * nth s.bal.pulsed k 0) < 24 then s1 else openTest (nth m.curMA k 0) k s1
  if 3 ≤ n then setDiag k .overcurrent s2 else s2

/-- The short test of a switch of a pair that stayed off (R414, R416, R423, R434). -/
def shortTest (m : BalMeas) (k : Nat) (s : State) : State :=
  if nearPin s.cell.clamp 0 k then s
  else
    let fails := decide (nth m.switchMV k 0 < 500) && decide (1000000 ≤ nth s.cell.value k 0) && (nth s.cell.flags k 0 &&& 0x13 == 0)
    let n := if fails then nth s.bal.shortFails k 0 + 1 else 0
    let s1 := { s with bal.shortFails := s.bal.shortFails.set k n }
    if 8 ≤ n then setDiag k .short s1 else s1

/-- The test of a channel's pulse in the period that ends. -/
def pulseTest (m : BalMeas) (s : State) (k : Nat) : State :=
  if balExternal s then
    if nth s.bal.pulsed k 0 < 12 then s else gateTest (nth m.gateOnMV k 0) (nth m.gateOffMV k 0) k s
  else internalTests m k s

/-- The sinks clipped in the period that ends (R422). -/
def noteClip (m : BalMeas) (s : State) : State :=
  if m.clip && !balExternal s && stimRuns s then { s with bal.clip := true, bal.clipPass := true } else s

/-- The period in progress ends (R410, R413 to R416, R422, R434): the on-time of its pulses is accumulated, and its tests are judged. -/
def endPeriod (m : BalMeas) (s : State) : State :=
  let s1 := noteClip m (settleAcc (cutLimited m s))
  let pulsed := (List.range 16).filter fun k => nth s.bal.pulsed k 0 != 0
  let quiet := (List.range 16).filter fun k => !s.bal.busy.getLsbD k && !s.bal.busy.getLsbD (pairOf k)
  let s2 := pulsed.foldl (pulseTest m) s1
  if balExternal s then s2 else quiet.foldl (fun s k => shortTest m k s) s2

/-- The pulse of a channel in the period that begins: from its phase (R406), no earlier than the interlock lets it (R404), joined to a pulse still in progress (R428). -/
def nextPulse (s : State) (k len : Nat) : Nat × Nat :=
  let old := nth s.bal.pulses k (0, 0)
  let phase := s.clk + (if !balExternal s && k % 2 == 1 then 250 * Config.us else 0)
  let from_ := afterPartner s k phase
  let until_ := phase + 2 * Config.us * len
  if len = 0 ∨ until_ ≤ from_ then (if s.clk < old.2 then old else (s.clk, s.clk))
  else if phase < old.2 ∧ old.1 ≤ phase then (old.1, max old.2 until_)
  else (from_, until_)

/-- A period begins (R406, R409, R417, R428 to R431): its pulses, and what is owed. -/
def beginPeriod (s : State) : State :=
  let seen (since k : Nat) : Bool := let p := nth s.bal.pulses k (0, 0); decide (p.1 < p.2) && decide (since < p.2) && decide (p.1 ≤ s.clk)
  let s0 := markSinks { s with cell.mainBal := s.cell.mainBal ||| maskOf 16 (seen s.cell.mainAt), cell.limBal := s.cell.limBal ||| maskOf 16 (seen s.cell.limAt),
                               bal.sApplied := s.bal.s }
  let got := (List.range 16).map (pulseOf s0 (s.time.ns / 500000))
  let pulses := (List.range 16).map fun k => nextPulse s0 k (nth got k (0, 0)).1
  { s0 with bal.debt := got.map (·.2), bal.pulsed := got.map (·.1), bal.pulses := pulses, bal.loadLeft := s.bal.loadLeft - 1, bal.inPeriod := true,
            bal.busy := sinks s0 ||| maskOf 16 fun k => let p := nth pulses k (0, 0); decide (p.1 < p.2) && decide (s.clk < p.2) }

/-- BAL_PERIOD (R406, R409 to R418, R422, R428 to R431): a period of 500 µs begins; the one that it ends is judged by what was measured in it. -/
def execBalPeriod (meas : BalMeas) (s : State) : Out :=
  if !measuring s then .next s else .next (beginPeriod (if s.bal.inPeriod then endPeriod meas s else s))

end Sys2Proof.Machine
end

