-- ==== Sys2Proof/Machine/WatchEv.lean ====
section
/-! DEFINITION. The evidence of the runaway watch: gas, pressure and impedance as they come in, and the baselines they are held against (R607, R611, R612). -/

namespace Sys2Proof.Machine

open Sys2Proof

/-- The thresholds of the criteria (R643, R671). -/
def gThr (s : State) : Nat := max 10 (blk s 0x68 2)
def gCap (s : State) : Nat := blk s 0x6A 2
def pRate (s : State) : Nat := max 5 (blk s 0x6C 1)
def zJump (s : State) : Rat := (max 5 (min 100 (blk s 0x6F 1)) : Nat) / 100

/-- The evidence of a port's gas value ends (R608, R609): after an unavailability it starts anew (log 56). -/
def dropGas (n : Nat) (s : State) : State :=
  { s with watch.c1On := setBit s.watch.c1On n false, watch.gasRun := s.watch.gasRun.set n none, watch.gasLow := s.watch.gasLow.set n none,
           watch.strongAt := s.watch.strongAt.set n [] }

/-- The evidence of a port's pressure ends. -/
def dropPressure (n : Nat) (s : State) : State :=
  { s with watch.c2On := setBit s.watch.c2On n false, watch.pHits := s.watch.pHits.set n 0, watch.pLow := s.watch.pLow.set n 0 }

/-- A valid gas value of a port (R607, R611, R614): it feeds the learning, or the minute's mean and criterion C1. -/
def takeGas (n v : Nat) (s : State) : State :=
  let add (x : Int × Nat) : Int × Nat := (x.1 + v, x.2 + 1)
  if nth s.watch.learn n true then { dropGas n s with watch.learnSum := upd s.watch.learnSum n add }
  else
    let base := nth s.watch.gasBase n 0
    let s1 := { s with watch.minSum := upd s.watch.minSum n add }
    if base + gThr s ≤ (v : Rat) then
      let t0 := (nth s.watch.gasRun n none).getD s.clk
      let s2 := { s1 with watch.gasRun := s1.watch.gasRun.set n (some t0), watch.gasLow := s1.watch.gasLow.set n none,
                          watch.c1On := setBit s1.watch.c1On n (s1.watch.c1On.getLsbD n || decide (t0 + Config.sec ≤ s.clk)) }
      if base + 10 * gThr s ≤ (v : Rat) then
        let old := (nth s.watch.strongAt n []).filter fun t => decide (s.clk ≤ t + 15 * Config.sec)
        { s2 with watch.strongAt := s2.watch.strongAt.set n (s.clk :: old),
                  watch.confirmed := s2.watch.confirmed || old.any fun t => decide (t + 5 * Config.sec ≤ s.clk) }
      else s2
    else
      let t0 := (nth s.watch.gasLow n none).getD s.clk
      { s1 with watch.gasRun := s1.watch.gasRun.set n none, watch.gasLow := s1.watch.gasLow.set n (some t0),
                watch.c1On := setBit s1.watch.c1On n (s1.watch.c1On.getLsbD n && decide (s.clk < t0 + 10 * Config.sec)) }

/-- A rate of pressure of a port, as a difference of codes of 0.05 kPa per second, judged once (R607); `step` is the seconds it stands for. -/
def judgeRate (n step : Nat) (r : Rat) (s : State) : State :=
  let hits := if (pRate s : Rat) ≤ 5 * r then min 2 (nth s.watch.pHits n 0 + 1) else 0
  let low := if 5 * r < (pRate s : Rat) / 2 then min 10 (nth s.watch.pLow n 0 + step) else 0
  { s with watch.pHits := s.watch.pHits.set n hits, watch.pLow := s.watch.pLow.set n low,
           watch.c2On := setBit s.watch.c2On n ((s.watch.c2On.getLsbD n || decide (2 ≤ hits)) && decide (low < 10)) }

/-- The sums of the seconds of a port. -/
def secsOf (s : State) (n : Nat) : List (Nat × Int × Nat) := if n = 0 then s.sp1.secP else s.sp2.secP
def setSecs (n : Nat) (l : List (Nat × Int × Nat)) (s : State) : State := if n = 0 then { s with sp1.secP := l } else { s with sp2.secP := l }

/-- The mean of a second. -/
def secMean (x : Nat × Int × Nat) : Rat := (x.2.1 : Rat) / (x.2.2 : Rat)

/-- A whole second of pressure ends (R607): its mean less the mean of the second before it is the rate; a second without values breaks the row. -/
def rollSecond (n : Nat) (s : State) : State :=
  match secsOf s n with
  | x :: y :: _ =>
    if s.clk / Config.sec ≤ x.1 then s
    else
      let s1 := setSecs n [(s.clk / Config.sec, 0, 0), x] s
      if x.2.2 ≠ 0 ∧ y.2.2 ≠ 0 ∧ x.1 = y.1 + 1 then judgeRate n 1 (secMean x - secMean y) s1
      else { s1 with watch.pHits := s1.watch.pHits.set n 0, watch.pLow := s1.watch.pLow.set n 0 }
  | [x] => if s.clk / Config.sec ≤ x.1 then s else setSecs n [(s.clk / Config.sec, 0, 0), x] s
  | [] => setSecs n [(s.clk / Config.sec, 0, 0)] s

/-- A valid pressure code of a port enters the sums of its second (R607). -/
def takePressure (n code : Nat) (s : State) : State :=
  let s1 := rollSecond n s
  match secsOf s1 n with
  | x :: t => setSecs n ((x.1, x.2.1 + code, x.2.2 + 1) :: t) s1
  | [] => s1

/-- A report of a sensor port (R580, R607, R608): a value flagged `STALE`, `PROOF` or `SAT_FAULT`, or an invalid channel, is no evidence. -/
def takeSatellite (n : Nat) (d : List Byte) (s : State) : State :=
  let ty := field d 0 1
  let f := field d 1 1
  let clean := f % 8 == 0
  let gas := clean && bitN f 3 && (ty == 1 || ty == 3)
  let pres := clean && ((ty == 2 && bitN f 3) || (ty == 3 && bitN f 4))
  let s1 := if gas then takeGas n (field d 2 2) s else dropGas n s
  if pres then takePressure n (if ty = 2 then field d 2 2 else field d 4 2) s1 else dropPressure n s1

/-- A cell's ratio in a report (R607, R612): the baseline is the mean of the first 60; an update beyond `Z_JUMP` counts toward C5, one within half of it ends it. -/
def takeRatio (k : Nat) (rho : Rat) (s : State) : State :=
  let age := s.clk - nth s.sweep.r0At k 0
  let fresh := decide (age < nth s.watch.age5 k 0)
  let s1 := { s with watch.rho := s.watch.rho.set k (some rho), watch.age5 := s.watch.age5.set k age }
  match nth s.watch.base5 k none with
  | none =>
    let x := nth s.watch.learn5 k (0, 0)
    if 59 ≤ x.2 then { s1 with watch.base5 := s1.watch.base5.set k (some ((x.1 + rho) / 60)) }
    else { s1 with watch.learn5 := s1.watch.learn5.set k (x.1 + rho, x.2 + 1) }
  | some b =>
    if !fresh ∨ b = 0 then s1
    else
      let d := |rho / b - 1|
      let j := if zJump s < d then min 2 (nth s.watch.jump k 0 + 1) else 0
      { s1 with watch.jump := s1.watch.jump.set k j,
                watch.c5On := setBit s1.watch.c5On k ((s1.watch.c5On.getLsbD k || decide (2 ≤ j)) && decide (zJump s / 2 < d)) }

/-- A report of the state service (R547, R612): the ratio of each valid cell to the median of the others; fewer than 4 valid cells give none (R608). -/
def takeImpedance (d : List Byte) (s : State) : State :=
  let mask := field d 0 2
  let ks := (List.range 16).filter (bitN mask)
  let r (k : Nat) : Rat := (field d (2 + 2 * k) 2 : Nat)
  let s0 := { s with watch.c5At := some s.clk, watch.c5Valid := BitVec.ofNat 16 mask, watch.rho := List.replicate 16 none,
                     watch.c5On := s.watch.c5On &&& BitVec.ofNat 16 mask,
                     watch.jump := s.watch.jump.mapIdx fun k j => if bitN mask k then j else 0 }
  if ks.length < 4 then s0
  else
    ks.foldl (fun s k =>
      match median ((ks.filter (· != k)).map r) with
      | some m => if m = 0 then s else takeRatio k (r k / m) s
      | none => s) s0

end Sys2Proof.Machine
end

