-- ==== Sys2Proof/Machine/Vermilion2.lean ====
section
/-! DEFINITION. Vermilion's safety data and its fault timers: messages of the on-die channels, state frames and peers, class B timers, the reset
procedure (R654, R655, R661 to R670, R674). -/

namespace Sys2Proof.Machine

open Sys2Proof

/-- A SAFETY frame to peer j: the data protected on channel 8 + j, sent as twin copies, each only while the path in its direction has no dead hop
(R220, R264, R265, R661). -/
def sendSafety (j : Nat) (data : List Byte) (s : State) : State :=
  let r := protect (8 + j) data s
  let f := mkFrame r.2 1 (peerPos s j) 0xB data.length false false (BitVec.ofNat 8 (8 + j) :: r.1)
  let n := s.chain.n
  let north := clearHops s (hopsNorth n s.chain.pos (peerPos s j))
  let south := clearHops s (hopsNorth n (peerPos s j) s.chain.pos)
  if !s.chain.addr || n ≤ peerPos s j then r.2
  else
    let s1 := if north then sendStream false f r.2 else r.2
    if south then sendStream true f s1 else s1

/-- The 8 data bytes of the state frame (R661): byte 0, current flags, the member's own safety current. -/
def stateData (s : State) : List Byte :=
  le 1 (stateByte0 s) ++ [s.cell.localFlags] ++ leI 4 s.cell.isnsLocal ++ [0, 0]

/-- STATE_FRAME_SEND (R661): a state frame to each peer with role STOP or CURRENT. -/
def execStateFrameSend (s : State) : Out :=
  if !vermRuns s then .next s
  else .next ((List.range 24).foldl (fun s j => if peerRole s j 0 || peerRole s j 2 then sendSafety j (stateData s) s else s) s)

/-- PEER_LOST (R663): no state frame from a STOP peer has been accepted for `SAFE_TO`. -/
def execPeerLost (peer : Fin 24) (s : State) : Out :=
  if !vermRuns s ∨ !peerRole s peer.val 0 ∨ (nth s.verm.peers peer.val {}).lost then .next s
  else
    let s1 := { s with verm.peers := upd s.verm.peers peer.val fun p => { p with lost := true } }
    .next (classB 6 true (raise 0x8D (vermDetail peer.val 0 1 s.verm.refuse) (enforceStop s1)))

/-- ALIVE_TIMEOUT (R664): a supervised on-die channel has delivered nothing within its timeout. -/
def execAliveTimeout (ch : Fin 8) (s : State) : Out :=
  if vermRuns s ∧ [0, 1, 3, 6, 7].contains ch.val then
    .next (classA 3 { s with verm.deadCh := setBit s.verm.deadCh ch.val true })
  else .next s

/-- A result of the safety current is above the hard limit of its direction (R654); a hard limit of 0 is absent (R660). -/
def aboveHard (s : State) (mA : Int) : Bool :=
  let c := blk s 0x0A 2
  let d := blk s 0x0C 2
  (c != 0 && decide ((c : Int) * 100 < mA)) || (d != 0 && decide ((d : Int) * 100 < -mA))

/-- What an accepted message of an on-die channel tells Vermilion and the watch (R362, R373, R547, R574, R580, R618, R664; the layouts of channels 0 and 1 are the
model's, log 32). -/
def onDie (ch : Nat) (d : List Byte) (s : State) : State :=
  if ch = 2 then takeImpedance d s
  else if ch = 4 ∨ ch = 5 then takeSatellite (ch - 4) d s
  else if ch = 0 then
    let w := field d 0 4
    let l := (List.range 16).map fun k => bits w (2 * k + 1) (2 * k)
    let any (c : Nat) : Bool := (List.range 16).any fun k => bitN (rf s.regs.cellCfg 19 4) k && nth l k 0 == c
    setCond 2 (any 3) (setCond 1 (any 2) (setCond 0 (any 1) s))
  else if ch = 1 then
    let i := signed 32 (field d 45 4)
    let s1 := { s with verm.curMsg := (i, BitVec.ofNat 8 (field d 49 1)) }
    if aboveHard s i then s1 else setCond 3 false s1
  else if ch = 3 then
    let g := field d 3 1
    let s1 := { s with watch.therm := d }
    setCond 4 ((List.range 4).any fun k => bits g (2 * k + 1) (2 * k) == 3) s1
  else if ch = 6 then
    let a := field d 0 1 == 3
    let s1 := { s with verm.watchAlarm := a }
    if a && bitN (blk s 0x01 1) 2 then classA 7 s1 else s1
  else if ch = 7 then
    let v := field d 0 1
    let s1 := { s with verm.hbStop := v == 2, verm.hbLost := v == 3 && s.chain.hbDecided }
    enforceStop (classB 8 (s1.verm.hbLost && rf s.regs.chainCfg 1 1 == 1) s1)
  else s

/-- The first message sent on a channel leaves the list of messages on their way. -/
def takeSent (ch : Nat) (l : List (Nat × List Byte)) : List (Nat × List Byte) := l.eraseIdx (l.findIdx fun x => x.1 == ch)

/-- SAFETY_MESSAGE (R221, R222, R223, R664): a message of an on-die channel reaches Vermilion and is judged; only an accepted one supplies data. -/
def execSafetyMessage (ch : Fin 8) (alive : Byte) (bytes : List Byte) (crc : Byte) (s : State) : Out :=
  let s0 := { s with chk.sent := takeSent ch.val s.chk.sent }
  if !vermRuns s then .next s0
  else
    let r := aliveCheck ch.val alive.toNat bytes crc s0
    if r.2 then .next (onDie ch.val bytes { r.1 with verm.deadCh := setBit r.1.verm.deadCh ch.val false })
    else .next { r.1 with verm.discard := satAdd 255 r.1.verm.discard 1 }

/-- HARD_LIMIT_TIMER (R654): the safety current has been above its hard limit for 100 ms. -/
def execHardLimitTimer (s : State) : Out :=
  if vermRuns s && aboveHard s s.verm.curMsg.1 then .next (setCond 3 true s) else .next s

/-- CLASS_B_ESCALATE (R667, R692): a class B timer reaches its limit. -/
def execClassBEscalate (cause : Fin 11) (s : State) : Out :=
  if s.verm.faultB.getLsbD cause.val then
    .next (classA 11 (raise 0x8A (vermDetail cause.val s.verm.faultB.toNat 1 s.verm.refuse) s))
  else .next s

/-- CLASS_B_TIMER_SAVE (R667): the timers are written to configuration memory. -/
def execClassBTimerSave (s : State) : Out :=
  .next { s with verm.bSaved := (List.range 11).map (bTime s) }

/-- CLASS_B_TIMER_RESET (R667): a cause has been absent for 60 s in ACTIVE or IDLE. -/
def execClassBTimerReset (cause : Fin 11) (s : State) : Out :=
  if s.verm.faultB.getLsbD cause.val ∨ !vermRuns s then .next s
  else .next { s with verm.bTimer := s.verm.bTimer.set cause.val 0 }

/-- TWIN_CAUSE_END (R667): 60 s have passed since the last occurrence of cause `TWIN`. -/
def execTwinCauseEnd (s : State) : Out := .next (classB 7 false s)

/-- RESET_ARM_EXPIRY (R669, R670, R674): the 10 s of an armed reset or unseal pass, of the one armed first where both are; an armed reset fails with 0x4. -/
def execResetArmExpiry (s : State) : Out :=
  match s.verm.armReset, s.verm.armUnseal with
  | some t, u =>
    if (match u with | some v => decide (v < t) | none => false) then .next { s with verm.armUnseal := none }
    else
      let s1 := { s with verm.armReset := none, verm.armUnseal := if u = some t then none else u, verm.rstFail := 4 }
      .next (raise 0x8C (vermDetail 0 s.verm.faultA.toNat 0 4) s1)
  | none, _ => .next { s with verm.armUnseal := none }

/-- A failed reset (R670): the cause is recorded and event 0x8C raised. -/
def resetFails (c : Nat) (s : State) : State := raise 0x8C (vermDetail 0 s.verm.faultA.toNat 0 c) { s with verm.rstFail := c }

/-- A successful reset (R670): every class A cause, every e-stop latch, every output's `FAULT` and `ARMED` clear. -/
def resetSucceeds (s : State) : State :=
  let s1 := { s with verm.faultA := 0, verm.armReset := none, verm.newA := false, verm.openLoad := 0,
                     verm.inps := s.verm.inps.map fun i => { i with latch := false },
                     verm.outs := s.verm.outs.map fun o => if o.st == .fault then { o with st := .off } else o }
  raise 0x8B (vermDetail 0 0 0 s.verm.refuse) (classB 3 false s1)

/-- An e-stop input has a channel in its demand level (R670). -/
def estopInDemand (s : State) : Bool :=
  (List.range 4).any fun k =>
    let i := nth s.verm.inps k {}
    inpType s k == 1 && (!i.a || !i.b)

/-- A pulse of a length that ends now counts for what was armed at a local time: it began no earlier (R669, R674). -/
def pulseCounts (highMs : Nat) (arm : Option Nat) (s : State) : Bool :=
  match arm with
  | some t => decide (t ≤ s.clk - highMs * Config.ms)
  | none => false

/-- RESET_PULSE (R669, R670, R674, R690, R697): the falling edge of a pulse on the reset input; the reset is judged first, then the unseal. -/
def execResetPulse (highMs : Nat) (s : State) : Out :=
  if !vermRuns s then .next s
  else
    let ok := 100 ≤ highMs ∧ highMs ≤ 3000
    let s1 :=
      if !pulseCounts highMs s.verm.armReset s then s
      else if !ok then resetFails 3 s
      else if presentA s ≠ 0 ∨ s.verm.newA then resetFails 1 s
      else if estopInDemand s then resetFails 2 s
      else resetSucceeds s
    if pulseCounts highMs s.verm.armUnseal s ∧ ok then
      .next (enforceStop (raise 0x8E (vermDetail 0 0 0 s.verm.refuse) { s1 with verm.isSealed := false, verm.armUnseal := none }))
    else .next s1

end Sys2Proof.Machine
end

