-- ==== Sys2Proof/Machine/Cell.lean ====
section
/-! DEFINITION. Cell and current measurement: samples, limit results, clamps, the sum check, rings and host streams, the open-wire test's start, reads
and latches (R350 to R401). -/

namespace Sys2Proof.Machine

open Sys2Proof

/-! ## Main samples -/

/-- The code of a limit result (R361). -/
def limCode : LimRes → Nat
  | .inLimits => 0 | .ov => 1 | .uv => 2 | .invalid => 3

/-- Used cells that entered OVR or UND raise event 0x40 (R401). -/
def noteRange (ovr und : BitVec 16) (s : State) : State :=
  ((List.range 16).filter fun k => (ovr.getLsbD k && !s.cell.ovrNow.getLsbD k) || (und.getLsbD k && !s.cell.undNow.getLsbD k)).foldl
    (fun s k => raise 0x40 (det (k + 1 : Nat) (nth s.cell.value k 0) (nth s.cell.flags k 0).toNat (limCode (nth s.cell.limRes k .inLimits))) s)
    { s with cell.ovrNow := ovr, cell.undNow := und }

/-- Cells with a flag at a main sample are noted with the time, for 4 ms (R546). -/
def noteFlagged (s : State) : State :=
  let m := maskOf 16 fun k => nth s.cell.flags k 0 != 0
  let old := s.cell.flagTimes.filter fun x => s.clk ≤ x.1 + 4 * Config.ms
  if m = 0 then { s with cell.flagTimes := old }
  else match old with
    | (t, n) :: rest => if t = s.clk then { s with cell.flagTimes := (t, m ||| n) :: rest } else { s with cell.flagTimes := (s.clk, m) :: old }
    | [] => { s with cell.flagTimes := [(s.clk, m)] }

/-- The count of cell ring entries of a trigger: an entry written counts while the trigger is in mode 1, and without that mode the count is 0 (R461, R486). -/
def entryCount (reg : Word) (wrote : Bool) (n : Nat) : Nat := if rf reg 1 0 = 1 then n + b2n wrote else 0

/-- An entry of the cell ring, and the trigger counts it moves (R376, R461). -/
def ringCell (s : State) : State :=
  let r := ringEntry s.regs.cellRbCfg 80 0 (cellEntry s) s.cell.cellRing s
  { r.2.1 with cell.cellRing := r.1, cell.trigCount := (entryCount s.regs.trigTe r.2.2 s.cell.trigCount.1, entryCount s.regs.trigSe r.2.2 s.cell.trigCount.2) }

/-- CELL_SAMPLE (R351 to R359, R376, R378, R388, R389): a main sample of all cells, with flags; the first three are discarded. -/
def execCellSample (ins : List CellIn) (s : State) : Out :=
  if !measuring s then .next s
  else
    let got (k : Nat) := rangeOf (nth ins k { uV := 0, ovr := false, und := false }) (nth s.cell.mainRec k (0, false))
    let bal := balOn s.cell.mainBal s.cell.mainAt s
    let flag (k : Nat) : BitVec 8 :=
      BitVec.ofNat 8 ((got k).2.1 + sampleFlags s.cell.mainClampSeen (countPins s.cell.mainSus) s.cell.openPins (s.cell.ow.isSome || proofPhase s 10 31) (s.cell.tstep == 1)
        (heldAt (instantClk (rateOf (cellRate s)) s) s) (bal.getLsbD k) k)
    let s1 := { s with cell.mainRec := (List.range 16).map fun k => (got k).2.2, cell.mainSus := s.cell.mainSus.map (· - 1),
                       cell.mainClampSeen := s.cell.clamp, cell.mainBal := 0, cell.mainAt := s.clk, cell.tstep := tstepLeft (s.cell.mainSkip != 0) s.cell.tstep }
    if s.cell.mainSkip ≠ 0 then .next { s1 with cell.mainSkip := s.cell.mainSkip - 1 }
    else
      let s2 := { s1 with cell.value := (List.range 16).map fun k => (got k).1, cell.flags := (List.range 16).map flag,
                          cell.instant := gridInstant (rateOf (cellRate s)) s }
      let s3 := noteRange (maskOf 16 fun k => cellUsed s k && bitN (got k).2.1 0) (maskOf 16 fun k => cellUsed s k && bitN (got k).2.1 1) s2
      .next (streamEntry 0x10 (cellEntry s3) (sweepSample (ringCell (noteFlagged s3))))

/-! ## Limit samples -/

/-- The class of a limit sample (R360, R388). -/
def limClass (s : State) (v : Int) (f : Nat) : LimRes :=
  if bitN f 0 || decide (1000 * (blk s 0x04 2 : Int) < v) then .ov
  else if bitN f 1 || decide (v < 1000 * (blk s 0x06 2 : Int)) then .uv
  else if bitN f 3 || bitN f 4 then .invalid
  else .inLimits

/-- `CELL_CFG.LIM_DEB`, where 0 acts as 1 (R399). -/
def limDeb (s : State) : Nat := max 1 (rf s.regs.cellCfg 23 20)

/-- A limit sample of a used cell is classed and debounced (R360, R361). -/
def classCell (s : State) (k : Nat) : State :=
  let c := limClass s (nth s.cell.limVal k 0) (nth s.cell.limFlags k 0).toNat
  let d := nth s.cell.deb k (.inLimits, 0)
  let n := if d.1 == c then min 15 (d.2 + 1) else 1
  let s1 := { s with cell.deb := s.cell.deb.set k (c, n) }
  if limDeb s ≤ n && nth s.cell.limRes k .inLimits != c then
    let s2 := { s1 with cell.limRes := s1.cell.limRes.set k c }
    let d := det (k + 1 : Nat) (nth s.cell.limVal k 0) (nth s.cell.limFlags k 0).toNat (limCode c)
    match c with
    | .ov => raise 0x44 d s2
    | .uv => raise 0x45 d s2
    | .invalid => raise 0x46 d s2
    | .inLimits => s2
  else s1

/-- The open-wire test of a proof begins with the first limit sample from 20 ms on at which no other test runs (R624 step 3). -/
def startProofOw (s : State) : State :=
  if s.watch.owDue && s.cell.ow.isNone && decide (s.watch.pstartAt + 20 * Config.ms ≤ s.clk) then { s with cell.ow := some owFirst } else s

/-- With the end of a test in its time, step 3 of a proof has its result: it passes where no pin is declared open (R625). -/
def endProofOw (s : State) : State :=
  if s.watch.owDue && s.cell.ow.isNone && decide (s.watch.pstartAt + 30 * Config.ms ≤ s.clk) then
    let s1 := passFail 3 (s.cell.openPins == 0) { s with watch.owDue := false }
    reportFailed [3] s1
  else s

/-- LIMIT_SAMPLE (R351, R355 to R365, R388): a limit sample of all cells; during an open-wire test it serves the test and is not classed, nor while a proof drives the inputs (R624). -/
def execLimitSample (ins : List CellIn) (s : State) : Out :=
  if !measuring s then .next s
  else
    let got (k : Nat) := rangeOf (nth ins k { uV := 0, ovr := false, und := false }) (nth s.cell.limRec k (0, false))
    let bal := balOn s.cell.limBal s.cell.limAt s
    let flag (k : Nat) : Nat :=
      (got k).2.1 + sampleFlags s.cell.limClampSeen (countPins s.cell.limSus) s.cell.openPins (s.cell.ow.isSome || proofPhase s 10 31) (s.cell.tstepLim == 1)
        (heldAt (instantClk 1000 s) s) (bal.getLsbD k) k
    let s1 := { s with cell.limRec := (List.range 16).map fun k => (got k).2.2, cell.limSus := s.cell.limSus.map (· - 1),
                       cell.limClampSeen := s.cell.clamp, cell.limBal := 0, cell.limAt := s.clk, cell.tstepLim := tstepLeft (s.cell.limSkip != 0) s.cell.tstepLim,
                       cell.mainBal := s.cell.mainBal ||| sinks s }
    if s.cell.limSkip ≠ 0 then .next { s1 with cell.limSkip := s.cell.limSkip - 1 }
    else
      let vals := (List.range 16).map fun k => (got k).1
      let flags := (List.range 16).map flag
      let s2 := startProofOw { s1 with cell.limVal := vals, cell.limFlags := flags.map (BitVec.ofNat 8) }
      let s3 := if s2.cell.ow.isSome then endProofOw (owSample vals flags s2)
        else if proofPhase s 10 31 then s2
        else ((List.range 16).filter (cellUsed s)).foldl classCell s2
      .next (noteC4 (noteHeld s3))

/-- The 16 limit results as one word (R361, R399). -/
def limWord (s : State) : Nat := ((List.range 16).map fun k => limCode (nth s.cell.limRes k .inLimits) * 4 ^ k).foldl (· + ·) 0

/-- LIMIT_REPORT (R362): the limit results on alive channel 0. -/
def execLimitReport (s : State) : Out :=
  if !measuring s then .next s else .next (sendOnDie 0 (le 4 (limWord s)) s)

/-- `CELL_CFG.USED` takes a new value (R395): the limit results of the changed cells return to 0 and their debounce starts anew. -/
def usedChanged (old new : Nat) (s : State) : State :=
  let ch (k : Nat) : Bool := bitN old k != bitN new k
  let s1 := { s with cell.limRes := s.cell.limRes.mapIdx fun k r => if ch k then .inLimits else r,
                     cell.deb := s.cell.deb.mapIdx fun k d => if ch k then (.inLimits, 0) else d }
  noteHeld s1

/-! ## Clamps -/

/-- CLAMP_TRIP (R357, R391): a pin's clamp detector trips. -/
def execClampTrip (pin : Fin 17) (s : State) : Out :=
  if !measuring s ∨ s.cell.clamp.getLsbD pin.val then .next s
  else
    let s1 := { s with cell.clamp := setBit s.cell.clamp pin.val true, cell.clampLat := setBit s.cell.clampLat pin.val true,
                       cell.mainClampSeen := setBit s.cell.mainClampSeen pin.val true, cell.limClampSeen := setBit s.cell.limClampSeen pin.val true,
                       cell.ow := s.cell.ow.map fun o => { o with clamped := setBit o.clamped pin.val true } }
    .next (raise 0x41 (det pin.val 0 0 0) (noteOcc 0x1018 (setBit 0 pin.val true) s1))

/-- CLAMP_RELEASE (R358): the detector releases; `SUSPECT` stays for the first 4 samples of each filter that complete after it. -/
def execClampRelease (pin : Fin 17) (s : State) : Out :=
  if s.cell.clamp.getLsbD pin.val then
    .next { s with cell.clamp := setBit s.cell.clamp pin.val false, cell.mainSus := s.cell.mainSus.set pin.val 4, cell.limSus := s.cell.limSus.set pin.val 4 }
  else .next s

/-- MODULATOR_STUCK (R401): the output of a cell's modulator, or of the safety current's, has stayed at one level for 1 ms. -/
def execModulatorStuck (m : Fin 17) (s : State) : Out :=
  if !measuring s then .next s
  else
    let d :=
      if m.val = 16 then det 0 s.cell.isnsMa s.cell.isnsFlags.toNat 0
      else det (m.val + 1 : Nat) (nth s.cell.value m.val 0) (nth s.cell.flags m.val 0).toNat (limCode (nth s.cell.limRes m.val .inLimits))
    .next (raise 0x4D d { s with cell.stuck := setBit s.cell.stuck m.val true })

/-! ## The sum check -/

/-- The sum check cannot be judged (R366): a used cell carries a flag that spoils it, or `VSTK_LOW` is set. -/
def sumSkipped (s : State) : Bool :=
  s.sys.vstkLow || (List.range 16).any fun k => cellUsed s k && (nth s.cell.flags k 0 &&& 0x1B != 0)

/-- SUM_CHECK (R366, R393): the sum of the used cells against `VSTK`, every 100 ms in ACTIVE. -/
def execSumCheck (s : State) : Out :=
  if !s.sys.powered ∨ s.sys.mode != .active ∨ sumSkipped s then .next s
  else
    let sum := ((List.range 16).map fun k => if cellUsed s k then nth s.cell.value k 0 else 0).foldl (· + ·) 0
    if 1500000 < |sum - 10000 * (s.sys.vstk10mV.toNat : Int)| then
      let s1 := { s with cell.sumBad := min 2 (s.cell.sumBad + 1), cell.sumGood := 0 }
      if 2 ≤ s.cell.sumBad + 1 && !s.cell.sumErr then .next (raise 0x4E (det 0 sum 0 0) { s1 with cell.sumErr := true }) else .next s1
    else
      let s1 := { s with cell.sumGood := min 2 (s.cell.sumGood + 1), cell.sumBad := 0 }
      .next (if 2 ≤ s.cell.sumGood + 1 then { s1 with cell.sumErr := false } else s1)

/-! ## The safety current -/

/-- One sample of the local channel (R370, R356): value, flags, recovery. -/
def localCurrent (nv : Int) (s : State) : Int × Nat × (Nat × Bool) :=
  let shunt : Int := (max 1 (blk s 0x08 2) : Nat)
  let r := s.cell.isnsRec
  if 150000000 < nv then (0x7FFFFFFF, 1, (2, false))
  else if nv < -150000000 then (-0x80000000, 2, (2, true))
  else if r.1 ≠ 0 then (if r.2 then (-0x80000000, 2, (r.1 - 1, r.2)) else (0x7FFFFFFF, 1, (r.1 - 1, r.2)))
  else (divFree nv shunt, 0, r)

/-- The remote source is stale (R372, R396). -/
def remoteIsStale (s : State) : Bool := s.cell.remoteStale || !s.chain.addr || s.chain.n == 0 || blk s 0x03 1 == s.chain.pos

/-- A current stream entry (R378). -/
def curEntry (s : State) (instant snum : Nat) : List Byte := le 4 snum ++ le 4 instant ++ cur24 s.cell.isnsMa ++ [s.cell.isnsFlags]

/-- A current result that has entered `OVR` or `UND` raises event 0x49, and one that has become `STALE` event 0x4A (R401). -/
def raiseCurrent (old : BitVec 8) (v : Int) (f : Nat) (s : State) : State :=
  let s1 := if BitVec.ofNat 8 f &&& 3 &&& ~~~old ≠ 0 then raise 0x49 (det 0 v f 0) s else s
  if bitN f 3 && !old.getLsbD 3 then raise 0x4A (det 0 v f 0) s1 else s1

/-- A current result that follows the one before by a qualifying step is noted (R546), and one with a flag spoils the pass of a sweep (R537). -/
def markCurrent (prev : Option (Int × BitVec 8)) (v : Int) (f : Nat) (s : State) : State :=
  let s1 := if (match prev with | some p => stepQualifies s p (v, BitVec.ofNat 8 f) | none => false) then { s with sweep.stepAt := some s.clk } else s
  if inPass s && f &&& 0x0B != 0 then { s1 with sweep.curBad := true } else s1

/-- CURRENT_SAMPLE (R370 to R372, R396, R546): a sample of the local channel, and the member's result from it or from the remote source. -/
def execCurrentSample (shuntNV : Int) (s : State) : Out :=
  if !measuring s then .next s
  else
    let l := localCurrent shuntNV s
    let time := 16 * b2n (s.cell.tstepCur == 1) + 32 * b2n (heldAt (instantClk 1000 s) s)
    let remote := bitN (blk s 0x01 1) 3
    let v := if remote then s.cell.remote.1 else l.1
    let f := if remote then (s.cell.remote.2.toNat &&& 0x0B) ||| 4 ||| (if remoteIsStale s then 8 else 0) ||| time else l.2.1 + time
    let s1 := { s with cell.isnsRec := l.2.2, cell.isnsLocal := l.1, cell.localFlags := BitVec.ofNat 8 (l.2.1 + time), cell.tstepCur := s.cell.tstepCur - 1,
                       cell.isnsMa := v, cell.isnsFlags := BitVec.ofNat 8 f, cell.curHist := ((v, BitVec.ofNat 8 f) :: s.cell.curHist).take 10,
                       cell.curAt := (instantClk 1000 s :: s.cell.curAt).take 10 }
    let s2 := markCurrent s.cell.curHist.head? v f (raiseCurrent s.cell.isnsFlags v f s1)
    .next (streamEntry 0x12 (curEntry s2 (gridInstant 1000 s)) s2)

/-- REMOTE_STALE (R372): no valid publication has been accepted for 30 ms; the result turns `STALE`, with event 0x4A where it was not. -/
def execRemoteStale (s : State) : Out :=
  if !bitN (blk s 0x01 1) 3 then .next s
  else
    let s1 := { s with cell.remoteStale := true, cell.isnsFlags := s.cell.isnsFlags ||| 0x08 }
    .next (if s.cell.isnsFlags.getLsbD 3 then s1 else raise 0x4A (det 0 s.cell.isnsMa s1.cell.isnsFlags.toNat 0) s1)

/-- CURRENT_REPORT (R373): the ten results of the last 10 ms with their flags, oldest first, on alive channel 1. -/
def execCurrentReport (s : State) : Out :=
  if !measuring s then .next s
  else
    let e (i : Nat) : Int × BitVec 8 := s.cell.curHist.getD (9 - i) (0, 0)
    .next (sendOnDie 1 ((List.range 10).map fun i => leI 4 (e i).1 ++ [(e i).2]).flatten s)

/-! ## Reads and latches -/

/-- `CELL_READ` (R353): the 16 results with their flags. -/
def cmdCellRead (s : State) : Res :=
  { st := s, status := stOk, data := ((List.range 16).map fun k => leI 3 (nth s.cell.value k 0) ++ [nth s.cell.flags k 0]).flatten }

/-- CELL_READ (R353). -/
def execCellRead (rq : Req) (s : State) : Out := .next (runCmd 0x40 rq cmdCellRead s)

/-- `AUX_READ` (R367). -/
def cmdAuxRead (s : State) : Res :=
  { st := s, status := stOk, data := ((List.range 8).map fun k => le 2 (nth s.cell.aux k 0).toNat ++ [nth s.cell.auxFlags k 0]).flatten }

/-- AUX_READ (R367). -/
def execAuxRead (rq : Req) (s : State) : Out := .next (runCmd 0x41 rq cmdAuxRead s)

/-- `CURRENT_READ` (R370). -/
def cmdCurrentRead (s : State) : Res := { st := s, status := stOk, data := leI 4 s.cell.isnsMa ++ [s.cell.isnsFlags] }

/-- CURRENT_READ (R370). -/
def execCurrentRead (rq : Req) (s : State) : Out := .next (runCmd 0x42 rq cmdCurrentRead s)

/-- A read of `CELL_DATA_01` latches all cells and `CELL_SNUM` from one instant (R399). -/
def latchCells (s : State) : State :=
  { s with cell.latVal := s.cell.value.map (BitVec.ofInt 24), cell.latFlags := s.cell.flags, cell.snum := s.cell.instant }

/-- CELL_DATA_LATCH (R399). -/
def execCellDataLatch (s : State) : Out := .next (latchCells s)

/-- A read of `AUX_DATA_1` latches all eight AUX results (R400). -/
def latchAux (s : State) : State := { s with cell.auxLat := s.cell.aux, cell.auxLatFlags := s.cell.auxFlags }

/-- AUX_DATA_LATCH (R400). -/
def execAuxDataLatch (s : State) : Out := .next (latchAux s)

/-- A read of `ISNS_DATA` latches `ISNS_FLAGS` (R399). -/
def latchCurrent (s : State) : State := { s with cell.isnsFlagsLat := s.cell.isnsFlags }

/-- ISNS_DATA_LATCH (R399). -/
def execIsnsDataLatch (s : State) : Out := .next (latchCurrent s)

/-! ## Streams -/

/-- `RP` of a ring written (R397): ignored at or above `ENTRIES`. -/
def writeRp (aux : Bool) (v : Nat) (s : State) : State :=
  if aux then (if v < ringEntries s.regs.auxRbCfg then { s with cell.auxRing.rp := v } else s)
  else (if v < ringEntries s.regs.cellRbCfg then { s with cell.cellRing.rp := v } else s)

/-- RP_WRITE (R397). -/
def execRpWrite (aux : Bool) (value : BitVec 10) (s : State) : Out := .next (writeRp aux value.toNat s)

/-- A host stream is open. -/
def streamIsOpen (s : State) (code : Nat) : Bool := s.cell.streams.any fun x => x.code == code

/-- A ring fits inside the scratchpad (R375). -/
def ringFits (cfg : Word) (size : Nat) : Bool := ringBase cfg + size * ringEntries cfg ≤ 65536

/-- A ring opened (R376, R524): the sample number counts from 0; `WP` and `RP` stand. -/
def openRing (r : RingSt) : RingSt := { r with isOpen := true, snum := 0, fresh := false }

/-- `STREAM_OPEN` (R374, R375). -/
def cmdStreamOpen (rq : Req) (stream rate slots : Byte) (s : State) : Res :=
  let c := stream.toNat
  let h := rate.toNat
  let k := slots.toNat
  let bad := Res.of stBadParam s
  let now := cellRate s
  let hostNew (m : Nat) (s : State) : State :=
    { s with cell.streams := s.cell.streams ++ [{ code := c, host := rq.host.val, m := m, slots := k }] }
  if c = 0x00 then
    let r := if h = 0xFF then now else h
    if 6 < r ∨ s.cell.cellRing.isOpen ∨ !ringFits s.regs.cellRbCfg 80 ∨ (r ≠ now ∧ (streamIsOpen s 0x10 ∨ sweepBusy s)) then bad
    else
      let s1 := setRate r s
      Res.of stOk { s1 with cell.cellRing := openRing s1.cell.cellRing }
  else if c = 0x01 then
    if h ≠ 0xFF ∨ s.cell.auxRing.isOpen ∨ !ringFits s.regs.auxRbCfg 32 then bad
    else Res.of stOk { s with cell.auxRing := openRing s.cell.auxRing }
  else if c = 0x10 then
    let r := if h = 0xFF then now else h
    if (h ≠ 0xFF ∧ 2 < h) ∨ streamIsOpen s c ∨ k = 0 ∨ now < r ∨ 2 < r then bad
    else
      let free := !s.cell.cellRing.isOpen && !sweepBusy s
      Res.of stOk (if free then hostNew 1 (setRate r s) else hostNew (rateOf now / rateOf r) s)
  else if c = 0x11 ∨ c = 0x12 then
    if h ≠ 0xFF ∨ streamIsOpen s c ∨ k = 0 then bad else Res.of stOk (hostNew 1 s)
  else bad

/-- STREAM_OPEN (R374, R375). -/
def execStreamOpen (rq : Req) (stream rate slots : Byte) (s : State) : Out := .next (runCmd 0x43 rq (cmdStreamOpen rq stream rate slots) s)

/-- A stream closes (R379); the end of stream 0x00 ends a sweep (R549). -/
def closeStream (c : Nat) (s : State) : State :=
  if c = 0x00 then
    if s.cell.cellRing.isOpen then endSweep 8 { s with cell.cellRing.isOpen := false } else s
  else if c = 0x01 then { s with cell.auxRing.isOpen := false }
  else { s with cell.streams := s.cell.streams.filter fun x => x.code != c }

/-- `STREAM_CLOSE` (R374, R379). -/
def cmdStreamClose (stream : Byte) (s : State) : Res :=
  if [0x00, 0x01, 0x10, 0x11, 0x12].contains stream.toNat then Res.of stOk (closeStream stream.toNat s) else Res.of stBadParam s

/-- STREAM_CLOSE (R379). -/
def execStreamClose (rq : Req) (stream : Byte) (s : State) : Out := .next (runCmd 0x44 rq (cmdStreamClose stream) s)

/-- HOST_STREAM_FLUSH (R378): a frame that waits leaves. -/
def execHostStreamFlush (stream : Byte) (s : State) : Out :=
  let i := s.cell.streams.findIdx fun x => x.code == stream.toNat
  match s.cell.streams[i]? with
  | none => .next s
  | some x =>
    let r := flushStream x s
    .next { r.2 with cell.streams := s.cell.streams.set i r.1 }

/-! ## Starting an open-wire test -/

/-- OW_START (R363, R390, R393, R412). -/
def execOwStart (s : State) : Out := .next (startOw s)

/-- OW_PERIODIC (R363): the test period has passed. -/
def execOwPeriodic (s : State) : Out := if rf s.regs.owCfg 7 0 = 0 then .next s else .next (startOw s)

end Sys2Proof.Machine
end

