-- ==== Sys2Proof/Machine/Sweep.lean ====
section
/-! DEFINITION. Impedance sweeps: the command, the passes, the end, the model fit's launches, the report to the watch (R529 to R555). -/

namespace Sys2Proof.Machine

open Sys2Proof

/-- A time as nanoseconds. -/
def nsOf (sec ns : Nat) : Nat := sec * 1000000000 + ns

/-- The parameters of a sweep are refused (R531). -/
def sweepBad (s : State) (sec ns : Nat) (mask : BitVec 16) (amp imax imin step : Nat) : Bool :=
  decide (1000000000 ≤ ns) || mask == 0 || decide (amp < 1) || decide (100 < amp) || decide (46 < imax) || decide (imax < imin) || decide (step < 1) ||
    decide (10 < step) || namesUnused s mask || balExternal s || !s.cell.cellRing.isOpen || decide (1000 * rateOf (cellRate s) < 4 * sweepFreq imax) ||
    s.indigo.se.st != .idle || (rf s.regs.trigSe 1 0 == 1 || rf s.regs.trigSe 1 0 == 2) || s.sweep.st != .idle ||
    decide (rf s.regs.indigoRes 31 16 < 544 + 128 * sweepP imax imin step) || decide (900000000000 < sweepNs mask imax imin step) ||
    s.time.st == .unset || decide (nsOf sec ns < nsOf s.time.sec.toNat s.time.ns + 20000000) || s.bal.s != 0

/-- `SWEEP_START` (R529 to R532): the sweep waits for its start. -/
def cmdSweepStart (rq : Req) (sec : BitVec 48) (ns : Word) (mask : BitVec 16) (amp imax imin step : Byte) (s : State) : Res :=
  if sweepBad s sec.toNat ns.toNat mask amp.toNat imax.toNat imin.toNat step.toNat then Res.of stBadParam s
  else if (ones mask).any fun k => heldAgainst rq (5 + k) (!stimOn s false k) s then overruled rq s
  else
    let s1 := endStim mask 0 s
    let w : SweepSt :=
      { s1.sweep with st := .waiting, point := 0, passB := false, num := s.sweep.num + 1, startSec := sec.toNat, startNs := ns.toNat, mask := mask, amp := amp.toNat,
                      imax := imax.toNat, imin := imin.toNat, step := step.toNat, nc := false, hold := false, byCmd := some (rq.host, rq.seq.toNat),
                      samples := [], bad := 0, curBad := false, meanSum := List.replicate 16 0, meanCnt := 0, fitCell := 0 }
    Res.of stQueued (noteOrder rq (chObjs mask) { s1 with sweep := w })

/-- SWEEP_START (R529). -/
def execSweepStart (rq : Req) (sec : BitVec 48) (ns : Word) (mask : BitVec 16) (amp imax imin step : Byte) (s : State) : Out :=
  .next (runCmd 0x65 rq (cmdSweepStart rq sec ns mask amp imax imin step) s)

/-- A sweep begins (R334, R538, R541, R544): a stimulus still set elsewhere ends, the demodulator is launched on the SE (R65, R447, R449), and
the result block is prepared. -/
def beginSweep (s : State) : State :=
  let s := endStim allCh 0 s
  let g := gridAfter (rateOf (cellRate s)) s.sweep.startSec s.sweep.startNs
  let hasA := passCells s.sweep.mask false != 0
  let s1 := initBlock { s with sweep.startSec := g.1, sweep.startNs := g.2, sweep.nc := s.time.st != .locked, sweep.point := 0, sweep.passB := !hasA }
  startEngine .se (beginLaunch .se 0x81 [] s1)

/-- The demodulator's stores fault, and the sweep ends with it (R451, R549). -/
def demodFault (f : Nat × Nat) (s : State) : State := endSweep 9 (takeFault .se f.1 (eng s .se).pc f.2 s)

/-- The pass in progress has ended: its points are stored and `next` follows, unless the stores fault. -/
def endPass (next : State → State) (s : State) : State :=
  match passFault s with
  | some f => demodFault f s
  | none => next s

/-- SWEEP_PASS (R533 to R537): the first pass at the start instant, or the next one after the gap. DESIGN CHOICE (log 71): where a kernel holds the SE at the start instant, the sweep ends with cause 9. -/
def execSweepPass (s : State) : Out :=
  match s.sweep.st with
  | .waiting =>
    if s.indigo.se.st != .idle then .next (endSweep 9 s)
    else
    let s1 := beginSweep s
    .next (startPass (0, s1.sweep.passB) s1)
  | .running =>
    match nextPass s with
    | some p => .next (endPass (fun s => startPass p (storePass s)) s)
    | none => .next s
  | _ => .next s

/-- SWEEP_END (R529, R549): after the last pass the sweep is complete. -/
def execSweepEnd (s : State) : Out :=
  if s.sweep.st == .running && (nextPass s).isNone then .next (endPass (endSweep 1) s) else .next s

/-- MODEL_FIT_LAUNCH (R539): the fit of the next cell is launched while the TE is idle. -/
def execModelFitLaunch (s : State) : Out :=
  if s.sweep.st == .fitting && s.indigo.te.st == .idle && !s.indigo.off && measuring s then .next (beginLaunch .te 0x82 [] s) else .next s

/-- R0_t in units of 10 µΩ, unsigned and saturated (R547). -/
def r0Code (r : Rat) : Nat := (max 0 (min 65535 (divFree (r.num * 100000) r.den))).toNat

/-- The report of the state service (R547): the valid mask, and R0_t of each cell. -/
def impedanceData (s : State) : List Byte :=
  let v (k : Nat) : Nat := match nth s.sweep.r0t k none with | some r => r0Code r | none => 0
  le 2 (maskOf 16 (r0Valid s)).toNat ++ ((List.range 16).map fun k => le 2 (v k)).flatten

/-- IMPEDANCE_REPORT (R547, R555): once per second, while the state service runs. -/
def execImpedanceReport (s : State) : Out :=
  if !measuring s ∨ !stateServiceOn s ∨ s.indigo.off then .next s
  else .next (sendOnDie 2 (impedanceData s) s)

end Sys2Proof.Machine
end

