-- ==== Sys2Proof/Machine/UmberOps.lean ====
section
/-! DEFINITION. Umber's shared operations: intervals and records, time labels, the store, snapshots and what the stack die hears of them (R700 to R728). -/

namespace Sys2Proof.Machine

open Sys2Proof

/-- The code of a meter state (R701). -/
def meterCode : Meter → Nat
  | .uncalibrated => 0 | .opened => 1 | .sealed => 2 | .fault => 3

/-- The stack die and Umber talk (R28, R704). -/
def umbTalks (s : State) : Bool := s.sys.variant == .m && s.sys.powered && s.umber.powered && s.umber.linkUp

/-- An event about Umber, which the stack die raises while the link is up (R749, R799). -/
def raiseUmb (src h : Nat) (s : State) : State :=
  if umbTalks s then raise src (det h s.umber.seq (meterCode s.umber.st) s.umber.audit) s else s

/-- A register in its unit (R708): in `UNCALIBRATED` it reads 0 (R701). -/
def umbReg (s : State) (k : Nat) : Nat := if s.umber.st == .uncalibrated then 0 else nth s.umber.acc k 0 / 2 ^ 32 % 2 ^ 64

/-- Umber meters and keeps intervals (R701). -/
def metering (s : State) : Bool := s.umber.st != .uncalibrated

/-- The interval length in seconds (R710). -/
def intervalSec (s : State) : Nat := 60 * s.umber.len

/-- The nominal start of the interval that contains a second (R710). -/
def nominalStart (s : State) (sec : Nat) : Nat := if s.umber.len = 0 then sec else sec / intervalSec s * intervalSec s

/-- What Umber writes to its non-volatile memory (R709). -/
def umbSave (s : State) : State :=
  let u := s.umber
  { s with umber.saved := { acc := u.acc, flags := u.flags, start := u.start, dur := u.dur, accAtOpen := u.accAtOpen, tNs := u.tNs } }

/-- A record into the interval store (R721): the 4096 most recent are kept. -/
def storeRec (r : URec) (s : State) : State :=
  let l := s.umber.store ++ [r]
  { s with umber.store := l.drop (l.length - 4096), umber.seq := r.seq }

/-- The fields that every record takes from Umber's state at its close (R717). -/
def recNow (s : State) (kind flags : Nat) (start sec ns : Nat) : URec :=
  { kind := kind, flags := BitVec.ofNat 16 flags, seq := (s.umber.seq + 1) % 2 ^ 32, start := start, len := s.umber.len, tstate := s.umber.tstate,
    closeSec := sec, closeNs := ns, dur := 0, imp := umbReg s 0, exp := umbReg s 1, chg := umbReg s 2, dis := umbReg s 3, dImp := 0, dExp := 0,
    audit := s.umber.audit, swid := s.umber.swidNow, crcOk := true }

/-- The flags that an interval takes from the meter state (R701, R718). -/
def stateFlags (s : State) : Nat := (if s.umber.st == .opened then 32 else 0) + (if s.umber.st == .fault then 512 else 0)

/-- The open interval closes at a time, with further flags (R710 to R715, R717, R718): `SHORT` where its metered duration differs from its length by more than
2 s, `OVERLOAD` also where a figure saturates. -/
def closeInterval (extra sec ns : Nat) (s : State) : State :=
  if !metering s then s
  else
    let u := s.umber
    let span : Int := 4000 * (intervalSec s : Int)
    let short := decide (8000 < |(u.dur : Int) - span|)
    let imp := umbReg s 0 - nth u.accAtOpen 0 0
    let exp := umbReg s 1 - nth u.accAtOpen 1 0
    let sat := decide (0xFFFFFFFF < imp) || decide (0xFFFFFFFF < exp)
    let f := u.flags ||| BitVec.ofNat 16 extra ||| BitVec.ofNat 16 (stateFlags s) ||| (if short then 1 else 0) ||| (if sat then 256 else 0)
    storeRec { recNow s 1 f.toNat u.start sec ns with dur := (divFree u.dur 4).toNat, dImp := min imp 0xFFFFFFFF, dExp := min exp 0xFFFFFFFF } s

/-- The interval that contains Umber's time opens (R710, R716): without a label since power-up it is flagged `NO_TIME`. -/
def openInterval (s : State) : State :=
  if !metering s then s
  else
    umbSave { s with umber.start := nominalStart s (s.umber.tNs / 1000000000), umber.dur := 0, umber.accAtOpen := [umbReg s 0, umbReg s 1],
                     umber.flags := if s.umber.timeOk then 0 else 4 }

/-- The open interval closes now. -/
def closeNow (extra : Nat) (s : State) : State := closeInterval extra (s.umber.tNs / 1000000000) (s.umber.tNs % 1000000000) s

/-- An audit record (R711, R717, R727): the audit counter has increased, which raises event 0x93 (R728). In `UNCALIBRATED` there are no records (R701). -/
def auditChange (change : Nat) (s : State) : State :=
  let s1 := { s with umber.audit := (s.umber.audit + 1) % 2 ^ 32 }
  let t := s.umber.tNs
  let s2 := if metering s1 then storeRec { recNow s1 2 0 s.umber.start (t / 1000000000) (t % 1000000000) with dur := change } s1 else s1
  raiseUmb 0x93 0 s2

/-- The intervals whose whole span a forward step passes (R713): `n` of them from a nominal start on, with zero energy, flagged `SHORT`; only the last 4096 can
still stand in the store (R721). -/
def passIntervals (first n : Nat) (s : State) : State :=
  let skip := n - 4096
  let s1 := { s with umber.seq := (s.umber.seq + skip) % 2 ^ 32 }
  (List.range (n - skip)).foldl (fun s i =>
    let start := first + (skip + i) * intervalSec s
    storeRec (recNow s 1 (1 + stateFlags s) start (start + intervalSec s) 0) s) s1

/-- A forward step of Umber's time (R713). -/
def stepForward (t : Nat) (s : State) : State :=
  let b := s.umber.start + intervalSec s
  let s1 := { s with umber.tNs := t, umber.slew := 0 }
  if !metering s ∨ t / 1000000000 < b ∨ s.umber.len = 0 then s1
  else
    let s2 := closeInterval 1 b 0 s1
    openInterval (passIntervals b ((nominalStart s (t / 1000000000) - b) / intervalSec s) s2)

/-- A backward step (R713): the open interval closes with `TIME_REGRESS`. -/
def stepBackward (t : Nat) (s : State) : State :=
  openInterval { closeNow 2 s with umber.tNs := t, umber.slew := 0 }

/-- A time label reaches Umber (R335, R336, R713, R716, R736, R737). -/
def umberLabel (s : State) : State :=
  if !umbTalks s ∨ s.time.st = .unset then s
  else
    let t := s.time.sec.toNat * 1000000000 + s.time.ns
    let d : Int := (t : Int) - (s.umber.tNs : Int)
    let s0 := { s with umber.timeOk := true, umber.tstate := s.time.st.code }
    let s1 :=
      if d < -2000000000 then raiseUmb 0x91 0 (stepBackward t s0)
      else if 2000000000 < d then raiseUmb 0x91 0 (stepForward t s0)
      else
        { s0 with umber.slew := d, umber.flags := if metering s ∧ 100000000 < |d| then s.umber.flags ||| 1024 else s.umber.flags }
    if metering s ∧ (s.time.st = .free ∨ s.time.st = .holdover) then { s1 with umber.flags := s1.umber.flags ||| 8 } else s1

/-- The bytes 0 to 87 of a record emitted for a host (R717). -/
def recordHead (s : State) (h : Nat) (r : URec) : List Byte :=
  le 1 1 ++ le 1 r.kind ++ le 2 r.flags.toNat ++ le 8 s.umber.serial.toNat ++ le 4 r.seq ++ le 6 r.start ++ le 1 r.len ++ le 1 r.tstate ++ le 6 r.closeSec ++
    le 4 r.closeNs ++ le 4 r.dur ++ le 8 r.imp ++ le 8 r.exp ++ le 8 r.chg ++ le 8 r.dis ++ le 4 r.dImp ++ le 4 r.dExp ++ le 4 r.audit ++ le 4 r.swid.toNat ++
    le 1 h ++ [0]

/-- A record as it is emitted, with Umber's signature (R717, R719; the signing key is fixed in the part, log 20). -/
def recordBytes (s : State) (h : Nat) (r : URec) : List Byte :=
  let b := recordHead s h r
  let d := sha256 b
  b ++ (List.range 64).map fun i => Config.umberSignature d i

/-- The stored record with the lowest sequence number above q whose CRC is good (R702, R721). -/
def recordAfter (s : State) (q : Nat) : Option URec :=
  let l := s.umber.store.filter fun r => r.crcOk && decide (q < r.seq)
  match (l.map (·.seq)).min? with
  | some m => l.find? fun r => r.seq == m
  | none => none

/-- The register read of R702, as the mirror shows it (R747). -/
def mirrorNow (s : State) : Mirror :=
  let u := s.umber
  { st := meterCode u.st, sealN := s.pins.sealN, updBusy := !u.upd.isEmpty, timeOk := u.timeOk, len := u.len, seq := u.seq,
    oldest := (u.store.head?.map (·.seq)).getD 0, audit := u.audit, swid := u.swidNow, fwver := u.fwver, regs := (List.range 4).map (umbReg s),
    i := u.i, v := u.v, temp := u.temp, reject := u.reject, serial := u.serial }

/-- Umber discards an inward transfer (R703). -/
def discardInward (s : State) : State := raiseUmb 0x96 0 { s with umber.reject := (s.umber.reject + 1) % 65536 }

/-- The state that a sound Umber with or without a parameter set is in (R701, R746). -/
def soundState (s : State) : Meter := if s.umber.shunt = 0 then .uncalibrated else if s.pins.sealN then .sealed else .opened

/-- Umber enters `FAULT` (R701, R724). -/
def umberFault (s : State) : State := if s.umber.st == .fault then s else raiseUmb 0x97 0 { s with umber.st := .fault }

/-- The partial image of an update (R725): discarded before its last chunk, which raises event 0x94 (R740). -/
def dropImage (s : State) : State :=
  if s.umber.upd.isEmpty ∨ s.umber.updBy.isSome then s else raiseUmb 0x94 0 { s with umber.upd := [] }

end Sys2Proof.Machine
end

