-- ==== Sys2Proof/Machine/TimeOps.lean ====
section
/-! DEFINITION. The time counter's shared operations: captures, steps and slews, the states of the discipline (R312 to R347). -/

namespace Sys2Proof.Machine

open Sys2Proof

/-- The counter in units of 10^-8 ns. -/
def counterFine (s : State) : Int := ((s.time.sec.toNat * 1000000000 + s.time.ns : Nat) : Int) * 100000000 + s.time.frac

/-- The dispatch tick that the counter stands in: how many multiples of 250 000 ns it has passed (R162, R335). -/
def tickIndex (s : State) : Nat := s.time.sec.toNat * 4000 + s.time.ns / 250000

/-- A captured instant in 1/16 ns: the counter a number of local clock steps from now, at its corrected rate, and the place within its step (R312, R323). -/
def capturedAt (steps : Int) (frac : Nat) (s : State) : Int := (counterFine s + steps * (1000000000 + s.time.freq)) / 100000000 * 16 + frac

/-- An instant captured now. -/
def captured (frac : Nat) (s : State) : Int := capturedAt 0 frac s

/-- The detail of a time event (R799). -/
def timeDetail (s : State) : List Byte := det 0 s.time.offset s.time.st.code s.time.epoch

/-- The step threshold in 1/16 ns (R348). -/
def stepThr (s : State) : Int := max 1 (rf s.regs.timeCfg 15 8) * 16000

/-- The slew limit in 0.001 ppm (R348). -/
def slewMax (s : State) : Int := clampI 10 500 (rf s.regs.timeCfg 24 16) * 1000

/-- An offset as `TIME_OFFSET` shows it (R348). -/
def noteOffset (off : Int) (s : State) : State := { s with time.offset := clampI (-2147483648) 2147483647 off }

/-- The counter set to an instant given in 10^-8 ns. -/
def setCounter (t : Int) (s : State) : State :=
  let n := t / 100000000
  { s with time.sec := BitVec.ofInt 48 (n / 1000000000), time.ns := (n % 1000000000).toNat, time.frac := t % 100000000 }

/-- The dispatch ticks after a step (R335, R344): the tick in progress ends, and the next one begins at the next multiple of 250 000 ns. Where the step falls on a boundary, from
which a tick has just begun or to which it leads, that boundary counts once. -/
def stepTicks (s : State) : State :=
  if s.cmd.tickAt = some s.clk then { s with cmd.tickNo := tickIndex s }
  else if counterFine s % 25000000000000 = 0 then { s with cmd.tickNo := tickIndex s + 1 }
  else { s with cmd.tickNo := tickIndex s, cmd.gap := true, cmd.ended := s.cmd.ended ++ (if s.cmd.gap then [] else s.cmd.tick), cmd.tick := if s.cmd.gap then s.cmd.tick else [] }

/-- What a step of the counter brings about (R335, R336, R344, R549): event 0x33, the end of the dispatch tick, `TSTEP` on the first samples of the new grid, a time label at once, the
end of a sweep. -/
def stepped (s : State) : State :=
  let s1 := stepTicks { s with cell.tstep := 2, cell.tstepLim := 2, cell.tstepAux := 1, cell.tstepCur := 2 }
  umberLabel (endSweep 3 (raise 0x33 (timeDetail s1) s1))

/-- The counter steps back by an offset in 1/16 ns (R316, R327); at the anchor `EPOCH` counts it. The servo's integral term and estimate are kept, also where a slew was due with
the same offset (R346). -/
def stepBy (off : Int) (s : State) : State :=
  let s1 := setCounter (counterFine s - off * 6250000) s
  stepped (if s.sys.anchor then { s1 with time.epoch := (s.time.epoch + 1) % 256 } else s1)

/-- The integral term of the servo after an offset (R329). -/
def servoInteg (off : Int) (s : State) : Int := clampI (-300000) 300000 (s.time.integ - roundFree (Config.servoKi s.sys.anchor * off))

/-- A slew (R329): the proportional-integral servo's new correction, of the gains for 1 Hz at the anchor and 5 Hz elsewhere, within the slew limit of the last one and within
±300 ppm; the gains are not stated (log 61). -/
def slewBy (off : Int) (s : State) : State :=
  let i := servoInteg off s
  let f := clampI (s.time.freq - slewMax s) (s.time.freq + slewMax s) (i - roundFree (Config.servoKp s.sys.anchor * off))
  { s with time.integ := i, time.freq := clampI (-300000) 300000 f }

/-- The states entered lately: those of the last 10 ms and the one before them (R345, R353). -/
def keepStates (clk : Nat) : List (Nat × TimeState) → List (Nat × TimeState)
  | [] => []
  | x :: t => if x.1 + 10 * Config.ms ≤ clk then [x] else x :: keepStates clk t

/-- A new time state, with the events of R349; leaving `HOLDOVER` ends its limit. -/
def setTimeSt (st : TimeState) (s : State) : State :=
  if s.time.st = st then s
  else
    let s1 := { s with time.st := st, time.stHist := (s.clk, st) :: keepStates s.clk s.time.stHist, time.inLock := 0, time.outLock := 0, time.holdLimit := st == .holdover && s.time.holdLimit }
    let s2 := if s.sys.anchor then { s1 with time.anchorSt := st } else s1
    match st with
    | .locked => raise 0x30 (timeDetail s2) s2
    | .holdover => raise 0x32 (timeDetail s2) s2
    | .acquiring => if s.time.st = .locked then raise 0x31 (timeDetail s2) s2 else s2
    | _ => s2

/-- An offset judged against the lock limits, both in 1/16 ns (R320, R328): `n` in a row within the inner one lock, four in a row beyond the outer one
unlock. -/
def judgeOffset (inner outer : Int) (n : Nat) (off : Int) (s : State) : State :=
  let i := if |off| ≤ inner then s.time.inLock + 1 else 0
  let o := if outer < |off| then s.time.outLock + 1 else 0
  let s1 := { s with time.inLock := min n i, time.outLock := min 4 o }
  if s1.time.st = .acquiring ∧ n ≤ i then setTimeSt .locked s1
  else if s1.time.st = .locked ∧ 4 ≤ o then setTimeSt .acquiring s1
  else s1

/-- An offset corrected (R316, R327): a step or a slew; a member without a reference in use enters the state given first. -/
def correct (force : Bool) (enter : TimeState) (off : Int) (s : State) : State :=
  let s1 := noteOffset off (if enter = .free ∨ (s.time.st ≠ .locked ∧ s.time.st ≠ .acquiring) then setTimeSt enter s else s)
  if force || s.time.st == .unset || decide (stepThr s < |off|) then stepBy off s1 else slewBy off s1

/-- The hop of a port (R324). -/
def hopDelay (s : State) : Side → Hop
  | .north => s.time.hopN
  | .south => s.time.hopS

/-- The state with the hop of a port changed. -/
def setHop (sd : Side) (f : Hop → Hop) (s : State) : State :=
  match sd with
  | .north => { s with time.hopN := f s.time.hopN }
  | .south => { s with time.hopS := f s.time.hopS }

/-- A result of a hop is discarded (R324): the fourth in a row marks the hop as unusable for time. -/
def discardResult (sd : Side) (s : State) : State :=
  let h := hopDelay s sd
  let s1 := setHop sd (fun h => { h with bad := min 4 (h.bad + 1), t1 := none }) s
  if h.bad = 3 then raise 0x37 (timeDetail s1) (setHop sd (fun h => { h with unusable := true }) s1) else s1

/-- A valid result of a hop (R324): the delay is the median of the last 16. -/
def validResult (sd : Side) (d : Nat) (s : State) : State :=
  setHop sd (fun h =>
    let l := (d :: h.valid).take 16
    { h with valid := l, bad := 0, unusable := false, t1 := none,
             delay := (roundFree ((median (l.map fun x => (x : Rat))).getD 0)).toNat }) s

/-- What a beacon frame carries when the last bit of its start delimiter crosses the pins, 3 µs after the port starts (R321 to R325): a TIME beacon of the anchor that instant, its
state and `EPOCH`; a forwarded one its correction with the residence added; a DELAY_RESP its turnaround; the departure of a DELAY_REQ is noted. -/
def stampBeacon (sd : Side) (frac : Nat) (i : TxItem) (s : State) : Frame × State :=
  let f := i.frame
  let now := localFine s 300 frac
  let since : Nat := match i.came with | some t => (now - t).toNat | none => 0
  if f.kind ≠ 7 then (f, s)
  else if field f.body 0 1 = 1 then (f, setHop sd (fun h => { h with t1 := some now }) s)
  else if field f.body 0 1 = 2 then ({ f with body := slice f.body 0 3 ++ le 4 since }, s)
  else if i.transit then ({ f with body := slice f.body 0 11 ++ le 4 ((field f.body 11 4 + since) % 2 ^ 32) ++ slice f.body 15 5 }, s)
  else
    let t := capturedAt 300 frac s
    let ns := (t / 16).toNat
    ({ f with body := [0] ++ le 6 (ns / 1000000000) ++ le 4 (ns % 1000000000) ++ le 4 (t % 16).toNat ++ le 1 s.time.st.code ++ le 1 s.time.epoch ++ slice f.body 17 3 }, s)

end Sys2Proof.Machine
end

