-- ==== Sys2Proof/Machine/Chain.lean ====
section
/-! DEFINITION. The rows of the chain's ports: a frame that starts, one that arrives, collisions, credits, links, enumeration, acknowledgement and
retransmission (R107 to R139, R242 to R311). -/

namespace Sys2Proof.Machine

open Sys2Proof

/-! ## Transmission -/

/-- A queued frame may start by its port's state and its credit (R111, R139, R272). -/
def txReady (p : ChPort) (i : TxItem) : Bool :=
  if 5 < i.frame.cls then portUp p
  else
    (portUp p || (i.frame.cls == 0 && p.st != .linkDead)) &&
      decide ((if i.transit then i.frame.blk else i.frame.blk + classLimit i.frame.cls) ≤ avail p i.frame.cls)

/-- The frame of a class that goes first (R107, R111): transit before the member's own, which are a port's two input queues (log 152); within each the oldest. -/
def classPick (p : ChPort) (c : Nat) : Option Nat :=
  let first (transit : Bool) : Option Nat :=
    match p.txq.findIdx? fun i => i.frame.cls == c && i.transit == transit with
    | some i => if (match p.txq[i]? with | some x => txReady p x | none => false) then some i else none
    | none => none
  (first true).orElse fun _ => first false

/-- What a port sends next (R107, R136, R250): the index of a queued frame or of a link frame, with the new count of picks that passed over BULK. -/
def pick (turn : Nat) (p : ChPort) : Option (Sum Nat Nat × Nat) :=
  let ranked1 : Option Nat :=
    match classPick p 1, classPick p 7 with
    | some i, some j => some (min i j)
    | some i, none => some i
    | none, o => o
  let link := p.linkq.findIdx? fun f => portUp p || f.kind == 1
  let bulk := classPick p 5
  let low := ((classPick p 2).orElse fun _ => classPick p 3).orElse fun _ => classPick p 4
  match classPick p 0, ranked1, link, low, bulk with
  | some i, _, _, _, _ => some (.inl i, p.passed)
  | none, some i, _, _, _ => some (.inl i, p.passed)
  | none, none, some i, _, _ => some (.inr i, p.passed)
  | none, none, none, some i, some b => if turn ≠ 0 ∧ turn ≤ p.passed then some (.inl b, 0) else some (.inl i, p.passed + 1)
  | none, none, none, some i, none => some (.inl i, 0)
  | none, none, none, none, some b => some (.inl b, 0)
  | none, none, none, none, none => none

/-- A frame starts on the line (R243, R244, R253, R323): it carries the port's own `CRED` and `RXBAD` under a new CRC, and its blocks are in use at the peer. -/
def startFrame (sd : Side) (frac : Nat) (i : TxItem) (s : State) : State :=
  let r := stampBeacon sd frac i s
  let g : Frame := { r.1 with cred := (port s sd).freed, rxbad := (port s sd).rxBad }
  let c := i.frame.cls
  setPort sd (fun p => { lineEnds true (s.clk + lineTime (frameLen g)) p with
    line := some { i with frame := g }, wire := frameBytes g, aborted := false,
    sent := if c ≤ 5 then addBlk p.sent c i.frame.blk else p.sent, outst := if c ≤ 5 then p.outst ++ [(c, i.frame.blk)] else p.outst }) r.2

/-- FRAME_TRANSMIT (R107, R111, R243, R248 to R250): the frame that the port picks starts, where a slot open to its class begins; `frac` is the place of its start-delimiter
instant within the counter's step. -/
def execFrameTransmit (sd : Side) (frac : Nat) (s0 : State) : Out :=
  if !chainOn s0 then .next s0
  else
    let s := linesDone s0
    let p := port s sd
    match pick (rf s.regs.fabCfg 3 0) p with
    | none => .next s
    | some (.inl i, n) =>
      match p.txq[i]? with
      | none => .next s
      | some x =>
        if mayStart p s.clk x.frame.cls then .next (startFrame sd frac x (setPort sd (fun p => { p with txq := p.txq.eraseIdx i, passed := n }) s))
        else .next s
    | some (.inr i, n) =>
      match p.linkq[i]? with
      | none => .next s
      | some f =>
        if mayStart p s.clk f.cls then
          .next (startFrame sd frac { frame := f, transit := false, holds := none, came := none } (setPort sd (fun p => { p with linkq := p.linkq.eraseIdx i, passed := n }) s))
        else .next s

/-- A frame cut short by a collision waits again at the head of its queue, with what it held and its blocks not sent (R242, log 35); a link frame finds no room in a full
buffer (R308). -/
def sendBack (sd : Side) (i : TxItem) (s : State) : State :=
  let c := i.frame.cls
  if c = 6 then
    if (port s sd).linkq.length < 4 then setPort sd (fun p => { p with linkq := i.frame :: p.linkq }) s
    else raise 0x2F (portDetail s sd 0) { s with chain.linkDrop := satAdd 255 s.chain.linkDrop 1 }
  else
    setPort sd (fun p => { p with txq := i :: p.txq, sent := if c ≤ 5 then addBlk p.sent c (256 - i.frame.blk) else p.sent,
                                  outst := if c ≤ 5 then p.outst.dropLast else p.outst }) s

/-- COLLISION (R242, R249, R292): during its own transmission the port ends its output with AB, a send error is counted, and the slots count as if the north-port end had
received. -/
def execCollision (sd : Side) (s : State) : Out :=
  let p := port s sd
  if !chainOn s ∨ lineIdle p s.clk ∨ !p.sentLast then .next s
  else
    let s1 := setPort sd (fun p => { lineEnds (sd == .south) s.clk p with tec := satAdd 255 p.tec 8, line := none, aborted := true }) s
    .next (judgePort sd (match p.line with | some i => sendBack sd i s1 | none => s1))

/-- TRANSIT_FRAME (R251 to R255): a frame not addressed to this member alone. -/
def execTransitFrame (sd : Side) (f : Frame) (lq : LineQ) (s : State) : Out := .next (receive sd f lq s)

/-- HOP_TIMEOUT (R249): no carrier for 2 ms; the end may start at any time. -/
def execHopTimeout (sd : Side) (s : State) : Out :=
  if chainOn s && lineIdle (port s sd) s.clk then .next (setPort sd (fun p => { p with anyTime := true }) s) else .next s

/-! ## Credits and links -/

/-- CREDIT_FRAME (R110, R135): the cumulative counts of the header update the credit. -/
def execCreditFrame (sd : Side) (f : Frame) (lq : LineQ) (s : State) : Out := .next (receive sd f lq s)

/-- CREDIT_FRAME_SEND (R110): a credit frame for the neighbour. -/
def execCreditFrameSend (sd : Side) (s : State) : Out :=
  if chainOn s && portUp (port s sd) then .next (enqueueLink sd (mkFrame s 6 0xFC 0x0 0 false false []) s) else .next s

/-- LINK_UP (R109, R273): the peer's figures are taken, and the exchange completes or is answered. -/
def execLinkUp (sd : Side) (f : Frame) (lq : LineQ) (s : State) : Out := .next (receive sd f lq s)

/-- LINK_UP_RESEND (R272, R273): a dead port, or one off for 1 s and not latched, sends `LINK_UP` again. -/
def execLinkUpResend (sd : Side) (s : State) : Out :=
  let p := port s sd
  let off := p.st == .portOff && (match p.offTimes with | t :: _ => decide (t + Config.sec ≤ s.clk) | [] => true)
  if chainOn s && (p.st == .linkDead || off) then .next (sendLinkUp sd s) else .next s

/-- LINK_DEAD (R272, R275, R138): no valid frame for 3 ms on a port that was up. -/
def execLinkDead (sd : Side) (s : State) : Out :=
  if chainOn s && portUp (port s sd) then
    let s1 := setPort sd (fun p => { p with st := .linkDead }) s
    .next (loseHop sd true (raise (0x21 + sideCode sd) (portDetail s1 sd 0) s1))
  else .next s

/-- BREAK_HEALED (R275): a port has been up for 100 ms after a dead or off state; the hop is healed, and `BREAK` leaves by both ports. -/
def execBreakHealed (sd : Side) (s : State) : Out :=
  let p := port s sd
  if chainOn s && portUp p && p.healDue.isSome then
    let s1 := setPort sd (fun p => { p with healDue := none }) s
    if s.chain.addr && s.chain.n != 0 then
      let h := hopOf s sd
      .next (judgeSingle (sendBreak .south h true (sendBreak .north h true (noteHop h false s1))))
    else .next s1
  else .next s

/-- BREAK (R275): a `BREAK` frame updates the set of dead hops and goes on. -/
def execBreakFrame (sd : Side) (f : Frame) (lq : LineQ) (s : State) : Out := .next (receive sd f lq s)

/-- A port whose counters are cleared: it leaves `PORT_OFF` or `OFF_LATCHED`, and then exchanges new figures with its peer (R138, R310). -/
def clrPort (sd : Side) (s : State) : State :=
  let off := (port s sd).st == .portOff || (port s sd).st == .offLatched
  let s1 := setPort sd (fun p => { p with tec := 0, recErr := 0, exchanges := 0, st := if p.st == .linkDead then .linkDead else .active,
                                          healDue := if off then some s.clk else p.healDue }) s
  if off then sendLinkUp sd s1 else s1

/-- PORT_CLR (R310): the ports named are cleared. -/
def execPortClr (north south : Bool) (s : State) : Out :=
  let s1 := if north then clrPort .north s else s
  .next (if south then clrPort .south s1 else s1)

/-- OFF_CNT_EXPIRY (R306): the oldest entry to `PORT_OFF` leaves the hour. -/
def execOffCntExpiry (sd : Side) (s : State) : Out :=
  .next (setPort sd (fun p => { p with offTimes := p.offTimes.dropLast }) s)

/-! ## Enumeration -/

/-- ENUM (R266, R830, R904): on the south port the member takes its position and passes `ENUM` on. -/
def execEnumFrame (sd : Side) (f : Frame) (lq : LineQ) (s : State) : Out := .next (receive sd f lq s)

/-- ENUM_TOP_TIMEOUT (R267): no link north within 2 ms; this member is the top of an open ring. -/
def execEnumTopTimeout (s : State) : Out :=
  if s.chain.enumWaitTop then
    let s1 := { s with chain.enumWaitTop := false }
    if s.sys.anchor then (if s.chain.enumBusy then .next (enumFinish 1 1 s1) else .next s1)
    else .next (sendEnumEnd (s.chain.pos + 1) 1 s1)
  else .next s

/-- ENUM_END (R267, R296, R297): at the anchor the enumeration goes on with the ring open. -/
def execEnumEnd (sd : Side) (f : Frame) (lq : LineQ) (s : State) : Out := .next (receive sd f lq s)

/-- ENUM_RETRY (R906): no answer within 60 ms; another attempt, at most 3 in all, or the end without members. -/
def execEnumRetry (s : State) : Out :=
  if !s.chain.enumBusy then .next s
  else if s.chain.enumTries < 3 then .next (enumAttempt { s with chain.enumTries := s.chain.enumTries + 1 })
  else
    let s1 := { s with chain.enumBusy := false, chain.enumWaitTop := false, chain.n := 0, chain.ring := .notEnumerated, chain.enumBy := none }
    let s2 := if s.chain.ring == .notEnumerated then s1 else raise 0x27 (ringDetail s1 0) s1
    let s3 := raise 0x28 (ringDetail s2 0) s2
    match s.chain.enumBy with
    | some (h, q) => .next (completeQueued h q (le 1 0) s3)
    | none => .next s3

/-- ENUM_DONE (R266): N and the ring state are recorded. -/
def execEnumDone (sd : Side) (f : Frame) (lq : LineQ) (s : State) : Out := .next (receive sd f lq s)

/-! ## Acknowledgement and retransmission -/

/-- ACK (R260 to R262): entries release frames of a stream or call for a round. -/
def execAck (sd : Side) (f : Frame) (lq : LineQ) (s : State) : Out := .next (receive sd f lq s)

/-- ACK_TIMER (R260): 200 µs after an accepted frame the ACK of its stream leaves. -/
def execAckTimer (orig : Nat) (multi : Bool) (cls : Nat) (twin : Bool) (s : State) : Out :=
  match rxGet orig multi cls twin s with
  | some r => if r.unackedRx = 0 then .next s else .next (sendStreamAck r s)
  | none => .next s

/-- NAK_REPEAT (R258): while a gap lasts the NAK is repeated. -/
def execNakRepeat (orig : Nat) (multi : Bool) (cls : Nat) (twin : Bool) (s : State) : Out :=
  match rxGet orig multi cls twin s with
  | some r =>
    if r.gap then
      .next (sendAck r.orig (ackEntry r.cls true r.multi r.twin r.next) (rxPut { r with lastNak := some s.clk } s))
    else .next s
  | none => .next s

/-- RETRANSMIT (R261, R262): `RTX` has passed on a stream; multi frames whose copy came back are acknowledged, and where nothing was, a round follows. -/
def execRetransmit (dest : Nat) (multi : Bool) (cls : Nat) (twin : Bool) (s : State) : Out :=
  if s.chain.tx.any (txIs dest multi cls twin) then
    let t := txGet s dest multi cls twin
    if multi && (t.unacked.take t.sent).any (fun f => t.back.contains f.seq) then
      .next (releaseFrames dest multi cls twin (fun f => t.back.contains f.seq) s)
    else if t.sent = 0 then .next (pump 8 dest multi cls twin s)
    else .next (resendRound t s)
  else .next s

/-- VOID_FRAME (R262): the counter is filled and nothing delivered. -/
def execVoidFrame (sd : Side) (f : Frame) (lq : LineQ) (s : State) : Out := .next (receive sd f lq s)

/-- `CHAIN_CFG.RTX` in ms, where a value below 2 acts as 2 (R304). -/
def rtxMs (s : State) : Nat := max 2 (rf s.regs.chainCfg 15 8)

/-- When a held frame was last sent on a port. -/
def lastSent (sd : Side) (h : Held) : Option Nat := match sd with | .north => h.lastN | .south => h.lastS

/-- A held frame is due on a port (R263): every `RTX` until a copy has returned, every 1 s from then on. -/
def heldDue (s : State) (sd : Side) (h : Held) : Bool :=
  match lastSent sd h with
  | none => true
  | some t => decide (t + (if h.returned then Config.sec else rtxMs s * Config.ms) ≤ s.clk)

/-- A held ALARM frame goes out of a port again, as a duplicate under the member's present position (R263, R308). -/
def resendHeld (sd : Side) (h : Held) (s : State) : State :=
  let s1 := { s with evt.hold := s.evt.hold.map fun x =>
    if x = h then (match sd with | .north => { x with lastN := some s.clk } | .south => { x with lastS := some s.clk }) else x }
  if (port s sd).txq.any fun i => !i.transit && i.frame.cls == 0 && i.frame.seq == h.frame.seq then s1
  else enqueue sd { h.frame with rexmit := true, orig := s.chain.pos } { s1 with chain.rtxCnt := satAdd 255 s.chain.rtxCnt 1 }

/-- ALARM_RESEND (R139, R263, R274): every held frame that is due goes again on a port that is up, and one in turn every 1 ms on a port that is off. -/
def execAlarmResend (sd : Side) (s : State) : Out :=
  let p := port s sd
  let q := s.evt.hold
  if !chainOn s ∨ p.st = .linkDead ∨ !s.chain.addr then .next s
  else if portUp p then .next ((q.filter (heldDue s sd)).foldl (fun s h => resendHeld sd h s) s)
  else if (match p.offTurnAt with | some t => decide (s.clk < t + Config.ms) | none => false) then .next s
  else
    let i := if p.turn < q.length then p.turn else 0
    match q[i]? with
    | some h => .next (resendHeld sd h (setPort sd (fun p => { p with turn := i + 1, offTurnAt := some s.clk }) s))
    | none => .next s

end Sys2Proof.Machine
end

