-- ==== Sys2Proof/Machine/Chain2.lean ====
section
/-! DEFINITION. The rows of the chain's frames that carry commands, replies, events, safety data and items, and the heartbeat input (R156, R160, R282 to
R286, R662, R722, R802, R803). -/

namespace Sys2Proof.Machine

open Sys2Proof

/-- COMMAND_FRAME (R156, R160): the command is queued for execution at this member where it is addressed here. -/
def execCommandFrame (sd : Side) (f : Frame) (lq : LineQ) (s : State) : Out := .next (receive sd f lq s)

/-- RESPONSE_FRAME (R123, R160): a reply or a report reaches the entry port. -/
def execResponseFrame (sd : Side) (f : Frame) (lq : LineQ) (s : State) : Out := .next (receive sd f lq s)

/-- EVENT_FRAME (R116, R803): the entries are placed into the stores of the bound hosts. -/
def execEventFrame (sd : Side) (f : Frame) (lq : LineQ) (s : State) : Out := .next (receive sd f lq s)

/-- The entries of one frame (R802): up to 32, and none behind an entry of severity 2 or 3. -/
def frameEntries (q : List Entry) : List Entry := (q.take ((q.findIdx fun e => 2 ≤ e.sev) + 1)).take 32

/-- EVENT_FRAME_SEND (R802): the entries that wait for a member leave in one frame of class 3. -/
def execEventFrameSend (dest : Nat) (s : State) : Out :=
  let q := (s.evt.outq.lookup dest).getD []
  if q = [] ∨ !s.chain.addr then .next s
  else
    let es := frameEntries q
    let body := (es.map entryBytes).flatten
    let s1 := { s with evt.outq := (dest, q.drop es.length) :: s.evt.outq.filter (fun x => x.1 != dest) }
    if returnsAtOnce s1 dest then .next s1
    else .next (sendStream false (mkFrame s1 3 dest 0xA body.length false false body) s1)

/-- SAFETY_FRAME (R662): a copy reaches Vermilion and is paired with its twin. -/
def execSafetyFrame (sd : Side) (f : Frame) (lq : LineQ) (s : State) : Out := .next (receive sd f lq s)

/-- TWIN_WINDOW (R662): 2 ms after the first copy no second one has come; with the ring no longer closed the copy counts as single-path (R265). -/
def execTwinWindow (peer : Fin 24) (s : State) : Out :=
  let j := peer.val
  if s.chain.ring == .closed then .next (twinMissed j s)
  else
    match (nth s.verm.peers j {}).firsts with
    | [] => .next s
    | (_, d) :: t =>
      let s1 := updPeer j (fun p => { p with firsts := t }) { s with verm.single := satAdd 255 s.verm.single 1 }
      .next (applyAll j true d (classB 5 true s1))

/-- METRO (R722): an energy record is delivered to its host's port. -/
def execMetro (sd : Side) (f : Frame) (lq : LineQ) (s : State) : Out := .next (receive sd f lq s)

/-- DATA_FRAME (R378): a frame of a stream is delivered to its host. -/
def execDataFrame (sd : Side) (f : Frame) (lq : LineQ) (s : State) : Out := .next (receive sd f lq s)

/-! ## The heartbeat input -/

/-- The distinct words received twice within the last 128 complete words, in the order of their first receipt (R283, R284). -/
def decodedWords (l : List (Option (Nat × Nat))) : List (Nat × Nat) := ((l.filterMap id).reverse.filter fun w => 2 ≤ l.count (some w)).eraseDups

/-- The word that 16 periods spell, newest first (R282): position, code, and whether the parity is even; none where they are no complete word. -/
def wordOf (l : List Nat) : Option (Nat × Nat × Bool) :=
  let o := l.reverse
  let data := (o.drop 4).take 11
  if o.length = 16 ∧ o.take 4 = [3, 3, 3, 3] ∧ o.drop 15 = [1] ∧ data.all (· != 2) then
    let v := ((data.zipIdx.map fun x => if x.1 = 3 then 2 ^ x.2 else 0)).foldl (· + ·) 0
    some (bits v 5 0, bits v 9 6, (data.filter (· == 3)).length % 2 == 0)
  else none

/-- `HB_IN` is decided (R283, R286, R288, R311): a new WORD or LOST raises event 0x2B, a new STOP event 0x2C; Vermilion follows (R653, R667, R800). -/
def hbDecide (st : HbIn) (s : State) : State :=
  let fresh := !s.chain.hbDecided || s.chain.hbIn != st
  let s1 := { s with chain.hbIn := st, chain.hbDecided := true }
  let d := det 0 (s.chain.hbWordPos + 256 * s.chain.hbWordCode : Nat) st.code 0
  let s2 := if !fresh then s1
    else match st with
      | .run => s1
      | .stop => raise 0x2C d s1
      | .word => raise 0x2B d s1
      | .lost => raise 0x2B d s1
  if vermRuns s2 then
    enforceStop (classB 8 (st == .lost) { s2 with verm.hbStop := st == .stop, verm.hbLost := st == .lost })
  else s2

/-- A complete word joins the last 128; received twice among them it is decoded (R283); one with wrong parity is only counted. `WORD_POS` and `WORD_CODE` show the last word
decoded (log 153). -/
def hbWord (p c : Nat) (parity : Bool) (s : State) : State :=
  let w := (p % 64, c % 16)
  let l := ((if parity then some w else none) :: s.chain.hbWords).take 128
  let s1 := { s with chain.hbWords := l, chain.hbPass := decodedWords l }
  if parity ∧ 2 ≤ l.count (some w) then hbDecide .word { s1 with chain.hbWordPos := w.1, chain.hbWordCode := w.2 } else s1

/-- One complete period of `HB_IN` (R282, R283, R896): two in a row of 50 % are RUN, and sixteen may be a word. -/
def hbPeriod (highNs lengthNs : Nat) (s : State) : State :=
  let l := (dutyClass highNs lengthNs :: s.chain.hbDuty).take 16
  let s1 := { s with chain.hbDuty := l }
  if l.take 2 = [2, 2] then hbDecide .run s1
  else
    match wordOf l with
    | some (p, c, ok) => hbWord p c ok { s1 with chain.hbDuty := [] }
    | none => s1

/-- HB_IN_DECODE (R283, R288, R896): one period measured, or what the decoder has just seen complete; with `HB_EN` clear the pin is not evaluated. -/
def execHbInDecode (pat : HbPat) (s : State) : Out :=
  if rf s.regs.chainCfg 1 1 = 0 ∨ !chainOn s then .next s
  else
    match pat with
    | .run => .next (hbDecide .run s)
    | .period h l => .next (hbPeriod h l s)
    | .stop => .next (hbDecide .stop { s with chain.hbDuty := [] })
    | .lost => .next (hbDecide .lost { s with chain.hbDuty := [] })
    | .word p c parity => .next (hbWord p c parity s)

end Sys2Proof.Machine
end

