-- ==== Sys2Proof/Machine/Check.lean ====
section
/-! DEFINITION. The firmware jobs of the four check-value units: start, data, end, compare, suspension, context, and the resynchronisation of alive
channels (R205 to R240). -/

namespace Sys2Proof.Machine

open Sys2Proof

/-- A unit by its number. -/
def chkU (s : State) (n : Nat) : ChkU := nth s.chk.units n {}

/-- A unit changed. -/
def updChk (n : Nat) (f : ChkU → ChkU) (s : State) : State := { s with chk.units := upd s.chk.units n f }

/-- The initial value of unit n (R205). -/
def chkInit (n : Nat) : Word := if n < 2 then 0xFFFFFFFF else if n = 2 then 0xFFFF else 0xFF

/-- One byte into the running register of unit n (R205). The register of a reflected algorithm stands before the final reflection (R215), so that
the reflected form of `crc32cByte` is taken around it (log 34). -/
def chkByte (n : Nat) (r : Word) (b : Byte) : Word :=
  if n < 2 then (crc32cByte r.reverse b).reverse
  else if n = 2 then (crc16Byte (r.setWidth 16) b).setWidth 32
  else (crc8Byte (r.setWidth 8) b).setWidth 32

/-- The final reflection and XOR of unit n (R205, R211). -/
def chkFinal (n : Nat) (r : Word) : Word :=
  if n < 2 then r.reverse ^^^ 0xFFFFFFFF else if n = 2 then r else r ^^^ 0xFF

/-- The value unit n has for bytes, from its initial value (R205). -/
def chkValue (n : Nat) (l : List Byte) : Word := chkFinal n (l.foldl (chkByte n) (chkInit n))

/-- The context words of a job (R215). -/
def chkCtx1 (n : Nat) (u : ChkU) : Word :=
  let w := u.count % 65536 + 65536 * n + 262144 * b2n u.jobMode
  let bytes := le 4 u.run.toNat ++ le 3 w
  BitVec.ofNat 32 (w + 2 ^ 24 * (bytes.foldl (· ^^^ ·) (0xA5 : Byte)).toNat)

/-- The mismatch event of unit n (R214). -/
def misEvent (n : Nat) : Nat := 0x38 + n

/-- A compare-mode job is decided once its input has ended and an expected value is written (R211, R212): a job marked `TAINT` ends as a mismatch
(R216). -/
def decideChk (n : Nat) (s : State) : State :=
  let u := chkU s n
  if u.busy && u.ended && u.jobMode && u.armed then
    let ok := !u.taint && u.val == u.expv
    let s1 := updChk n (fun u => { u with busy := false, ended := false, armed := false, taint := false }) (compareDone n ok false s)
    if !ok && u.evtEn then raise (misEvent n) (chkDetail n u.val.toNat s1) s1 else s1
  else s

/-- The end of a job's input (R211): the unit presents the value; a read-out job is over. -/
def endChk (n : Nat) (s : State) : State :=
  let u := chkU s n
  if u.busy && !u.ended then
    let s1 := updChk n (fun u => { u with ended := true, val := chkFinal n u.run }) s
    if u.jobMode then decideChk n s1
    else updChk n (fun u => { u with busy := false, ended := false, taint := false }) s1
  else decideChk n s

/-- START (R237, R217): a firmware job starts from the initial value in the mode of `CFG.MODE`; a suspended context is discarded. An expected value written
before stays armed (log 13). -/
def execStart (n : Fin 4) (s : State) : Out :=
  .next (updChk n.val (fun u => { u with owner := false, busy := true, susp := false, ended := false, taint := false, run := chkInit n.val, count := 0, jobMode := u.mode }) s)

/-- CHK_END (R211): a write of `END` ends the input of the running firmware job. -/
def execChkEnd (n : Fin 4) (s : State) : Out := .next (endChk n.val s)

/-- CHK_JOB_END (R211, R212): the job has reached the end of its input; it is decided once an expected value is there too. -/
def execChkJobEnd (n : Fin 4) (s : State) : Out := .next (endChk n.val s)

/-- ABORT (R236): the job is abandoned with no outcome; the unit returns to its initial value. An expected value stays armed (log 156), a suspended job is abandoned too (log 157), and
`VAL` keeps the last job's value (log 158). -/
def execAbort (n : Fin 4) (s : State) : Out :=
  .next (updChk n.val (fun u => { u with busy := false, susp := false, ended := false, taint := false, run := chkInit n.val, count := 0 }) s)

/-- SUSPEND (R217): the running firmware job is suspended; without one the write has no effect. -/
def execSuspend (n : Fin 4) (s : State) : Out :=
  .next (updChk n.val (fun u => if u.busy then { u with busy := false, susp := true } else u) s)

/-- RESUME (R217): the suspended job continues; without one the write has no effect. A job whose input had ended is decided now where its expected value was written meanwhile
(R212). -/
def execResume (n : Fin 4) (s : State) : Out :=
  .next (decideChk n.val (updChk n.val (fun u => if u.susp then { u with owner := false, busy := true, susp := false } else u) s))

/-- DATA (R208, R237): the next bytes of the running job enter, least significant first; `NB` says how many, 0 meaning 4. -/
def execData (n : Fin 4) (w : Word) (s : State) : Out :=
  .next (updChk n.val (fun u =>
    if u.busy && !u.ended then
      let k := if u.nb = 0 then 4 else u.nb
      { u with run := ((le 4 w.toNat).take k).foldl (chkByte n.val) u.run, count := (u.count + k) % 65536 }
    else u) s)

/-- EXP (R212, R237): the expected value is written, which arms the comparison, and decides a job whose input has ended. -/
def execExp (n : Fin 4) (w : Word) (s : State) : Out :=
  .next (decideChk n.val (updChk n.val (fun u => { u with expv := w, armed := true }) s))

/-- A write of `CTX0` (R216, R218): ignored while a job runs unsuspended. -/
def writeCtx0 (n : Nat) (w : Word) (s : State) : State :=
  if (chkU s n).busy then updChk n (fun u => { u with ctxErr := true }) (noteOcc (chkStatAt n) 16 s)
  else updChk n (fun u => { u with ctx0 := w }) s

/-- The register bits of unit n (R215). -/
def chkMask (n : Nat) : Word := if n < 2 then 0xFFFFFFFF else if n = 2 then 0xFFFF else 0xFF

/-- CONTEXT_RESTORE (R216 to R218): a write of `CTX1` restores the context; a wrong guard or unit number rejects it, and the job goes on from the initial
value, tainted; while a job runs unsuspended the write is ignored. -/
def execContextRestore (n : Fin 4) (ctx1 : Word) (s : State) : Out :=
  let u := chkU s n.val
  if u.busy then .next (updChk n.val (fun u => { u with ctxErr := true }) (noteOcc (chkStatAt n.val) 16 s))
  else
    let bytes := le 4 u.ctx0.toNat ++ le 3 ctx1.toNat
    let ok := (bytes.foldl (· ^^^ ·) (0xA5 : Byte)).toNat == rf ctx1 31 24 && rf ctx1 17 16 == n.val
    let s1 := updChk n.val (fun u => { u with ctx1 := ctx1, owner := false, busy := true, susp := false, ended := false, jobMode := rf ctx1 18 18 == 1, taint := !ok,
                                              run := if ok then u.ctx0 &&& chkMask n.val else chkInit n.val,
                                              count := if ok then rf ctx1 15 0 else 0, ctxErr := u.ctxErr || !ok }) s
    .next (if ok then s1 else raise 0x3E (chkDetail n.val u.ctx0.toNat s1) (noteOcc (chkStatAt n.val) 16 s1))

/-- CHK_ALV_RESYNC (R235, R240): `INIT` is set on the alive channels named. -/
def execChkAlvResync (mask : Word) (s : State) : Out :=
  .next { s with chk.alv := s.chk.alv.mapIdx fun k c => if mask.getLsbD k then { c with init := true } else c }

/-- A unit fails its known-answer test (R224, R225): `FAILED`, event 0x3F, and for `CHK_3` a class A fault. -/
def chkFail (n : Nat) (s : State) : State :=
  let s1 := updChk n (fun u => { u with failed := true }) s
  let s2 := raise 0x3F (chkDetail n 0 s1) s1
  if n = 3 then classA 4 s2 else s2

/-- The known-answer test of every unit (R224): one result per unit. -/
def knownAnswer (ok : List Bool) (s : State) : State :=
  (List.range 4).foldl (fun s n => if nth ok n true then s else chkFail n s) s

end Sys2Proof.Machine
end

