-- ==== Sys2Proof/Machine/Log.lean ====
section
/-! DEFINITION. Lampblack: where a record goes, how it is written and verified, the failure of its memory, cursors and reading, the freeze
(R750 to R795). -/

namespace Sys2Proof.Machine

open Sys2Proof

/-- The record in a slot, if there is one; slots 4096 and up are the last-words bank (R750). -/
def logSlot (s : State) (i : Nat) : Option Rec := if i < 4096 then s.log.slots.lookup i else s.log.lw[i - 4096]?

/-- A record stored in a slot; the list stays in rising slot order. -/
def putSlot (i : Nat) (r : Rec) : List (Nat × Rec) → List (Nat × Rec)
  | [] => [(i, r)]
  | (k, v) :: t => if i < k then (i, r) :: (k, v) :: t else if i = k then (i, r) :: t else (k, v) :: putSlot i r t

/-- The severity of a record, bits [1:0] of byte 11 (R753). -/
def recSev (r : Rec) : Nat := r.sevFlags.toNat % 4

/-- The next pinned slot in ascending order, retired slots skipped; none once slot 255 has been written or retired (R762). -/
def nextPinned (s : State) : Option Nat :=
  let used := (s.log.slots.map (·.1) ++ s.log.retired).filter (· < 256)
  let i := match used.max? with | some m => m + 1 | none => 0
  if i < 256 then some i else none

/-- The circulating slot a record of a severity goes to (R763): the lowest empty or damaged one that is not retired, else that of the oldest record whose
severity is equal or lower. -/
def nextCirc (sev : Nat) (s : State) : Option Nat :=
  let free (i : Nat) : Bool := !s.log.retired.contains i && (match s.log.slots.lookup i with | some r => !r.crcOk | none => true)
  match ((List.range 3840).map (· + 256)).find? free with
  | some i => some i
  | none =>
    let c := s.log.slots.filter fun x => 256 ≤ x.1 && x.2.crcOk && recSev x.2 ≤ sev
    match (c.map (·.2.seq)).min? with
    | some q => (c.find? (fun x => x.2.seq == q)).map (·.1)
    | none => none

/-- The slot R762 or R763 chooses. -/
def chooseSlot (sev : Nat) (s : State) : Option Nat :=
  match nextPinned s with
  | some i => some i
  | none => nextCirc sev s

/-- A record is dropped (R758, R763, R764, R777): the next one written carries `GAP`, and event 0x98 comes on the first drop after a written record (R795). -/
def dropRecord (s : State) : State :=
  let s1 := { s with log.gap := true, log.dropMarked := true }
  if s.log.dropMarked then s1 else raise 0x98 (logDetail 0 s1) s1

/-- A dropped record that counts in `LOG_LOSS.DROP`. -/
def dropCounted (s : State) : State := dropRecord { s with log.drop := satAdd 65535 s.log.drop 1 }

/-- The record an entry becomes when it is written now (R752, R753, R756). -/
def recordOf (e : LogIn) (lw : Bool) (s : State) : Rec :=
  { seq := s.log.next, opmin := s.log.opmin, cyc := s.log.pwrCyc, evid := e.evid,
    sevFlags := BitVec.ofNat 8 (e.sev % 4 + 4 * b2n s.log.gap + 8 * b2n e.held + 16 * b2n e.alarm + 32 * b2n lw),
    payload := e.payload, rep := 0, shadowOk := true, crcOk := true }

/-- The valid mark of a slot (R752). -/
def validMark : Nat := 0x5A3C

/-- A record that is written: it is numbered, the gap is closed, its slot is damaged no longer, and it becomes its source's repeat candidate (R756, R760, R764, R780,
R792). -/
def noteWritten (slot : Nat) (e : LogIn) (r : Rec) (s : State) : State :=
  let c : RepCand := { evid := e.evid, payload := e.payload, slot := slot, seq := r.seq, atClk := s.clk, pending := e.rep, shadowAt := none }
  { s with log.next := s.log.next + 1, log.gap := false, log.dropMarked := false, log.damaged := s.log.damaged.filter (· != slot),
           log.cands := (e.evid, c) :: s.log.cands.filter (fun x => x.1 != e.evid) }

/-- A record into the next unwritten last-words slot, carrying `LW` (R777, R778): event 0x9D; a full bank, or a programming attempt that fails its
readback, sets `LW_FULL` or `LW_FAIL` and raises 0x9E. -/
def lastWords (e : LogIn) (ok : Bool) (s : State) : State :=
  if s.log.lwFull ∨ s.log.lwFail ∨ 16 ≤ s.log.lw.length then dropCounted s
  else
    let r := recordOf e true s
    let s1 := compareJob 2 ok true (4096 + s.log.lw.length) { s with log.lw := s.log.lw ++ [{ r with crcOk := ok }] }
    if !ok then raise 0x9E (logDetail (4096 + s.log.lw.length) s1) { s1 with log.lwFail := true, log.gap := true }
    else
      let s2 := raise 0x9D (logDetail (4096 + s.log.lw.length) s1) (noteWritten (4096 + s.log.lw.length) e r s1)
      if s2.log.lw.length = 16 then raise 0x9E (logDetail 4111 s2) { s2 with log.lwFull := true } else s2

/-- The entry of event 0x9C as Lampblack takes it in (R776). -/
def deadEntry (s : State) : LogIn := { evid := 0x9C, sev := 3, payload := logDetail 0 s, rep := 0, alarm := false, held := false }

/-- `LOG_DEAD` latches (R775, R776, R791): the record at hand goes to the last-words bank, followed by the record of event 0x9C; a freeze ends, its entries of severity
3 go to the bank and the others are dropped; Vermilion takes class B cause `LOG_DEAD`. -/
def latchDead (cause : Nat) (e : Option LogIn) (s : State) : State :=
  if s.log.dead then s
  else
    let s1 := { s with log.dead := true, log.deadCause := cause }
    let s2 := match e with | some e => lastWords e true s1 | none => s1
    let d := deadEntry s2
    let s3 := lastWords d true s2
    let held := s3.log.holdq
    let s4 := settle (endFreeze false ({ s3 with log.holdq := [] }, []))
    let s5 := held.foldl (fun s h => if h.sev = 3 then lastWords h true s else dropCounted s) s4
    let n := s5.log.queue.length
    let s6 := raise 0x9C d.payload s5
    classB 10 true { s6 with log.queue := s6.log.queue.take n }

/-- An attempt to write a slot, read back and judged on `CHK_2` (R774): a failure counts. -/
def judgeWrite (slot : Nat) (v : Bool) (s : State) : State :=
  compareJob 2 v true slot (if v then s else { s with log.wfail := satAdd 255 s.log.wfail 1 })

/-- The second failure of a slot retires it (R774). -/
def retireSlot (slot : Nat) (s : State) : State :=
  let s3 := { s with log.slots := s.log.slots.filter (fun x => x.1 != slot), log.retired := s.log.retired ++ [slot] }
  raise 0x9B (logDetail slot s3) s3

/-- The attempts to write a record (R754, R774, R775): each slot is tried twice, a second failure retires it; the third slot that fails, or the 64th retired,
latches `LOG_DEAD`. `verify` holds the readback of each attempt in order. -/
def writeTo : Nat → LogIn → List Bool → State → State
  | 0, e, _, s => latchDead 1 (some e) s
  | n + 1, e, verify, s =>
    match chooseSlot e.sev s with
    | none => dropCounted s
    | some slot =>
      let v1 := verify.getD 0 true
      let v2 := verify.getD 1 true
      let r := recordOf e false s
      let s1 := judgeWrite slot v1 s
      if v1 then noteWritten slot e r { s1 with log.slots := putSlot slot r s1.log.slots }
      else
        let s2 := judgeWrite slot v2 s1
        if v2 then noteWritten slot e r { s2 with log.slots := putSlot slot r s2.log.slots }
        else
          let s4 := retireSlot slot s2
          if s4.log.retired.length ≥ 64 then latchDead 2 (some e) s4 else writeTo n e (verify.drop 2) s4

/-- The repeat candidate that an event counts into (R760): the same source and payload, written less than 60 s ago, not overwritten, its count below the
largest. -/
def repeatOf (e : LogIn) (s : State) : Option RepCand :=
  match s.log.cands.lookup e.evid with
  | none => none
  | some c =>
    match logSlot s c.slot with
    | none => none
    | some r =>
      if c.payload == e.payload && s.clk < c.atClk + 60 * Config.sec && r.seq == c.seq && r.rep + c.pending < 0xFFFF then some c else none

/-- A repeat adds to the pending increments of its record (R760, R761). -/
def addRepeat (c : RepCand) (n : Nat) (s : State) : State :=
  { s with log.cands := (c.evid, { c with pending := c.pending + n }) :: s.log.cands.filter (fun x => x.1 != c.evid) }

/-- One entry as Lampblack writes it: a repeat counts; during a freeze the entry is held (R772); a record of severity 0 or 1 takes a token (R759);
with `LOG_DEAD` only severity 3 is kept (R777). -/
def writeEntry (e : LogIn) (verify : List Bool) (s : State) : State :=
  if s.log.dead then (if e.sev = 3 then lastWords e (verify.getD 0 true) s else dropCounted s)
  else
    match repeatOf e s with
    | some c => addRepeat c (e.rep + 1) s
    | none =>
      if s.log.freezeEnd.isSome then
        let r := boundedPush 32 s.log.holdq { e with held := true }
        if r.2 then
          let s1 := { s with log.holdq := r.1, log.holdLoss := satAdd 255 s.log.holdLoss 1, log.gap := true, log.holdEvt := true }
          if s.log.holdEvt then s1 else raise 0x9A (logDetail 0 s1) s1
        else { s with log.holdq := r.1 }
      else if s.log.next > 0xFFFFFFFF then latchDead 6 (some e) s
      else if e.sev ≤ 1 then
        if s.log.tokens = 0 then dropRecord { s with log.rateLoss := satAdd 255 s.log.rateLoss 1 }
        else writeTo 3 e verify { s with log.tokens := s.log.tokens - 1 }
      else writeTo 3 e verify s

/-- The entry the recorder takes up next, and the state without it: ALARM entries first, held entries once no freeze runs, then the write queue (R757). -/
def waitingEntry (s : State) : Option (LogIn × State) :=
  match s.log.alarmq, (if s.log.freezeEnd.isSome then [] else s.log.holdq), s.log.queue with
  | e :: t, _, _ => some (e, { s with log.alarmq := t })
  | [], e :: _, _ => some (e, { s with log.holdq := s.log.holdq.drop 1 })
  | [], [], e :: t => some (e, { s with log.queue := t })
  | [], [], [] => none

/-- LOG_WRITE (R754, R757, R773): the next entry is written: alarm slots first, then what a freeze has held, then the write queue in order. -/
def execLogWrite (verify : List Bool) (s : State) : Out :=
  if !s.log.scanDone then .next s
  else
    match waitingEntry s with
    | some (e, t) => .next (writeEntry e verify t)
    | none => .next s

/-- LOG_MEMORY_TIMEOUT (R775): the memory gives no answer for 5 ms; the record next to be written goes to the last-words bank. -/
def execLogMemoryTimeout (s : State) : Out :=
  match waitingEntry s with
  | some (e, t) => .next (latchDead 3 (some e) t)
  | none => .next (latchDead 3 none s)

/-- SHADOW_UPDATE (R761): the pending repeats of a source's record are written to its shadow, at most once per second until its window ends; not
during a freeze (R771). -/
def execShadowUpdate (src : Byte) (s : State) : Out :=
  match s.log.cands.lookup src.toNat with
  | none => .next s
  | some c =>
    let due := secondPassed s c.shadowAt || decide (c.atClk + 60 * Config.sec ≤ s.clk)
    match logSlot s c.slot with
    | none => .next s
    | some r =>
      if c.pending = 0 ∨ !due ∨ r.seq ≠ c.seq ∨ s.log.freezeEnd.isSome ∨ 4096 ≤ c.slot ∨ s.log.dead then .next s
      else
        let r' := { r with rep := min 0xFFFF (r.rep + c.pending), shadowOk := true }
        .next { s with log.slots := putSlot c.slot r' s.log.slots,
                       log.cands := (c.evid, { c with pending := 0, shadowAt := some s.clk }) :: s.log.cands.filter (fun x => x.1 != c.evid) }

/-- LOG_RATE_REFILL (R759): the bucket gains a token (4 per second), up to 64. -/
def execLogRateRefill (s : State) : Out := .next { s with log.tokens := min 64 (s.log.tokens + 1) }

/-- FREEZE_END (R771, R773): the time of a freeze expires; event 0x99. -/
def execFreezeEnd (s : State) : Out := .next (settle (endFreeze false (s, [])))

/-- OPERATING_MINUTE (R756): a whole minute in ACTIVE, IDLE or SENTINEL is counted, and the count is saved every 10 min. -/
def execOperatingMinute (s : State) : Out :=
  if s.sys.mode == .ship || !s.sys.powered then .next s
  else
    let n := s.log.opmin + 1
    .next { s with log.opmin := n % 2 ^ 32, log.opminSaved := if s.log.opminSaved + 10 ≤ n then n else s.log.opminSaved }

/-! ## Reading -/

/-- The bytes 0 to 29 of a stored record (R752). -/
def recBytes (r : Rec) : List Byte :=
  let b := le 4 r.seq ++ le 4 r.opmin ++ le 2 r.cyc ++ le 1 r.evid ++ [r.sevFlags] ++ slice r.payload 0 12
  let crc := if r.crcOk then crc16 b else ~~~ crc16 b
  b ++ le 2 r.rep ++ le 2 (if r.shadowOk then Nat.xor r.rep 0xA5A5 else Nat.xor r.rep 0x5A5A) ++ le 2 crc.toNat

/-- The 32 bytes of a stored record (R752). -/
def storedBytes (r : Rec) : List Byte := recBytes r ++ le 2 validMark

/-- The read-out form of an entry: bytes 30 and 31 hold the slot and the status (R768). -/
def readOut (slot status : Nat) (r : Option Rec) : List Byte :=
  (match r with | some r => recBytes r | none => List.replicate 30 0) ++ le 2 (slot % 8192 + 8192 * status)

/-- The readable records with their slots: valid ones of the slots and the written last-words slots, damaged ones left out (R767). -/
def readable (s : State) : List (Nat × Rec) :=
  (s.log.slots.filter fun x => x.2.crcOk) ++
    ((List.range s.log.lw.length).zip s.log.lw).filterMap fun x => if x.2.crcOk then some (4096 + x.1, x.2) else none

/-- The record with the lowest sequence number above a bound among the given ones. -/
def lowestAbove (l : List (Nat × Rec)) (q : Option Nat) : Option (Nat × Rec) :=
  let c := l.filter fun x => match q with | some q => q < x.2.seq | none => true
  match (c.map (·.2.seq)).min? with
  | some m => c.find? fun x => x.2.seq == m
  | none => none

/-- The oldest circulating record. -/
def oldestCirc (s : State) : Option (Nat × Rec) := lowestAbove (s.log.slots.filter fun x => 256 ≤ x.1 && x.2.crcOk) none

/-- A cursor placed on a record, or in the end state where there is none. -/
def onRec (q : Nat) : Option (Nat × Rec) → Cursor
  | some (i, r) => { slot := i, q := r.seq, atEnd := false, byCode := false }
  | none => { slot := 0, q := q, atEnd := true, byCode := false }

/-- A cursor placed by a code (R766); none for a code that is not defined. -/
def placeCursor (s : State) (code : Nat) (c : Cursor) : Option Cursor :=
  if code ≤ 0x0FFF then
    some { slot := code, q := (match logSlot s code with | some r => r.seq | none => 0), atEnd := false, byCode := true }
  else if 0x1000 ≤ code ∧ code ≤ 0x100F then
    some { slot := 4096 + (code - 0x1000), q := (match logSlot s (4096 + (code - 0x1000)) with | some r => r.seq | none => 0), atEnd := false, byCode := true }
  else if code = 0xFFFD then some c
  else if code = 0xFFFE then some (onRec 0 (oldestCirc s))
  else if code = 0xFFFF then some (onRec 0 (lowestAbove (readable s) none))
  else none

/-- The status of a valid record: a bad shadow is told and its count read as 0 (R755, R768). -/
def readValid (slot : Nat) (r : Rec) : List Byte :=
  if r.shadowOk then readOut slot 0 (some r) else readOut slot 5 (some { r with rep := 0 })

/-- A read at a slot whose record the cursor stands on, or does not (R767, from its third row on). -/
def readAt (s : State) (c : Cursor) : List Byte × Cursor :=
  if 4096 ≤ c.slot then
    match logSlot s c.slot with
    | some r =>
      let c' := if c.slot < 4111 then { c with slot := c.slot + 1, byCode := true } else c
      (if r.crcOk then readValid c.slot r else readOut c.slot 4 (some r), c')
    | none => (readOut c.slot 3 none, c)
  else
    match logSlot s c.slot with
    | some r =>
      if !r.crcOk then (readOut c.slot 4 (some r), onRec c.q (oldestCirc s))
      else if r.seq = c.q then
        (readValid c.slot r, match lowestAbove (readable s) (some c.q) with | some x => onRec c.q (some x) | none => { c with atEnd := true, byCode := false })
      else (readOut c.slot 1 none, onRec c.q (oldestCirc s))
    | none => (readOut c.slot (if c.byCode then 2 else 1) none, onRec c.q (oldestCirc s))

/-- One read at a cursor: the 32 bytes and the cursor after it (R767). -/
def cursorRead (s : State) (c : Cursor) : List Byte × Cursor :=
  if c.atEnd then
    match lowestAbove (readable s) (some c.q) with
    | some x => readAt s (onRec c.q (some x))
    | none => (readOut c.slot 3 none, c)
  else readAt s c

/-- n reads in order (R769). -/
def cursorReads (s : State) : Nat → Cursor → List Byte × Cursor
  | 0, c => ([], c)
  | n + 1, c =>
    let r := cursorRead s c
    let t := cursorReads s n r.2
    (r.1 ++ t.1, t.2)

/-- The check jobs of the records that entries were read from (R206, R214): one for each entry that returns a record, failed where the entry says `CRC_BAD`. -/
def noteReads (l : List Byte) (s : State) : State :=
  (List.range (l.length / 32)).foldl (fun s i =>
    let w := field l (32 * i + 30) 2
    let st := w / 8192
    if st = 0 ∨ st = 4 ∨ st = 5 then compareJob 2 (decide (st ≠ 4)) true (w % 8192) s else s) s

/-- `LOG_READ` (R766, R769): places the host's cursor and reads count entries. -/
def cmdLogRead (rq : Req) (cursor : BitVec 16) (count : Byte) (s : State) : Res :=
  if count.toNat < 1 ∨ 15 < count.toNat then Res.of stBadParam s
  else
    match placeCursor s cursor.toNat (nth s.log.cursors rq.host.val {}) with
    | none => Res.of stBadParam s
    | some c =>
      let r := cursorReads s count.toNat c
      { st := noteReads r.1 { s with log.cursors := s.log.cursors.set rq.host.val r.2 }, status := stOk, data := r.1 }

def execLogRead (rq : Req) (cursor : BitVec 16) (count : Byte) (s : State) : Out := .next (runCmd 0x98 rq (cmdLogRead rq cursor count) s)

/-- `LOG_FREEZE` (R771, R773): 0 ends a freeze; n from 1 to 10 starts one or moves its end, never beyond 10 s after its start; not within 10 s after the end of the
previous one. -/
def cmdLogFreeze (seconds : Byte) (s : State) : Res :=
  let n := seconds.toNat
  if 10 < n then Res.of stBadParam s
  else if n = 0 then Res.of stOk (settle (endFreeze false (s, [])))
  else
    match s.log.freezeEnd with
    | some (t0, _) => Res.of stOk { s with log.freezeEnd := some (t0, min (s.clk + n * Config.sec) (t0 + 10 * Config.sec)) }
    | none =>
      if (match s.log.lastFreeze with | some t => decide (s.clk < t + 10 * Config.sec) | none => false) then Res.of stBadParam s
      else
        let s1 := { s with log.freezeEnd := some (s.clk, s.clk + n * Config.sec), log.holdEvt := false }
        Res.of stOk (raise 0x99 (logDetail 0 s1) s1)

def execLogFreeze (rq : Req) (seconds : Byte) (s : State) : Out := .next (runCmd 0x99 rq (cmdLogFreeze seconds) s)

/-- LOG_CURSOR_SET (R766, R770): a write of `LOG_CUR.SET` places the register cursor; an undefined code leaves it (a register write names no refusal, log 33). -/
def execLogCursorSet (code : BitVec 16) (s : State) : Out :=
  match placeCursor s code.toNat (nth s.log.cursors 4 {}) with
  | some c => .next { s with log.cursors := s.log.cursors.set 4 c }
  | none => .next s

/-- One read of `LOG_WIN_0` (R770): a log read at the register cursor, latched into the window. -/
def logWindow (s : State) : State :=
  let r := cursorRead s (nth s.log.cursors 4 {})
  noteReads r.1 { s with log.cursors := s.log.cursors.set 4 r.2, log.win := r.1 }

def execLogWinRead (s : State) : Out := .next (logWindow s)

/-- No slot with a valid mark and no written last-words slot is damaged (R755, R781). -/
def logSound (s : State) : Bool := s.log.slots.all (·.2.crcOk) && s.log.lw.all (·.crcOk)

/-- Slots whose check on `CHK_2` fails in the scan or the proof (R206, R214, R779, R781): damaged slots are noted when they are first found, each by event 0x9F (R780).
An empty slot has nothing to check. -/
def findDamaged (l : List Nat) (s : State) : State :=
  (l.filter fun i => (logSlot s i).isSome).foldl (fun s i =>
    let s := compareJob 2 false false i s
    if s.log.damaged.contains i then s
    else
      let s1 := { s with log.damaged := s.log.damaged ++ [i],
                         log.slots := s.log.slots.map fun x => if x.1 == i then (x.1, { x.2 with crcOk := false }) else x,
                         log.lw := s.log.lw.mapIdx fun k r => if 4096 + k = i then { r with crcOk := false } else r }
      raise 0x9F (logDetail i s1) s1) (if (readable s).isEmpty then s else compareDone 2 true false s)

end Sys2Proof.Machine
end

