-- ==== Sys2Proof/Machine/IndigoExec.lean ====
section
/-! DEFINITION. How an engine of Indigo issues an instruction: the word at the program counter, faults, stalls, the watchdog, loops and branches (R464, R465,
R482, R489 to R492, R501 to R504, R513). -/

namespace Sys2Proof.Machine

open Sys2Proof

/-- What an instruction does: a fault with code and detail, a stall on a transfer queue, or its effect with its cycles and, for a taken branch, its target. -/
inductive IRes where
  | fault (s : State) (code detail : Nat)
  | stall
  | done (s : State) (cost : Nat) (jump : Option Nat)

/-- A scalar register of an engine. -/
def scalar (g : Eng) (i : Nat) : Word := nth g.a i 0

/-- A scalar register written. -/
def setScalar (e : Engine) (i : Nat) (v : Word) (s : State) : State := setEng e (fun g => { g with a := g.a.set i v }) s

/-- Sticky flags joined to the status word (R440, R493). -/
def addFlags (e : Engine) (f : Flags) (s : State) : State := setEng e (fun g => { g with status := g.status ||| BitVec.ofNat 4 f }) s

/-- The fault with the lowest code of several (R492). -/
def lowest (l : List (Nat × Nat)) : Option (Nat × Nat) :=
  l.foldl (fun m x => match m with | none => some x | some y => if x.1 < y.1 then some x else m) none

/-- An instruction that faults where one of several conditions holds, and else has an effect. -/
def unlessFault (s : State) (l : List (Nat × Nat)) (f : Unit → IRes) : IRes :=
  match lowest l with
  | some x => .fault s x.1 x.2
  | none => f ()

/-- A condition of a fault as a list. -/
def faultIf (c : Bool) (code detail : Nat) : List (Nat × Nat) := if c then [(code, detail)] else []

/-- The next index after the word at an index completes without a branch, and the loop levels after it (R503): the innermost level that ends there goes on or closes. -/
def loopNext (pc : Nat) (lc0 lc1 : Option Loop) : Nat × Option Loop × Option Loop :=
  match lc1 with
  | some l =>
    if l.last = pc then
      if 1 < l.count then (l.first, lc0, some { l with count := l.count - 1 })
      else match lc0 with
        | some m =>
          if m.last = pc then (if 1 < m.count then (m.first, some { m with count := m.count - 1 }, none) else (pc + 1, none, none))
          else (pc + 1, lc0, none)
        | none => (pc + 1, none, none)
    else (pc + 1, lc0, lc1)
  | none =>
    match lc0 with
    | some m => if m.last = pc then (if 1 < m.count then (m.first, some { m with count := m.count - 1 }, none) else (pc + 1, none, none)) else (pc + 1, lc0, none)
    | none => (pc + 1, none, none)

/-- A level stays open over a taken branch only where its body holds the target (R504). -/
def keepLoop (t : Nat) (l : Option Loop) : Option Loop :=
  match l with
  | some l => if l.first ≤ t ∧ t ≤ l.last then some l else none
  | none => none

/-- The engine goes on to the next word (R501, R503, R504): the fetch beyond the last word faults with `PC`. -/
def advance (e : Engine) (jump : Option Nat) (cost : Nat) (s : State) : State :=
  let g := eng s e
  let nx := match jump with
    | some t => (t, keepLoop t g.lc0, keepLoop t g.lc1)
    | none => loopNext g.pc g.lc0 g.lc1
  let s1 := setEng e (fun g => { g with pc := nx.1, lc0 := nx.2.1, lc1 := nx.2.2, cycles := g.cycles + cost }) s
  if g.prog.length ≤ nx.1 then takeFault e 7 nx.1 nx.1 s1 else s1

/-- The engine runs a kernel whose words are instructions, and its next word spells the instruction. -/
def issues (e : Engine) (i : IInstr) (s : State) : Bool :=
  let g := eng s e
  g.st == .running && !serviceSlot g.slot && match g.prog[g.pc]? with
    | some w => decodeI e w == some i
    | none => false

/-- An instruction is issued (R464, R465, R482): where the engine's next word is another one, nothing happens. An instruction whose cycles bring the count to the budget
faults with `WATCHDOG` and has no effect, unless it faults itself. -/
def runInstr (e : Engine) (i : IInstr) (sem : State → IRes) (s : State) : State :=
  if !issues e i s then s
  else
    let g := eng s e
    match sem s with
    | .fault s1 c d => takeFault e c g.pc d s1
    | .stall => if g.budget ≤ g.cycles + 1 then takeFault e 8 g.pc ((g.cycles + 1) / 1024) s else setEng e (fun g => { g with cycles := g.cycles + 1 }) s
    | .done s1 cost jump => if g.budget ≤ g.cycles + cost then takeFault e 8 g.pc ((g.cycles + cost) / 1024) s else advance e jump cost s1

end Sys2Proof.Machine
end

