-- ==== Sys2Proof/Machine/IndigoCtl.lean ====
section
/-! DEFINITION. Indigo from outside its kernels: loading, committing, launching, stopping, triggers, the watchdog, the shutdown, the self-test, reads of the
result region (R455 to R472, R477 to R484, R528). -/

namespace Sys2Proof.Machine

open Sys2Proof

/-! ## Copying and starting -/

/-- The copy of code ends (R460, R469): the engine runs, and a library kernel of R527 does its work; a resume whose context is refused leaves the engine suspended with
event 0x66. A context that goes on beyond the last word faults at its fetch (R464). -/
def copyDone (e : Engine) (s : State) : State :=
  let g := eng s e
  if g.st != .loading then s
  else if g.pendingResume && !contextOk e s then
    let s1 := setEng e (fun g => { g with st := .suspended, pendingResume := false }) s
    raise 0x66 (engDetail e g.result.toNat g.pc s1) s1
  else
    let s1 := startEngine e s
    let h := eng s1 e
    if !serviceSlot h.slot && decide (h.prog.length ≤ h.pc) then takeFault e 7 h.pc h.pc s1 else runLibrary e s1

/-- A launch, which runs at once where its code is resident (R460). -/
def launch (e : Engine) (slot : Nat) (args : List Word) (s : State) : State :=
  let s1 := beginLaunch e slot args s
  if resident e slot s1 then copyDone e s1 else s1

/-- A copy of an engine's code that is under way is complete; one that waits for the end of the memory self-test is not (R460, R472). -/
def settleCopy (e : Engine) (s : State) : State := if s.indigo.selfTest && (eng s e).pendingResume then s else copyDone e s

/-- No Indigo command executes while a copy runs (R460): a copy under way is complete before the next one. -/
def settleCopies (s : State) : State := settleCopy .se (settleCopy .te s)

/-- The resume of a suspended engine (R459, R469, R484): it runs at once where program memory still holds the context's slot, and else copies the code first. -/
def resumeKernel (e : Engine) (s : State) : State :=
  let s1 := setEng e (fun g => { g with st := .loading, pendingResume := true }) (leaveIdle 7 s)
  if resident e (field (memRead s.indigo.pad (ctxBase s e) 4) 2 1) s1 then copyDone e s1 else s1

/-- A launch that the memory self-test deferred (R472): a resume of an engine that is still suspended, or a launch on one that is idle. -/
def launchDeferred (d : Defer) (s : State) : State :=
  let e := engOf (b2n d.se)
  if s.indigo.off then s
  else if d.slot = 0xFF then (if (eng s e).st == .suspended then resumeKernel e s else s)
  else if (eng s e).st == .idle then launch e d.slot d.args s
  else s

/-- The memory self-test ends (R472): what it deferred starts now where the engine is free for it, and a command that waited is complete. -/
def endSelfTest (s : State) : State :=
  if !s.indigo.selfTest then s
  else
    let go (s : State) (d : Defer) : State :=
      let s1 := launchDeferred d s
      match d.asked with
      | some c => completeQueued c.1 c.2 [] s1
      | none => s1
    s.indigo.defer.foldl go { s with indigo.selfTest := false, indigo.defer := [] }

/-- CODE_COPY_DONE (R460, R469, R472): the copy of an engine's code is complete; after a self-test this ends it. -/
def execCodeCopyDone (e : Engine) (s : State) : Out := .next (endSelfTest (copyDone e s))

/-- The memory self-test begins (R472): running engines are suspended with cause 2, and their code is copied back. -/
def startSelfTest (s : State) : State :=
  let sus (e : Engine) (s : State) : State :=
    if (eng s e).st == .running && !serviceSlot (eng s e).slot then
      setEng e (fun g => { g with st := .loading, pendingResume := true, progSlot := none }) (takeSuspend e 2 s)
    else setEng e (fun g => { g with progSlot := none }) s
  let s1 := sus .se (sus .te (settleCopies s))
  { s1 with indigo.selfTest := true }

/-- A launch deferred by the self-test (R472): one per engine; a further one is discarded with event 0x6F. -/
def deferLaunch (e : Engine) (slot : Nat) (args : List Word) (asked : Option (Fin 4 × Nat)) (s : State) : State :=
  let se := e == .se
  if s.indigo.defer.any (fun d => d.se == se) then
    let s1 := raise 0x6F (det (inst2 (engCode e) slot) 0 0 0) s
    match asked with
    | some c => completeQueued c.1 c.2 [] s1
    | none => s1
  else { s with indigo.defer := s.indigo.defer ++ [{ se := se, slot := slot, args := args, asked := asked }] }

/-! ## Commands -/

/-- Code bytes stored in a customer slot, which is uncommitted then (R456, R458). -/
def storeCode (k off : Nat) (code : List Byte) (s : State) : State :=
  let note (g : Eng) : Eng := { g with loaded := setBit g.loaded k true, progSlot := if g.progSlot == some k then none else g.progSlot }
  { s with indigo.store := memWrite s.indigo.store (8192 * k + off) code, indigo.valid := setBit s.indigo.valid k false,
           indigo.dirty := setBit s.indigo.dirty k true, indigo.te := note s.indigo.te, indigo.se := note s.indigo.se }

/-- A write the kernel store does not take (R458, R487): event 0x6E; what the chunk's bytes then hold is free (log 197). -/
def storeFails (k off n : Nat) (s : State) : State :=
  let r := drawFree s
  let t := storeCode k off ((List.range n).map (Config.failedStoreByte r.1)) r.2
  raise 0x6E (det (inst2 (imageEngine t k) k) 0 0 0) t

/-- `KERNEL_LOAD` (R456, R458): code bytes into a customer slot, which is uncommitted then. `written` says whether the store takes them (R487). -/
def cmdKernelLoad (slot : Byte) (offset : BitVec 16) (code : List Byte) (written : Bool) (s : State) : Res :=
  let s := settleCopies s
  let k := slot.toNat
  let busy (g : Eng) : Bool := g.slot == k && g.st != .idle
  if 8 ≤ k ∨ 8192 < offset.toNat + code.length ∨ busy s.indigo.te ∨ busy s.indigo.se then Res.of stBadParam s
  else Res.of stOk (if written then storeCode k offset.toNat code s else storeFails k offset.toNat code.length s)

/-- KERNEL_LOAD (R458). -/
def execKernelLoad (rq : Req) (slot : Byte) (offset : BitVec 16) (code : List Byte) (written : Bool) (s : State) : Out :=
  .next (runCmd 0x60 rq (cmdKernelLoad slot offset code written) s)

/-- `KERNEL_COMMIT` (R458): the image's CRC on `CHK_1` and its header decide. -/
def cmdKernelCommit (slot : Byte) (crc : Word) (s : State) : Res :=
  let s := settleCopies s
  let k := slot.toNat
  if 8 ≤ k then Res.of stBadParam s
  else
    let n := 16 + 4 * slotField s k 2 2
    let ok := crc32c (memRead s.indigo.store (8192 * k) (min n 8192)) == crc
    let s1 := compareJob 1 ok false crc.toNat s
    if !ok then Res.of stBadParam s1
    else if !headerOk s k then Res.of stBadParam s1
    else Res.of stOk (raise 0x6D (det (inst2 (imageEngine s k) k) 0 0 0)
      { s1 with indigo.valid := setBit s1.indigo.valid k true, indigo.dirty := setBit s1.indigo.dirty k false })

/-- KERNEL_COMMIT (R458). -/
def execKernelCommit (rq : Req) (slot : Byte) (crc : Word) (s : State) : Out := .next (runCmd 0x61 rq (cmdKernelCommit slot crc) s)

/-- A launch of a slot is refused (R459, R528): the state service runs on its trigger alone, the two other kernels of R527 by the member alone. -/
def launchBad (s : State) (e : Engine) (slot nargs : Nat) : Bool :=
  !committed s slot || slot == 0x81 || slot == 0x82 || (slot == 0x80 && !stateServiceOn s) || imageEngine s slot != engCode e ||
    (!serviceSlot slot && nargs != imageArgs s slot) || (eng s e).st != .idle || s.indigo.off

/-- `KERNEL_LAUNCH` (R459, R460, R467, R472). -/
def cmdKernelLaunch (rq : Req) (slot engine : Byte) (args : List Byte) (s : State) : Res :=
  let s := settleCopies s
  let k := slot.toNat
  let e := engOf engine.toNat
  if 1 < engine.toNat ∨ 16 < args.length then Res.of stBadParam s
  else if heldAgainst rq (22 + engine.toNat) ((eng s e).st != .running) s then overruled rq s
  else if k = 0xFF then
    if (eng s e).st != .suspended ∨ s.indigo.off then Res.of stBadParam s
    else if !contextOk e s then Res.of stBadParam (raise 0x66 (engDetail e (eng s e).result.toNat (eng s e).pc s) s)
    else if s.indigo.selfTest then
      { st := noteOrder rq [22 + engine.toNat] (deferLaunch e k [] (some (rq.host, rq.seq.toNat)) (keepQueued rq s)), status := stQueued, kept := true }
    else Res.of stOk (noteOrder rq [22 + engine.toNat] (resumeKernel e s))
  else if launchBad s e k args.length then Res.of stBadParam s
  else
    let words := (List.range ((args.length + 3) / 4)).map fun i => BitVec.ofNat 32 (field args (4 * i) 4)
    if s.indigo.selfTest then
      { st := noteOrder rq [22 + engine.toNat] (deferLaunch e k words (some (rq.host, rq.seq.toNat)) (keepQueued rq s)), status := stQueued, kept := true }
    else Res.of stOk (noteOrder rq [22 + engine.toNat] (launch e k words s))

/-- KERNEL_LAUNCH (R459). -/
def execKernelLaunch (rq : Req) (slot engine : Byte) (args : List Byte) (s : State) : Out :=
  .next (runCmd 0x62 rq (cmdKernelLaunch rq slot engine args) s)

/-- A stop of one engine (R467, R478): a running kernel, and one that the memory self-test holds, ends or is suspended with its context; a suspended one ends. A stop of
the sweep's demodulator ends the sweep (R549). -/
def stopEngine (e : Engine) (save : Bool) (s : State) : State :=
  let g := eng s e
  let demod := e == .se && g.slot == 0x81 && g.st == .running
  let s1 := match g.st with
    | .running => if save then takeSuspend e 1 s else takeStop e s
    | .loading => if save then takeSuspend e 1 (setEng e (fun g => { g with pendingResume := false }) s) else takeStop e s
    | .suspended => if save then s else takeStop e s
    | .idle => s
  if demod then endSweep 2 s1 else s1

/-- `KERNEL_STOP` (R467). -/
def cmdKernelStop (rq : Req) (engine : Byte) (s : State) : Res :=
  let s := settleCopies s
  let n := engine.toNat % 128
  let save := engine.toNat ≥ 128
  if 2 < n then Res.of stBadParam s
  else
    let s1 := if n ≠ 1 then stopEngine .te save s else s
    let s2 := if n ≠ 0 then stopEngine .se save s1 else s1
    Res.of stOk (noteOrder rq ((if n ≠ 1 then [22] else []) ++ (if n ≠ 0 then [23] else [])) s2)

/-- KERNEL_STOP (R467). -/
def execKernelStop (rq : Req) (engine : Byte) (s : State) : Out := .next (runCmd 0x63 rq (cmdKernelStop rq engine) s)

/-- `RESULT_READ` (R455, R453). -/
def cmdResultRead (offset count : BitVec 16) (ecc : Ecc) (s : State) : Res :=
  let len := rf s.regs.indigoRes 31 16
  if len = 0 ∨ len < offset.toNat + count.toNat ∨ 65536 < resBase s + len ∨ 512 < count.toNat then Res.of stBadParam s
  else
    let a := resBase s + offset.toNat
    { st := hostEcc ecc a count.toNat s, status := stOk, data := memRead s.indigo.pad a count.toNat }

/-- RESULT_READ (R455). -/
def execResultRead (rq : Req) (offset count : BitVec 16) (ecc : Ecc) (s : State) : Out :=
  .next (runCmd 0x64 rq (cmdResultRead offset count ecc) s)

/-! ## Triggers, watchdog, shutdown -/

/-- The trigger register of an engine (R486). -/
def trigReg (s : State) : Engine → Word
  | .te => s.regs.trigTe
  | .se => s.regs.trigSe

/-- The cell ring entries a trigger has counted. -/
def entriesOf (s : State) : Engine → Nat
  | .te => s.cell.trigCount.1
  | .se => s.cell.trigCount.2

/-- How many entries or milliseconds a trigger waits for (R486): its field N, of which 0 acts as 1. -/
def triggerEvery (s : State) (e : Engine) : Nat := max 1 (rf (trigReg s e) 31 16)

/-- A trigger in mode 1 whose N further entries have not all been written is not due yet (R461). -/
def entriesShort (s : State) (e : Engine) : Bool := rf (trigReg s e) 1 0 = 1 && decide (entriesOf s e < triggerEvery s e)

/-- KERNEL_TRIGGER (R461, R471, R472, R477): a trigger falls due: it launches its slot, is missed where the engine is not idle, or is deferred during the self-test. In IDLE the launch
brings the member back to ACTIVE (R65). -/
def execKernelTrigger (e : Engine) (s : State) : Out :=
  let mode := rf (trigReg s e) 1 0
  let slot := rf (trigReg s e) 15 8
  if (mode ≠ 1 ∧ mode ≠ 2) ∨ !measuring s ∨ s.indigo.off ∨ entriesShort s e then .next s
  else
    let n := (eng s e).trigN + 1
    let left := entriesOf s e - triggerEvery s e
    let s1 := setEng e (fun g => { g with trigN := n % 2 ^ 32 })
      (match e with
        | .te => { s with cell.trigCount := (left, s.cell.trigCount.2) }
        | .se => { s with cell.trigCount := (s.cell.trigCount.1, left) })
    let args := [BitVec.ofNat 32 s.cell.cellRing.wp, BitVec.ofNat 32 s.cell.auxRing.wp, BitVec.ofNat 32 n, 0]
    if !committed s slot ∨ slot = 0x81 ∨ slot = 0x82 ∨ (slot = 0x80 ∧ mode ≠ 1) ∨ imageEngine s slot ≠ engCode e then .next s1
    else if s.indigo.selfTest then .next (deferLaunch e slot args none s1)
    else if (eng s e).st != .idle then
      .next (raise 0x64 (det (inst2 (engCode e) slot) 0 0 0) { s1 with indigo.trigMiss := satAdd 255 s1.indigo.trigMiss 1 })
    else .next (launch e slot args s1)

/-- WATCHDOG (R465, R525): the cycle count reaches the budget; where the sweep's demodulator ends so, the sweep ends (R549). -/
def execWatchdog (e : Engine) (s : State) : Out :=
  let g := eng s e
  if g.st != .running then .next s
  else
    let n := max g.cycles g.budget
    let s1 := takeFault e 8 g.pc (n / 1024) (setEng e (fun g => { g with cycles := n }) s)
    .next (if e == .se && g.slot == 0x81 then endSweep 9 s1 else s1)

/-- A context save that is still under way is abandoned (R479): its format word is not written, so no resume accepts what the area holds (log 168). -/
def abandonSave (e : Engine) (s : State) : State :=
  if s.clk < (eng s e).saveEnd then setEng e (fun g => { g with saveEnd := s.clk }) (padWrite (ctxBase s e) (le 4 0) s) else s

/-- The hardware shutdown stops both engines (R471, R479): kernels that run or load, and those whose context is being saved, end `THERMAL`. -/
def indigoShutdown (s : State) : State :=
  let one (e : Engine) (s : State) : State :=
    let g := eng s e
    if g.st == .running || g.st == .loading || decide (s.clk < g.saveEnd) then
      let s1 := endKernel e .thermal (abandonSave e s)
      raise 0x69 (engDetail e g.result.toNat g.pc s1) s1
    else s
  one .se (one .te { s with indigo.off := true })

/-- Indigo at entry to SENTINEL or SHIP (R470): kernels end `POWERDOWN`; scratchpad, program memory and registers are not retained and read 0 later. -/
def indigoPowerDown (s : State) : State :=
  let one (g : Eng) : Eng :=
    let t := if g.st == .idle then g.term else .powerdown
    { g with st := .idle, term := t, a := List.replicate 16 0, lc0 := none, lc1 := none, status := 0, tiles := List.replicate 16 none,
             spec := List.replicate 8 none, cache := [], prog := [], progSlot := none, pendingResume := false }
  { s with indigo.te := one s.indigo.te, indigo.se := one s.indigo.se, indigo.pad := [], indigo.ts := [], indigo.st := [],
           indigo.selfTest := false, indigo.defer := [] }

end Sys2Proof.Machine
end

