-- ==== Sys2Proof/Machine/ThermOps.lean ====
section
/-! DEFINITION. The thermal manager's shared operations: the hardware shutdown, the throttle step, thermistors and their groups (R557 to R573, R590 to R596). -/

namespace Sys2Proof.Machine

open Sys2Proof

/-! ## The throttle step -/

/-- The step s is the larger of the two (R565); a rise above 0 ends every sweep (R549) and every stimulus (R411). -/
def settleStep (s : State) : State :=
  let n := max s.therm.sDie s.therm.sPack
  let s1 := { s with bal.s := n }
  if n ≤ s.bal.s then s1
  else
    endSweep 4 (if s1.bal.stim.isSome then endStim allCh 6 (noteStop 6 s1) else s1)

/-- The die step takes a value, at least 1 while `RISE` is set (R563). -/
def setSDie (n : Nat) (s : State) : State := settleStep { s with therm.sDie := max n (b2n s.therm.rise) }

/-- The pack step takes a value (R564). -/
def setSPack (n : Nat) (s : State) : State := settleStep { s with therm.sPack := n }

/-! ## The hardware shutdown -/

/-- The detail of a thermal event (R799): die 0 or thermistor, temperature, level or step. -/
def thermDetail (inst : Nat) (temp : Int) (st : Nat) : List Byte := det inst temp st 0

/-- The code of a die level (R602). -/
def dieCode : DieLevel → Nat
  | .normal => 0 | .warning => 1 | .throttle => 2 | .shutdown => 3 | .cooling => 4

/-- The shutdown lines assert (R559): balancing is off and cleared (R411), Indigo stops (R471), a sweep ends (R549). -/
def assertLines (s : State) : State :=
  let s1 := cutPulses allCh (markSinks s)
  endSweep 5 (indigoShutdown (clearBal allCh 4 { s1 with therm.lines := true }))

/-- Entry to `SHUTDOWN` (R558 to R561, R590, R592): the lines assert, the entry is counted, and the third within an hour latches the shutdown. -/
def enterShutdown (s : State) : State :=
  if s.therm.level == .shutdown then s
  else
    let past := if s.therm.latched then s.therm.sdTimes else s.therm.sdTimes.filter fun t => decide (s.clk < t + 3600 * Config.sec)
    let times := if past.length < 3 then s.clk :: past else past
    let latch := !s.therm.latched && times.length == 3
    let s1 := { s with therm.level := .shutdown, therm.sdTimes := times, therm.latched := s.therm.latched || latch }
    let s2 := setSDie 4 (assertLines s1)
    let s3 := raise 0x5A (thermDetail 0 s.therm.temp 3) s2
    if latch then raise 0x5C (thermDetail 0 s.therm.temp 3) s3 else s3

/-- The restart (R560): the lines are released, and the level becomes `WARNING`. -/
def restartDie (s : State) : State :=
  raise 0x5B (thermDetail 0 s.therm.temp 1) { s with therm.lines := false, therm.level := .warning, indigo.off := false }

/-- The die level follows a reading, in 0.1 °C (R558); a broken sensor's reading never calls for the shutdown (R573). -/
def judgeDie (t : Int) (s : State) : State :=
  let hot := decide (1450 ≤ t) && !s.therm.broken
  let warn (s : State) : State := raise 0x58 (thermDetail 0 t 1) { s with therm.level := .warning }
  let throttle (s : State) : State := raise 0x59 (thermDetail 0 t 2) (setSDie (max s.therm.sDie 1) { s with therm.level := .throttle })
  match s.therm.level with
  | .normal => if hot then enterShutdown s else if 1250 ≤ t then throttle s else if 1100 ≤ t then warn s else s
  | .warning =>
    if hot then enterShutdown s else if 1250 ≤ t then throttle s else if t < 1000 then { s with therm.level := .normal } else s
  | .throttle => if hot then enterShutdown s else if t < 1150 then warn s else s
  | .shutdown => if t < 1350 then { s with therm.level := .cooling } else s
  | .cooling => if hot then enterShutdown s else if t < 1150 ∧ !s.therm.latched then restartDie s else s

/-- The reading taken 1 s before the present one (R562). -/
def secondAgo (s : State) : Option (Nat × Int) := s.therm.hist.find? fun x => decide (x.1 + Config.sec ≤ s.clk)

/-- The die rate and `RISE` (R562). -/
def judgeRise (t : Int) (s : State) : State :=
  match secondAgo s with
  | none => s
  | some (_, u) =>
    let d := t - u
    let hits := if 50 < d then s.therm.riseHits + 1 else 0
    let low := if d ≤ 25 then some (s.therm.riseLow.getD s.clk) else none
    let s1 := { s with therm.rate := 10 * d, therm.riseHits := min 2 hits, therm.riseLow := low }
    if s.therm.rise then
      match low with
      | some t0 => if t0 + 5 * Config.sec ≤ s.clk then { s1 with therm.rise := false } else s1
      | none => s1
    else if 2 ≤ hits then
      raise 0x5D (thermDetail 0 t (dieCode s1.therm.level)) (setSDie (max 1 s1.therm.sDie) { s1 with therm.rise := true })
    else s1

/-- The die sensor is declared broken (R571): it is treated as at throttle from then on (R573). -/
def breakDie (s : State) : State :=
  if s.therm.broken then s
  else raise 0x5E (thermDetail 0 s.therm.temp (dieCode s.therm.level)) (setSDie (max s.therm.sDie 1) { s with therm.broken := true })

/-! ## Thermistors -/

/-- A channel's group, neighbours and B (R602, R671); the block's tolerances. -/
def auxGroup (s : State) (k : Nat) : Nat := blk s (0x48 + 4 * k) 1 % 4
def auxNbr (s : State) (k j : Nat) : Bool := bitN (blk s (0x49 + 4 * k) 1) j
def auxBeta (s : State) (k : Nat) : Nat := blk s (0x4A + 4 * k) 2
def xtolDie (s : State) : Int := 10 * (blk s 0x31 1 : Nat)
def xtolAux (s : State) : Rat := 10 * (blk s 0x32 1 : Nat)

/-- A level of a group in °C: 1 `WARN`, 2 `THROT`, 3 `SHUT` (R567). -/
def grpThr (s : State) (g l : Nat) : Int := signed 8 (blk s (0x38 + 4 * g + (l - 1)) 1)

/-- The rate-of-rise level of a group in 0.1 °C/min (R568). -/
def grpRor (s : State) (g : Nat) : Nat := blk s (0x3B + 4 * g) 1

/-- 2 · artanh(p/q), for p/q up to 1/3, in units of 2^-128: the series up to its fiftieth term. -/
def artanh2 (p q : Nat) : Nat :=
  let z := p * 2 ^ 128 / q
  let z2 := z * z / 2 ^ 128
  ((List.range 50).foldl (fun a i => (a.1 + 2 * a.2 / (2 * i + 1), a.2 * z2 / 2 ^ 128)) (0, z)).1

/-- The natural logarithm of p/q in units of 2^-128, p and q positive. -/
def lnFix (p q : Nat) : Int :=
  let x := p * 2 ^ 128 / q
  let e := Nat.log2 x
  let m := x * 2 ^ 128 / 2 ^ e
  ((e : Int) - 128) * artanh2 1 3 + artanh2 (m - 2 ^ 128) (m + 2 ^ 128)

/-- The temperature of an NTC in 0.1 °C from its code (R566): rounded to the nearest, limited to -55.0 °C to 200.0 °C. With R_P, R25 or B of 0 the
formula has no value, and the result is a free value (log 53). -/
def ntcTemp (rp r25 beta c : Nat) : Int :=
  if rp = 0 ∨ r25 = 0 ∨ beta = 0 ∨ c = 0 ∨ 65536 ≤ c then clampI (-550) 2000 (Config.ntcDegenerate c)
  else
    let l := lnFix (rp * c) ((65536 - c) * r25)
    let d : Int := 20 * (beta : Int) * 2 ^ 128 + 5963 * l
    if d ≤ 0 then -550 else clampI (-550) 2000 (59630 * (beta : Int) * 2 ^ 128 / d - 2731)

/-- The flags `OPEN`, `SHORT` and `VTREF_BAD` of a channel (R368). -/
def auxFlagged (s : State) (k : Nat) : Bool := (nth s.cell.auxFlags k 0) &&& 7 != 0

/-- A fitted channel is broken (R572, R626): by its flags, by comparison, or by the proof. -/
def auxBad (s : State) (k : Nat) : Bool :=
  auxUsed s k && (auxFlagged s k || s.therm.auxCmpBroken.getLsbD k || s.watch.auxBad.getLsbD k)

/-- A channel that counts: fitted, not broken, with a value. -/
def auxValid (s : State) (k : Nat) : Bool := auxUsed s k && !auxBad s k && (nth s.therm.auxT k none).isSome

/-- The level a channel has reached (R567), with the hysteresis of 5 °C; a broken or unfitted channel has none. -/
def chReach (s : State) (k : Nat) : Nat :=
  if !auxValid s k then 0
  else
    let t := (nth s.therm.auxT k none).getD 0
    let old := nth s.therm.chLevel k 0
    let on (l : Nat) : Bool := decide (10 * grpThr s (auxGroup s k) l ≤ t) || (decide (l ≤ old) && decide (10 * grpThr s (auxGroup s k) l - 50 ≤ t))
    if on 3 then 3 else if on 2 then 2 else if on 1 then 1 else 0

/-- The condition that drives the pack step up (R564). -/
def packHot (s : State) : Bool := s.therm.grp.contains 2 || (List.range 8).any (auxBad s)

/-- A group's level follows its channels; a change raises event 0x5F (R567). -/
def judgeGroup (s : State) (g : Nat) : State :=
  let mine := (List.range 8).filter fun k => auxUsed s k && auxGroup s k == g
  let l := (mine.map fun k => nth s.therm.chLevel k 0).foldl max 0
  if l = nth s.therm.grp g 0 then s
  else
    let s1 := { s with therm.grp := s.therm.grp.set g l }
    match mine.find? fun k => nth s.therm.chLevel k 0 == l with
    | some k => raise 0x5F (thermDetail (k + 1) ((nth s.therm.auxT k none).getD 0) l) s1
    | none => raise 0x5F (thermDetail 0 0 l) s1

/-- What follows from a change of the thermistors (R564, R567, R572): newly broken channels are reported, the levels follow, and with them the pack step.
`old` is the state before the change. -/
def settleAux (old s : State) : State :=
  let s1 := ((List.range 8).filter fun k => auxBad s k && !auxBad old k).foldl
    (fun s k => raise 0x5E (thermDetail (k + 1) ((nth s.therm.auxT k none).getD 0) (nth s.cell.auxFlags k 0).toNat) s) s
  let s2 := (List.range 4).foldl judgeGroup { s1 with therm.chLevel := (List.range 8).map (chReach s1) }
  if s2.therm.grp.contains 3 then setSPack 4 s2
  else if packHot s2 && !(packHot old || old.therm.grp.contains 3) then setSPack (min 4 (s2.therm.sPack + 1)) s2
  else s2

/-- New AUX codes and flags become temperatures (R566), enter the means of the second (R568), and have their effects. -/
def auxConverted (old s : State) : State :=
  let t (k : Nat) : Option Int :=
    if auxUsed s k && !auxFlagged s k then some (ntcTemp (blk s 0x36 2) (blk s 0x34 2) (auxBeta s k) (nth s.cell.aux k 0).toNat) else none
  let sums := s.therm.secAux.mapIdx fun k x => match t k with | some v => (x.1 + v, x.2 + 1) | none => x
  settleAux old { s with therm.auxT := (List.range 8).map t, therm.secAux := sums }

end Sys2Proof.Machine
end

