-- ==== Sys2Proof/Machine/Thermal.lean ====
section
/-! DEFINITION. The AUX converter and the thermal manager: AUX samples, `VTREF`, the die, the throttle step, rates of rise, cross-checks and reports
(R367 to R369, R557 to R574). -/

namespace Sys2Proof.Machine

open Sys2Proof

/-! ## AUX samples -/

/-- The code of an AUX input (R367); with no reference voltage the quotient has no value, and the code is a free one (log 52). -/
def auxCode (uV vtref : Nat) : BitVec 16 :=
  if vtref = 0 then BitVec.ofNat 16 (Config.noCode 16 uV) else BitVec.ofNat 16 (min 65535 (65536 * uV / vtref))

/-- The flags of an AUX result (R368). -/
def auxFlagsOf (code : BitVec 16) (bad tstep hold : Bool) : BitVec 8 :=
  BitVec.ofNat 8 (b2n (0xFF00 ≤ code.toNat) + 2 * b2n (code.toNat ≤ 0x00FF) + 4 * b2n bad + 8 * b2n tstep + 16 * b2n hold)

/-- Fitted channels that newly show `OPEN` or `SHORT` raise event 0x47. -/
def noteAuxOpen (old s : State) : State :=
  ((List.range 8).filter fun k => auxUsed s k && (nth s.cell.auxFlags k 0) &&& 3 &&& ~~~(nth old.cell.auxFlags k 0) != 0).foldl
    (fun s k => raise 0x47 (det (k + 1 : Nat) (nth s.cell.aux k 0).toNat (nth s.cell.auxFlags k 0).toNat 0) s) s

/-- The conversion of the eight AUX inputs (R367 to R369); `VTREF_BAD` clears with the first sample taken after `VTREF` has been within limits for 10 ms. -/
def auxConvert (auxUV : List Nat) (vtrefUV : Nat) (s : State) : State :=
  let bad := s.cell.vtrefBad && !(match s.cell.vtrefOkAt with | some t => decide (t + 10 * Config.ms ≤ s.clk) | none => false)
  let codes := (List.range 8).map fun k => auxCode (nth auxUV k 0) vtrefUV
  let flags := codes.map fun c => auxFlagsOf c bad (s.cell.tstepAux == 1) (heldAt (s.clk - s.time.ns % 4000000 / 10) s)
  let s1 := { s with cell.aux := codes, cell.auxFlags := flags, cell.vtrefBad := bad, cell.tstepAux := s.cell.tstepAux - 1 }
  auxConverted s (noteAuxOpen s s1)

/-- The grid instant of an AUX sample (R332, R367). -/
def auxInstant (s : State) : Nat := s.time.ns / 4000000 * 4000000

/-- AUX_SAMPLE (R367, R368, R374, R376): a conversion of all eight inputs, with its entries for the AUX ring and the AUX stream. -/
def execAuxSample (auxUV : List Nat) (vtrefUV : Nat) (s : State) : Out :=
  if !measuring s then .next s
  else
    let s1 := auxConvert auxUV vtrefUV s
    let e := auxEntry s1 (auxInstant s1)
    let r := ringEntry s1.regs.auxRbCfg 32 1 e s1.cell.auxRing s1
    .next (streamEntry 0x11 e { r.2.1 with cell.auxRing := r.1 })

/-- VTREF_FAULT (R369): `VTREF` leaves its limits; every AUX result carries `VTREF_BAD`. -/
def execVtrefFault (s : State) : Out :=
  let s1 := { s with sys.vtrefFault := true, cell.vtrefBad := true, cell.vtrefOkAt := none, cell.auxFlags := s.cell.auxFlags.map (· ||| 4) }
  let s2 := if s.cell.vtrefBad then s1 else raise 0x48 (det 0 0 4 0) s1
  .next (settleAux s s2)

/-- VTREF_WITHIN_LIMITS (R369): `VTREF` is back; 10 ms later the flag may clear. -/
def execVtrefWithinLimits (s : State) : Out := .next { s with sys.vtrefFault := false, cell.vtrefOkAt := some s.clk }

/-! ## The die -/

/-- The readings of the last 2 s, and the newest one before them. -/
def keepHist (clk : Nat) (l : List (Nat × Int)) : List (Nat × Int) :=
  let old (x : Nat × Int) : Bool := decide (x.1 + 2 * Config.sec ≤ clk)
  l.filter (fun x => !old x) ++ (l.filter old).take 1

/-- A reading of the die diode (R557 to R563): the history, the rate, the level. A reading shows that the diode is neither open nor shorted (R571, log 54). -/
def measureDie (t : Int) (s : State) : State :=
  let s1 := { s with therm.temp := t, therm.hardFault := false, therm.secSum := (s.therm.secSum.1 + t, s.therm.secSum.2 + 1) }
  let s2 := judgeDie t (judgeRise t s1)
  { s2 with therm.hist := keepHist s.clk ((s.clk, t) :: s2.therm.hist) }

/-- DIE_MEASURE (R557). -/
def execDieMeasure (tenths : Int) (s : State) : Out := if measuring s then .next (measureDie tenths s) else .next s

/-- COMPARATOR_TRIP (R559, R590): the comparator acts whatever the sensor's state, while `VREG` is up. -/
def execComparatorTrip (s : State) : Out := if measuring s then .next (enterShutdown s) else .next s

/-- The present reading is at least 1.0 °C below the reading 2 s earlier (R563). -/
def dieFalling (s : State) : Bool :=
  match s.therm.hist.find? fun x => decide (x.1 + 2 * Config.sec ≤ s.clk) with
  | some (_, u) => decide (s.therm.temp + 10 ≤ u)
  | none => false

/-- THROTTLE_STEP_TIMER (R563, R564): the die step or the pack step moves at its interval. -/
def execThrottleStepTimer (pack : Bool) (s : State) : Out :=
  if !measuring s then .next s
  else if pack then
    if s.therm.grp.contains 3 then .next (setSPack 4 s)
    else if packHot s then .next (setSPack (min 4 (s.therm.sPack + 1)) s)
    else .next (setSPack (s.therm.sPack - 1) s)
  else if s.therm.level == .shutdown ∨ s.therm.level == .cooling then .next (setSDie 4 s)
  else if s.therm.broken then .next (setSDie (min 4 (s.therm.sDie + 1)) s)
  else if s.therm.level == .throttle then (if dieFalling s then .next s else .next (setSDie (min 4 (s.therm.sDie + 1)) s))
  else if s.therm.rise then .next s
  else .next (setSDie (s.therm.sDie - 1) s)

/-- DIE_SENSOR_FAULT (R571): an open or shorted diode; or the cross-check has failed for 10 s. -/
def execDieSensorFault (hard : Bool) (s : State) : Out :=
  if !measuring s then .next s
  else if hard then .next (breakDie { s with therm.hardFault := true })
  else if 10 ≤ s.therm.xBad then .next (breakDie s)
  else .next s

/-- UMBER_TEMP_READ (R571, R593): Umber's die temperature, over the inter-die link. -/
def execUmberTempRead (tenths : Int) (s : State) : Out :=
  if measuring s ∧ s.umber.linkUp ∧ s.sys.variant == .m then
    .next { s with umber.temp := tenths, therm.umbTemp := tenths, therm.umbAt := some s.clk } else .next s

/-- Umber's reading is available: taken within the last 2 s (R593, R602). -/
def umbValid (s : State) : Bool :=
  s.sys.variant == .m && s.umber.linkUp && (match s.therm.umbAt with | some t => decide (s.clk ≤ t + 2 * Config.sec) | none => false)

/-- SD_CNT_EXPIRY (R561, R592): the oldest entry leaves the hour; a latched shutdown keeps its count. -/
def execSdCntExpiry (s : State) : Out :=
  if s.therm.latched then .next s else .next { s with therm.sdTimes := s.therm.sdTimes.dropLast }

/-! ## Each second -/

/-- The mean of a channel over the second that ends (R568), in 0.1 °C; none for fewer than 125 valid conversions. -/
def auxMean (s : State) (k : Nat) : Option Rat :=
  let x := nth s.therm.secAux k (0, 0)
  if 125 ≤ x.2 then some ((x.1 : Rat) / (x.2 : Rat)) else none

/-- The rate of a channel in °C/min (R568, R573). -/
def auxRateNow (s : State) (k : Nat) : Option Rat :=
  if auxBad s k || !auxUsed s k then none
  else
    match auxMean s k, nth (nth s.therm.auxHist k []) 59 none with
    | some m, some o => some ((m - o) / 10)
    | _, _ => none

/-- The rate of rise of a channel for one second (R568, R572, R573): 10 s above its group's level set `ROR`, 60 s below half of it clear it, and a broken channel
has none. -/
def rorChannel (s : State) (k : Nat) : State :=
  let r := auxRateNow s k
  let lvl : Rat := (grpRor s (auxGroup s k) : Rat) / 10
  let on := lvl != 0 && (match r with | some r => decide (lvl < r) | none => false)
  let half := match r with | some r => decide (r < lvl / 2) | none => false
  let hi := if on then min 10 (nth s.therm.rorHi k 0 + 1) else 0
  let lo := if half then min 60 (nth s.therm.rorLo k 0 + 1) else 0
  let was := s.therm.ror.getLsbD k
  let now := if auxBad s k || !auxUsed s k then false else if was then decide (lo < 60) else decide (10 ≤ hi)
  let s1 := { s with therm.auxRate := s.therm.auxRate.set k r, therm.rorHi := s.therm.rorHi.set k hi, therm.rorLo := s.therm.rorLo.set k lo,
                     therm.ror := setBit s.therm.ror k now, therm.auxHist := s.therm.auxHist.set k ((auxMean s k :: nth s.therm.auxHist k []).take 60) }
  if now && !was then raise 0x5F (thermDetail (k + 1) ((nth s.therm.auxT k none).getD 0) (nth s.therm.chLevel k 0)) s1 else s1

/-- The median of a channel's valid neighbours (R572). -/
def nbrMedian (s : State) (k : Nat) : Option Rat :=
  median (((List.range 8).filter fun j => j != k && auxNbr s k j && auxUsed s j && !auxBad s j).filterMap (auxMean s))

/-- The comparison of a channel with its neighbours for one second (R572): 60 s below break it, 60 s above set `DISAGREE`, 60 s of agreement end either
(for `DISAGREE` log 55). `o` is the state at the end of the second. -/
def compareChannel (o s : State) (k : Nat) : State :=
  let d : Option Rat := if auxUsed o k then
      match auxMean o k, nbrMedian o k with
      | some m, some n => some (m - n)
      | _, _ => none
    else none
  let hold (p : Rat → Bool) : Bool := match d with | some d => p d | none => false
  let x := xtolAux o
  let lo := if hold (fun d => decide (d < -x)) then min 60 (nth s.therm.lowFor k 0 + 1) else 0
  let hi := if hold (fun d => decide (x < d)) then min 60 (nth s.therm.highFor k 0 + 1) else 0
  let ag := if hold (fun d => decide (-x / 2 ≤ d) && decide (d ≤ x / 2)) then min 60 (nth s.therm.agreeFor k 0 + 1) else 0
  { s with therm.lowFor := s.therm.lowFor.set k lo, therm.highFor := s.therm.highFor.set k hi, therm.agreeFor := s.therm.agreeFor.set k ag,
           therm.auxCmpBroken := setBit s.therm.auxCmpBroken k ((s.therm.auxCmpBroken.getLsbD k || decide (60 ≤ lo)) && decide (ag < 60)),
           therm.disagree := setBit s.therm.disagree k ((s.therm.disagree.getLsbD k || decide (60 ≤ hi)) && decide (ag < 60)) }

/-- The references of the die sensor that are available, in 0.1 °C (R571, R593, R595). -/
def dieRefs (s : State) : List Int :=
  let k := blk s 0x30 1 % 16
  (if umbValid s then [s.therm.umbTemp] else []) ++
    (if 1 ≤ k ∧ k ≤ 8 ∧ auxValid s (k - 1) then [(nth s.therm.auxT (k - 1) none).getD 0] else [])

/-- The cross-check of the die sensor for one second (R571). -/
def compareDie (s : State) : State :=
  let n := s.therm.secSum.2
  let m : Rat := (s.therm.secSum.1 : Rat) / (n : Rat)
  let refs := dieRefs s
  let x : Rat := (xtolDie s : Rat)
  let far (r : Int) : Bool := decide (x < m - r) || decide (m - r < -x)
  let near (r : Int) : Bool := decide (m - r ≤ x / 2) && decide (-x / 2 ≤ m - r)
  let bad := n != 0 && !refs.isEmpty && refs.all far
  let good := n != 0 && refs.all near
  let g := if good then min 60 (s.therm.xGood + 1) else 0
  { s with therm.secSum := (0, 0), therm.xBad := if bad then min 10 (s.therm.xBad + 1) else 0, therm.xGood := g,
           therm.broken := s.therm.broken && !(decide (60 ≤ g) && !s.therm.hardFault) }

/-- ROR_EVAL (R568, R571, R572): at the end of each second the rates of rise and the cross-checks are evaluated. -/
def execRorEval (s : State) : Out :=
  if !measuring s then .next s
  else
    let s1 := (List.range 8).foldl rorChannel s
    let s2 := (List.range 8).foldl (compareChannel s) s1
    let s3 := compareDie { s2 with therm.secAux := List.replicate 8 (0, 0) }
    .next (settleAux s s3)

/-! ## Reports -/

/-- Group g shows a rate of rise (R574). -/
def groupRor (s : State) (g : Nat) : Bool := (List.range 8).any fun k => s.therm.ror.getLsbD k && auxUsed s k && auxGroup s k == g

/-- The levels of the four groups, two bits each (R574, R602). -/
def grpBits (s : State) : Nat := ((List.range 4).map fun g => nth s.therm.grp g 0 * 4 ^ g).foldl (· + ·) 0

/-- The 32 bytes of the thermal report (R574). -/
def thermReport (s : State) : List Byte :=
  let t := s.therm
  let valid := maskOf 8 (auxValid s)
  let temp (k : Nat) : Int := (nth t.auxT k none).getD (-0x8000)
  let rate (k : Nat) : Int := match nth t.auxRate k none with | some r => clampI (-128) 127 (roundFree (2 * r)) | none => 0
  le 2 (fieldI 16 t.temp) ++ le 1 (dieCode t.level + 8 * b2n t.rise + 16 * b2n (!t.broken) + 32 * b2n t.latched) ++ le 1 (grpBits s) ++
    le 1 (maskOf 4 (groupRor s)).toNat ++ le 1 valid.toNat ++ le 1 t.disagree.toNat ++ le 1 t.ror.toNat ++
    ((List.range 8).map fun k => leI 2 (temp k)).flatten ++ ((List.range 8).map fun k => leI 1 (rate k)).flatten

/-- THERMAL_REPORT (R574): the report on alive channel 3. -/
def execThermalReport (s : State) : Out := if measuring s then .next (sendOnDie 3 (thermReport s) s) else .next s

end Sys2Proof.Machine
end

