-- ==== Sys2Proof/Machine/SportOps.lean ====
section
/-! DEFINITION. The sensor ports' shared operations: frames, staleness, line power, restart (R575 to R583). -/

namespace Sys2Proof.Machine

open Sys2Proof

/-- A sensor port by number, 0 for `SP_1`. -/
def spPort (s : State) (n : Nat) : SpSt := if n = 0 then s.sp1 else s.sp2

/-- A sensor port changed. -/
def setSp (n : Nat) (f : SpSt → SpSt) (s : State) : State :=
  if n = 0 then { s with sp1 := f s.sp1 } else { s with sp2 := f s.sp2 }

/-- `SP_n_CFG` (R603). -/
def spCfg (s : State) (n : Nat) : Word := if n = 0 then s.regs.sp1Cfg else s.regs.sp2Cfg
def spMode (s : State) (n : Nat) : Nat := rf (spCfg s n) 1 0

/-- The port supplies its satellite over the line (R575). -/
def spPowers (s : State) (n : Nat) : Bool := 2 ≤ spMode s n

/-- The data nibbles of a frame (R603). -/
def spNib (s : State) (n : Nat) : Nat := max 1 (min 6 (rf (spCfg s n) 6 4))

/-- The nominal tick in 0.1 µs (R603). -/
def spTick (s : State) (n : Nat) : Nat := max 30 (min 900 (rf (spCfg s n) 17 8))

/-- The self-test pattern is being sent: 6 ms from its start (R583). -/
def spTesting (s : State) (n : Nat) : Bool :=
  match (spPort s n).testAt with
  | some t => decide (t ≤ s.clk) && decide (s.clk < t + 6 * Config.ms)
  | none => false

/-- The line power as it stands (R581 to R583): in the self-test pattern it is off, on and off again for 2 ms each. -/
def linePower (s : State) (n : Nat) : Bool :=
  (spPort s n).linePwr && !(spTesting s n && (match (spPort s n).testAt with | some t => (s.clk - t) / (2 * Config.ms) != 1 | none => false))

/-- `SP_n_STAT.STATE` (R603). -/
def spState (s : State) (n : Nat) : Nat :=
  if spTesting s n then 5
  else match (spPort s n).st with
    | .off => 0 | .searching => 1 | .running => 2 | .lineLow => 3 | .vspAbsent => 4 | .selfTest => 5

/-- The type a port reports (R578): with fewer than 6 nibbles type 0. -/
def spType (s : State) (n : Nat) : Nat := if spNib s n < 6 then 0 else (spPort s n).ty

/-- The age of the value in ms, saturating (R580, R603). -/
def spAge (s : State) (n : Nat) : Nat :=
  match (spPort s n).atClk with
  | some t => min 65535 ((s.clk - t) / Config.ms)
  | none => 65535

/-- A channel's value is valid (R578): a frame has come, and the code is no satellite-reported condition. -/
def chValid (p : SpSt) (code : Nat) : Bool := p.atClk.isSome && decide (code < 4088)

/-- The flags of a port's value (R580, R584). -/
def spFlags (s : State) (n : Nat) : Nat :=
  let p := spPort s n
  b2n p.stale + 2 * b2n p.proofBit + 4 * b2n p.satFault + 8 * b2n (chValid p p.ch1) + 16 * b2n (chValid p p.ch2)

/-- The detail of a port event (R799): port, channel codes, port state. -/
def spDetail (s : State) (n : Nat) : List Byte :=
  let p := spPort s n
  det (n + 1 : Nat) (p.ch1 + 65536 * p.ch2 : Nat) (spState s n) 0

/-- A port's value turns `STALE` (R580, R604): event 0x72 in ACTIVE and IDLE. -/
def setStale (n : Nat) (s : State) : State :=
  if (spPort s n).stale then s
  else
    let s1 := setSp n (fun p => { p with stale := true }) s
    if measuring s then raise 0x72 (spDetail s1 n) s1 else s1

/-- The gas baseline of a port is learned anew (R611). -/
def relearn (n : Nat) (s : State) : State :=
  { s with watch.learn := s.watch.learn.set n true, watch.learnSum := s.watch.learnSum.set n (0, 0) }

/-- A port's line power in ACTIVE and IDLE, and in a burst (R575, R582): on in modes 2 and 3; without `VSP` the port is `VSP_ABSENT` (R581). -/
def powerPort (n : Nat) (s : State) : State :=
  let p := spPort s n
  if spMode s n = 0 then setSp n (fun p => { p with st := .off, linePwr := false }) s
  else if !spPowers s n then setSp n (fun p => { p with st := if p.st == .off || p.st == .vspAbsent then .searching else p.st, linePwr := false }) s
  else if s.pins.vsp then setSp n (fun p => { p with st := if p.st == .off || p.st == .vspAbsent then .searching else p.st, linePwr := true }) s
  else if p.st == .vspAbsent then s
  else
    let s1 := setSp n (fun p => { p with st := .vspAbsent, linePwr := false }) s
    setStale n (raise 0x75 (spDetail s1 n) s1)

/-- A port starts with its settings, without a type, without a value (R601). -/
def startPort (n : Nat) (s : State) : State :=
  setStale n (powerPort n (setSp n (fun p => { p with st := .off, ty := 0, prevCal := none, satFault := false, proofBit := false }) s))

/-- The port listens (R582): in ACTIVE and IDLE, and during a SENTINEL burst. -/
def spListens (s : State) (n : Nat) : Bool :=
  let p := spPort s n
  spMode s n != 0 && p.st != .off && p.st != .vspAbsent && (measuring s || p.burst)

/-- The port accepts frames (R582): in a burst from 20 ms to 50 ms after its start. -/
def spAccepts (s : State) (n : Nat) : Bool :=
  let t := (spPort s n).burstAt
  spListens s n && (measuring s || (decide (t + 20 * Config.ms ≤ s.clk) && decide (s.clk ≤ t + 50 * Config.ms)))

/-! ## Frames -/

/-- The recommended CRC-4 of J2716 (R576): x⁴ + x³ + x² + 1, seed 0b0101, over the nibbles and one zero nibble. -/
def crc4 (l : List Nat) : Nat :=
  let mulx (c : Nat) : Nat := if 8 ≤ c then Nat.xor (2 * c) 29 else 2 * c
  (l ++ [0]).foldl (fun c n => Nat.xor (mulx (mulx (mulx (mulx c)))) (n % 16)) 5

/-- The length of a pulse in whole ticks of a calibration pulse of 56 ticks: the nearest number; a tie is a free value (log 3). -/
def pulseTicks (cal pulse : Nat) : Nat :=
  let q := 112 * pulse / cal
  if q % 2 = 0 then q / 2 else if 112 * pulse % cal = 0 ∧ Config.roundsUp (56 * pulse) cal = false then q / 2 else q / 2 + 1

/-- A calibration pulse, in 10 ns, is accepted (R577): within 25 % of 56 nominal ticks, and within 1/64 of the previous accepted one. -/
def calOk (s : State) (n cal : Nat) : Bool :=
  let nom := 560 * spTick s n
  decide (3 * nom ≤ 4 * cal) && decide (4 * cal ≤ 5 * nom) && cal != 0 &&
    (match (spPort s n).prevCal with
      | some c => decide (63 * c ≤ 64 * cal) && decide (64 * cal ≤ 65 * c)
      | none => true)

/-- An invalid frame is discarded and counted (R577, R603): 10 within a second raise event 0x74, at most once per minute. -/
def badFrame (n : Nat) (f : SpSt → SpSt) (s : State) : State :=
  let s1 := setSp n (fun p => f { p with badTimes := s.clk :: p.badTimes.filter fun t => decide (s.clk < t + Config.sec) }) s
  let p := spPort s1 n
  let due := match p.last74 with | some t => decide (t + 60 * Config.sec ≤ s.clk) | none => true
  if 10 ≤ p.badTimes.length && due then raise 0x74 (spDetail s1 n) (setSp n (fun p => { p with last74 := some s.clk }) s1) else s1

/-- An accepted calibration pulse and its measured tick (R577, R603). -/
def takeCal (cal : Nat) (p : SpSt) : SpSt := { p with prevCal := some cal, meas := fieldN 16 (divFree cal 56) }

/-- A valid frame (R577 to R581): its nibbles, its flags, and the state `RUNNING`; one that comes during the self-test pattern is flagged `PROOF` (R598). -/
def goodFrame (n cal status : Nat) (d : List Nat) (s : State) : State :=
  let ch (i : Nat) : Nat := 256 * nth d i 0 + 16 * nth d (i + 1) 0 + nth d (i + 2) 0
  let old := spPort s n
  let s1 := setSp n (fun p =>
    { takeCal cal p with
             st := .running, stale := false, atClk := some s.clk,
             frames := satAdd 65535 p.frames 1, total := (p.total + 1) % 2 ^ 32, ch1 := ch 0, ch2 := ch 3, status := status,
             satFault := bitN status 0, proofBit := bitN status 1 || spTesting s n, burstGot := true }) s
  let s2 := if old.st == .running then s1 else raise 0x70 (spDetail s1 n) s1
  if bitN status 0 && !old.satFault then raise 0x73 (spDetail s2 n) s2
  else if old.satFault && !bitN status 0 then relearn n s2
  else s2

/-- A frame as the port receives it (R576, R577): the calibration pulse, the pulses of the status, data and CRC nibbles, and a pause pulse. -/
def takeSentFrame (n cal : Nat) (pulses : List Nat) (pause : Option Nat) (s : State) : State :=
  if !calOk s n cal then badFrame n (fun p => { p with calCnt := satAdd 255 p.calCnt 1 }) s
  else
    let ticks := pulses.map (pulseTicks cal)
    let pauseOk := match pause with
      | some t => rf (spCfg s n) 2 2 == 1 && decide (12 ≤ pulseTicks cal t) && decide (pulseTicks cal t ≤ 768)
      | none => true
    if ticks.any (fun t => t < 12 || 27 < t) || pulses.length != spNib s n + 2 || !pauseOk then
      badFrame n (fun p => takeCal cal { p with nibCnt := satAdd 255 p.nibCnt 1 }) s
    else
      let nibs := ticks.map (· - 12)
      let data := (nibs.drop 1).take (spNib s n)
      if crc4 data ≠ nth nibs (spNib s n + 1) 0 then badFrame n (fun p => takeCal cal { p with crcCnt := satAdd 255 p.crcCnt 1 }) s
      else goodFrame n cal (nth nibs 0 0) data s

end Sys2Proof.Machine
end

