-- ==== Sys2Proof/Machine/Sport.lean ====
section
/-! DEFINITION. The sensor ports: SENT frames, serial messages, reports, stuck lines and line power, SENTINEL bursts, reads (R575 to R584, R598 to R601). -/

namespace Sys2Proof.Machine

open Sys2Proof

/-- SENT_FRAME (R577). -/
def execSentFrame (port : Fin 2) (cal10ns : Nat) (pulses10ns : List Nat) (pause10ns : Option Nat) (s : State) : Out :=
  if spAccepts s port.val then .next (takeSentFrame port.val cal10ns pulses10ns pause10ns s) else .next s

/-- The satellite's type (R579): a change raises event 0x77, makes the value `STALE`, and starts the learning of the gas baseline (R611). -/
def takeType (n ty : Nat) (s : State) : State :=
  if (spPort s n).ty = ty then s
  else
    let s1 := setSp n (fun p => { p with ty := ty }) s
    setStale n (relearn n (raise 0x77 (spDetail s1 n) s1))

/-- The self-test request has gone out whole (R583). -/
def requestSent (s : State) (n : Nat) : Bool :=
  match (spPort s n).testAt with
  | some t => decide (t + 6 * Config.ms ≤ s.clk)
  | none => false

/-- SERIAL_MESSAGE (R576, R579, R583, R639): an enhanced serial message; the type and the self-test result come in the 12-bit format. -/
def execSerialMessage (port : Fin 2) (fmt : Bool) (ident : Byte) (value : BitVec 16) (crcOk : Bool) (s : State) : Out :=
  let n := port.val
  if !spAccepts s n then .next s
  else if !crcOk then .next (setSp n (fun p => { p with esmCnt := satAdd 255 p.esmCnt 1 }) s)
  else
    let s1 := setSp n (fun p => { p with esmId := ident.toNat, esmData := value.toNat, esmFmt := fmt }) s
    if fmt then .next s1
    else if ident = 0x01 then .next (takeType n (value.toNat % 256) s1)
    else if ident = 0x09 ∧ (spPort s n).awaiting = true ∧ requestSent s n = true then
      let s2 := setSp n (fun p => { p with awaiting := false, satFailed := value != 0 }) s1
      .next (if value = 0 then s2 else raise 0x76 (spDetail s2 n) s2)
    else .next s1

/-- The report of a port to the watch (R580): type, flags, both codes, age; the order of the fields is the model's, that of `SPORT_READ` (log 32). -/
def sportData (s : State) (n : Nat) : List Byte :=
  let p := spPort s n
  le 1 (spType s n) ++ le 1 (spFlags s n) ++ le 2 p.ch1 ++ le 2 p.ch2 ++ le 2 (spAge s n)

/-- SPORT_REPORT (R580): on alive channel 4 or 5. -/
def execSportReport (port : Fin 2) (s : State) : Out :=
  if measuring s ∧ spMode s port.val ≠ 0 then .next (sendOnDie (4 + port.val) (sportData s port.val) s) else .next s

/-- SPORT_STALE (R580): no valid frame for `STALE_MS` × 10 ms. -/
def execSportStale (port : Fin 2) (s : State) : Out := .next (setStale port.val s)

/-- LINE_LOW (R581, R599): no rising edge within 3 ms of a falling edge; in modes 2 and 3 the line power goes off. A line still low at a check stays off until the next. -/
def execLineLow (port : Fin 2) (s : State) : Out :=
  let n := port.val
  if !spListens s n then .next s
  else if (spPort s n).st = .lineLow then .next (setSp n (fun p => { p with linePwr := false }) s)
  else
    let s1 := setSp n (fun p => { p with st := .lineLow, linePwr := false }) s
    .next (setStale n (raise 0x71 (spDetail s1 n) s1))

/-- LINE_POWER_RESTORE (R581): the line power comes back on; where the line is low again within 3 ms it goes off until the next check. -/
def execLinePowerRestore (port : Fin 2) (stillLow : Bool) (s : State) : Out :=
  let n := port.val
  if (spPort s n).st = .lineLow ∧ spPowers s n ∧ spListens s n then .next (setSp n (fun p => { p with linePwr := !stillLow }) s) else .next s

/-- LINE_RETRY (R581): every 10 s while the line stays low the line power is tried again. -/
def execLineRetry (port : Fin 2) (s : State) : Out :=
  let n := port.val
  if (spPort s n).st = .lineLow ∧ spPowers s n ∧ spListens s n then .next (setSp n (fun p => { p with linePwr := true }) s) else .next s

/-- VSP_ABSENT (R581, R93): `VSP` falls below 4.5 V; ports in modes 2 and 3 lose their supply. -/
def execVspAbsent (s : State) : Out :=
  let s1 := { s with pins.vsp := false }
  let lose (s : State) (n : Nat) : State := if spPowers s n && (measuring s || (spPort s n).burst) then powerPort n s else s
  .next (lose (lose s1 0) 1)

/-- VSP_RESTORED (R581): `VSP` is back; a port in `VSP_ABSENT` leaves that state and powers its line again. -/
def execVspRestored (s : State) : Out :=
  let s1 := { s with pins.vsp := true }
  let back (s : State) (n : Nat) : State := if (spPort s n).st == .vspAbsent && (measuring s || (spPort s n).burst) then powerPort n s else s
  .next (back (back s1 0) 1)

/-- `SPORT_CFG_WRITE` (R601): the port restarts with the new settings. -/
def writeSpCfg (n : Nat) (value : Word) (s : State) : State :=
  let w := value &&& 0x03FFFF77
  let s1 := if n = 0 then { s with regs.sp1Cfg := w } else { s with regs.sp2Cfg := w }
  startPort n s1

/-- SPORT_CFG_WRITE (R601). -/
def execSportCfgWrite (port : Fin 2) (value : Word) (s : State) : Out := .next (writeSpCfg port.val value s)

/-- `SP_n_ERRS` (R603). -/
def spErrs (p : SpSt) : Nat := p.crcCnt % 256 + 256 * (p.calCnt % 256) + 65536 * (p.nibCnt % 256) + 16777216 * (p.esmCnt % 256)

/-- A read of `SP_n_ERRS` clears the counts (R603). -/
def clearErrs (n : Nat) (s : State) : State := setSp n (fun p => { p with crcCnt := 0, calCnt := 0, nibCnt := 0, esmCnt := 0 }) s

/-- `SPORT_READ` (R584). -/
def cmdSportRead (port : Byte) (s : State) : Res :=
  if port ≠ 1 ∧ port ≠ 2 then Res.of stBadParam s
  else
    let n := port.toNat - 1
    let p := spPort s n
    let data := le 1 (spState s n) ++ le 1 (spType s n) ++ le 1 (spFlags s n) ++ le 1 p.status ++ le 2 p.ch1 ++ le 2 p.ch2 ++ le 2 (spAge s n) ++ le 2 p.meas ++
      le 4 (spErrs p) ++ le 1 p.esmId ++ le 1 0 ++ le 2 p.esmData ++ le 4 p.total
    { st := clearErrs n s, status := stOk, data := data }

/-- SPORT_READ (R584). -/
def execSportRead (rq : Req) (port : Byte) (s : State) : Out := .next (runCmd 0x70 rq (cmdSportRead port) s)

end Sys2Proof.Machine
end

