-- ==== Sys2Proof/Machine/WatchOps.lean ====
section
/-! DEFINITION. The runaway watch's levels: what evidence is available and present, the sets P and S, the rules of the levels, and what each level does
(R608 to R617, R629, R634 to R638). -/

namespace Sys2Proof.Machine

open Sys2Proof

/-! ## Availability -/

/-- A port supplies gas, or pressure, as its type says (R578, R607). -/
def givesGas (s : State) (n : Nat) : Bool := spType s n == 1 || spType s n == 3
def givesPressure (s : State) (n : Nat) : Bool := spType s n == 2 || spType s n == 3

/-- A port's value is evidence (R608): flagged neither `STALE`, `PROOF` nor `SAT_FAULT`, and its last self-test did not fail (R626). -/
def satClean (s : State) (n : Nat) : Bool := spMode s n != 0 && spFlags s n % 8 == 0 && !(spPort s n).satFailed

/-- C1 of a port is available (R608). -/
def gasAvail (s : State) (n : Nat) : Bool := givesGas s n && satClean s n && bitN (spFlags s n) 3 && !nth s.watch.learn n true

/-- C2 of a port is available (R608). -/
def presAvail (s : State) (n : Nat) : Bool := givesPressure s n && satClean s n && bitN (spFlags s n) (if spType s n = 2 then 3 else 4)

/-- The control core's criteria are there (R605, R606): in ACTIVE and IDLE, while it passes them. -/
def coreGives (s : State) : Bool := measuring s && !s.watch.coreStale

/-- C3 is available (R608): a valid AUX channel in a group that detects a rate of rise. -/
def c3Avail (s : State) : Bool :=
  (List.range 8).any fun k => bitN (field s.watch.therm 5 1) k && grpRor s (auxGroup s k) != 0

/-- C6 is available (R608): a fitted AUX channel is valid. -/
def c6Avail (s : State) : Bool := field s.watch.therm 5 1 != 0

/-- C4 is available (R608, R626). -/
def c4Avail (s : State) : Bool :=
  coreGives s && s.cell.isnsFlags &&& 0x0B == 0 && ((List.range 16).any fun k => cellUsed s k && nth s.cell.limFlags k 0 == 0) &&
    !s.watch.pfailed.getLsbD 1 && !s.watch.pfailed.getLsbD 2

/-- A cell whose C5 baseline is learned and whose R0_t is valid. -/
def c5Cell (s : State) (k : Nat) : Bool := s.watch.c5Valid.getLsbD k && (nth s.watch.base5 k none).isSome

/-- C5 is available (R608, R626): a report within 3 s, at least 4 valid cells, a baseline, no shutdown, the self-test passed. -/
def c5Avail (s : State) : Bool :=
  coreGives s && (match s.watch.c5At with | some t => decide (s.clk ≤ t + 3 * Config.sec) | none => false) &&
    decide (4 ≤ (ones s.watch.c5Valid).length) && (List.range 16).any (c5Cell s) && !s.therm.lines &&
    !s.watch.pfailed.getLsbD 1 && !s.watch.pfailed.getLsbD 2 && !s.watch.pfailed.getLsbD 12

/-- The unavailable criteria, bit i - 1 for Ci (R608). -/
def unavailNow (s : State) : BitVec 6 :=
  maskOf 6 fun i =>
    if i = 0 then !(gasAvail s 0 || gasAvail s 1) else if i = 1 then !(presAvail s 0 || presAvail s 1) else if i = 2 then !c3Avail s
    else if i = 3 then !c4Avail s else if i = 4 then !c5Avail s else !c6Avail s

/-! ## P and S -/

/-- An item of evidence: own C1 of port 0 or 1 (0, 1), own C2 of port 0 or 1 (2, 3), C3 to C6 (4 to 7), and C1 and C2 of peer j (8 + 2j, 9 + 2j). -/
abbrev Item := Nat

/-- The criterion of an item, 0 for C1. -/
def critOf (i : Item) : Nat := if i < 2 then 0 else if i < 4 then 1 else if i < 8 then i - 2 else i % 2

/-- The physics class of a criterion (R607). -/
def physOf (c : Nat) : Nat := if c < 2 then c else if c = 2 || c = 5 then 2 else 3

/-- An own item can be evidence now (R608, R609). -/
def itemAvail (s : State) (i : Item) : Bool :=
  if i < 2 then gasAvail s i else if i < 4 then presAvail s (i - 2) else if i = 4 then c3Avail s else if i = 5 then c4Avail s
  else if i = 6 then c5Avail s else if i = 7 then c6Avail s
  else coreGives s && (nth s.watch.shares ((i - 8) / 2) none).isSome

/-- An item's evidence shows its criterion present (R607, R613). -/
def itemOn (s : State) (i : Item) : Bool :=
  if i < 2 then s.watch.c1On.getLsbD i
  else if i < 4 then s.watch.c2On.getLsbD (i - 2)
  else if i = 4 then field s.watch.therm 4 1 % 16 != 0
  else if i = 5 then (match s.watch.c4At with | some t => decide (s.clk < t + 10 * Config.sec) | none => false)
  else if i = 6 then (List.range 16).any fun k => s.watch.c5On.getLsbD k && c5Cell s k
  else if i = 7 then (List.range 4).any fun g => bits (field s.watch.therm 3 1) (2 * g + 1) (2 * g) == 3
  else match nth s.watch.shares ((i - 8) / 2) none with
    | some x => if i % 2 = 0 then x.c1 else x.c2
    | none => false

/-- All items. -/
def allItems : List Item := List.range 56

/-- The items present now. -/
def itemsNow (s : State) : List Item := allItems.filter fun i => itemAvail s i && itemOn s i

/-- The criteria of a list of items, bit i - 1 for Ci. -/
def critMask (l : List Item) : BitVec 6 := maskOf 6 fun c => l.any fun i => critOf i == c

/-- Two items are of different physics classes (R607, R610): C1 and C2 of one type-0x03 satellite are not. -/
def differ (s : State) (i j : Item) : Bool :=
  let oneSat :=
    if i < 4 && j < 4 then i % 2 == j % 2
    else if 8 ≤ i && 8 ≤ j then (i - 8) / 2 == (j - 8) / 2 && (match nth s.watch.shares ((i - 8) / 2) none with | some x => x.same | none => false)
    else false
  physOf (critOf i) != physOf (critOf j) && !(critOf i < 2 && critOf j < 2 && oneSat)

/-- The evidence seen in the last 60 s that is still available (R609, R613, R614). -/
def seenNow (s : State) : List (Item × Nat) := s.watch.seen.filter fun x => decide (s.clk ≤ x.2 + 60 * Config.sec) && itemAvail s x.1

/-- S as a mask of criteria (R614, R619). -/
def seenMask (s : State) : BitVec 6 := critMask ((seenNow s).map (·.1))

/-! ## Levels -/

/-- The detail of a watch event (R799): P, level, S. -/
def watchDetail (s : State) : List Byte := det 0 s.watch.own.toNat s.watch.level.code (seenMask s).toNat

/-- The ms from the start of a proof at which the result of a step is final (R624). -/
def stepEnd (k : Nat) : Nat := [1, 10, 20, 31, 51, 61, 0, 0, 134, 640, 540, 1140, 1190].getD k 0

/-- A step that is not final when a proof is aborted reads not run, and has no effect (R629). -/
def undoStep (s : State) (k : Nat) : State :=
  if s.watch.pstartAt + stepEnd k * Config.ms ≤ s.clk then s
  else { s with watch.pres := setBit (setBit s.watch.pres (2 * k) false) (2 * k + 1) false,
                watch.pfailed := setBit s.watch.pfailed k (s.watch.pold.getLsbD k) }

/-- Every step of a proof that is not final is undone. -/
def undoSteps (s : State) : State := (List.range 13).foldl undoStep s

/-- A proof is over without an end of its own: nothing of it goes on. -/
def stopProof (s : State) : State :=
  endSelfTest { s with watch.pst := .idle, watch.plast := 3, watch.dueAt := none, watch.dueSince := none, watch.pby := [], watch.owDue := false,
                       sp1.awaiting := false, sp1.testAt := none, sp2.awaiting := false, sp2.testAt := none }

/-- A proof that runs is aborted (R617, R629): steps not final read not run, and what asked for it completes with the result aborted. -/
def abortProof (s : State) : State :=
  if s.watch.pst == .running || s.watch.pst == .awaiting then
    s.watch.pby.foldl (fun s c => completeQueued c.1 c.2 (le 2 s.watch.pnum ++ le 1 3 ++ le 1 0 ++ le 4 s.watch.pres.toNat) s) (stopProof (undoSteps s))
  else s

/-- What `PRE-ALARM` and `ALARM` end (R549, R617): every sweep, every stimulus, a proof that runs. -/
def quiet (s : State) : State := abortProof (endStim allCh 0 (endSweep 6 s))

/-- The frame and the record of an ALARM (R617): event 0x7A as a held class 0 frame, and in Lampblack's reserved slots. -/
def alarmFrame (s : State) : State :=
  let d := watchDetail s
  let e : Entry := { src := 0x7A, pos := if s.chain.addr then s.chain.pos else 0, sev := 3, seq := nth s.evt.seqs 0x7A 0, stamp := eventStamp s,
                     lost := false, detail := d }
  sendAlarm e (raise 0x7A d s)

/-- Entry to `ALARM` (R616, R617, R637, R638): in SENTINEL the frame and the record wait for ACTIVE. -/
def enterAlarm (strong : Bool) (s : State) : State :=
  let s1 := quiet { s with watch.level := .alarm, watch.strong := strong, watch.levelAt := s.clk }
  if s.sys.mode == .sentinel then { s1 with sys.sentinelAlarm := true } else alarmFrame s1

/-- A level is entered from below, or fallen to (R617); a proof aborted earlier falls due 1 h after `NONE` (R629). -/
def enterLevel (l : Level) (up : Bool) (s : State) : State :=
  let s1 := { s with watch.level := l, watch.levelAt := s.clk }
  if !up then
    let s2 := raise 0x7B (watchDetail s1) s1
    if l == .none && s.watch.dueAt.isNone && s.watch.dueSince.isNone then { s2 with watch.dueAt := some (s.clk + 3600 * Config.sec) } else s2
  else if l == .preAlarm then quiet (raise 0x79 (watchDetail s1) s1)
  else raise 0x78 (watchDetail s1) s1

/-- The evidence of an evaluation (R614): P, the criteria's unbroken times, S. -/
def noteEvidence (now : List Item) (s : State) : State :=
  let p := critMask now
  let since := (ones p).map fun c => (c, (s.watch.since.lookup c).getD s.clk)
  let none4 := s.watch.minNone.map (· && s.watch.level == .none)
  { s with watch.own := p, watch.zone := maskOf 2 fun b => now.any fun i => 8 ≤ i && i % 2 == b, watch.unavail := unavailNow s, watch.since := since,
           watch.seen := now.map (fun i => (i, s.clk)) ++ (seenNow s).filter (fun x => !now.contains x.1), watch.confirmed := false,
           watch.lastP := if p = 0 then s.watch.lastP else s.clk, watch.minNone := none4 }

/-- The rules of the levels (R614, R634 to R636): ALARM, then PRE-ALARM, then WATCH. `old` is the state before the evaluation's evidence, `now` the items present. -/
def judgeLevel (old : State) (now : List Item) (s : State) : State :=
  let fresh := now.filter fun i => !old.watch.own.getLsbD (critOf i)
  let seen := (seenNow old).map (·.1)
  let confirm := old.watch.confirmed && (gasAvail s 0 || gasAvail s 1)
  let alarm := fresh.any (fun i => seen.any (differ s i) || fresh.any (differ s i)) || confirm
  let pre := decide (2 ≤ (ones s.watch.own).length) || s.watch.since.any fun x => decide (x.2 + 30 * Config.sec ≤ s.clk)
  let s1 := if pre then { s with watch.lastPre := s.clk } else s
  match s.watch.level with
  | .alarm => s1
  | .preAlarm =>
    if alarm then enterAlarm confirm s1
    else if !pre ∧ s.watch.lastPre + 60 * Config.sec ≤ s.clk then enterLevel .watch false s1
    else s1
  | .watch =>
    if alarm then enterAlarm confirm s1 else if pre then enterLevel .preAlarm true s1
    else if s.watch.own = 0 ∧ s.watch.lastP + 60 * Config.sec ≤ s.clk then enterLevel .none false s1
    else s1
  | .none =>
    if alarm then enterAlarm confirm s1 else if pre then enterLevel .preAlarm true s1
    else if s.watch.own ≠ 0 then enterLevel .watch true s1
    else s1

/-- One evaluation of the watch (R605, R609, R614): evidence of an unavailable source is dropped first. -/
def evalWatch (s : State) : State :=
  let drop (n : Nat) (s : State) : State :=
    let s1 := if satClean s n && bitN (spFlags s n) 3 && givesGas s n then s else dropGas n s
    if presAvail s1 n then (if measuring s1 then rollSecond n s1 else s1) else dropPressure n s1
  let s1 := drop 1 (drop 0 s)
  let now := itemsNow s1
  judgeLevel s1 now (noteEvidence now s1)

end Sys2Proof.Machine
end

