-- ==== Sys2Proof/Machine/Watch.lean ====
section
/-! DEFINITION. The rows of the runaway watch: evaluation, sharing, baselines, reports, the clear of an ALARM (R605 to R619, R637, R640, R644). -/

namespace Sys2Proof.Machine

open Sys2Proof

/-- WATCH_EVAL (R605, R614): every 100 ms in ACTIVE and IDLE; the wakes of SENTINEL evaluate for themselves. -/
def execWatchEval (s : State) : Out := if measuring s then .next (evalWatch s) else .next s

/-- ALARM_DEFERRED_ACTIONS (R637): the frame and the record of an ALARM decided in SENTINEL, once the member is ACTIVE. -/
def execAlarmDeferredActions (s : State) : Out :=
  if s.sys.sentinelAlarm ∧ measuring s then .next (alarmFrame { s with sys.sentinelAlarm := false }) else .next s

/-- CRITERIA_STALE (R606): the control core has passed no criterion state for 1 s. -/
def execCriteriaStale (s : State) : Out := .next { s with watch.coreStale := true }

/-- CRITERION_UNAVAILABLE (R644): a criterion has been unavailable for 60 s, other than during learning. -/
def execCriterionUnavailable (c : Fin 6) (s : State) : Out :=
  let learning := c.val = 0 ∧ ((givesGas s 0 ∧ nth s.watch.learn 0 true) ∨ (givesGas s 1 ∧ nth s.watch.learn 1 true))
  let learning5 := c.val = 4 ∧ s.watch.c5Valid ≠ 0 ∧ (List.range 16).all fun k => !s.watch.c5Valid.getLsbD k || (nth s.watch.base5 k none).isNone
  if !s.watch.unavail.getLsbD c.val ∨ learning ∨ learning5 then .next s
  else .next (raise 0x7F (det (2 ^ c.val : Nat) s.watch.own.toNat s.watch.level.code (seenMask s).toNat) s)

/-- The 4 bytes of a share message (R613): own C1 and C2, and whether one type-0x03 satellite gave both. -/
def shareData (s : State) : List Byte :=
  let on (i : Item) : Bool := itemAvail s i && itemOn s i
  le 1 (blk s 0x70 1) ++ le 1 (b2n (on 0 || on 1) + 2 * b2n (on 2 || on 3)) ++ le 1 (b2n ((on 0 && on 2) || (on 1 && on 3))) ++ [0]

/-- ZONE_SHARE_SEND (R613): to every peer of the zone. -/
def execZoneShareSend (s : State) : Out :=
  if !coreGives s then .next s
  else .next ((List.range 24).foldl (fun s j => if zonePeer s j then sendSafety j (shareData s) s else s) s)

/-- ZONE_SHARE_STALE (R613): a peer's bits stop counting, and leave the seen set. -/
def execZoneShareStale (peer : Fin 24) (s : State) : Out := .next { s with watch.shares := s.watch.shares.set peer.val none }

/-- GAS_LEARN_END (R611): the baseline is the mean of what the learning took in, at most `G_CAP`; a learning that took in no value goes on (log 57). -/
def execGasLearnEnd (port : Fin 2) (s : State) : Out :=
  let n := port.val
  let x := nth s.watch.learnSum n (0, 0)
  if !nth s.watch.learn n true ∨ x.2 = 0 then .next s
  else
    .next { s with watch.learn := s.watch.learn.set n false, watch.learnSum := s.watch.learnSum.set n (0, 0), watch.minSum := s.watch.minSum.set n (0, 0),
                   watch.gasBase := s.watch.gasBase.set n (min (gCap s : Rat) ((x.1 : Rat) / (x.2 : Rat))) }

/-- GAS_BASELINE_UPDATE (R611): at the end of a minute in `NONE` the baseline moves by 1/60 toward the minute's mean, where that is low enough. -/
def execGasBaselineUpdate (port : Fin 2) (s : State) : Out :=
  let n := port.val
  let x := nth s.watch.minSum n (0, 0)
  let base := nth s.watch.gasBase n 0
  let m : Rat := (x.1 : Rat) / (x.2 : Rat)
  let s1 := { s with watch.minSum := s.watch.minSum.set n (0, 0), watch.minNone := s.watch.minNone.set n (s.watch.level == .none) }
  if nth s.watch.learn n true ∨ x.2 = 0 ∨ !nth s.watch.minNone n false ∨ s.watch.level ≠ .none ∨ base + (gThr s : Rat) / 2 ≤ m then .next s1
  else .next { s1 with watch.gasBase := s.watch.gasBase.set n (min (gCap s : Rat) (base + (m - base) / 60)) }

/-- IMPEDANCE_BASELINE (R612): once a minute each cell's baseline moves by 1/1440 toward its ratio, where that is near enough. -/
def execImpedanceBaseline (s : State) : Out :=
  let step (k : Nat) (b : Option Rat) : Option Rat :=
    match b, nth s.watch.rho k none with
    | some b, some r => if b ≠ 0 ∧ |r / b - 1| < zJump s / 2 then some (b + (r - b) / 1440) else some b
    | b, _ => b
  .next { s with watch.base5 := s.watch.base5.mapIdx step }

/-- WATCH_REPORT (R618): level, P, unavailable criteria, and whether the C1 confirmation decided, on alive channel 6. -/
def execWatchReport (s : State) : Out :=
  if measuring s then
    .next (sendOnDie 6 (le 1 s.watch.level.code ++ le 1 s.watch.own.toNat ++ le 1 s.watch.unavail.toNat ++
      le 1 (b2n (s.watch.strong && s.watch.level == .alarm))) s)
  else .next s

/-! ## Commands -/

/-- `ALARM_CLR` (R615, R640): clears a latched ALARM when P and S are empty; the evidence of the moment is tested first. -/
def cmdAlarmClr (key : Byte) (s : State) : Res :=
  let now := itemsNow s
  if key ≠ 0xC3 ∨ s.watch.level ≠ .alarm ∨ !now.isEmpty ∨ s.watch.own ≠ 0 ∨ !(seenNow s).isEmpty then Res.of stBadParam s
  else
    Res.of stOk (enterLevel .none false { s with watch.strong := false, sys.sentinelAlarm := false })

/-- ALARM_CLR (R615): a write of `WATCH_CTRL` by OPERATOR or SAFETY. -/
def execAlarmClr (rq : Req) (key : Byte) (s : State) : Out := .next (runCmd 0x03 rq (cmdAlarmClr key) s)

/-- `PROOF_STAT` (R643). -/
def proofStat (s : State) : Nat :=
  let w := s.watch
  (match w.pst with | .idle => 0 | .deferred => 1 | .running => 2 | .awaiting => 3) + 4 * (w.plast % 4) + 16 * (w.pdefer % 8) + 128 * b2n w.poverdue +
    65536 * (w.pnum % 65536)

/-- Seconds in the present level, saturating (R619). -/
def levelSeconds (s : State) : Nat := min 65535 ((s.clk - s.watch.levelAt) / Config.sec)

/-- `WATCH_READ` (R619). -/
def cmdWatchRead (s : State) : Res :=
  let w := s.watch
  { st := s, status := stOk,
    data := le 1 w.level.code ++ le 1 w.own.toNat ++ le 1 w.unavail.toNat ++ le 1 (seenMask s).toNat ++ le 1 (w.zone.toNat + 16 * (blk s 0x70 1 % 16)) ++
      le 1 (proofStat s) ++ le 2 (levelSeconds s) }

/-- WATCH_READ (R619). -/
def execWatchRead (rq : Req) (s : State) : Out := .next (runCmd 0x71 rq cmdWatchRead s)

end Sys2Proof.Machine
end

