-- ==== Sys2Proof/Machine/Proof.lean ====
section
/-! DEFINITION. The weekly proof: its schedule, its deferral, its steps and their effects, the end (R583, R621 to R629, R638, R639, R676). -/

namespace Sys2Proof.Machine

open Sys2Proof

/-- `WATCH_CFG.PROOF_H` in hours (R643). -/
def proofHours (s : State) : Nat := max 24 (min 336 (blk s 0x72 2))

/-- The first cause that defers a proof (R622); 0 none. -/
def proofCause (s : State) : Nat :=
  if s.sweep.st != .idle then 1
  else if s.watch.level == .preAlarm || s.watch.level == .alarm then 2
  else if s.therm.level == .shutdown || s.therm.level == .cooling || s.therm.latched then 3
  else if s.sys.vstkLow then 4
  else if s.fw.busy then 5
  else if s.sys.mode == .sentinel || s.sys.mode == .ship then 6
  else 0

/-- A proof runs, or awaits the satellites. -/
def proofRuns (s : State) : Bool := s.watch.pst == .running || s.watch.pst == .awaiting

/-- A proof falls due (R621, R622): it is deferred while a cause holds. -/
def proofFallsDue (s : State) : State :=
  let c := proofCause s
  { s with watch.dueSince := some (s.watch.dueSince.getD s.clk), watch.pdefer := c, watch.pst := if c = 0 then .idle else .deferred }

/-- PROOF_DUE (R621). -/
def execProofDue (s : State) : Out := if proofRuns s ∨ !s.sys.powered then .next s else .next (proofFallsDue s)

/-- `PROOF_RUN` (R628). -/
def cmdProofRun (rq : Req) (s : State) : Res :=
  if proofRuns s then Res.of stBadParam s
  else Res.of stQueued (proofFallsDue { s with watch.pby := s.watch.pby ++ [(rq.host, rq.seq.toNat)] })

/-- PROOF_RUN (R628). -/
def execProofRun (rq : Req) (s : State) : Out := .next (runCmd 0x72 rq (cmdProofRun rq) s)

/-- PROOF_OVERDUE (R623): deferred for more than 24 h. -/
def execProofOverdue (s : State) : Out :=
  if s.watch.pst ≠ .deferred ∨ s.watch.poverdue then .next s
  else .next (raise 0x7E (watchDetail s) { s with watch.poverdue := true })

/-! ## Steps -/

/-- Used cells (R399). -/
def usedCells (s : State) : List Nat := (List.range 16).filter (cellUsed s)

/-- Two references agree within 0.2 % (R625). -/
def refsAgree (a b : Nat) : Bool := decide (1000 * |(a : Int) - b| ≤ 2 * (b : Int))

/-- Steps 0 to 2: check-value units, references, inputs (R624, R625). -/
def stepsA (m : ProofIn) (s : State) : State :=
  let s0 := passFail 0 ((List.range 4).all fun n => nth m.katOk n true) (knownAnswer m.katOk s)
  let s1 := passFail 1 (refsAgree m.refUV.1 m.refUV.2.1 && refsAgree m.refUV.1 m.refUV.2.2) s0
  passFail 2 ((usedCells s1).all (fun k => decide (|nth m.cellUV k 2500000 - 2500000| ≤ 5000)) && decide (|m.isnsNV| ≤ 50000)) s1

/-- Step 3: the open-wire test of R363 is due at 20 ms, and the limit samples run it (R624, R625). -/
def stepPins (s : State) : State :=
  if (usedCells s).isEmpty then stepResult 3 3 s else stepResult 3 0 { s with watch.owDue := true }

/-- The pulses of step 4 (R410, R624): in internal mode 24 µs, the odd channels from 31 ms and the even ones from 41 ms on (log 166), in external-FET mode 3 ms at once. -/
def proofPulse (s : State) (k : Nat) : Nat × Nat :=
  if balExternal s then (s.clk + 31 * Config.ms, s.clk + 34 * Config.ms)
  else
    let t := s.clk + (if k % 2 = 0 then 31 else 41) * Config.ms
    (t, t + 24 * Config.us)

/-- Step 4: the open or load test of each used channel that is not held (R413, R415, R624, R625). -/
def stepBalance (m : ProofIn) (s : State) : State :=
  let chs := (usedCells s).filter fun k => !balHeld s k
  if chs.isEmpty then stepResult 4 3 s
  else
    let dv : Int := 1000 * (max 1 (rf s.regs.balCfg 23 20) : Nat)
    let ok (k : Nat) : Bool := if balExternal s then decide (dv ≤ nth m.startUV k 0 - nth m.endUV k 0) else decide (15 ≤ nth m.curMA k 0)
    let test (s : State) (k : Nat) : State :=
      let s1 := { s with bal.pulses := s.bal.pulses.set k (proofPulse s k) }
      if balExternal s then loadTest m.startUV m.endUV k s1 else openTest (nth m.curMA k 0) k s1
    passFail 4 (chs.all ok) (chs.foldl test (settleAcc s))

/-- A channel reads more than `XTOL_AUX` below the median of its valid neighbours (R572, R625). -/
def auxBelow (s : State) (k : Nat) : Bool :=
  let t (j : Nat) : Option Rat := (nth s.therm.auxT j none).map fun (v : Int) => (v : Rat)
  match t k, median (((List.range 8).filter fun j => j != k && auxNbr s k j && auxValid s j).filterMap t) with
  | some v, some m => decide (xtolAux s < m - v)
  | _, _ => false

/-- Step 5: the fitted AUX channels (R624 to R626). -/
def stepAux (s : State) : State :=
  let fitted := (List.range 8).filter (auxUsed s)
  if fitted.isEmpty then stepResult 5 3 s
  else
    let bad := maskOf 8 fun k => auxUsed s k && (auxFlagged s k || auxBelow s k)
    passFail 5 (bad == 0) (settleAux s { s with watch.auxBad := bad })

/-- Steps 6 and 7: the self-test request of a port in mode 2 or 3 (R583, R624); in modes 0 and 1 there is nothing to test. -/
def stepSat (n : Nat) (s : State) : State :=
  if spPowers s n then
    let s1 := stepResult (6 + n) 0 s
    setSp n (fun p => { p with testAt := some (s.clk + 61 * Config.ms), awaiting := true }) s1
  else stepResult (6 + n) 3 s

/-- What `HB_OUT` sends in step 8, by the classes of its periods: four words with the member's own position and code 0x0 (R624). -/
def proofWords (s : State) : List Nat :=
  let w := (hbWordPeriods (if s.chain.addr then s.chain.pos else 0x3F) 0).map (· / 25)
  w ++ w ++ w ++ w

/-- Step 8: the heartbeat loop (R624, R625). -/
def stepHb (m : ProofIn) (s : State) : State :=
  if rf s.regs.chainCfg 1 1 = 0 then stepResult 8 3 s
  else passFail 8 (m.hbBack.map (fun p => dutyClass p.1 p.2) == proofWords s && s.chain.hbDecided && s.chain.hbIn != .lost) s

/-- The scrub of the sealed block on `CHK_1`: a mismatch raises event 0x39 and is a class A fault (R206, R214, R665). -/
def scrubBlock (m : ProofIn) (s : State) : State :=
  if s.verm.isSealed then
    let s1 := compareJob 1 m.blockOk false 0 s
    if m.blockOk then s1 else classA 12 { s1 with verm.blockBad := true }
  else s

/-- Every channel of the inputs of types 1 to 5 reads the levels it is forced to (R676); channel B of a type-5 input is unused (R646). -/
def pulseInputs (p : PulseIn) (s : State) : Bool :=
  (List.range 4).all fun k =>
    let ty := inpType s k
    let lo := nth p.inLow k (false, false)
    let hi := nth p.inHigh k (true, true)
    ty = 0 || 5 < ty || (!lo.1 && hi.1 && (ty = 5 || (!lo.2 && hi.2)))

/-- An output is in `OFF` (R656). -/
def outOff (s : State) (o : Nat) : Bool := (nth s.verm.outs o {}).st == .off

/-- Every output in `OFF` rises above `VCOIL` − 2 V and stays disabled without the strobe, and every current-limit comparator switches (R676). -/
def pulseOutputs (p : PulseIn) (s : State) : Bool :=
  (List.range 3).all fun o =>
    nth p.limit o true && (!outOff s o || (decide (p.coilMV - 2000 < nth p.outMV o 0) && !nth p.enabled o false))

/-- Step 9: Vermilion's pulse test (R676), and the configuration scrub (R206, R665). -/
def stepVerm (m : ProofIn) (s : State) : State :=
  let stuck := (List.range 3).filter fun o => outOff s o && decide (2000 ≤ nth m.pulse.fallMV o 0)
  let s1 := stuck.foldl (fun s o => classA 1 (raise 0x86 (vermDetail o s.cell.isnsMa 0 s.verm.refuse) s)) s
  let ok := pulseInputs m.pulse s && pulseOutputs m.pulse s
  passFail 9 (ok && stuck.isEmpty) (scrubBlock m (classB 9 (!ok) s1))

/-- Step 10: every written record on `CHK_2` (R624, R625, R781). -/
def stepLog (m : ProofIn) (s : State) : State :=
  let s1 := findDamaged m.logDamaged s
  passFail 10 (logSound s1) s1

/-- Step 11: Umber's current against the member's own (R625). -/
def stepCurrent (m : ProofIn) (s : State) : State :=
  if s.sys.variant == .s then stepResult 11 3 s
  else passFail 11 (decide (100 * |m.iUmb - m.iSafe| ≤ max |m.iUmb| |m.iSafe| + 2000)) s

/-- Step 12: Indigo's memory self-test, whose check runs on `CHK_1` (R206, R214, R472, R626). -/
def stepMemory (m : ProofIn) (s : State) : State :=
  let s1 := passFail 12 m.memOk (compareJob 1 m.memOk false 0 (startSelfTest s))
  if m.memOk then s1 else raise 0x6C (det 0 0 0 0) s1

/-- PROOF_START (R621, R622, R624 to R627): a due proof starts once nothing defers it; every step but the open-wire test, which the limit samples run, and the satellites' answers is done. -/
def execProofStart (meas : ProofIn) (s : State) : Out :=
  if s.watch.dueSince.isNone ∨ proofRuns s then .next s
  else if proofCause s ≠ 0 then .next (proofFallsDue s)
  else
    let s0 := leaveIdle 7 s
    let s1 := { s0 with watch.pst := .running, watch.pdefer := 0, watch.dueSince := none, watch.pstartAt := s.clk, watch.pres := 0, watch.pold := s.watch.pfailed,
                        watch.dueAt := some (s.clk + 3600 * proofHours s * Config.sec), nv.proofStart := some s.log.opmin }
    let s2 := stepAux (stepBalance meas (stepPins (stepsA meas s1)))
    let s3 := stepVerm meas (stepHb meas (stepSat 1 (stepSat 0 s2)))
    let s4 := stepLog meas s3
    let s5 := stepMemory meas (stepCurrent meas s4)
    let s6 := reportFailed [0, 1, 2, 4, 5, 8, 9, 10, 11, 12] s5
    .next { s6 with watch.pst := if s6.sp1.awaiting || s6.sp2.awaiting then .awaiting else s6.watch.pst }

/-- SAT_TEST_TIMEOUT (R583, R625, R639): no result within 10 s. -/
def execSatTestTimeout (port : Fin 2) (s : State) : Out :=
  let n := port.val
  if (spPort s n).awaiting then
    let s1 := setSp n (fun p => { p with awaiting := false, satFailed := true }) s
    .next (raise 0x76 (spDetail s1 n) s1)
  else .next s

/-- The result of a satellite's step becomes final (R625, R626). -/
def finishSat (n : Nat) (s : State) : State :=
  if bits s.watch.pres.toNat (13 + 2 * n) (12 + 2 * n) = 0 then passFail (6 + n) (!(spPort s n).satFailed) s else s

/-- PROOF_COMPLETE (R621, R623, R627, R628): every result is final; a proof with a failed step falls due again 1 h after its start. -/
def execProofComplete (s : State) : Out :=
  if !proofRuns s ∨ s.sp1.awaiting ∨ s.sp2.awaiting ∨ s.watch.owDue then .next s
  else
    let s1 := reportFailed [6, 7] (finishSat 1 (finishSat 0 s))
    let failed := (List.range 13).any fun k => bits s1.watch.pres.toNat (2 * k + 1) (2 * k) == 2
    let n := (s.watch.pnum + 1) % 65536
    let last := if failed then 2 else 1
    let s2 := { s1 with watch.pst := .idle, watch.plast := last, watch.pnum := n, watch.poverdue := false, watch.pby := [],
                        watch.dueAt := if failed then some (s.watch.pstartAt + 3600 * Config.sec) else s1.watch.dueAt }
    let s3 := endSelfTest s2
    let s4 := if failed then s3 else raise 0x7C (watchDetail s3) s3
    .next (s.watch.pby.foldl (fun s c => completeQueued c.1 c.2 (le 2 n ++ le 1 last ++ le 1 0 ++ le 4 s1.watch.pres.toNat) s) s4)

end Sys2Proof.Machine
end

