-- ==== Sys2Proof/Machine/Time.lean ====
section
/-! DEFINITION. The rows of time: `SYNC_IN`, beacons, hop delays, holdover, and the commands that set and read the counter (R312 to R349). -/

namespace Sys2Proof.Machine

open Sys2Proof

/-! ## The anchor -/

/-- `TIME_CFG.SYNC_EN` (R348). -/
def syncEn (s : State) : Bool := rf s.regs.timeCfg 0 0 == 1

/-- The member keeps time: powered and neither in SENTINEL nor in SHIP. -/
def timeOn (s : State) : Bool := chainOn s

/-- `TIME_SET` (R315, R316, R319). -/
def cmdTimeSet (sec : BitVec 48) (ns : Word) (s : State) : Res :=
  if !s.sys.anchor ∨ 1000000000 ≤ ns.toNat then Res.of stBadParam s
  else if syncEn s then
    Res.of stOk { s with time.armed := some (sec.toNat, ns.toNat), time.armedThisTick := true, time.firstEdge := true }
  else
    let s1 := { s with time.sec := sec, time.ns := ns.toNat, time.frac := 0, time.epoch := (s.time.epoch + 1) % 256, time.firstEdge := true }
    Res.of stOk (stepped (setTimeSt .free s1))

/-- TIME_SET (R315, R316, R319, R343). -/
def execTimeSet (rq : Req) (sec : BitVec 48) (ns : Word) (s : State) : Out := .next (runCmd 0x30 rq (cmdTimeSet sec ns) s)

/-- `TIME_GET` (R176, R313): the time, and the states. -/
def cmdTimeGet (s : State) : Res :=
  { st := s, status := stOk, data := le 6 s.time.sec.toNat ++ le 4 s.time.ns ++ le 1 (s.time.st.code + 8 * s.time.anchorSt.code) }

/-- TIME_GET (R313). -/
def execTimeGet (rq : Req) (s : State) : Out := .next (runCmd 0x31 rq cmdTimeGet s)

/-- An edge is accepted (R318): the first after a `TIME_SET`, or 1 s ± 1 ms after the last accepted one, by the local clock (R314). -/
def edgeOk (s : State) : Bool :=
  (s.time.firstEdge && !s.time.armedThisTick) ||
    (match s.time.lastEdge with
     | some t => decide (t + Config.sec - Config.ms ≤ s.clk) && decide (s.clk ≤ t + Config.sec + Config.ms)
     | none => false)

/-- The whole second nearest to an instant in 1/16 ns; which one, half way between two, is not stated (log 3). -/
def nearestSec (t : Int) : Int :=
  let r := t % 16000000000
  if r < 8000000000 then t / 16000000000 else if 8000000000 < r then t / 16000000000 + 1 else divFree t 16000000000

/-- SYNC_IN_EDGE (R316, R318, R320, R342): a rising edge of `SYNC_IN`; the armed value, or else the nearest whole second, is its time. A pulse shorter than 1 µs
is ignored (R887). -/
def execSyncInEdge (frac highNs : Nat) (s : State) : Out :=
  if !timeOn s ∨ !s.sys.anchor ∨ !syncEn s ∨ highNs < 1000 then .next s
  else if !edgeOk s then .next { s with time.syncBad := satAdd 255 s.time.syncBad 1 }
  else
    let now := captured frac s
    let value : Int :=
      match (if s.time.armedThisTick then none else s.time.armed) with
      | some (a, n) => ((a * 1000000000 + n : Nat) : Int) * 16
      | none => nearestSec now * 16000000000
    let off := now - value
    let s1 := { s with time.lastEdge := some s.clk, time.firstEdge := s.time.armedThisTick,
                       time.armed := if s.time.armedThisTick then s.time.armed else none }
    .next (judgeOffset 3200 6400 4 off (correct false .acquiring off s1))

/-- TIME_SET_EXPIRY (R317). -/
def execTimeSetExpiry (s : State) : Out :=
  if s.time.armed.isNone then .next s
  else
    let s1 := { s with time.armed := none, time.setExpired := true }
    .next (raise 0x34 (timeDetail s1) (noteOcc 0xC04 (setBit 0 6 true) s1))

/-- ANCHOR_HOLDOVER (R313, R320): no edge has been accepted for 2.5 s. -/
def execAnchorHoldover (s : State) : Out :=
  if timeOn s ∧ s.sys.anchor ∧ (s.time.st = .locked ∨ s.time.st = .acquiring) then .next (setTimeSt .holdover s) else .next s

/-- HOLDOVER_LIMIT (R330, R347). -/
def execHoldoverLimit (s : State) : Out :=
  if s.time.st = .holdover ∧ !s.time.holdLimit then
    let s1 := { s with time.holdLimit := true }
    .next (raise 0x36 (timeDetail s1) s1)
  else .next s

/-- BEACON_SEND (R321, R322, R341): northward while the ring is closed, else out of both ports. -/
def execBeaconSend (s : State) : Out :=
  if !timeOn s ∨ !s.sys.anchor ∨ s.time.st = .unset then .next s
  else
    let body : List Byte := List.replicate 17 0 ++ le 2 s.time.beaconNum ++ le 1 (b2n (syncEn s))
    let f := mkFrame s 7 0xFF 0x7 20 false false body
    let s1 := { s with time.beaconNum := (s.time.beaconNum + 1) % 65536 }
    let out (sd : Side) (s : State) : State := if portUp (port s sd) then enqueue sd f s else s
    let s2 := out .north s1
    .next (if s.chain.ring = .closed then s2 else out .south s2)

/-! ## Beacons at the other members -/

/-- The time state a code names (R313); codes 5 to 7 name none. -/
def timeStOf (n : Nat) : TimeState :=
  if n = 1 then .free else if n = 2 then .acquiring else if n = 3 then .locked else if n = 4 then .holdover else .unset

/-- A beacon is the one to use (R326): of two ports the one with fewer hops, on equal counts the south one. The other port's beacon counts while it is this
one or the one before it, and its hop usable. -/
def bestPath (sd : Side) (num hops : Nat) (s : State) : Bool :=
  match s.time.lastHops with
  | none => true
  | some (n, north, h) =>
    let o : Side := if north then .north else .south
    if o = sd ∨ (hopDelay s o).unusable ∨ !(n == num || (n + 1) % 65536 == num) then true
    else decide (hops < h) || (hops == h && sd == .south)

/-- A member disciplines its counter by a beacon (R325 to R328). -/
def useBeacon (sd : Side) (f : Frame) (frac : Nat) (s : State) : State :=
  let b := f.body
  let gap := match s.time.lastBeacon with | some t => decide (t + 50 * Config.ms < s.clk) | none => false
  let master : Int := ((field b 1 6 * 1000000000 + field b 7 4 : Nat) : Int) * 16 + field b 11 4 + (hopDelay s sd).delay
  let off := capturedAt (- sinceSd f) frac s - master
  let anchor := timeStOf (field b 15 1)
  let s1 := if gap then raise 0x35 (timeDetail s) s else s
  let s2 := { s1 with time.lastBeacon := some s.clk, time.anchorSt := anchor, time.srcNorth := sd == .north,
                      time.lastHops := some (field b 17 2, sd == .north, f.hops), time.epoch := field b 16 1 }
  let s3 := correct (s.time.epoch != field b 16 1) (if anchor = .free then .free else .acquiring) off s2
  if anchor = .free then s3 else judgeOffset 480 960 16 off s3

/-- BEACON (R321, R323, R325, R326, R341): a TIME beacon goes on with its correction, and disciplines the counter, unless it names an unset anchor. `frac` is the place of its
start-delimiter instant within the counter's step; `residence` is what a cut-through copy measures; a stored one measures its own when it starts. -/
def execBeacon (sd : Side) (f : Frame) (lq : LineQ) (frac residence : Nat) (s : State) : Out :=
  let a := arrived f lq
  let f := a.1
  let r := hopIn sd f a.2 s
  if !r.2 ∨ f.kind ≠ 7 ∨ field f.body 0 1 ≠ 0 ∨ f.plen ≠ 20 then .next r.1
  else if s.sys.anchor ∨ (s.chain.addr ∧ f.orig = s.chain.pos) then .next (cutCopy (otherSide sd) f 3 r.1)
  else
    let old := field f.body 11 4 + (hopDelay s sd).delay
    let with_ (corr : Nat) : Frame := { f with body := slice f.body 0 11 ++ le 4 (corr % 2 ^ 32) ++ slice f.body 15 5 }
    let s1 := (forwardAs sd (with_ old) (with_ (old + residence)) (some (localFine s (- sinceSd f) frac)) r.1).1
    if (hopDelay s sd).unusable ∨ timeStOf (field f.body 15 1) = .unset ∨ !bestPath sd (field f.body 17 2) f.hops s then .next s1
    else .next (useBeacon sd f frac s1)

/-- BEACON_TIMEOUT (R328, R341, R345): a member with valid time enters `HOLDOVER`. -/
def execBeaconTimeout (s : State) : Out :=
  if timeOn s ∧ !s.sys.anchor ∧ s.time.st ≠ .unset then .next (setTimeSt .holdover s) else .next s

/-! ## Hop delays -/

/-- DELAY_MEASURE (R324): a request that was not answered counts as discarded; a new one goes out. -/
def execDelayMeasure (sd : Side) (s : State) : Out :=
  if !timeOn s then .next s
  else
    let s1 := if (hopDelay s sd).t1.isSome then discardResult sd s else s
    if !portUp (port s sd) then .next s1
    else
      let n := ((hopDelay s sd).reqNum + 1) % 65536
      .next (enqueue sd (mkFrame s1 7 0xFC 0x7 3 false false (le 1 1 ++ le 2 n)) (setHop sd (fun h => { h with reqNum := n }) s1))

/-- DELAY_REQ (R322, R324): the answer will carry the turnaround, from the request's start-delimiter instant to its own. -/
def execDelayReq (sd : Side) (f : Frame) (lq : LineQ) (frac : Nat) (s : State) : Out :=
  let a := arrived f lq
  let f := a.1
  let r := hopIn sd f a.2 s
  if !r.2 ∨ f.kind ≠ 7 ∨ field f.body 0 1 ≠ 1 ∨ f.dest ≠ 0xFC then .next r.1
  else .next (enqueueAt sd (localFine s (- sinceSd f) frac) (mkFrame r.1 7 0xFC 0x7 7 false false (le 1 2 ++ slice f.body 1 2 ++ le 4 0)) r.1)

/-- DELAY_RESP (R314, R324): by the local clock, the delay of the hop; a result outside 0 ns to 200 ns is discarded. -/
def execDelayResp (sd : Side) (f : Frame) (lq : LineQ) (frac : Nat) (s : State) : Out :=
  let a := arrived f lq
  let f := a.1
  let r := hopIn sd f a.2 s
  if !r.2 ∨ f.kind ≠ 7 ∨ field f.body 0 1 ≠ 2 ∨ f.dest ≠ 0xFC ∨ field f.body 1 2 ≠ (hopDelay s sd).reqNum then .next r.1
  else
    match (hopDelay s sd).t1 with
    | none => .next r.1
    | some t1 =>
      let d := divFree (localFine s (- sinceSd f) frac - t1 - field f.body 3 4) 2
      .next (if 0 ≤ d ∧ d ≤ 3200 then validResult sd d.toNat r.1 else discardResult sd r.1)

/-! ## Reads -/

/-- A read of `TIME_NS` latches the seconds (R348). -/
def latchTime (s : State) : State :=
  { s with time.latLo := BitVec.ofNat 32 s.time.sec.toNat, time.latHi := BitVec.ofNat 32 (s.time.sec.toNat / 2 ^ 32) }

/-- TIME_NS_READ (R348). -/
def execTimeNsRead (s : State) : Out := .next (latchTime s)

end Sys2Proof.Machine
end

