-- ==== Sys2Proof/Machine/Umber.lean ====
section
/-! DEFINITION. Umber: samples, intervals, records, labels, sealed updates, the link, and the metrology commands (R700 to R749). -/

namespace Sys2Proof.Machine

open Sys2Proof

/-! ## Measurement and time -/

/-- The slew made within one sample of 250 µs: up to 500 ppm, 125 ns (R713). -/
def slewStep (x : Int) : Int := clampI (-125) 125 x

/-- The accumulators after a sample (R705, R708): shunt voltage in nV, divided pack voltage in µV; each addition is made at the resolution of 2^-32 of a unit, its
rounding being unstated (log 3). -/
def accumulate (nV uV : Int) (s : State) : List Nat :=
  let r : Int := s.umber.shunt
  let e := uV * (s.umber.ratio : Int) * nV
  let de := (divFree (|e| * 2 ^ 32) (1000000000 * 14400 * r)).toNat
  let dq := (divFree (|nV| * 2 ^ 32) (14400 * r)).toNat
  let a (k : Nat) := nth s.umber.acc k 0
  [if 0 < e then a 0 + de else a 0, if 0 < e then a 1 else a 1 + de, if 0 < nV then a 2 + dq else a 2, if 0 < nV then a 3 else a 3 + dq]

/-- The sums of the present second, and the means at its end (R702): 4000 samples. -/
def meanStep (nV uV : Int) (s : State) : State :=
  let m := s.umber.meanSum
  let i := m.1 + nV
  let v := m.2.1 + uV
  if m.2.2 + 1 < 4000 then { s with umber.meanSum := (i, v, m.2.2 + 1) }
  else
    { s with umber.meanSum := (0, 0, 0), umber.i := if s.umber.shunt = 0 then 0 else divFree (i * 1000) (4000 * (s.umber.shunt : Int)),
             umber.v := divFree (v * (s.umber.ratio : Int)) (4000 * 1000000) }

/-- UMBER_SAMPLE (R705, R706, R713, R745): a sample pair; limits and the starting threshold; Umber's time runs on. -/
def execUmberSample (shuntNV uhvUV : Int) (s : State) : Out :=
  if !s.umber.powered ∨ s.sys.variant = .s then .next s
  else
    let st := slewStep s.umber.slew
    let s1 := { s with umber.tNs := (s.umber.tNs + (250000 + st)).toNat, umber.slew := s.umber.slew - st }
    if !metering s then .next s1
    else
      let n := clampI (-100000000) 100000000 shuntNV
      let uV := clampI 0 1200000 uhvUV
      let outside := decide (n ≠ shuntNV) || decide (uV ≠ uhvUV)
      let nV := if |n| < 80000 then 0 else n
      let s2 := { s1 with umber.dur := s.umber.dur + 1, umber.flags := if outside then s.umber.flags ||| 256 else s.umber.flags,
                          umber.acc := if s.umber.st == .fault then s.umber.acc else accumulate nV uV s }
      .next (meanStep nV uV s2)

/-- INTERVAL_CLOSE (R710, R744): the boundary is reached; the next interval opens at it. -/
def execIntervalClose (s : State) : Out :=
  if !s.umber.powered ∨ !metering s ∨ s.sys.variant = .s then .next s
  else
    let b := s.umber.start + intervalSec s
    let s1 := closeInterval 0 b 0 { s with umber.tNs := max s.umber.tNs (b * 1000000000) }
    .next (openInterval s1)

/-- A boundary that Umber's time has reached closes its interval before anything else that falls at that instant (R738). -/
def boundaryFirst (s : State) : State :=
  if metering s ∧ s.umber.len ≠ 0 ∧ (s.umber.start + intervalSec s) * 1000000000 ≤ s.umber.tNs then
    openInterval (closeInterval 0 (s.umber.start + intervalSec s) 0 s)
  else s

/-- TIME_LABEL (R336, R713): the label of each second. -/
def execTimeLabel (s : State) : Out := .next (umberLabel s)

/-- UMBER_SAVE (R709). -/
def execUmberSave (s : State) : Out := if s.umber.powered then .next (umbSave s) else .next s

/-- UMBER_SUPPLY_LOSS (R709): the state is saved, and Umber is off. -/
def execUmberSupplyLoss (s : State) : Out :=
  if !s.umber.powered then .next s
  else
    .next { umbSave s with umber.powered := false, umber.timeOk := false, umber.slew := 0, umber.meanSum := (0, 0, 0), umber.i := 0, umber.v := 0,
                           umber.upd := [], umber.updBy := none }

/-- UMBER_POWER_UP (R709, R716, R724, R746): Umber runs on from what it saved; the interval that was open at the loss is flagged `POWER_OFF`; those it opens
before its first label are flagged `NO_TIME` (R716). `swid` is the identification over the program memory. -/
def execUmberPowerUp (sealPin : Bool) (swid : Word) (s : State) : Out :=
  if s.umber.powered ∨ s.sys.variant = .s then .next s
  else
    let v := s.umber.saved
    let s1 := { s with pins.sealN := sealPin, umber.powered := true, umber.timeOk := false, umber.acc := v.acc, umber.start := v.start, umber.dur := v.dur,
                       umber.accAtOpen := v.accAtOpen, umber.tNs := v.tNs, umber.flags := v.flags ||| 0x10 }
    let s2 := if s.umber.st == .fault then s1 else { s1 with umber.st := soundState s1 }
    .next (if swid = s.nv.swid then s2 else umberFault s2)

/-- SWID_CHECK (R724): the identification over the program memory against the one stored at activation. -/
def execSwidCheck (swid : Word) (s : State) : Out :=
  if !s.umber.powered ∨ s.sys.variant = .s ∨ swid = s.nv.swid then .next s else .next (umberFault s)

/-! ## The seal and the link -/

/-- SEAL_N_FALL (R701, R728). -/
def execSealNFall (s : State) : Out :=
  let s1 := { s with pins.sealN := false }
  if !s.umber.powered ∨ s.sys.variant = .s ∨ !s.pins.sealN then .next s1
  else .next (raiseUmb 0x92 0 { s1 with umber.st := if s.umber.st == .sealed then .opened else s.umber.st })

/-- SEAL_N_RISE (R701, R739, R740): a partial image is discarded; a complete one is still activated. -/
def execSealNRise (s : State) : Out :=
  let s1 := { s with pins.sealN := true }
  if !s.umber.powered ∨ s.sys.variant = .s then .next s1
  else .next (dropImage { s1 with umber.st := if s.umber.st == .opened then .sealed else s.umber.st })

/-- INWARD_DISCARD (R703). -/
def execInwardDiscard (s : State) : Out := if s.umber.powered ∧ s.sys.variant = .m then .next (discardInward s) else .next s

/-- LINK_DOWN (R704, R740): no answer for 100 ms. -/
def execLinkDown (s : State) : Out :=
  if s.sys.variant = .s ∨ !s.sys.powered ∨ !s.umber.linkUp then .next s
  else
    let s1 := dropImage s
    let s2 := { s1 with umber.linkUp := false, umber.inflight := [none, none, none, none] }
    .next (raise 0x95 (det 0 s.umber.mirror.seq s.umber.mirror.st s.umber.mirror.audit) s2)

/-- INTER_DIE_LINK_UP (R704): the first answer after the link was down. -/
def execInterDieLinkUp (s : State) : Out :=
  if s.sys.variant = .s ∨ !s.sys.powered ∨ !s.umber.powered ∨ s.umber.linkUp then .next s
  else .next (raiseUmb 0x95 0 { s with umber.linkUp := true })

/-- MIRROR_REFRESH (R747). -/
def execMirrorRefresh (s : State) : Out := if umbTalks s then .next { s with umber.mirror := mirrorNow s } else .next s

/-! ## Records -/

/-- RECORD_REQUEST (R722, R742): with a slot granted, the record after the host's cursor is asked for; after a restart, the oldest stored one. -/
def execRecordRequest (h : Fin 4) (s : State) : Out :=
  let k := h.val
  if !umbTalks s ∨ nth s.umber.slots k 0 = 0 ∨ (nth s.umber.inflight k none).isSome then .next s
  else
    let again := nth s.umber.restart k false
    let q := if again then 0 else nth s.nv.cursor k 0
    match recordAfter s q with
    | none => .next { s with umber.restart := s.umber.restart.set k false }
    | some r =>
      let s1 := { s with umber.restart := s.umber.restart.set k false, umber.inflight := s.umber.inflight.set k (some r) }
      .next (if again || r.seq == q + 1 then s1 else raiseUmb 0x90 k s1)

/-- The host is bound to another member. -/
def hostRemote (h : Nat) (s : State) : Bool := match binding s h with | some b => s.chain.addr && b.pos != s.chain.pos | none => false

/-- An energy record sent to its host as METROLOGY traffic (R722): delivered here, or as a `METRO` frame. -/
def sendMetro (h : Nat) (payload : List Byte) (s : State) : State :=
  match binding s h with
  | some b =>
    if hostRemote h s then sendStream false (mkFrame s 2 b.pos 0xC payload.length false false payload) s
    else deliverItem h payload s
  | none => deliverItem h payload s

/-- RECORD_RETURNED (R115, R722): the record leaves against a granted slot, and stays in Umber's memory where the slots have been withdrawn meanwhile; its delivery counts as the host's
reading of it (log 58), which for a host bound to this member grants one further slot. -/
def execRecordReturned (h : Fin 4) (s : State) : Out :=
  let k := h.val
  match nth s.umber.inflight k none with
  | none => .next s
  | some r =>
    let s1 := { s with umber.inflight := s.umber.inflight.set k none }
    if nth s.umber.slots k 0 = 0 then .next s1
    else
      let s2 := { s1 with umber.slots := if hostRemote k s then upd s.umber.slots k (· - 1) else s.umber.slots, nv.cursor := s.nv.cursor.set k r.seq }
      .next (sendMetro k (recordBytes s k r) s2)

/-! ## Commands -/

/-- A metrology command that needs Umber (R704). -/
def needUmber (f : State → Res) (s : State) : Res := if umbTalks s then f s else Res.of stBadParam s

/-- `MTR_READ` (R748). -/
def cmdMtrRead : State → Res := needUmber fun s =>
  { st := s, status := stOk,
    data := ((List.range 4).map fun k => le 8 (umbReg s k)).flatten ++ leI 4 s.umber.i ++ leI 3 s.umber.v ++ le 1 (meterCode s.umber.st) }

/-- MTR_READ (R748). -/
def execMtrRead (rq : Req) (s : State) : Out := .next (runCmd 0x90 rq cmdMtrRead s)

/-- `MTR_RECORDS` (R723): slots for the calling host, a restart of its delivery, or the withdrawal of its slots. -/
def cmdMtrRecords (rq : Req) (slots : Byte) (s : State) : Res :=
  let k := rq.host.val
  let n := slots.toNat
  if n = 0 then Res.of stOk { s with umber.slots := s.umber.slots.set k 0 }
  else
    Res.of stOk { s with umber.slots := s.umber.slots.set k (min 16 (nth s.umber.slots k 0 + n % 128)),
                         umber.restart := if 128 ≤ n then s.umber.restart.set k true else s.umber.restart }

/-- MTR_RECORDS (R723). -/
def execMtrRecords (rq : Req) (slots : Byte) (s : State) : Out := .next (runCmd 0x91 rq (cmdMtrRecords rq slots) s)

/-- A length code of R710. -/
def lengthOk (n : Nat) : Bool := n == 1 || n == 5 || n == 15 || n == 60

/-- `MTR_CONFIG` (R702, R711): a changed length closes the open interval, is audited, and opens the interval of the new length; in `FAULT` Umber discards the
transfer, and the command draws `BAD_PARAM` (log 59). -/
def cmdMtrConfig (interval : Byte) : State → Res := fun s =>
  if umbTalks s ∧ s.umber.st = .sealed then Res.of stSealed s
  else if !lengthOk interval.toNat then Res.of stBadParam s
  else needUmber (fun s =>
    if s.umber.st = .fault then Res.of stBadParam (discardInward s)
    else if interval.toNat = s.umber.len then Res.of stOk s
    else
      let s1 := closeNow 64 (boundaryFirst s)
      let s2 := auditChange 3 { s1 with umber.len := interval.toNat }
      Res.of stOk (openInterval s2)) s

/-- MTR_CONFIG (R711). -/
def execMtrConfig (rq : Req) (interval : Byte) (s : State) : Out := .next (runCmd 0x92 rq (cmdMtrConfig interval) s)

/-- `MTR_PUBKEY` (R720): the public point (log 20). -/
def cmdMtrPubkey : State → Res := needUmber fun s => { st := s, status := stOk, data := (List.range 64).map Config.umberPublicKey }

/-- MTR_PUBKEY (R720). -/
def execMtrPubkey (rq : Req) (s : State) : Out := .next (runCmd 0x93 rq cmdMtrPubkey s)

/-- `MTR_SWID` (R724). -/
def cmdMtrSwid : State → Res := needUmber fun s => { st := s, status := stOk, data := le 4 s.umber.swidNow.toNat }

/-- MTR_SWID (R724). -/
def execMtrSwid (rq : Req) (s : State) : Out := .next (runCmd 0x94 rq cmdMtrSwid s)

/-- The declared length of an image, once its first 8 bytes are there (R726). -/
def declaredLen (img : List Byte) : Option Nat := if 8 ≤ img.length then some (field img 4 4) else none

/-- `MTR_UPDATE` (R725, R749): one chunk; an offset of 0 discards a partial image, with event 0x94; the one that completes the image replies `QUEUED`. A declared length above 48 KiB, and a chunk while the checks of an earlier
image run, draw `BAD_PARAM` too (log 60). -/
def cmdMtrUpdate (rq : Req) (offset : Word) (image : List Byte) : State → Res := needUmber fun s =>
  if s.pins.sealN then Res.of stSealed s
  else
    let old := if offset = 0 then [] else s.umber.upd
    let img := old ++ image
    let len := declaredLen img
    if s.umber.updBy.isSome ∨ (offset ≠ 0 ∧ offset.toNat ≠ s.umber.upd.length) ∨
        (match len with | some l => decide (l < img.length) || decide (49152 < l) | none => false) = true then Res.of stBadParam s
    else
      let s0 := if offset = 0 then dropImage s else s
      let s1 := { s0 with umber.upd := img }
      if len = some img.length then Res.of stQueued { s1 with umber.updBy := some (rq.host, rq.seq.toNat) } else Res.of stOk s1

/-- MTR_UPDATE (R725). -/
def execMtrUpdate (rq : Req) (offset : Word) (image : List Byte) (s : State) : Out := .next (runCmd 0x95 rq (cmdMtrUpdate rq offset image) s)

/-- The checks of a parameter set (R726). -/
def paramOk (img : List Byte) : Bool :=
  img.length == 48 && decide (1000 ≤ field img 16 4) && decide (field img 16 4 ≤ 100000000) && decide (1000 ≤ field img 20 4) &&
    decide (field img 20 4 ≤ 5000000) && lengthOk (field img 24 1) && (slice img 25 7).all (· == 0)

/-- The result of the checks of an image (R725, R726): 0 where it is activated. A header of no defined kind is refused as an invalid field (log 60). -/
def imageResult (img : List Byte) (s : State) : Nat :=
  let l := img.length
  if (crc32c (img.drop 16)).toNat ≠ field img 12 4 then 1
  else if field img 1 1 ≠ 0 ∨ field img 2 2 ≠ 1 then 4
  else if field img 0 1 = 1 then
    if l < 80 ∨ !Config.oliquaVerifies (sha256 (img.take (l - 64))) (img.drop (l - 64)) then 2
    else if field img 8 4 < s.umber.fwver.toNat then 3 else 0
  else if field img 0 1 = 2 ∧ field img 8 4 = 0 ∧ paramOk img then 0
  else 4

/-- An image is activated (R724, R727): the open interval closes, the change is audited, a new interval opens. -/
def activateImage (img : List Byte) (s : State) : State :=
  let s1 := closeNow 128 (boundaryFirst s)
  if field img 0 1 = 1 then
    let w := crc32c img
    let s2 := { s1 with umber.fwver := BitVec.ofNat 32 (field img 8 4), umber.swidNow := w, nv.swid := w, umber.st := soundState s }
    openInterval (auditChange 1 s2)
  else
    let s2 := { s1 with umber.shunt := field img 16 4, umber.ratio := field img 20 4, umber.len := field img 24 1 }
    let s3 := { s2 with umber.st := if s.umber.st == .fault then .fault else soundState s2 }
    openInterval (auditChange 2 s3)

/-- METER_UPDATE_DONE (R725, R727, R728, R739): the checks of a complete image end. -/
def execMeterUpdateDone (s : State) : Out :=
  match s.umber.updBy with
  | none => .next s
  | some (h, q) =>
    let img := s.umber.upd
    let r := imageResult img s
    let s1 := { s with umber.upd := [], umber.updBy := none }
    let s2 := if r = 0 then activateImage img s1 else raiseUmb 0x94 0 s1
    .next (completeQueued h q (le 1 r) s2)

end Sys2Proof.Machine
end

