-- ==== Sys2Proof/Machine/RegRead.lean ====
section
/-! DEFINITION. The register space as it is read: the value of every register (R144 to R147, R200 to R204, and the register tables of every chapter), and what a
read does (R20, R348, R399, R400, R770, R862, R876). -/

namespace Sys2Proof.Machine

open Sys2Proof

/-! ## Words of fields -/

/-- A list of single flags as a number, the first in bit 0. -/
def flagWord (l : List Bool) : Nat := (l.zipIdx.map fun x => b2n x.1 * 2 ^ x.2).foldl (· + ·) 0

/-- Values of `n` bits each as a number, the first lowest. -/
def packWord (n : Nat) (l : List Nat) : Nat := (l.zipIdx.map fun x => x.1 % 2 ^ n * 2 ^ (n * x.2)).foldl (· + ·) 0

/-! ## SYS -/

/-- `SYS_ID` (R860). -/
def sysId (s : State) : Nat := 0x16 + 256 * (if s.sys.variant = .m then 1 else 2) + 4096 * 0xC

/-- The clock of an island runs by the conditions of R98; islands 1, 8 to 12 and 24 run during a wake from SENTINEL too, and Umber's while it is powered, that of its memory
for the length of an access, which lies within a step. A recovered chain clock runs while its link is not dead (log 63). DESIGN CHOICE (log 144): an engine whose code is
being copied counts as running a kernel. -/
def islandRuns (s : State) (i : Nat) : Bool :=
  let on := measuring s
  let awake := on || s.sys.waking
  let kernel (g : Eng) : Bool := g.st == .running || g.st == .loading
  let kernels := kernel s.indigo.te || kernel s.indigo.se
  let streams := s.cell.cellRing.isOpen || s.cell.auxRing.isOpen || !s.cell.streams.isEmpty
  let line (p : ChPort) : Bool := on && p.st != .linkDead
  let sending (p : ChPort) : Bool := on && (!p.txq.isEmpty || !p.linkq.isEmpty)
  match i with
  | 0 => true
  | 1 => awake
  | 2 => false
  | 3 => s.sys.powered && s.sys.mode == .active
  | 4 => line s.chain.north
  | 5 => sending s.chain.north
  | 6 => line s.chain.south
  | 7 => sending s.chain.south
  | 8 => awake
  | 9 => awake
  | 10 => awake
  | 11 => awake
  | 12 => awake
  | 13 => on && (s.bal.onT.any (· != 0) || s.bal.stim.isSome)
  | 14 => on && kernel s.indigo.te
  | 15 => on && kernel s.indigo.se
  | 16 => on && (kernels || streams)
  | 19 => (on || s.sp1.burst) && spMode s 0 != 0
  | 20 => (on || s.sp2.burst) && spMode s 1 != 0
  | 21 => on && !(s.log.queue.isEmpty && s.log.alarmq.isEmpty && s.log.holdq.isEmpty)
  | 22 => on && s.chk.units.any (·.busy)
  | 24 => awake
  | 25 => s.umber.powered
  | 26 => s.umber.powered
  | 27 => false
  | _ => on

/-- `SYS_ISL_RUN.RUN` (R144). -/
def islRun (s : State) : BitVec 25 := maskOf 25 fun i => islandRuns s i

/-- The SYS registers (R94 to R97, R144 to R147, R859, R860). -/
def regSys (s : State) (o : Nat) : Nat :=
  match o with
  | 0x00 => sysId s
  | 0x04 => s.sys.serial.toNat % 2 ^ 32
  | 0x08 => s.sys.serial.toNat / 2 ^ 32
  | 0x10 => s.regs.pwrCtrl.toNat
  | 0x14 => pwrStat s
  | 0x18 => s.sys.wakeSrc.toNat
  | 0x20 => supplyWord s
  | 0x40 => (islRun s).toNat
  | 0x44 => s.sys.clkFail.toNat + 2 ^ 31 * b2n s.sys.moscFail
  | 0x48 => s.sys.stall.toNat + 256 * s.sys.nocreditCnt + 65536 * s.sys.alarmWaitMax
  | 0x4C => s.regs.fabCfg.toNat
  | 0x60 => flagWord [s.sys.bank, s.sys.fallback, s.sys.recovery, s.fw.busy]
  | 0x64 => s.sys.fwVer.toNat
  | 0x68 => s.fw.rcvd
  | 0x6C => s.sys.rstCause.toNat
  | 0x70 => s.sys.cfgCount % 65536 + 65536 * b2n s.sys.cfgCopy + 131072 * b2n s.sys.cfgOneBad
  | _ => 0

/-! ## HOST, CHAIN, TIME -/

/-- `HOST_BIND_h` (R203). -/
def bindWord (s : State) (h : Nat) : Nat :=
  match binding s h with
  | some b => 1 + 2 * b2n b.uart + 4 * authCode b.auth + 16 * b.pos
  | none => 0

/-- The HOST registers (R200 to R204). -/
def regHost (s : State) (o : Nat) : Nat :=
  let h := s.host
  match o with
  | 0x00 => s.regs.hostCfg.toNat
  | 0x04 => b2n h.breakStuck + 2 * b2n (isFactory s) + 16 * flagWord s.lockout
  | 0x08 => packWord 8 [h.crcCnt, h.lenCnt, h.frameCnt, h.authCnt]
  | 0x0C => packWord 8 [h.runt, h.rejLost, h.late]
  | 0x10 => bindWord s 0
  | 0x14 => bindWord s 1
  | 0x18 => bindWord s 2
  | 0x1C => bindWord s 3
  | 0x20 => nth s.nv.tagC 0 0
  | 0x24 => nth s.nv.tagC 1 0
  | 0x28 => nth s.nv.tagC 2 0
  | 0x2C => nth s.nv.tagC 3 0
  | _ => 0

/-- The CHAIN registers (R304 to R310). -/
def regChain (s : State) (o : Nat) : Nat :=
  let errs (p : ChPort) : Nat := packWord 8 [p.crcCnt, p.codeCnt, p.lenCnt, p.nocredCnt]
  match o with
  | 0x00 => s.regs.chainCfg.toNat
  | 0x04 => chainState s
  | 0x08 => chainPort s s.chain.north
  | 0x0C => chainPort s s.chain.south
  | 0x10 => errs s.chain.north
  | 0x14 => errs s.chain.south
  | 0x18 => packWord 8 [s.chain.rtxCnt, s.chain.nakCnt, s.chain.voidCnt, s.chain.linkDrop]
  | 0x1C => chainHb s
  | 0x24 => s.chain.dead.toNat % 2 ^ 32
  | 0x28 => s.chain.dead.toNat / 2 ^ 32
  | _ => 0

/-- A hop's delay register (R348). -/
def hopWord (h : Hop) : Nat := h.delay % 65536 + 65536 * b2n h.unusable

/-- The TIME registers (R348). -/
def regTime (s : State) (o : Nat) : Nat :=
  let t := s.time
  match o with
  | 0x00 => s.regs.timeCfg.toNat
  | 0x04 => t.st.code + 8 * t.anchorSt.code + 64 * b2n t.setExpired + 128 * b2n t.holdLimit + 256 * (t.epoch % 256) + 65536 * t.syncBad +
            16777216 * b2n t.srcNorth
  | 0x08 => t.ns
  | 0x0C => t.latLo.toNat
  | 0x10 => t.latHi.toNat
  | 0x14 => fieldI 32 t.offset
  | 0x18 => fieldI 32 t.freq
  | 0x1C => hopWord t.hopS
  | 0x20 => hopWord t.hopN
  | _ => 0

/-! ## CELL, AUX, BAL -/

/-- The bits of a ring's `STAT` register (R399). -/
def ringStat (r : RingSt) : Nat := r.ovf % 65536 + 65536 * b2n r.isOpen

/-- The CELL registers (R399). -/
def regCell (s : State) (o : Nat) : Nat :=
  let c := s.cell
  if 0x40 ≤ o ∧ o ≤ 0x7C then (nth c.latVal ((o - 0x40) / 4) 0).toNat + 2 ^ 24 * (nth c.latFlags ((o - 0x40) / 4) 0).toNat
  else match o with
  | 0x00 => s.regs.cellCfg.toNat
  | 0x08 => s.regs.owCfg.toNat
  | 0x0C => b2n c.ow.isSome + 2 * b2n c.sumErr
  | 0x10 => c.openPins.toNat
  | 0x14 => c.clamp.toNat
  | 0x18 => c.clampLat.toNat
  | 0x1C => blk s 0x06 2 + 65536 * blk s 0x04 2
  | 0x20 => limWord s
  | 0x80 => c.snum
  | 0xC0 => s.regs.cellRbCfg.toNat
  | 0xC4 => c.cellRing.wp
  | 0xC8 => c.cellRing.rp
  | 0xCC => ringStat c.cellRing
  | 0xD0 => c.hsLoss % 65536
  | 0x100 => blk s 0x08 2 + 65536 * (blk s 0x03 1 % 64) + 2 ^ 22 * b2n (bitN (blk s 0x01 1) 3)
  | 0x104 => fieldI 32 c.isnsMa
  | 0x108 => c.isnsFlagsLat.toNat
  | 0x10C => fieldI 32 c.isnsLocal
  | _ => 0

/-- The AUX registers (R400). -/
def regAux (s : State) (o : Nat) : Nat :=
  let c := s.cell
  if 0x10 ≤ o ∧ o ≤ 0x2C then (nth c.auxLat ((o - 0x10) / 4) 0).toNat + 65536 * (nth c.auxLatFlags ((o - 0x10) / 4) 0).toNat
  else match o with
  | 0x00 => s.regs.auxCfg.toNat
  | 0x40 => s.regs.auxRbCfg.toNat
  | 0x44 => c.auxRing.wp
  | 0x48 => c.auxRing.rp
  | 0x4C => ringStat c.auxRing
  | _ => 0

/-- The BAL registers (R435). -/
def regBal (s : State) (o : Nat) : Nat :=
  let b := s.bal
  let diag (k : Nat) : Nat := diagCode (diagShown s k)
  if 0x10 ≤ o ∧ o ≤ 0x4C then nth b.onT ((o - 0x10) / 4) 0 % 256 + 256 * (balEff s ((o - 0x10) / 4) % 256)
  else if 0x80 ≤ o ∧ o ≤ 0xBC then nth (settleAcc s).bal.acc ((o - 0x80) / 4) 0 / 100000 % 2 ^ 32
  else match o with
  | 0x00 => s.regs.balCfg.toNat
  | 0x04 => (maskOf 16 fun k => nth b.onT k 0 != 0).toNat + 65536 * (maskOf 16 fun k => stimOn s true k).toNat
  | 0x50 => packWord 3 ((List.range 8).map diag)
  | 0x54 => packWord 3 ((List.range 8).map fun k => diag (8 + k))
  | 0x5C => b.s + 8 * b2n b.clip + 16 * (b.stopCause % 16) + 256 * b2n (match b.stim with | some x => x.running | none => false)
  | 0x60 => b.stimW % 4 + 4 * (b.stimDur % 256)
  | 0x64 => b.stimF % 2 ^ 32
  | 0x68 => b.stimBias % 65536 + 65536 * (b.stimAmp % 65536)
  | _ => 0

/-! ## INDIGO -/

/-- The registers of an engine (R486). -/
def regEng (e : Engine) (g : Eng) (o : Nat) : Nat :=
  match o with
  | 0x0 => estateCode g.st + 16 * termCode g.term + 256 * (g.slot % 256) + 65536 * inUse e g
  | 0x4 => g.faultCode % 16 + 16 * (g.faultIdx % 2048) + 65536 * (g.faultDetail % 65536)
  | 0x8 => g.result.toNat
  | _ => 0

/-- The state code of the sweep (R556). -/
def swpCode : SwpSt → Nat
  | .idle => 0 | .waiting => 1 | .running => 2 | .fitting => 3

/-- The INDIGO registers (R485, R486, R556). -/
def regIndigo (s : State) (o : Nat) : Nat :=
  let i := s.indigo
  match o with
  | 0x00 => s.regs.indigoCfg.toNat
  | 0x04 => s.regs.indigoWin.toNat
  | 0x08 => s.regs.indigoPage.toNat
  | 0x0C => s.regs.indigoRes.toNat
  | 0x10 => s.regs.ctxTe.toNat
  | 0x14 => s.regs.ctxSe.toNat
  | 0x18 => i.valid.toNat + 256 * i.dirty.toNat
  | 0x20 | 0x24 | 0x28 => regEng .te i.te (o - 0x20)
  | 0x2C => s.regs.trigTe.toNat
  | 0x30 | 0x34 | 0x38 => regEng .se i.se (o - 0x30)
  | 0x3C => s.regs.trigSe.toNat
  | 0x40 => packWord 8 [i.eccCorr, i.trigMiss, i.xferDrop]
  | 0x48 => i.te.ident.toNat
  | 0x4C => i.se.ident.toNat
  | 0x80 => swpCode s.sweep.st + 4 * (s.sweep.point % 64) + 256 * b2n s.sweep.passB + 4096 * (s.sweep.cause % 16) + 65536 * (s.sweep.num % 65536)
  | 0x84 => s.regs.swpCfg.toNat
  | 0x88 => s.regs.swpState.toNat
  | _ => 0

/-! ## THERM, SPORT -/

/-- `THERM_AUX_T_k` (R602). -/
def auxTempWord (s : State) (k : Nat) : Nat :=
  (match nth s.therm.auxT k none with | some t => fieldI 16 t | none => 0x8000) + 65536 * b2n (auxBad s k) +
    131072 * b2n (s.therm.disagree.getLsbD k) + 262144 * b2n (s.therm.ror.getLsbD k) +
    2 ^ 20 * (match nth s.therm.auxRate k none with | some r => fieldI 12 (roundFree (10 * r)) | none => 0)

/-- The entries to SHUTDOWN of the last hour, `SD_CNT` (R561). -/
def sdCnt (s : State) : Nat := min 3 (s.therm.sdTimes.filter fun t => s.therm.latched || decide (s.clk < t + 3600 * Config.sec)).length

/-- The THERM registers (R602). -/
def regTherm (s : State) (o : Nat) : Nat :=
  let t := s.therm
  if 0x20 ≤ o ∧ o ≤ 0x2C then blk s (0x38 + (o - 0x20)) 4
  else if 0x40 ≤ o ∧ o ≤ 0x5C then
    let k := (o - 0x40) / 4
    auxGroup s k + 256 * blk s (0x49 + 4 * k) 1 + 65536 * auxBeta s k
  else if 0x60 ≤ o ∧ o ≤ 0x7C then auxTempWord s ((o - 0x60) / 4)
  else match o with
  | 0x00 => blk s 0x30 1 % 16 + 256 * blk s 0x31 1 + 65536 * blk s 0x32 1
  | 0x04 => dieCode t.level + 8 * b2n t.latched + 16 * b2n t.rise + 32 * b2n t.broken + 64 * b2n (umbValid s) + 256 * (s.bal.s % 8) + 4096 * sdCnt s +
            65536 * grpBits s + 2 ^ 24 * flagWord ((List.range 4).map (groupRor s))
  | 0x08 => fieldI 16 t.temp + 65536 * fieldI 16 t.rate
  | 0x0C => fieldI 16 t.umbTemp + 65536 * b2n (umbValid s)
  | 0x10 => blk s 0x34 2 + 65536 * blk s 0x36 2
  | _ => 0

/-- The registers of a sensor port (R603). -/
def regPort (s : State) (n o : Nat) : Nat :=
  let p := spPort s n
  match o with
  | 0x00 => (spCfg s n).toNat
  | 0x04 => spState s n + 8 * b2n p.stale + 16 * b2n p.satFault + 32 * b2n p.proofBit + 64 * b2n (linePower s n) + 256 * (spType s n % 256) + 65536 * spAge s n
  | 0x08 => p.ch1 % 4096 + 4096 * (p.status % 16) + 65536 * (p.ch2 % 4096)
  | 0x0C => p.esmId % 256 + 256 * (p.esmData % 65536) + 2 ^ 24 * b2n p.esmFmt
  | 0x10 => spErrs p
  | 0x14 => p.meas % 65536 + 65536 * (p.frames % 65536)
  | _ => 0

/-! ## WATCH, VERM -/

/-- `PROOF_DUE.MIN` (R643): the rule does not say how a part of a minute counts (log 3), nor what shows while an aborted proof waits for `NONE` (log 52). -/
def proofMinutes (s : State) : Nat :=
  match s.watch.dueAt with
  | some t => if t ≤ s.clk then 0 else (min 65535 (divFree ((t - s.clk : Nat) : Int) (60 * Config.sec : Nat))).toNat
  | none => if s.watch.dueSince.isSome ∨ proofRuns s then 0 else Config.noCode 16 0 % 65536

/-- The WATCH registers (R643). -/
def regWatch (s : State) (o : Nat) : Nat :=
  let w := s.watch
  let gas (n : Nat) : Nat := fieldN 12 (roundFree (nth w.gasBase n 0)) + 4096 * b2n (nth w.learn n false)
  match o with
  | 0x00 => b2n (bitN (blk s 0x01 1) 2) + 16 * (blk s 0x70 1 % 16) + 256 * (blk s 0x72 2 % 512)
  | 0x04 => blk s 0x68 2 % 1024 + 1024 * (blk s 0x6A 2 % 4096) + 2 ^ 24 * blk s 0x6C 1
  | 0x08 => blk s 0x6D 1 + 256 * blk s 0x6E 1 + 65536 * (blk s 0x6F 1 % 128)
  | 0x0C => w.level.code + 256 * w.own.toNat + 16384 * w.zone.toNat + 65536 * w.unavail.toNat + 2 ^ 24 * (seenMask s).toNat + 2 ^ 30 * b2n w.strong
  | 0x10 => gas 0
  | 0x14 => gas 1
  | 0x20 => proofStat s
  | 0x24 => w.pres.toNat
  | 0x28 => proofMinutes s
  | _ => 0

/-- The state code of an output (R656). -/
def outCode : OutSt → Nat
  | .off => 0 | .ramp => 1 | .pullin => 2 | .hold => 3 | .fault => 4

/-- The state code of an input (R652). -/
def inpCode : InpSt → Nat
  | .off => 0 | .run => 1 | .demand => 2 | .discrepancy => 3 | .cross => 4 | .test => 5

/-- The limit of a class B cause's timer (R667). -/
def bLimit (c : Nat) : Nat := (if c = 10 then 168 else 4) * 3600 * Config.sec

/-- `VERM_B_AGE` (R698): the oldest present cause, and the first escalation, in minutes; how a part of a minute counts is not stated (log 3). -/
def bAge (s : State) : Nat :=
  let on := (List.range 11).filter fun c => s.verm.faultB.getLsbD c
  let minutes (n : Nat) : Nat := (divFree (n : Int) (60 * Config.sec : Nat)).toNat
  let run := (on.map (bTime s)).max?.getD 0
  let left := match (on.map fun c => bLimit c - bTime s c).min? with | some n => min 65535 (minutes n) | none => 65535
  min 65535 (minutes run) + 65536 * left

/-- The VERM registers (R698). -/
def regVerm (s : State) (o : Nat) : Nat :=
  let v := s.verm
  match o with
  | 0x00 => blk s 0x01 1 + 256 * blk s 0x12 1 + 65536 * (blk s 0x13 1 % 4)
  | 0x04 => flagWord [v.isSealed, commissioning s, v.faultA != 0, v.faultB != 0, stopDemand s, v.armReset.isSome || v.armUnseal.isSome, v.twoHand] +
            256 * (v.refuse % 16) + 4096 * (v.rstFail % 16) + 65536 * flagWord (v.inps.map (·.latch))
  | 0x08 => v.faultA.toNat
  | 0x0C => v.faultB.toNat
  | 0x10 => bAge s
  | 0x14 => packWord 4 (v.inps.mapIdx fun k i => if underTest s k then inpCode .test else inpCode i.st)
  | 0x18 => packWord 4 (v.outs.map fun x => outCode x.st)
  | 0x1C => v.vcoil.toNat
  | 0x20 => limitChg s + 65536 * limitDis s
  | 0x24 => v.cmdChg + 65536 * v.cmdDis
  | 0x28 => (crc32c v.block).toNat
  | 0x2C => v.sealVal.toNat
  | 0x34 => flagWord (v.peers.map (·.lost))
  | 0x38 => packWord 8 [v.twinMiss, v.twinDiff, v.single, v.discard]
  | _ => 0

/-! ## CHECK, LOG, EVENT, Umber mirror -/

/-- The registers of a check-value unit (R215, R230, R237, R238). -/
def regUnit (s : State) (n o : Nat) : Nat :=
  let u := chkU s n
  match o with
  | 0x00 => b2n u.mode + 2 * b2n u.evtEn + 4096 * (u.nb % 4)
  | 0x08 => if u.busy && !u.ended then (chkFinal n u.run).toNat else u.val.toNat
  | 0x0C => u.expv.toNat
  | 0x10 => if u.busy || u.susp then u.run.toNat else u.ctx0.toNat
  | 0x14 => if u.busy || u.susp then (chkCtx1 n u).toNat else u.ctx1.toNat
  | 0x18 => flagWord [u.busy, u.owner, u.matched, u.mismatched, u.ctxErr, u.taint && (u.busy || u.susp), u.failed, u.susp] + 256 * u.misCnt
  | _ => 0

/-- The CHECK registers (R237 to R240). -/
def regCheck (s : State) (o : Nat) : Nat :=
  if o < 0x80 then regUnit s (o / 0x20) (o % 0x20)
  else if 0x100 ≤ o ∧ o ≤ 0x17C then
    let a := nth s.chk.alv ((o - 0x100) / 4) {}
    a.tx % 256 + 256 * (a.last % 256) + 65536 * a.rep + 2 ^ 20 * a.seq + 2 ^ 24 * a.lost + 2 ^ 28 * b2n a.init
  else if o = 0x180 then s.regs.alvCfg.toNat
  else 0

/-- The LOG registers (R794). -/
def regLog (s : State) (o : Nat) : Nat :=
  let l := s.log
  let c := nth l.cursors 4 {}
  let count (pinned : Bool) : Nat := (l.slots.filter fun x => decide (x.1 < 256) == pinned && x.2.crcOk).length
  let left := match l.freezeEnd with | some x => (min 15 (divFree ((x.2 - s.clk : Nat) : Int) (Config.sec : Nat))).toNat | none => 0
  if 0x20 ≤ o ∧ o ≤ 0x3C then field l.win (o - 0x20) 4
  else match o with
  | 0x00 => flagWord [l.dead, l.freezeEnd.isSome, l.lwFull, l.lwFail, l.scanDone] + 256 * left + 65536 * l.lw.length + 2 ^ 24 * (l.deadCause % 16)
  | 0x04 => count true + 65536 * count false
  | 0x08 => if l.scanDone then l.next % 2 ^ 32 else 0
  | 0x0C => l.drop + 65536 * l.rateLoss + 2 ^ 24 * l.holdLoss
  | 0x10 => min 255 l.retired.length + 256 * min 255 l.damaged.length + 65536 * l.wfail
  | 0x14 => 65536 * (c.slot % 8192) + 2 ^ 29 * b2n c.atEnd
  | 0x18 => c.q % 2 ^ 32
  | 0x40 => l.opmin % 2 ^ 32
  | 0x44 => l.pwrCyc % 65536
  | _ => 0

/-- The source that `EVT_RSEL` selects (R822). -/
def evtSrc (s : State) : Nat := min 0x9F (rf s.regs.evtRsel 7 0)

/-- The EVENT registers (R822); bit 5 of `EVT_ROUTE` shows the sources that Vermilion receives (R800). -/
def regEvent (s : State) (o : Nat) : Nat :=
  let e := s.evt
  let src := evtSrc s
  let route := if severity src = 3 then 31 else (nth e.route src 0).toNat
  if 0x40 ≤ o ∧ o ≤ 0x8C then (nth e.masks ((o - 0x40) / 0x14) 0).toNat / 2 ^ (32 * ((o - 0x40) % 0x14 / 4)) % 2 ^ 32
  else match o with
  | 0x00 => s.regs.evtCfg.toNat
  | 0x04 => s.regs.evtRsel.toNat
  | 0x08 => route + 32 * b2n ([0x2B, 0x2C, 0x3F, 0x9C].contains src) + 64 * severity src
  | 0x0C => nth e.seqs src 0
  | 0x10 => packWord 8 ((List.range 4).map fun h => min 255 (unread s h))
  | 0x14 => packWord 8 e.loss
  | 0x18 => e.oqLoss
  | _ => 0

/-- The Umber mirror (R4, R747). -/
def regMirror (s : State) (o : Nat) : Nat :=
  let m := s.umber.mirror
  let half (x : Nat) (hi : Bool) : Nat := if hi then x / 2 ^ 32 % 2 ^ 32 else x % 2 ^ 32
  if s.sys.variant = .s then 0
  else if 0x18 ≤ o ∧ o ≤ 0x34 then half (nth m.regs ((o - 0x18) / 8) 0) ((o - 0x18) % 8 == 4)
  else if 0x50 ≤ o ∧ o ≤ 0x5C then nth s.nv.cursor ((o - 0x50) / 4) 0 % 2 ^ 32
  else match o with
  | 0x00 => b2n s.umber.linkUp + 2 * (m.st % 4) + 8 * b2n m.sealN + 16 * b2n m.updBusy + 32 * b2n m.timeOk + 256 * (m.len % 256)
  | 0x04 => m.seq % 2 ^ 32
  | 0x08 => m.oldest % 2 ^ 32
  | 0x0C => m.audit % 2 ^ 32
  | 0x10 => m.swid.toNat
  | 0x14 => m.fwver.toNat
  | 0x38 => fieldI 32 m.i
  | 0x3C => fieldI 32 m.v
  | 0x40 => fieldI 16 m.temp
  | 0x44 => m.reject % 65536
  | 0x48 => m.serial.toNat % 2 ^ 32
  | 0x4C => m.serial.toNat / 2 ^ 32
  | _ => 0

/-! ## One read -/

/-- The scratchpad offset that a window address names (R454, R866). -/
def windowOff (s : State) (a : Nat) : Nat := (a - 0x8000) + 0x8000 * rf s.regs.indigoWin 0 0

/-- The value at a register address (R19, R875): an address assigned to no register reads 0. -/
def regVal (s : State) (a : Nat) : Nat :=
  if a < 0x0400 then regSys s a
  else if a < 0x0800 then regHost s (a - 0x0400)
  else if a < 0x0C00 then regChain s (a - 0x0800)
  else if a < 0x1000 then regTime s (a - 0x0C00)
  else if a < 0x1400 then regCell s (a - 0x1000)
  else if a < 0x1800 then regAux s (a - 0x1400)
  else if a < 0x2000 then regBal s (a - 0x1800)
  else if a < 0x2400 then regIndigo s (a - 0x2000)
  else if a < 0x2800 then regTherm s (a - 0x2400)
  else if a < 0x2820 then regPort s 0 (a - 0x2800)
  else if a < 0x2840 then regPort s 1 (a - 0x2820)
  else if a < 0x2C00 then 0
  else if a < 0x3000 then regWatch s (a - 0x2C00)
  else if a < 0x3800 then regVerm s (a - 0x3000)
  else if a < 0x3C00 then regCheck s (a - 0x3800)
  else if a < 0x4000 then regLog s (a - 0x3C00)
  else if a < 0x4800 then regEvent s (a - 0x4000)
  else if a < 0x4C00 then regMirror s (a - 0x4800)
  else if a < 0x8000 then 0
  else padWord s (windowOff s a)

/-- What a read of an address does before its value is taken: the latches (R348, R399, R400, R770), and the memory errors of the window (R453). -/
def beforeRead (ecc : Ecc) (a : Nat) (s : State) : State :=
  if a = 0x0C08 then latchTime s
  else if a = 0x1040 then latchCells s
  else if a = 0x1410 then latchAux s
  else if a = 0x1104 then latchCurrent s
  else if a = 0x3C20 then logWindow s
  else if 0x8000 ≤ a then hostEcc ecc (windowOff s a) 4 s
  else s

/-- The read-and-clear fields of SYS to TIME after a read (R16, R20). -/
def clearReadA (a : Nat) (s : State) : Option State :=
  let clr (p : ChPort) : ChPort := { p with crcCnt := 0, codeCnt := 0, lenCnt := 0, nocredCnt := 0 }
  match a with
  | 0x0014 => some { s with sys.refuse := 0 }
  | 0x0018 => some { s with sys.wakeSrc := 0 }
  | 0x0048 => some { s with sys.stall := 0, sys.nocreditCnt := 0, sys.alarmWaitMax := 0 }
  | 0x006C => some { s with sys.rstCause := 0 }
  | 0x0408 => some { s with host.crcCnt := 0, host.lenCnt := 0, host.frameCnt := 0, host.authCnt := 0 }
  | 0x040C => some { s with host.runt := 0, host.rejLost := 0, host.late := 0 }
  | 0x0810 => some { s with chain.north := clr s.chain.north }
  | 0x0814 => some { s with chain.south := clr s.chain.south }
  | 0x0818 => some { s with chain.rtxCnt := 0, chain.nakCnt := 0, chain.voidCnt := 0, chain.linkDrop := 0 }
  | 0x0C04 => some { s with time.syncBad := 0 }
  | _ => none

/-- The read-and-clear fields of the other blocks after a read (R16, R20). -/
def clearReadB (a : Nat) (s : State) : State :=
  match a with
  | 0x10CC => { s with cell.cellRing.ovf := 0 }
  | 0x10D0 => { s with cell.hsLoss := 0 }
  | 0x144C => { s with cell.auxRing.ovf := 0 }
  | 0x185C => { s with bal.clip := false, bal.stopCause := 0 }
  | 0x2040 => { s with indigo.eccCorr := 0, indigo.trigMiss := 0, indigo.xferDrop := 0 }
  | 0x2810 => clearErrs 0 s
  | 0x2830 => clearErrs 1 s
  | 0x2814 => { s with sp1.frames := 0 }
  | 0x2834 => { s with sp2.frames := 0 }
  | 0x3004 => { s with verm.refuse := 0, verm.rstFail := 0 }
  | 0x3038 => { s with verm.twinMiss := 0, verm.twinDiff := 0, verm.single := 0, verm.discard := 0 }
  | 0x3818 => updChk 0 (fun u => { u with misCnt := 0 }) s
  | 0x3838 => updChk 1 (fun u => { u with misCnt := 0 }) s
  | 0x3858 => updChk 2 (fun u => { u with misCnt := 0 }) s
  | 0x3878 => updChk 3 (fun u => { u with misCnt := 0 }) s
  | 0x3C0C => { s with log.drop := 0, log.rateLoss := 0, log.holdLoss := 0 }
  | 0x3C10 => { s with log.wfail := 0 }
  | 0x4014 => { s with evt.loss := [0, 0, 0, 0] }
  | 0x4018 => { s with evt.oqLoss := 0 }
  | _ => if 0x3900 ≤ a ∧ a ≤ 0x397C then updAlv ((a - 0x3900) / 4) (fun c => { c with rep := 0, seq := 0, lost := 0 }) s else s

/-- What a read of an address clears (R16, R20). -/
def afterRead (a : Nat) (s : State) : State := (clearReadA a s).getD (clearReadB a s)

/-- One register read (R862): the value, and the state after it. -/
def readReg (ecc : Ecc) (a : Nat) (s : State) : Nat × State :=
  let s1 := beforeRead ecc a s
  (regVal s1 a, afterRead a s1)

/-- Registers read in ascending order (R862). -/
def readRegs (ecc : Ecc) : Nat → Nat → State → List Byte × State
  | 0, _, s => ([], s)
  | n + 1, a, s =>
    let r := readReg ecc a s
    let t := readRegs ecc n (a + 4) r.2
    (le 4 r.1 ++ t.1, t.2)

end Sys2Proof.Machine
end

