-- ==== Sys2Proof/Machine/Crossing.lean ====
section
/-! DEFINITION. The crossings between clock islands: their messages, the room in their queues, the shared buffer slots, the arbiter of the receiving island (R98 to
R107, R136, R137, R142). -/

namespace Sys2Proof.Machine

open Sys2Proof

/-- The flits of a message (R104): 16 bytes each; a payload of more than 64 bytes stays in a shared buffer slot, which one flit names. -/
def msgFlits (bytes : List Byte) : Nat := if bytes.length ≤ 64 then max 1 ((bytes.length + 15) / 16) else 1

/-- A message of a class with its bytes (R104). -/
def mkMsg (cls : Nat) (bytes : List Byte) : XMsg := { cls := cls, flits := msgFlits bytes, bytes := bytes }

/-- The payload of a message stays in a shared buffer slot (R104). -/
def inSlot (m : XMsg) : Bool := 64 < m.bytes.length

/-- The classes that a crossing carries; the model's crossings carry all six, so that they are 32 flits deep (R105, log 68). -/
def crossClasses : Nat := 6

/-- The flits of a class that a crossing holds (R106). -/
def flitsOf (x : Xing) (c : Nat) : Nat := ((x.queue.filter fun m => m.cls == c).map (·.flits)).foldl (· + ·) 0

/-- The flits a message of a class may still take (R105, R106): what is free of its class's 4, and of the 8 that the classes share. -/
def flitRoom (x : Xing) (c : Nat) : Nat :=
  let shared := ((List.range crossClasses).map fun k => flitsOf x k - 4).foldl (· + ·) 0
  (4 - flitsOf x c) + (8 - shared)

/-- The shared buffer slots that messages of a class hold in the queues of the crossings (R104). -/
def slotsHeld (l : List Xing) (c : Nat) : Nat := ((l.map fun x => (x.queue.filter fun m => m.cls == c && inSlot m).length)).foldl (· + ·) 0

/-- A message may enter (R104, R106): all of its flits fit, and a slot of its class is free where it needs one. -/
def mayEnter (l : List Xing) (x : Xing) (m : XMsg) : Bool :=
  m.flits ≤ flitRoom x m.cls && (!inSlot m || slotsHeld l m.cls < Config.sharedSlots m.cls)

/-- The messages that wait at a sender enter while they fit, oldest first; within a class none overtakes another. The second list holds the classes that still wait. -/
def enterWaits (rest : List Xing) : List XMsg → Xing → List Nat → Xing
  | [], x, _ => x
  | m :: t, x, stuck =>
    if !stuck.contains m.cls && mayEnter (x :: rest) x m then enterWaits rest t { x with queue := x.queue ++ [m] } stuck
    else enterWaits rest t { x with waits := x.waits ++ [m] } (m.cls :: stuck)

/-- A crossing after room has been freed, or a message has come to wait. -/
def settleXing (rest : List Xing) (x : Xing) : Xing := enterWaits rest x.waits { x with waits := [] } []

/-- The crossing from one island to another. -/
def isXing (src dst : Nat) (x : Xing) : Bool := x.src == src && x.dst == dst

/-- The crossings with a message to a crossing added at its sender (R106, R137): it enters at once or waits there. -/
def addMsg (src dst : Nat) (m : XMsg) (l : List Xing) : List Xing :=
  let x := (l.find? (isXing src dst)).getD { src := src, dst := dst, queue := [], waits := [] }
  let rest := l.filter fun y => !isXing src dst y
  settleXing rest { x with waits := x.waits ++ [m] } :: rest

/-- The islands that have a message of a class ready at an output of the crossings to an island. -/
def readySrcs (l : List Xing) (dst c : Nat) : List Nat := (l.filter fun x => x.dst == dst && x.queue.any (fun m => m.cls == c)).map (·.src)

/-- Which class an arbiter serves next (R107): classes 0 and 1 first; then the lowest class, but BULK once it has been passed over `BULK_TURN` times; with the
count of picks that passed over BULK after it. -/
def classTurn (turn passed : Nat) (ready : Nat → Bool) : Option (Nat × Nat) :=
  match [0, 1].find? ready with
  | some c => some (c, passed)
  | none =>
    match [2, 3, 4].find? ready, ready 5 with
    | some c, true => if turn ≠ 0 ∧ turn ≤ passed then some (5, 0) else some (c, passed + 1)
    | some c, false => some (c, 0)
    | none, true => some (5, 0)
    | none, false => none

/-- The next input after the one served last, in round-robin order (R107). -/
def nextInput (last : Nat) (srcs : List Nat) : Option Nat := (srcs.filter fun i => last < i).min?.orElse fun _ => srcs.min?

/-- A message taken out of a crossing: the oldest of its class; its shared slot is released, and what waits for the room enters (R104). -/
def takeMsg (src dst c : Nat) (l : List Xing) : Option XMsg × List Xing :=
  match l.find? (isXing src dst) with
  | none => (none, l)
  | some x =>
    let i := x.queue.findIdx fun m => m.cls == c
    let rest := l.filter fun y => !isXing src dst y
    let x1 := settleXing rest { x with queue := x.queue.eraseIdx i }
    (x.queue[i]?, if x1.queue = [] ∧ x1.waits = [] then rest else x1 :: rest)

/-- One pick of an island's arbiter (R107, R136); none where nothing is ready. -/
def pickMsg (turn : Nat) (a : XArb) (l : List Xing) : Option (XArb × List Xing) :=
  match classTurn turn a.passed (fun c => !(readySrcs l a.dst c).isEmpty) with
  | none => none
  | some (c, p) =>
    match nextInput (nth a.last c 0) (readySrcs l a.dst c) with
    | none => none
    | some src =>
      let r := takeMsg src a.dst c l
      some ({ a with passed := p, last := a.last.set c src, read := a.read ++ (r.1.map fun m => (src, m)).toList }, r.2)

/-- An island reads what is ready, in the order of its arbiter; `fuel` bounds the messages. -/
def readMsgs (turn : Nat) : Nat → XArb → List Xing → XArb × List Xing
  | 0, a, l => (a, l)
  | n + 1, a, l =>
    match pickMsg turn a l with
    | some (a1, l1) => readMsgs turn n a1 l1
    | none => (a, l)

/-- The messages of all crossings to an island. -/
def msgsTo (l : List Xing) (dst : Nat) : Nat := ((l.filter (·.dst == dst)).map fun x => x.queue.length + x.waits.length).foldl (· + ·) 0

/-- An island can read its crossings (R98, R101): its clock runs, or restarts for the message in ACTIVE and IDLE; an island that failed the clock check counts as
stopped until it is counted right again (log 143). Umber's islands read while Umber is powered. -/
def canRead (s : State) (d : Nat) : Bool :=
  if d = 0 then true
  else if 25 ≤ d then s.umber.powered
  else !s.sys.clkDown.getLsbD d && (measuring s || islandRuns s d)

/-- An island reads its crossings (R100, R107). -/
def readIsland (d : Nat) (s : State) : State :=
  if !canRead s d || msgsTo s.sys.xings d = 0 then s
  else
    let a := (s.sys.xarbs.find? fun a => a.dst == d).getD { dst := d, passed := 0, last := [0, 0, 0, 0, 0, 0], read := [] }
    let r := readMsgs (rf s.regs.fabCfg 3 0) (msgsTo s.sys.xings d) { a with read := [] } s.sys.xings
    { s with sys.xings := r.2, sys.xarbs := r.1 :: s.sys.xarbs.filter fun a => a.dst != d }

/-- Every island that can reads what waits for it: its clock runs again (R101). -/
def readIslands (s : State) : State := (List.range 28).foldl (fun s d => readIsland d s) s

/-- CROSSING_MESSAGE (R99 to R101, R104 to R107, R137, R142): a message enters its crossing where all of its flits fit and waits at its sender else; the receiving island
reads it, restarting its clock, unless its clock stands. -/
def execCrossingMessage (src dst : Fin 28) (cls : Fin 6) (bytes : List Byte) (s : State) : Out :=
  .next (readIsland dst.val { s with sys.xings := addMsg src.val dst.val (mkMsg cls.val bytes) s.sys.xings })

end Sys2Proof.Machine
end

