-- ==== Sys2Proof/Machine/PowerOps.lean ====
section
/-! DEFINITION. The power modes' shared operations: mode orders and their refusals, what stops at entry to SENTINEL and SHIP, what a wake notes and
what it starts again (R65 to R72, R87 to R89, R141, R787). -/

namespace Sys2Proof.Machine

open Sys2Proof

/-- The state that a row's meaning leaves; a row that answered with a fault or a refusal would leave the state as it was. -/
def ran (o : Out) (s : State) : State := match o with | .next t => t | _ => s

/-! ## Orders -/

/-- The cause that refuses a SENTINEL or SHIP request, the lowest of R66; 0 where none holds. -/
def refuseCause (m : Mode) (key : Nat) (s : State) : Nat :=
  if anyOutputOn s then 1
  else if m = .ship ∧ key ≠ 0x5A then 2
  else if proofRuns s then 3
  else if s.watch.level = .preAlarm ∨ s.watch.level = .alarm then 4
  else if s.log.freezeEnd.isSome then 5
  else if s.fw.busy ∨ s.fw.checking ≠ [] then 6
  else if s.pins.wake then 7
  else 0

/-- A mode request is refused: the cause is recorded and event 0x05 raised (R66). -/
def refuseMode (c : Nat) (s : State) : State := raiseSys 0x05 { s with sys.refuse := c }

/-- A mode order (R65 to R68, R182): a request for the present mode changes nothing; ACTIVE takes effect at once, IDLE once nothing is pending, SENTINEL and SHIP
100 ms after the reply. An order for another mode takes the place of one still to take effect (log 70). -/
def modeOrder (rq : Req) (mode key : Nat) (s : State) : Res :=
  let m := modeOf mode
  let asleep := m = .sentinel ∨ m = .ship
  let c := if asleep then refuseCause m key s else 0
  if m = s.sys.mode then Res.of stOk s
  else if c ≠ 0 then Res.of stBadParam (refuseMode c s)
  else if heldAgainst rq 21 (decide (modeCode s.sys.mode < mode)) s then overruled rq s
  else
    let s1 := noteOrder rq [21] { s with sys.pendingMode := none, sys.idleReq := false }
    match m with
    | .active => Res.of stOk (if s.sys.mode = .idle then raiseSys 0x04 (hbAfresh { s1 with sys.mode := .active }) else s1)
    | .idle => Res.of stOk (if s.sys.mode = .active then { s1 with sys.idleReq := true } else s1)
    | .sentinel => Res.of stOk { s1 with sys.pendingMode := some .sentinel }
    | .ship => Res.of stOk { s1 with sys.pendingMode := some .ship }

/-- `SET_MODE` (R67): its mode byte and its key byte, then the order. -/
def cmdSetMode (rq : Req) (mode key : Byte) (s : State) : Res :=
  if 3 < mode.toNat ∨ (mode.toNat ≠ 3 ∧ key ≠ 0) then Res.of stBadParam s else modeOrder rq mode.toNat key.toNat s

/-! ## Entry to SENTINEL and SHIP -/

/-- The protected messages on their way reach Vermilion and the watch before the islands stop (R141). -/
def deliverSent (s : State) : State :=
  s.chk.sent.foldl (fun s m =>
    let n := m.2.length
    ran (execSafetyMessage (Fin.ofNat 8 m.1) (m.2.headD 0) (slice m.2 1 (n - 2)) (m.2.getD (n - 1) 0) s) s) s

/-- An item of class 0 or 1 that cannot be delivered is written to Lampblack (R141): an ALARM under its own event, any other item under the mode change, with the first 12 of
its bytes (log 151). -/
def logItem (alarm : Bool) (bytes : List Byte) (s : State) : State :=
  if alarm then settle (logIntake 0x7A (slice bytes 0 12) (s, []))
  else settle (queueLog { evid := 0x04, sev := 0, payload := slice bytes 0 12, rep := 0, alarm := false, held := false } s)

/-- The frames of classes 0 and 1 that wait for a port go out where the port carries them, and are written to Lampblack else (R141); everything else that waits for it is
discarded. -/
def drainPort (sd : Side) (s : State) : State :=
  let one (s : State) (x : TxItem) : State :=
    freeHold x (if 1 < x.frame.cls then s
      else if txReady (port s sd) x then startFrame sd 0 x s
      else if x.frame.cls = 0 then logItem true (slice x.frame.body 8 8) s
      else logItem false x.frame.body s)
  setPort sd (fun p => { p with txq := [], linkq := [], line := none, lineEnd := none, anyTime := false, tones := 0, gotFrame := false }) ((port s sd).txq.foldl one s)

/-- The SAFETY frames that a stream has not sent, and the messages of classes 0 and 1 that no island could read, are written to Lampblack (R141). -/
def logUnsent (s : State) : State :=
  let frames := (s.chain.tx.filter fun t => t.cls == 1).map fun t => (t.unacked.drop t.sent).map (·.body)
  let msgs := s.sys.xings.map fun x => ((x.queue ++ x.waits).filter fun m => m.cls ≤ 1).map (·.bytes)
  (frames.flatten ++ msgs.flatten).foldl (fun s l => logItem false l s) { s with sys.xings := [] }

/-- The queues of a member that goes to sleep (R141): streams of frames hold nothing any more, and begin anew. -/
def dropQueues (s : State) : State :=
  let s1 := logUnsent (drainPort .south (drainPort .north (deliverSent (linesDone s))))
  { s1 with evt.outq := [], cmd.waiting := [], cmd.tick := [], cmd.ended := [],
            chain.tx := s1.chain.tx.map fun t => { t with unacked := [], sent := 0, rounds := 0, back := [], firstDue := true } }

/-- The entries that wait for Lampblack are written, in order; `fuel` bounds them (R787). -/
def writeAll : Nat → State → State
  | 0, s => s
  | n + 1, s => writeAll n (ran (execLogWrite [] s) s)

/-- Every stream closes (R379). -/
def closeStreams (s : State) : State := [0x00, 0x01, 0x10, 0x11, 0x12].foldl (fun s c => closeStream c s) s

/-- What stops with measurement, balancing, Indigo, Vermilion and the sensor ports (R64, R65, R379, R411, R470, R549, R667). -/
def stopBlocks (s : State) : State :=
  let s1 := closeStreams (endSweep 7 (clearBal allCh 5 (allOff s)))
  let s2 := indigoPowerDown { cutPulses allCh s1 with cell.ow := none, cell.owDeferred := false, bal.inPeriod := false, verm.bSaved := (List.range 11).map (bTime s1) }
  let s3 := holdTimers s2
  let rest (p : SpSt) : SpSt := { p with st := if p.st == .lineLow then .lineLow else .off, linePwr := false, burst := false, awaiting := false, testAt := none, secP := [] }
  { s3 with sp1 := rest s3.sp1, sp2 := rest s3.sp2 }

/-- The time at entry (R92, R328): SENTINEL holds it over on Ochre's clock, SHIP loses it. -/
def sleepTime (m : Mode) (s : State) : State :=
  if m = .ship then { s with time.st := .unset, time.stHist := [], time.anchorSt := .unset }
  else if s.time.st = .unset then s
  else setTimeSt .holdover s

/-- SHIP loses what only the always-on domain held through SENTINEL: position and N; the anchor keeps position 0 (R268). -/
def shipState (s : State) : State :=
  let e : LogIn := { evid := 0x04, sev := 0, payload := sysDetail s, rep := 0, alarm := false, held := false }
  let s1 := writeEntry e [] s
  { s1 with chain.pos := 0, chain.n := 0, chain.addr := s.sys.anchor, chain.prevPos := none, chain.ring := .notEnumerated, chain.dead := 0,
            chain.topUp := false, log.opminSaved := s1.log.opmin }

/-- The member enters SENTINEL or SHIP (R64, R68, R141, R787). -/
def fallAsleep (m : Mode) (s : State) : State :=
  let s1 := sleepTime m (stopBlocks (dropQueues { s with sys.pendingMode := none, sys.idleReq := false }))
  let s2 := writeAll 64 (raiseSys 0x04 { s1 with sys.mode := m })
  if m = .ship then shipState s2 else s2

/-! ## Waking -/

/-- The rate of rise of a thermistor at a wake, in °C/min (R569): against the most recent earlier wake at least 10 s back. -/
def wakeRate (s : State) (k : Nat) : Option Rat :=
  match s.therm.wakeHist.find? (fun x => decide (x.1 + 10 * Config.sec ≤ s.clk)) with
  | none => none
  | some (t, l) =>
    match nth s.therm.auxT k none, nth l k none with
    | some a, some b => if auxValid s k then some ((a - b : Int) * (6 * Config.sec : Nat) / (s.clk - t : Nat)) else none
    | _, _ => none

/-- A thermistor's rate at a wake is above its group's level (R569). -/
def wakeRises (s : State) (k : Nat) : Bool :=
  let lvl : Rat := (grpRor s (auxGroup s k) : Rat) / 10
  lvl != 0 && (match wakeRate s k with | some r => decide (lvl < r) | none => false)

/-- The conversions of a wake are kept for 60 s (R569). -/
def keepWake (s : State) : State :=
  { s with therm.wakeHist := (s.clk, s.therm.auxT) :: s.therm.wakeHist.filter fun x => decide (s.clk < x.1 + 60 * Config.sec) }

/-- The groups with a rate of rise at this wake take the place of `ROR` in the report to the watch (R569, R574). -/
def wakeReport (s : State) : List Byte :=
  let g := maskOf 4 fun g => (List.range 8).any fun k => wakeRises s k && auxGroup s k == g
  slice (thermReport s) 0 4 ++ le 1 g.toNat ++ slice (thermReport s) 5 27

/-- The history of R568 after a wake: each kept conversion stands for the second in which it was taken. -/
def wakeMeans (s : State) (k : Nat) : List (Option Rat) :=
  let now := s.clk / Config.sec
  (List.range 60).map fun i =>
    match s.therm.wakeHist.find? (fun x => x.1 / Config.sec == now - 1 - i) with
    | some (_, l) => (nth l k none).map fun (t : Int) => (t : Rat)
    | none => none

/-- The inputs at a return to ACTIVE and after a reset (R842): in demand, each channel at its demand level, until both have been sampled in the run state. -/
def restartInputs (s : State) : State :=
  { s with verm.inps := s.verm.inps.mapIdx fun k i =>
      if [1, 2, 4].contains (inpType s k) then
        { i with a := false, b := inpType s k == 2, seenRun := false, st := if i.st == .cross then .cross else .demand, bothDemand := false, disagree := false }
      else i }

/-- Measurement after a wake: the filters fill anew (R351), and the thermistors' history is what the wakes kept (R569). -/
def restartMeasuring (s : State) : State :=
  { s with cell.mainSkip := 3, cell.limSkip := 3, therm.secAux := List.replicate 8 (0, 0), therm.auxHist := (List.range 8).map (wakeMeans s) }

/-- A port on which a wake tone of 200 µs goes out (R71, R248, R280, R281). -/
def sendTone (sd : Side) (s : State) : State := setPort sd (fun p => { lineEnds true (s.clk + 200 * Config.us) p with tones := 1, gotFrame := false }) s

end Sys2Proof.Machine
end

