-- ==== Sys2Proof/Machine/Vermilion.lean ====
section
/-! DEFINITION. Vermilion's inputs and outputs: the changes of a channel, test pulses, discrepancies, the drive of the three outputs and their
diagnosis, and the orders on them (R646 to R660, R669, R671 to R674). -/

namespace Sys2Proof.Machine

open Sys2Proof

/-- A channel that has shown a new level in so many samples in a row, 62.5 µs apart and those of its test-pulse windows not counted, has changed (R647): a contact after
3 ms; an OSSD is low after 1.25 ms, not within 1 ms, and its high counts at once. -/
def levelHeld (ty : Nat) (high : Bool) (samples : Nat) : Bool :=
  if ty = 4 then high || decide (20 ≤ samples) || (decide (16 < samples) && Config.ossdLow samples) else decide (48 ≤ samples)

/-- INPUT_CHANGE (R647, R650, R651, R653, R676): a channel of an input has held a new level in so many samples; an input under test is masked. -/
def execInputChange (k : Fin 4) (chB high : Bool) (samples : Nat) (s : State) : Out :=
  if !vermRuns s ∨ !levelHeld (inpType s k.val) high samples then .next s
  else
    let old := nth s.verm.inps k.val {}
    let ty := inpType s k.val
    let mid := if chB then { old with b := high } else { old with a := high }
    if underTest s k.val then .next { s with verm.inps := s.verm.inps.set k.val mid }
    else
    let s1 := noteInput k.val ty old (nextInp ty mid) s
    .next (enforceStop (evalTwoHand s1))

/-- The check of one channel at the end of a test-pulse window (R648): a channel fed from the pulsed output must read low, one fed from the other
output must not follow; an open contact reads low and passes. -/
def pulseOk (feed : Nat) (b : Bool) (wasHigh level : Bool) : Bool :=
  let own := if b then 2 else 1
  if feed = 0 then true else if feed = own then !level else !(wasHigh && !level)

/-- The consecutive failed test periods of a channel, judged in the windows of both outputs: a failure counts one per period (R648). -/
def pulseCount (feed : Nat) (b : Bool) (wasHigh level : Bool) (n : Nat) : Nat :=
  if pulseOk feed b wasHigh level then (if feed = (if b then 2 else 1) then 0 else n) else n + 1

/-- TEST_PULSE (R648, R686): a window of `TPA` (or `TPB`) ends with the levels each input's channels read in it; the third failed period in a row is a
cross-short. What changed while an input was under test is judged by then (log 169). -/
def execTestPulse (b : Bool) (levels : List (Bool × Bool)) (s : State) : Out :=
  if !vermRuns s then .next s
  else
    .next (enforceStop ((List.range 4).foldl (fun s k =>
      let i := nth s.verm.inps k {}
      let ty := inpType s k
      if ty = 0 ∨ 5 < ty ∨ underTest s k then s
      else if ty = 4 then noteInput k ty i (nextInp ty i) s
      else
        let l := nth levels k (i.a, i.b)
        let a' := pulseCount (inpFeed s k false) b i.a l.1 i.crossA
        let b' := pulseCount (inpFeed s k true) b i.b l.2 i.crossB
        let new := nextInp ty { i with crossA := a', crossB := b' }
        let s1 := noteInput k ty i new s
        if new.st == .cross && i.st != .cross then classA 2 (raise 0x84 (vermDetail (k + 1) 0 4 s.verm.refuse) s1) else s1) s))

/-- DISCREPANCY (R650): the channels of an input have disagreed for longer than its discrepancy time. -/
def execDiscrepancy (k : Fin 4) (s : State) : Out :=
  let i := nth s.verm.inps k.val {}
  let ty := inpType s k.val
  if !vermRuns s ∨ ty = 0 ∨ ty = 5 ∨ 5 < ty ∨ !disagrees ty i ∨ i.st == .cross ∨ i.st == .discrepancy then .next s
  else
    let s1 := { s with verm.inps := s.verm.inps.set k.val { i with st := .discrepancy, bothDemand := false, disagree := true } }
    .next (enforceStop (raise 0x83 (vermDetail (k.val + 1) 0 3 s.verm.refuse) s1))

/-- RAMP_DONE (R656): the 20 ms ramp of an output ends. -/
def execRampDone (o : Fin 3) (s : State) : Out :=
  if (nth s.verm.outs o.val {}).st == .ramp then .next (updOut o.val (fun x => { x with st := .pullin, atClk := s.clk }) s) else .next s

/-- PULLIN_DONE (R656): `PULLIN_MS` of an output end. -/
def execPullinDone (o : Fin 3) (s : State) : Out :=
  if (nth s.verm.outs o.val {}).st == .pullin then .next (updOut o.val (fun x => { x with st := .hold, atClk := s.clk }) s) else .next s

/-- OFF_PULSE (R657): an off-pulse of an output in `PULLIN` or `HOLD`, with its voltage 100 µs after the start of the pulse; it must have fallen below 2 V, and the second
failure in a row is `STUCK_ON`. -/
def execOffPulse (o : Fin 3) (mV : BitVec 16) (s : State) : Out :=
  let x := nth s.verm.outs o.val {}
  if x.st == .pullin || x.st == .hold then
    if mV.toNat < 2000 then .next (updOut o.val (fun x => { x with offFails := 0 }) s)
    else if x.offFails = 0 then .next (updOut o.val (fun x => { x with offFails := 1 }) s)
    else .next (classA 1 (raise 0x86 (vermDetail o.val s.cell.isnsMa 4 s.verm.refuse) (updOut o.val (fun x => { x with offFails := 2 }) s)))
  else .next s

/-- OUTPUT_SHORT (R657, R688): an output at its current limit below 2 V for 50 µs goes into `FAULT`; with `VCOIL` low nothing is judged. -/
def execOutputShort (o : Fin 3) (s : State) : Out :=
  if driven (nth s.verm.outs o.val {}) && !s.verm.vcoilLow then
    .next (classA 0 (raise 0x85 (vermDetail o.val s.cell.isnsMa 4 s.verm.refuse) (turnOff o.val .fault s)))
  else .next s

/-- STUCK_ON (R657): an output commanded off has been above 2 V for 1 ms. -/
def execStuckOn (o : Fin 3) (s : State) : Out :=
  if driven (nth s.verm.outs o.val {}) || !vermRuns s then .next s
  else .next (classA 1 (raise 0x86 (vermDetail o.val s.cell.isnsMa 0 s.verm.refuse) s))

/-- OPEN_LOAD (R657, R667): the mean coil current in `HOLD` was below 20 mA over 100 ms. -/
def execOpenLoad (o : Fin 3) (s : State) : Out :=
  if (nth s.verm.outs o.val {}).st == .hold then
    let s1 := turnOff o.val .fault s
    .next (classB 3 true (raise 0x87 (vermDetail o.val s.cell.isnsMa 4 s.verm.refuse) { s1 with verm.openLoad := setBit s1.verm.openLoad o.val true }))
  else .next s

/-- VCOIL_LOW (R657): `VCOIL` is judged against its threshold, 8.5 V or 17 V; low for 10 ms it calls for a stop and a class B fault, which clear once it has been
above the threshold + 1 V for 100 ms. -/
def execVcoilLow (coil10mV : BitVec 12) (s : State) : Out :=
  let thr := if bitN (blk s 0x01 1) 1 then 1700 else 850
  let s1 := { s with verm.vcoil := coil10mV }
  if !vermRuns s then .next s
  else if coil10mV.toNat < thr then
    if s.verm.vcoilLow then .next s1
    else .next (classB 4 true (raise 0x8F (vermDetail 0 s.cell.isnsMa 1 s.verm.refuse) (enforceStop { s1 with verm.vcoilLow := true })))
  else if thr + 100 < coil10mV.toNat ∧ s.verm.vcoilLow then .next (classB 4 false { s1 with verm.vcoilLow := false })
  else .next s1

/-- PRE_MAX_TIMEOUT (R659): `OUT_PRE` has been on for `PRE_MAX`. -/
def execPreMaxTimeout (s : State) : Out :=
  if driven (nth s.verm.outs 2 {}) then .next (turnOff 2 .off s) else .next s

/-- The cause for which a close of an output is refused, 0 where none holds (R658, R195). -/
def closeRefused (o : Nat) (s : State) : Nat :=
  let neg := nth s.verm.outs 1 {}
  let pre := nth s.verm.outs 2 {}
  let preOk := pre.st == .hold && pre.atClk + blk s 0x28 2 * Config.ms ≤ s.clk
  if s.verm.faultA ≠ 0 then 1
  else if commissioning s && !s.verm.twoHand then
    (if inputStops s || (s.verm.hbStop && rf s.regs.chainCfg 1 1 == 1) || s.verm.condStop != 0 || s.verm.vcoilLow || peerStops s then 2 else 3)
  else if stopDemand s then 2
  else if o = 0 ∧ neg.st ≠ .hold then 4
  else if o = 0 ∧ bitN (blk s 0x01 1) 0 ∧ !preOk then 5
  else if (nth s.verm.outs o {}).st = .fault then 6
  else 0

/-- `CONTACTOR` (R658, R182): an open is always executed and takes an output out of `FAULT`; a close starts the ramp unless it is refused. -/
def cmdContactor (rq : Req) (output state : Byte) (s : State) : Res :=
  let o := output.toNat
  if 2 < o ∨ 1 < state.toNat then Res.of stBadParam s
  else if state = 0 then
    let s1 := turnOff o .off s
    let s2 := { s1 with verm.openLoad := openLoadNow s1 }
    Res.of stOk (noteOrder rq [o] (classB 3 (s2.verm.openLoad != 0) s2))
  else if driven (nth s.verm.outs o {}) then Res.of stOk s
  else
    let c := closeRefused o s
    if c ≠ 0 ∨ !vermRuns s then Res.of stBadParam { s with verm.refuse := c }
    else if heldAgainst rq o true s then overruled rq s
    else if s.verm.strobeLost then Res.of stOk s
    else
      let s1 := updOut o (fun x => { x with st := .ramp, atClk := s.clk, offFails := 0 }) s
      Res.of stOk (noteOrder rq [o] (raise 0x80 (vermDetail o s.cell.isnsMa 1 s.verm.refuse) s1))

def execContactor (rq : Req) (output state : Byte) (s : State) : Out := .next (runCmd 0x80 rq (cmdContactor rq output state) s)

/-- `CURRENT_LIMIT` (R181, R182, R660): each direction that the order may set takes its commanded limit; an order that loses on either draws `OVERRULED`. -/
def cmdCurrentLimit (rq : Req) (charge discharge : BitVec 16) (winC winD : Bool) (s : State) : Res :=
  let okC := winC && !heldAgainst rq 3 (decide (s.verm.cmdChg < charge.toNat)) s
  let okD := winD && !heldAgainst rq 4 (decide (s.verm.cmdDis < discharge.toNat)) s
  let s1 := if okC then noteOrder rq [3] { s with verm.cmdChg := charge.toNat } else s
  let s2 := if okD then noteOrder rq [4] { s1 with verm.cmdDis := discharge.toNat } else s1
  if okC && okD then Res.of stOk s2 else overruled rq s2

def execCurrentLimit (rq : Req) (charge discharge : BitVec 16) (s : State) : Out :=
  .next (runCmd 0x81 rq (cmdCurrentLimit rq charge discharge true true) s)

/-- `RESET_REQ` (R669): arms the reset for 10 s, where a lockout or an e-stop latch is present. -/
def cmdResetReq (s : State) : Res :=
  if s.verm.faultA = 0 ∧ !s.verm.inps.any (·.latch) then Res.of stBadParam s
  else Res.of stOk { s with verm.armReset := some s.clk, verm.newA := false }

def execResetReq (rq : Req) (s : State) : Out := .next (runCmd 0x82 rq cmdResetReq s)

/-- The bytes of a list replaced from an offset on. -/
def overwrite (l : List Byte) (off : Nat) (b : List Byte) : List Byte := l.take off ++ b ++ l.drop (off + b.length)

/-- The inputs after a change of the block: one whose type or feeds changed starts again (R646, R842). -/
def retyped (s s1 : State) : List InpS :=
  (List.range 4).map fun k =>
    let i := nth s.verm.inps k {}
    if inpType s1 k = inpType s k ∧ inpFeed s1 k false = inpFeed s k false ∧ inpFeed s1 k true = inpFeed s k true then i
    else nextInp (inpType s1 k) { a := i.a, b := i.b, latch := i.latch }

/-- `SAFE_PARAM_WRITE` (R672): bytes into the working copy, which is in force while the block is not sealed. -/
def cmdSafeParamWrite (offset : Byte) (bytes : List Byte) (s : State) : Res :=
  if s.verm.isSealed then Res.of stSealed s
  else if 256 < bytes.length ∨ 256 < offset.toNat + bytes.length ∨ anyOutputOn s then Res.of stBadParam s
  else
    let s1 := { s with verm.block := overwrite s.verm.block offset.toNat bytes }
    Res.of stOk (evalTwoHand { s1 with verm.inps := retyped s s1 })

def execSafeParamWrite (rq : Req) (offset : Byte) (bytes : List Byte) (s : State) : Out :=
  .next (runCmd 0x83 rq (cmdSafeParamWrite offset bytes) s)

/-- `SAFE_PARAM_READ` (R176): the 256 bytes of the block. -/
def cmdSafeParamRead (s : State) : Res := { st := s, status := stOk, data := slice s.verm.block 0 256 }

def execSafeParamRead (rq : Req) (s : State) : Out := .next (runCmd 0x84 rq cmdSafeParamRead s)

/-- `COMMIT_SEAL` (R673): starts the validation and the comparison of the Mordant. -/
def cmdCommitSeal (rq : Req) (mordant : Word) (s : State) : Res :=
  if s.verm.isSealed then Res.of stSealed s
  else if anyOutputOn s then Res.of stBadParam s
  else Res.of stQueued { s with verm.sealing := s.verm.sealing ++ [(mordant, rq.host, rq.seq.toNat)] }

def execCommitSeal (rq : Req) (mordant : Word) (s : State) : Out := .next (runCmd 0x85 rq (cmdCommitSeal rq mordant) s)

/-- A field of the block lies in a range; the offset is where it starts. -/
def inRange (s : State) (off n lo hi : Nat) : List (Nat × Bool) := [(off, lo ≤ blk s off n && blk s off n ≤ hi)]

/-- The checks of R673 on one input: its type, its discrepancy time where it has two channels to compare, its feeds, its reserved byte. -/
def inputChecks (s : State) (k : Nat) : List (Nat × Bool) :=
  let o := 0x14 + 4 * k
  let ty := blk s o 1
  let feed := blk s (o + 2) 1
  [(o, ty ≤ 5), (o + 1, !(1 ≤ ty && ty ≤ 4) || (1 ≤ blk s (o + 1) 1 && blk s (o + 1) 1 ≤ 50)),
   (o + 2, bits feed 1 0 ≤ 2 && bits feed 3 2 ≤ 2 && feed < 16), (o + 3, blk s (o + 3) 1 == 0)]

/-- A two-hand device occupies inputs 1 and 2, or 3 and 4, with both of type 3 (R673). -/
def handPairs (s : State) : List (Nat × Bool) :=
  (List.range 4).map fun k => (0x14 + 4 * k, inpType s k != 3 || inpType s (if k % 2 = 0 then k + 1 else k - 1) == 3)

/-- Bytes that must be 0 (R671, R673). -/
def zeroBytes (s : State) (off n : Nat) : List (Nat × Bool) := (List.range n).map fun i => (off + i, blk s (off + i) 1 == 0)

/-- The ranges of the thermal and watch fields (R602, R607, R643; the figures of their chapters), whose mirror registers show them. -/
def mirrorChecks (s : State) : List (Nat × Bool) :=
  inRange s 0x30 1 0 8 ++ inRange s 0x31 1 5 60 ++ inRange s 0x32 1 5 40 ++ ((List.range 8).map fun k => (0x48 + 4 * k, decide (blk s (0x48 + 4 * k) 1 < 4))) ++
    inRange s 0x68 2 10 1000 ++ inRange s 0x6A 2 0 4095 ++ inRange s 0x6C 1 5 255 ++ inRange s 0x6D 1 10 255 ++ inRange s 0x6E 1 1 255 ++
    inRange s 0x6F 1 5 100 ++ inRange s 0x70 1 0 15 ++ inRange s 0x72 2 24 336

/-- The checks of R673 on the peers: a position in range, used once, not the member's own; no role beyond the three. -/
def peerChecks (s : State) : List (Nat × Bool) :=
  ((List.range 24).map fun j =>
    let p := peerPos s j
    [(0x74 + 2 * j, p == 0xFF || (p < 64 && p != blk s 0x02 1 && !(List.range j).any (fun i => peerPos s i == p))),
     (0x75 + 2 * j, blk s (0x75 + 2 * j) 1 < 8)]).flatten

/-- Every check of R673 with the offset it concerns; the ranges are those of R671 and of the chapters whose registers mirror the block. -/
def blockChecks (s : State) : List (Nat × Bool) :=
  [(0x00, blk s 0 1 == 1), (0x01, blk s 1 1 < 16), (0x02, blk s 2 1 == s.chain.pos && s.chain.addr), (0x03, blk s 3 1 < 64), (0x04, blk s 6 2 < blk s 4 2),
   (0x13, blk s 0x13 1 < 4)] ++ (inputChecks s 0 ++ inputChecks s 1 ++ inputChecks s 2 ++ inputChecks s 3 ++ handPairs s) ++
  [(0x24, blk s 0x24 1 == 0 || (blk s 0x24 1 ≤ 4 && inpType s (blk s 0x24 1 - 1) == 5)),
   (0x25, blk s 0x25 1 == 0 || ((blk s 0x25 1 == 1 || blk s 0x25 1 == 3) && inpType s (blk s 0x25 1 - 1) == 3 && inpType s (blk s 0x25 1) == 3))] ++
  inRange s 0x26 2 50 1000 ++ inRange s 0x28 2 0 10000 ++ inRange s 0x2A 2 1 600 ++ inRange s 0x2C 2 20 500 ++
  zeroBytes s 0x2E 2 ++ zeroBytes s 0x33 1 ++ mirrorChecks s ++ zeroBytes s 0x71 1 ++ peerChecks s ++ zeroBytes s 0xA4 76

/-- The offset of the first invalid byte of the working copy, none where it is valid (R673). -/
def firstInvalid (s : State) : Option Nat :=
  (((blockChecks s).filter fun c => !c.2).map (·.1)).min?

/-- A validated block is compared with its `MORDANT` on `CHK_1` (R673, R695), and is sealed where it agrees and the memory takes it; a write that fails its readback
raises event 0x0D and leaves the block unsealed (R835), and its result byte is a free value. -/
def sealBlock (m : Word) (h : Fin 4) (seq : Nat) (agrees writeOk : Bool) (s : State) : State :=
  let s1 := compareJob 1 agrees false 0 s
  if !agrees then completeQueued h seq (le 1 1 ++ le 1 0) s1
  else if !writeOk then completeQueued h seq (Config.failedWriteResult (drawFree s1).1 :: le 1 0) (raiseSys 0x0D (drawFree s1).2)
  else
    completeQueued h seq (le 1 0 ++ le 1 0)
      (raise 0x8E (vermDetail 0 0 1 s.verm.refuse) { s1 with verm.isSealed := true, verm.sealVal := m, verm.blockBad := false })

/-- SEAL_CHECK_DONE (R673, R695): the validation and the comparison on `CHK_1` end; the block is sealed where both succeed and the memory takes it,
and `CMD_RESULT` holds the result. -/
def execSealCheckDone (writeOk : Bool) (s : State) : Out :=
  match s.verm.sealing with
  | [] => .next s
  | (m, h, seq) :: rest =>
    let s0 := { s with verm.sealing := rest }
    match firstInvalid s with
    | some off => .next (completeQueued h seq (le 1 2 ++ le 1 off) s0)
    | none => .next (sealBlock m h seq (crc32c (slice s.verm.block 0 256) == m) writeOk s0)

/-- UNSEAL (R674): a write of `VERM_CTRL` with `UNSEAL` and the key 0x5E by OPERATOR authority, while every output is `OFF`, arms an unseal for 10 s; any
other such write has no effect, and so has one while the block is not sealed. -/
def execUnseal (rq : Req) (key : Byte) (s : State) : Out :=
  if key = 0x5E ∧ rq.auth = .operator ∧ s.verm.outs.all (·.st == .off) ∧ s.verm.isSealed then .next { s with verm.armUnseal := some s.clk }
  else .next s

end Sys2Proof.Machine
end

