-- ==== Sys2Proof/Machine/RegWrite.lean ====
section
/-! DEFINITION. The register space as it is written: the RW bits of every register, what a write brings about beyond storing them, W1C and WO fields, the mode order
in `SYS_PWR_CTRL`, and the scratchpad window (R16 to R18, R832, R833, R863 to R867). -/

namespace Sys2Proof.Machine

open Sys2Proof

/-! ## RW fields -/

/-- The registers with RW fields: address, RW bits, and which of them a configuration image sets (R833). -/
def rwTable : List (Nat × Nat × Nat) :=
  [(0x0010, 0x007FFF04, 0x007FFF04), (0x004C, 0xF, 0xF), (0x0400, 0xFF37, 0xFF37), (0x0800, 0x000FFF03, 0x000FFF03), (0x0C00, 0x01FFFF01, 0x01FFFF01),
   (0x1000, 0x00FFFFF7, 0x00FFFFF7), (0x1008, 0xFFFF, 0xFFFF), (0x10C0, 0x03FFFFFF, 0), (0x10C8, 0x3FF, 0), (0x1400, 0xFF, 0xFF),
   (0x1440, 0x03FFFFFF, 0), (0x1448, 0x3FF, 0), (0x1800, 0xFFFFFF03, 0xFFFFFF03)] ++
  [(0x2000, 0x1FFFF, 0x1FFFF), (0x2004, 1, 0), (0x2008, 0xFFFFFFFF, 0xFFFFFFFF), (0x200C, 0xFFFFFFFF, 0xFFFFFFFF), (0x2010, 0xFFFF, 0xFFFF),
   (0x2014, 0xFFFF, 0xFFFF), (0x202C, 0xFFFFFF03, 0xFFFFFF03), (0x203C, 0xFFFFFF03, 0xFFFFFF03), (0x2084, 0xFFFF, 0xFFFF),
   (0x2088, 0xFFFFFFFF, 0xFFFFFFFF), (0x2800, 0x03FFFF77, 0x03FFFF77), (0x2820, 0x03FFFF77, 0x03FFFF77)] ++
  [(0x3800, 0x3003, 0), (0x380C, 0xFFFFFFFF, 0), (0x3810, 0xFFFFFFFF, 0), (0x3814, 0xFFFFFFFF, 0), (0x3820, 0x3003, 0), (0x382C, 0xFFFFFFFF, 0),
   (0x3830, 0xFFFFFFFF, 0), (0x3834, 0xFFFFFFFF, 0), (0x3840, 0x3003, 0), (0x384C, 0xFFFFFFFF, 0), (0x3850, 0xFFFFFFFF, 0), (0x3854, 0xFFFFFFFF, 0)] ++
  [(0x3860, 0x3003, 0), (0x386C, 0xFFFFFFFF, 0), (0x3870, 0xFFFFFFFF, 0), (0x3874, 0xFFFFFFFF, 0), (0x3980, 0xF, 0xF), (0x4000, 1, 1), (0x4004, 0xFF, 0),
   (0x4008, 0x1F, 0x1F)]

/-- The RW bits of a register; none for an address without any. -/
def rwMask (a : Nat) : Word := match rwTable.lookup a with | some m => BitVec.ofNat 32 m.1 | none => 0

/-- The RW bits of a register that a configuration image sets (R832, R833). -/
def nvMask (a : Nat) : Word := match rwTable.lookup a with | some m => BitVec.ofNat 32 m.2 | none => 0

/-- The stored word of a register with RW fields: what it reads, but for a source's route, whose fixed bits are not stored (R822). -/
def rwVal (s : State) (a : Nat) : Word :=
  if a = 0x4008 then (nth s.evt.route (evtSrc s) 0).setWidth 32 else BitVec.ofNat 32 (regVal s a)

/-- A register's stored word set, in SYS to BAL. -/
def storeA (a : Nat) (w : Word) (s : State) : Option State :=
  match a with
  | 0x0010 => some { s with regs.pwrCtrl := w }
  | 0x004C => some { s with regs.fabCfg := w }
  | 0x0400 => some { s with regs.hostCfg := w }
  | 0x0800 => some { s with regs.chainCfg := w }
  | 0x0C00 => some { s with regs.timeCfg := w }
  | 0x1000 => some { s with regs.cellCfg := w }
  | 0x1008 => some { s with regs.owCfg := w }
  | 0x10C0 => some { s with regs.cellRbCfg := w }
  | 0x10C8 => some (writeRp false w.toNat s)
  | 0x1400 => some { s with regs.auxCfg := w }
  | 0x1440 => some { s with regs.auxRbCfg := w }
  | 0x1448 => some (writeRp true w.toNat s)
  | 0x1800 => some { s with regs.balCfg := w }
  | _ => none

/-- A register's stored word set, in INDIGO to EVENT. -/
def storeB (a : Nat) (w : Word) (s : State) : State :=
  match a with
  | 0x2000 => { s with regs.indigoCfg := w }
  | 0x2004 => { s with regs.indigoWin := w }
  | 0x2008 => { s with regs.indigoPage := w }
  | 0x200C => { s with regs.indigoRes := w }
  | 0x2010 => { s with regs.ctxTe := w }
  | 0x2014 => { s with regs.ctxSe := w }
  | 0x202C => { s with regs.trigTe := w }
  | 0x203C => { s with regs.trigSe := w }
  | 0x2084 => { s with regs.swpCfg := w }
  | 0x2088 => { s with regs.swpState := w }
  | 0x2800 => { s with regs.sp1Cfg := w }
  | 0x2820 => { s with regs.sp2Cfg := w }
  | 0x3980 => { s with regs.alvCfg := w }
  | 0x4000 => { s with regs.evtCfg := w }
  | 0x4004 => { s with regs.evtRsel := w }
  | 0x4008 => { s with evt.route := s.evt.route.set (evtSrc s) (w.setWidth 5) }
  | _ => s

/-- A register's stored word set, with nothing else brought about. -/
def storeReg (a : Nat) (w : Word) (s : State) : State := (storeA a w s).getD (storeB a w s)

/-- A word with the bits of a mask replaced (R863, R866). -/
def merged (old mask value : Word) : Word := (old &&& ~~~mask) ||| (value &&& mask)

/-- `CELL_CFG` (R394, R395): `RATE` stands while a cell stream or a sweep is open; a change of `USED` bears on the limit results. -/
def writeCellCfg (w : Word) (s : State) : State :=
  let locked := s.cell.cellRing.isOpen || streamIsOpen s 0x10 || sweepBusy s
  let code := if locked then rf s.regs.cellCfg 2 0 else rf w 2 0
  let w' := merged w 7 (BitVec.ofNat 32 code)
  let old := rf s.regs.cellCfg 19 4
  let s1 := if min code 6 = cellRate s then s else setRate code s
  let s2 := { s1 with regs.cellCfg := w' }
  if rf w 19 4 = old then s2 else usedChanged old (rf w 19 4) s2

/-- `BAL_CFG` (R416, R418, R433): `MODE` stands while a channel is enabled or a stimulus runs; a change of it starts every test anew. With `LOADCHK` 0 no external-FET channel
stays `OK`. -/
def writeBalCfg (w : Word) (s : State) : State :=
  let locked := s.bal.onT.any (· != 0) || (match s.bal.stim with | some x => x.running | none => false)
  let w' := if locked then merged w 1 s.regs.balCfg else w
  let s1 := { s with regs.balCfg := w' }
  if rf w' 0 0 ≠ rf s.regs.balCfg 0 0 then untestAll s1
  else if balExternal s1 && rf w' 31 24 == 0 then
    ((List.range 16).filter fun k => nth s.bal.diag k .untested == .ok).foldl (fun s k => setDiag k .untested s) s1
  else s1

/-- `CHAIN_CFG` (R288, R667): with `HB_EN` newly set decoding starts afresh; with it cleared `HB_IN` calls for nothing. -/
def writeChainCfg (w : Word) (s : State) : State :=
  let s1 := { s with regs.chainCfg := w }
  if rf s.regs.chainCfg 1 1 = rf w 1 1 then s1
  else
    let s2 := { hbAfresh s1 with verm.hbStop := false, verm.hbLost := false }
    classB 8 false s2

/-- A merged word stored in the RW bits of a register outside CHECK, with what its write brings about (R394, R433, R480, R601, R902). -/
def applyRw (a : Nat) (w : Word) (s : State) : State :=
  match a with
  | 0x0400 => { s with regs.hostCfg := w, host.baudPending := s.host.baudPending || rf w 2 0 != rf s.regs.hostCfg 2 0 }
  | 0x0800 => writeChainCfg w s
  | 0x1000 => writeCellCfg w s
  | 0x1400 => settleAux s { s with regs.auxCfg := w }
  | 0x1800 => writeBalCfg w s
  | 0x2010 => if s.indigo.te.st = .suspended then s else storeReg a w s
  | 0x2014 => if s.indigo.se.st = .suspended then s else storeReg a w s
  | 0x2800 => writeSpCfg 0 w s
  | 0x2820 => writeSpCfg 1 w s
  | _ => storeReg a w s

/-- A write of the RW bits of a register outside CHECK; without a bit in its mask it does nothing. -/
def writeRw (a : Nat) (mask value : Word) (s : State) : State :=
  let m := mask &&& rwMask a
  if m = 0 then s else applyRw a (merged (rwVal s a) m value) s

/-! ## The check-value units -/

/-- `CHK_n_CFG` (R237): the RW fields first, then the actions, in the order of their bits (log 67). -/
def writeChkCfg (n : Fin 4) (mask value : Word) (s : State) : State :=
  let w := merged (rwVal s (0x3800 + 0x20 * n.val)) (mask &&& 0x3003) value
  let act (bit : Nat) (f : State → Out) (s : State) : State := if (value &&& mask).getLsbD bit then ran (f s) s else s
  let s1 := updChk n.val (fun u => { u with mode := w.getLsbD 0, evtEn := w.getLsbD 1, nb := rf w 13 12 }) s
  act 11 (execSuspend n) (act 10 (execAbort n) (act 9 (execChkEnd n) (act 8 (execStart n) (act 7 (execResume n) s1))))

/-- A write to a register of unit n (R212, R216, R237, R238). -/
def writeUnit (n : Fin 4) (o : Nat) (mask value : Word) (s : State) : State :=
  let v := value &&& mask
  let at_ (o : Nat) : Word := rwVal s (0x3800 + 0x20 * n.val + o)
  match o with
  | 0x00 => writeChkCfg n mask value s
  | 0x04 => ran (execData n v s) s
  | 0x0C => ran (execExp n (merged (at_ 0x0C) mask value) s) s
  | 0x10 => writeCtx0 n.val (merged (at_ 0x10) mask value) s
  | 0x14 => ran (execContextRestore n (merged (at_ 0x14) mask value) s) s
  | 0x18 =>
    let c := v &&& ~~~occurred s (chkStatAt n.val)
    updChk n.val (fun u => { u with matched := u.matched && !c.getLsbD 2, mismatched := u.mismatched && !c.getLsbD 3, ctxErr := u.ctxErr && !c.getLsbD 4 }) s
  | _ => s

/-! ## W1C and WO fields -/

/-- A write's ones clear the W1C bits of a register (R16), but for those whose condition has occurred in the same cycle (R871); the bit of a pin that clamps stays set
(R357). -/
def clearW1c (a : Nat) (ones : Word) (s : State) : State :=
  let v := ones &&& ~~~occurred s a
  match a with
  | 0x0044 => { s with sys.clkFail := s.sys.clkFail &&& ~~~(v.setWidth 25), sys.moscFail := s.sys.moscFail && !v.getLsbD 31 }
  | 0x0804 => { s with chain.conflict := s.chain.conflict && !v.getLsbD 24, chain.overflow := s.chain.overflow && !v.getLsbD 25,
                       chain.posChanged := s.chain.posChanged && !v.getLsbD 26 }
  | 0x0C04 => { s with time.setExpired := s.time.setExpired && !v.getLsbD 6 }
  | 0x1018 => { s with cell.clampLat := s.cell.clampLat &&& ~~~(v.setWidth 17) ||| s.cell.clamp }
  | _ => s

/-- The WO fields of a register act (R16, R310, R363, R416, R674, R235, R770), with the value under the mask. -/
def actWo (rq : Req) (a : Nat) (mask v : Word) (s : State) : State :=
  match a with
  | 0x0820 => ran (execPortClr (v.getLsbD 0) (v.getLsbD 1) s) s
  | 0x1004 => if v.getLsbD 0 then ran (execOwStart s) s else s
  | 0x1858 => clearDiag (v.setWidth 16) s
  | 0x3030 => if v.getLsbD 0 then ran (execUnseal rq (BitVec.ofNat 8 (rf v 15 8)) s) s else s
  | 0x3984 => ran (execChkAlvResync v s) s
  | 0x3C14 => if rf mask 15 0 = 0 then s else ran (execLogCursorSet (v.setWidth 16) s) s
  | _ => s

/-! ## One write -/

/-- A write to the scratchpad window (R451, R454, R866): one word of the bank in force. -/
def writeWindow (a : Nat) (mask value : Word) (s : State) : State :=
  let p := windowOff s a
  padWrite p (le 4 (merged (BitVec.ofNat 32 (padWord s p)) mask value).toNat) s

/-- A write to a register that names no refusal (R863, R867): an unassigned address and the Umber mirror take nothing. -/
def writePlain (rq : Req) (a : Nat) (mask value : Word) (s : State) : State :=
  if mask = 0 then s
  else if 0x8000 ≤ a then writeWindow a mask value s
  else if 0x3800 ≤ a ∧ a < 0x3880 then writeUnit (Fin.ofNat 4 ((a - 0x3800) / 0x20)) ((a - 0x3800) % 0x20) mask value s
  else actWo rq a mask (value &&& mask) (clearW1c a (value &&& mask) (writeRw a mask value s))

/-- `WRITE_REG` (R863 to R865): a write that names `MODE_REQ` is a mode order, and one that is refused writes nothing; `WATCH_CTRL` names its own refusal (R615). -/
def cmdWriteReg (rq : Req) (addr : BitVec 16) (mask value : Word) (s : State) : Res :=
  let a := addr.toNat
  let v := value &&& mask
  if rq.auth = .safety ∧ !safetyWriteOk a then Res.of stAuthFail s
  else if a % 4 ≠ 0 then Res.of stBadParam s
  else if a = 0x0010 ∧ rf mask 1 0 ≠ 0 then
    let r := modeOrder rq (rf v 1 0) (rf v 31 24) s
    if r.status = stOk then Res.of stOk (writeRw a mask value r.st) else r
  else if a = 0x2C18 ∧ v.getLsbD 0 then cmdAlarmClr (BitVec.ofNat 8 (rf v 15 8)) s
  else Res.of stOk (writePlain rq a mask value s)

/-- WRITE_REG (R863). -/
def execWriteReg (rq : Req) (addr : BitVec 16) (mask value : Word) (s : State) : Out := .next (runCmd 0x03 rq (cmdWriteReg rq addr mask value) s)

/-- A write of `SYS_PWR_CTRL.MODE_REQ`, with the key of the same write; the register is outside what SAFETY may write (R66 to R68, R864). -/
def cmdModeReq (rq : Req) (mode : BitVec 2) (shipKey : Byte) (s : State) : Res :=
  if rq.auth = .safety then Res.of stAuthFail s else modeOrder rq mode.toNat shipKey.toNat s

/-- MODE_REQ (R865). -/
def execModeReq (rq : Req) (mode : BitVec 2) (shipKey : Byte) (s : State) : Out := .next (runCmd 0x03 rq (cmdModeReq rq mode shipKey) s)

/-- WINDOW_WRITE (R866): a masked write of one word of the scratchpad window. -/
def execWindowWrite (addr : BitVec 16) (mask value : Word) (s : State) : Out :=
  if 0x8000 ≤ addr.toNat ∧ addr.toNat % 4 = 0 then .next (writeWindow addr.toNat mask value s) else .next s

end Sys2Proof.Machine
end

