-- ==== Sys2Proof/Machine/HostCmd.lean ====
section
/-! DEFINITION. The commands of the host chapter and of the chapters that a host reads by: identification, registers, mode, reset, tags, rate, events, held results,
enumeration (R151, R164, R165, R170, R176, R266, R299, R805 to R808, R826, R861 to R864, R902). -/

namespace Sys2Proof.Machine

open Sys2Proof

/-- `NOP` (R176). -/
def cmdNop (s : State) : Res := Res.of stOk s

/-- NOP (R176). -/
def execNop (rq : Req) (s : State) : Out := .next (runCmd 0x00 rq cmdNop s)

/-- The 17 bytes of `GET_ID` (R861): the position byte is 0xFF without a valid position; the firmware field is 0 in recovery mode. -/
def idBytes (s : State) : List Byte :=
  le 4 (regVal s 0x0000) ++ le 4 (regVal s 0x0004) ++ le 4 (regVal s 0x0008) ++ le 4 (if s.sys.recovery then 0 else s.sys.fwVer.toNat) ++
    le 1 (if s.chain.addr then s.chain.pos else 0xFF)

/-- `GET_ID` (R861). -/
def cmdGetId (s : State) : Res := { st := s, status := stOk, data := idBytes s }

/-- GET_ID (R861). -/
def execGetId (rq : Req) (s : State) : Out := .next (runCmd 0x01 rq cmdGetId s)

/-- The addresses of a `READ_REG` are registers of the address space (R862). -/
def readRange (a n : Nat) : Bool := a % 4 == 0 && 1 ≤ n && n ≤ 64 && a + 4 * (n - 1) ≤ 0xFFFC

/-- `READ_REG` (R862, R864): METER reads the Umber mirror only; the registers are read in ascending order, each with every effect of a read. -/
def cmdReadReg (rq : Req) (addr : BitVec 16) (count : Byte) (ecc : Ecc) (s : State) : Res :=
  if rq.auth = .meter ∧ !metersReadOk addr.toNat count.toNat then Res.of stAuthFail s
  else if !readRange addr.toNat count.toNat then Res.of stBadParam s
  else
    let r := readRegs ecc count.toNat addr.toNat s
    { st := r.2, status := stOk, data := r.1 }

/-- READ_REG (R862). -/
def execReadReg (rq : Req) (addr : BitVec 16) (count : Byte) (ecc : Ecc) (s : State) : Out := .next (runCmd 0x02 rq (cmdReadReg rq addr count ecc) s)

/-- SET_MODE (R67). -/
def execSetMode (rq : Req) (mode key : Byte) (s : State) : Out := .next (runCmd 0x04 rq (cmdSetMode rq mode key) s)

/-- `RESET_MEMBER` (R826): the key is 0xA5 and no contactor output is driven; the reset follows 10 ms after the reply (R823). -/
def cmdResetMember (key : Byte) (s : State) : Res :=
  if key.toNat ≠ 0xA5 ∨ anyOutputOn s then Res.of stBadParam s else Res.of stOk { s with sys.resetPending := true }

/-- RESET_MEMBER (R826). -/
def execResetMember (rq : Req) (key : Byte) (s : State) : Out := .next (runCmd 0x05 rq (cmdResetMember key) s)

/-- `TAG_SYNC` (R170): C, then the nonce; executed at the entry member only. -/
def cmdTagSync (rq : Req) (nonce : Word) (s : State) : Res :=
  match rq.orig with
  | .chain _ => Res.of stBadDev s
  | .port _ =>
    { st := raise 0x1B (det (inst2 rq.host.val (reqPort rq s)) rq.seq.toNat stOk 0) s, status := stOk,
      data := le 4 (nth s.nv.tagC rq.host.val 0) ++ le 4 nonce.toNat }

/-- TAG_SYNC (R170). -/
def execTagSync (rq : Req) (nonce : Word) (s : State) : Out := .next (runCmd 0x06 rq (cmdTagSync rq nonce) s)

/-- `SET_BAUD` (R902): `HOST_CFG.BAUD` reads the new code at once, the UART follows. -/
def cmdSetBaud (code : Byte) (s : State) : Res :=
  if 7 < code.toNat then Res.of stBadParam s else Res.of stOk (writeRw 0x0400 7 (BitVec.ofNat 32 code.toNat) s)

/-- SET_BAUD (R902). -/
def execSetBaud (rq : Req) (code : Byte) (s : State) : Out := .next (runCmd 0x07 rq (cmdSetBaud code) s)

/-- `EVT_READ` (R806): the oldest unread entries of the calling host, which leave its store. -/
def cmdEvtRead (rq : Req) (max : Byte) (s : State) : Res :=
  let n := max.toNat
  if n < 1 ∨ 16 < n then Res.of stBadParam s
  else
    let st := nth s.evt.stores rq.host.val []
    { st := { s with evt.stores := s.evt.stores.set rq.host.val (st.drop n) }, status := stOk,
      data := ((st.take n).map entryBytes).flatten, more := decide (n < st.length) }

/-- EVT_READ (R806). -/
def execEvtRead (rq : Req) (max : Byte) (s : State) : Out := .next (runCmd 0x10 rq (cmdEvtRead rq max) s)

/-- `EVT_ACK` (R118, R808): the held ALARM frame of the source and sequence named leaves the alarm hold store. -/
def cmdEvtAck (src : Byte) (seq : BitVec 16) (s : State) : Res :=
  if 0x9F < src.toNat then Res.of stBadParam s
  else Res.of stOk { s with evt.hold := s.evt.hold.filter fun h => !(h.src == src.toNat && h.seq == seq.toNat) }

/-- EVT_ACK (R808). -/
def execEvtAck (rq : Req) (src : Byte) (seq : BitVec 16) (s : State) : Out := .next (runCmd 0x11 rq (cmdEvtAck src seq) s)

/-- The mask bits of the severity-3 sources (R805). -/
def severe : BitVec 160 := maskOf 160 fun i => severity i == 3

/-- `EVT_MASK` (R805): the calling host's mask; bits of severity-3 sources read 1. -/
def cmdEvtMask (rq : Req) (mask : BitVec 160) (s : State) : Res :=
  Res.of stOk { s with evt.masks := s.evt.masks.set rq.host.val (mask ||| severe) }

/-- EVT_MASK (R805). -/
def execEvtMask (rq : Req) (mask : BitVec 160) (s : State) : Out := .next (runCmd 0x12 rq (cmdEvtMask rq mask) s)

/-- What `CMD_RESULT` finds (R165). -/
inductive Found where
  | running
  | returned
  | pushed
  | unknown
  | held (result : List Byte)
deriving DecidableEq, Repr

/-- A command's own entry among the results kept, and how many newer ones of its host have completed (R164, R165). -/
def findResult (rq : Req) (seq : Nat) (s : State) : Found :=
  let mine := s.cmd.results.filter fun r => r.host == rq.host
  let i := mine.findIdx fun r => r.seq == seq
  match mine[i]? with
  | none => .unknown
  | some r =>
    if r.running then .running
    else if r.returned then .returned
    else if 4 ≤ ((mine.take i).filter fun x => !x.running).length then .pushed
    else .held (r.result.getD [])

/-- The entry of a command returned: its result is released (R165). -/
def noteReturned (rq : Req) (seq : Nat) (s : State) : State :=
  let i := s.cmd.results.findIdx fun r => r.host == rq.host && r.seq == seq
  { s with cmd.results := upd s.cmd.results i fun r => { r with returned := true, result := none } }

/-- `CMD_RESULT` (R165). -/
def cmdCmdResult (rq : Req) (seq : BitVec 16) (s : State) : Res :=
  match findResult rq seq.toNat s with
  | .running => Res.of stQueued s
  | .returned => { st := s, status := stBadParam, data := [1] }
  | .pushed => { st := s, status := stBadParam, data := [2] }
  | .unknown => { st := s, status := stBadParam, data := [3] }
  | .held l => { st := noteReturned rq seq.toNat s, status := stOk, data := l }

/-- CMD_RESULT (R165). -/
def execCmdResult (rq : Req) (seq : BitVec 16) (s : State) : Out := .next (runCmd 0x13 rq (cmdCmdResult rq seq) s)

/-- `ENUMERATE` (R266, R299, R905): at the anchor, from its own host, while no enumeration runs. -/
def cmdEnumerate (rq : Req) (s : State) : Res :=
  match rq.orig with
  | .chain _ => Res.of stBadParam s
  | .port _ =>
    if !s.sys.anchor ∨ s.chain.enumBusy then Res.of stBadParam s
    else Res.of stQueued (enumAttempt { s with chain.enumBusy := true, chain.enumTries := 1, chain.enumBy := some (rq.host, rq.seq.toNat) })

/-- ENUMERATE (R266). -/
def execEnumerate (rq : Req) (s : State) : Out := .next (runCmd 0x20 rq (cmdEnumerate rq) s)

/-- `CHAIN_STAT`: `CHAIN_STATE`, `CHAIN_PORT_N`, `CHAIN_PORT_S`, `CHAIN_HB` (R305, R306, R309). -/
def cmdChainStat (s : State) : Res :=
  { st := s, status := stOk, data := ([0x0804, 0x0808, 0x080C, 0x081C].map fun a => le 4 (regVal s a)).flatten }

/-- CHAIN_STAT (R176). -/
def execChainStat (rq : Req) (s : State) : Out := .next (runCmd 0x21 rq cmdChainStat s)

end Sys2Proof.Machine
end

