-- ==== Sys2Proof/Machine/Power.lean ====
section
/-! DEFINITION. The rows of supplies, clocks and on-die crossings, and of the power modes' entry and wakes (R61 to R147). -/

namespace Sys2Proof.Machine

open Sys2Proof

/-! ## Supplies and the crystal -/

/-- VSTK_LOW_SET (R62, R411, R549): balancing and stimulus stop, a sweep ends. -/
def execVstkLowSet (s : State) : Out :=
  if s.sys.vstkLow ∨ !s.sys.powered then .next s
  else .next (raiseSys 0x02 (endSweep 8 (clearBal allCh 3 { markSinks s with sys.vstkLow := true })))

/-- VSTK_LOW_CLEAR (R62). -/
def execVstkLowClear (s : State) : Out := if s.sys.vstkLow then .next (raiseSys 0x03 { s with sys.vstkLow := false }) else .next s

/-- RAIL_FAULT (R95): the flags of `VREG` and `VDD33`; one that sets raises event 0x06. -/
def execRailFault (vregBad vdd33Bad : Bool) (s : State) : Out :=
  let s1 := { s with sys.vregFault := vregBad, sys.vdd33Fault := vdd33Bad }
  if (vregBad ∧ !s.sys.vregFault) ∨ (vdd33Bad ∧ !s.sys.vdd33Fault) then .next (raiseSys 0x06 s1) else .next s1

/-- VDDIO_CHANGE (R85). -/
def execVddioChange (present : Bool) (s : State) : Out := .next { s with pins.vddio := present }

/-- SUPPLY_UPDATE (R97): every 100 ms in ACTIVE and IDLE; the first update after a reset is part of the boot. -/
def execSupplyUpdate (vstk10mV vspMV : BitVec 16) (s : State) : Out :=
  if measuring s then .next { s with sys.vstk10mV := vstk10mV, sys.vspMV := vspMV } else .next s

/-- XTAL_TAKEN (R90). -/
def execXtalTaken (s : State) : Out := .next { s with sys.xtalOk := true }

/-- XTAL_STOP (R90). -/
def execXtalStop (s : State) : Out := if s.sys.xtalOk then .next (raiseSys 0x07 { s with sys.xtalOk := false }) else .next s

/-! ## Clocks -/

/-- The islands whose clocks the check counts: all but 0, 2, 4 and 6, while they run (R102, R143). -/
def checked (s : State) (dev : BitVec 25) : BitVec 25 := dev &&& islRun s &&& ~~~0x55

/-- What follows from the islands that failed in this window (R102, R103, R234): each raises event 0x08; Vermilion's own islands take the output enable away, and Lampblack's
clock latches `LOG_DEAD`; without island 22 every check-value unit counts as failed, which is a class A cause (R225, R234). -/
def islandsFail (new : BitVec 25) (s : State) : State :=
  let s1 := (ones new).foldl (fun s i => raise 0x08 (sysDetailWith i (activeCrc s) s) s) s
  let s2 := if new.getLsbD 17 || new.getLsbD 18 then allOff { s1 with verm.strobeLost := true } else s1
  let s3 := if new.getLsbD 22 then classA 4 { s2 with chk.islandDown := true } else s2
  if new.getLsbD 21 && !s3.log.dead then latchDead 4 none s3 else s3

/-- CLOCK_CHECK (R101 to R103, R143): an island that deviates in two consecutive windows has failed; one that is counted right reads what waits at its crossings; with
Vermilion's clocks running and valid again the missing strobe is recorded. -/
def execClockCheck (dev : BitVec 25) (mosc : Bool) (s : State) : Out :=
  if !s.sys.powered then .next s
  else
    let d := checked s dev
    let fail := d &&& s.sys.clkSuspect
    let right := islRun s &&& ~~~d
    let new := fail &&& ~~~s.sys.clkFail
    let s0 := noteOcc 0x44 ((fail.setWidth 32) ||| (if mosc && s.sys.moscSuspect then 0x80000000 else 0)) s
    let s1 := islandsFail new { s0 with sys.clkSuspect := d, sys.clkFail := s.sys.clkFail ||| fail, sys.moscSuspect := mosc,
                                        sys.clkDown := (s.sys.clkDown ||| fail) &&& ~~~right }
    let s2 := if mosc && s.sys.moscSuspect && !s.sys.moscFail then raise 0x09 (sysDetailWith 0x00FF (activeCrc s1) s1) { s1 with sys.moscFail := true } else s1
    let s3 := readIslands s2
    if s.verm.strobeLost && right.getLsbD 17 && right.getLsbD 18 then .next (classA 5 { s3 with verm.strobeLost := false }) else .next s3

/-- STROBE_TIMEOUT (R103): without its strobe the output enable ends, and every output is off. -/
def execStrobeTimeout (s : State) : Out := .next (allOff { s with verm.strobeLost := true })

/-- CORE_STALL (R46): the control core has not resumed while an output is on; Vermilion turns every output off and enters class A. -/
def execCoreStall (s : State) : Out := if anyOutputOn s then .next (classA 6 { s with sys.coreStalled := true }) else .next s

/-! ## Crossings -/

/-- FABRIC_STALL (R146): an item has waited; beyond 10 ms its class's bit sets, with event 0x0F. -/
def execFabricStall (cls : Fin 6) (wait100ns : Nat) (s : State) : Out :=
  let s1 := if cls = 0 then { s with sys.alarmWaitMax := max s.sys.alarmWaitMax (min 65535 wait100ns) } else s
  if wait100ns ≤ 100000 then .next s1
  else
    let s2 := { s1 with sys.stall := setBit s1.sys.stall cls.val true }
    if s.sys.stall.getLsbD cls.val then .next s2 else .next (raiseSys 0x0F s2)

/-! ## IDLE, SENTINEL and SHIP -/

/-- A response is still pending: a command waits, or a reply has not been released (R65). -/
def responsePending (s : State) : Bool :=
  !s.cmd.waiting.isEmpty || !s.cmd.tick.isEmpty || !s.cmd.ended.isEmpty || s.host.spi.slots.any (!·.released) || s.host.uart.slots.any (!·.released)

/-- IDLE_ENTRY (R65, R67): nothing has kept the member busy for `IDLE_DELAY`, or IDLE was requested. DESIGN CHOICE (log 141): an accepted SENTINEL or SHIP request that is still
to take effect does not keep the member out of IDLE. -/
def execIdleEntry (s : State) : Out :=
  let kernel (g : Eng) : Bool := g.st == .running || g.st == .loading
  if s.sys.mode ≠ .active ∨ !s.sys.powered ∨ !(s.sys.idleReq || rf s.regs.pwrCtrl 2 2 == 1) ∨ kernel s.indigo.te ∨ kernel s.indigo.se ∨ responsePending s then .next s
  else .next (raiseSys 0x04 { s with sys.mode := .idle, sys.idleReq := false,
                                     cmd.safetyHeld := if s.sys.idleReq then s.cmd.safetyHeld else s.cmd.safetyHeld.filter (· != 21) })

/-- MODE_ENTRY (R66, R68, R88): an accepted request takes effect; a cause of refusal that has arisen since then stops it. -/
def execModeEntry (s : State) : Out :=
  match s.sys.pendingMode with
  | none => .next s
  | some m =>
    let c := refuseCause m 0x5A s
    if c ≠ 0 then .next (refuseMode c { s with sys.pendingMode := none }) else .next (fallAsleep m s)

/-- SENTINEL_WAKE (R69, R72, R557, R569, R605, R606): the coarse sample, the thermistors, the die, and the criteria that Ochre judges. -/
def execSentinelWake (cellUV : List Int) (auxUV : List Nat) (vtrefUV : Nat) (dieTenths : Int) (s : State) : Out :=
  if s.sys.mode ≠ .sentinel ∨ s.sys.waking then .next s
  else
    let s1 := auxConvert auxUV vtrefUV (measureDie dieTenths s)
    let rates := { s1 with therm.auxRate := (List.range 8).map (wakeRate s1) }
    let rises := (List.range 8).any (wakeRises s1)
    let coarse := (List.range 16).any fun k => Config.outsideCoarse (nth cellUV k 0)
    let s2 := evalWatch (keepWake { rates with watch.therm := wakeReport rates })
    let s3 := { readIslands { s2 with sys.waking := true } with sys.waking := false }
    if rises || coarse || s2.sys.sentinelAlarm then .next (noteWake 5 s3) else .next s3

/-- SENTINEL_BURST (R70, R93, R582): the sensor ports' lines are powered for 50 ms, where `VSP` is there. -/
def execSentinelBurst (vspOk : Bool) (s : State) : Out :=
  if s.sys.mode ≠ .sentinel ∨ rf s.regs.pwrCtrl 22 22 = 0 then .next s
  else
    let start (s : State) (n : Nat) : State :=
      if spMode s n = 0 then s
      else powerPort n (setSp n (fun p => { p with burst := true, burstAt := s.clk, burstGot := false, st := if p.st == .lineLow then .lineLow else .off }) s)
    .next (start (start { s with pins.vsp := vspOk } 0) 1)

/-- The value of a burst reaches the watch (R607): gas as any valid value, pressure as the difference of two burst values. -/
def burstValue (n : Nat) (s : State) : State :=
  let p := spPort s n
  let ty := spType s n
  let f := spFlags s n
  let gas := satClean s n && bitN f 3 && (ty == 1 || ty == 3)
  let pres := satClean s n && ((ty == 2 && bitN f 3) || (ty == 3 && bitN f 4))
  let code := if ty = 2 then p.ch1 else p.ch2
  let s1 := if gas then takeGas n p.ch1 s else dropGas n s
  if !pres then dropPressure n (setSp n (fun p => { p with secP := [] }) s1)
  else
    let now := (s.clk / Config.sec, (code : Int), 1)
    let s2 := setSp n (fun p => { p with secP := [now] }) s1
    match (spPort s1 n).secP with
    | x :: _ => judgeRate n 10 (((code : Rat) - secMean x) / 10) s2
    | [] => s2

/-- BURST_END (R582, R607): the line power ends; a port without a valid frame in the burst is `STALE`. -/
def execBurstEnd (port : Fin 2) (s : State) : Out :=
  let n := port.val
  if !(spPort s n).burst then .next s
  else
    let got := (spPort s n).burstGot
    let s1 := if got then burstValue n s else setStale n s
    .next (setSp n (fun p => { p with burst := false, burstGot := false, linePwr := false, st := if p.st == .vspAbsent || p.st == .lineLow then p.st else .off }) s1)

/-- A wake source in SENTINEL, or during a wake, is noted (R65, R89); before the mode is entered it abandons the entry, and the member stays in ACTIVE, from an automatic
IDLE entry too (R88, log 141). -/
def wakeUp (bit : Nat) (s : State) : State :=
  if s.sys.mode = .sentinel ∨ s.sys.waking then noteWake bit s
  else if s.sys.pendingMode.isSome then settle (abandonEntry (leaveIdleDue bit (s, [])))
  else s

/-- Event 0x2D where the member was woken by the wake tone (R311). -/
def toneEvent (s : State) : State := if s.sys.wakeSrc.getLsbD 1 then raise 0x2D (portDetail s (if s.chain.toneSouth then .south else .north) 0) s else s

/-- WAKE_COMPLETE (R65, R71, R281, R283, R569, R582, R842): the member reaches ACTIVE. -/
def execWakeComplete (s : State) : Out :=
  if s.sys.mode ≠ .sentinel ∨ !s.sys.waking then .next s
  else
    let tones (s : State) : State := if s.sys.wakeSrc = 2 then s else sendTone .south (sendTone .north s)
    let s1 := restartMeasuring (runTimers (restartInputs (tones (hbAfresh
      { s with sys.mode := .active, sys.waking := false, cmd.safetyHeld := s.cmd.safetyHeld.filter (· != 21) }))))
    let s2 := powerPort 1 (powerPort 0 { s1 with sp1.burst := false, sp2.burst := false })
    let s3 := raiseSys 0x0A (enforceStop (readIslands s2))
    .next (raiseSys 0x04 (toneEvent s3))

end Sys2Proof.Machine
end

