-- ==== Sys2Proof/Machine/Lifecycle.lean ====
section
/-! DEFINITION. Resets and what they keep, the boot, wakes out of SHIP, the checks of a firmware image and of a configuration image (R61 to R64, R823 to R858). -/

namespace Sys2Proof.Machine

open Sys2Proof

/-! ## Routes -/

/-- A source that the default routing gives to a host of an authority (R801). -/
def routedTo (a : Auth) (src : Nat) : Bool :=
  match a with
  | .operator => true
  | .energy => decide (2 ≤ severity src)
  | .meter => (0x90 ≤ src && src ≤ 0x97) || severity src == 3
  | .safety => (0x80 ≤ src && src ≤ 0x8F) || decide (2 ≤ severity src)

/-- The routes that bindings give from a reset (R801): the factory values, with the bit of each bound host by its authority. -/
def boundRoutes (b : List (Option Binding)) : List (BitVec 5) :=
  if b.all (·.isNone) then factoryRoute
  else
    factoryRoute.mapIdx fun src r =>
      (List.range 4).foldl (fun (r : BitVec 5) h => setBit r h (match nth b h none with | some x => routedTo x.auth src | none => false)) r

/-! ## Resets -/

/-- A tag counter after a reset (R170): the stored value + 64. -/
def counterAfterReset (c : Nat) : Nat := min 0xFFFFFFFF (c + 64)

/-- What every reset keeps, on a reset state `z` (R28, R666, R824, R832): the queue of commands and the clock, Umber, the configuration region, the firmware
banks, the pins. A commit or an activation whose checks run is lost, and so is a partial image. -/
def keepCore (s z : State) : State :=
  let c := s.nv.tagStored.map counterAfterReset
  { z with pending := s.pending, clk := s.clk, freeCtr := s.freeCtr, pins := s.pins,
           umber := { s.umber with linkUp := false, mirror := {}, slots := [0, 0, 0, 0], inflight := [none, none, none, none],
                                   restart := [false, false, false, false] },
           nv := { s.nv with cfgChecking := [], cfgWork := [], tagC := c, tagStored := c, tagSince := [0, 0, 0, 0] },
           fw := { s.fw with busy := false, rcvd := 0, declared := none, checking := [], restartDue := false },
           evt.route := boundRoutes s.nv.bindings, indigo.store := s.indigo.store, indigo.valid := s.indigo.valid, indigo.dirty := s.indigo.dirty }

/-- What every reset keeps of Vermilion, of the proof's record and of Lampblack (R643, R651, R666, R667, R756, R794). The next record carries `GAP` where entries are lost
(R764, R785, R788; log 170). -/
def keepRecords (s z : State) : State :=
  { z with verm.faultA := s.verm.faultA, verm.block := s.verm.block, verm.isSealed := s.verm.isSealed, verm.sealVal := s.verm.sealVal,
           verm.inps := s.verm.inps.map fun i => { latch := i.latch }, verm.bSaved := s.verm.bSaved, verm.bTimer := s.verm.bSaved,
           watch.plast := s.watch.plast, watch.pnum := s.watch.pnum, watch.pres := s.watch.pres, watch.pfailed := s.watch.pfailed,
           log.slots := s.log.slots, log.lw := s.log.lw, log.retired := s.log.retired, log.damaged := s.log.damaged, log.next := s.log.next,
           log.gap := s.log.gap || s.log.freezeEnd.isSome || !(s.log.queue.isEmpty && s.log.alarmq.isEmpty && s.log.holdq.isEmpty),
           log.lwFull := s.log.lwFull, log.lwFail := s.log.lwFail, log.opmin := s.log.opmin, log.opminSaved := s.log.opminSaved,
           log.pwrCyc := (s.log.pwrCyc + 1) % 65536 }

/-- What the always-on domain keeps across every reset but a power-on reset (R64, R172, R268, R611, R616, R776, R797, R824). -/
def keepVao (s z : State) : State :=
  let alarm := s.watch.level == .alarm || s.sys.sentinelAlarm
  { z with chain.pos := s.chain.pos, chain.n := s.chain.n, chain.addr := s.chain.addr, chain.prevPos := s.chain.prevPos, chain.topUp := s.chain.topUp,
           chain.forcedOpen := s.chain.forcedOpen, chain.ring := ringNow { s.chain with dead := 0 }, sys.anchor := s.sys.anchor, evt.seqs := s.evt.seqs,
           watch.level := if alarm then .alarm else .none, watch.strong := alarm && s.watch.strong, watch.gasBase := s.watch.gasBase,
           watch.learn := s.watch.learn, watch.learnSum := s.watch.learnSum, tagFails := s.tagFails, lockout := s.lockout,
           log.dead := s.log.dead, log.deadCause := s.log.deadCause }

/-- What a reset that is no power cycle keeps of a host port (R171, R294, R854): the slots of commands that still wait for a reply, which are answered `NO_REPLY` where none comes, and the
numbers admitted; replies already held are lost. -/
def keepSlots (b : PortBuf) : PortBuf := { slots := b.slots.filter (·.reply.isNone), admitted := b.admitted }

/-- The host ports over a reset that is no power cycle. -/
def keepPorts (s z : State) : State := { z with host.spi := keepSlots s.host.spi, host.uart := keepSlots s.host.uart }

/-- What a reset that is no power cycle keeps of the thermal latch (R561). -/
def keepThermal (s z : State) : State :=
  { z with therm.latched := s.therm.latched, therm.sdTimes := s.therm.sdTimes, therm.lines := s.therm.latched, indigo.off := s.therm.latched,
           therm.level := if s.therm.latched then .shutdown else .normal }

/-- The member's own identity and the firmware bank named active, with the cause of the reset (R823, R828, R859). -/
def keepIdentity (cause : Nat) (s z : State) : State :=
  { z with sys.variant := s.sys.variant, sys.serial := s.sys.serial, sys.bank := s.sys.bank, sys.cfgCount := s.sys.cfgCount, sys.cfgCopy := s.sys.cfgCopy,
           sys.rstCause := BitVec.ofNat 5 (2 ^ cause) }

/-- A trial that restarts before `READY` has failed (R846): the previous bank is named active again. -/
def trialFails (ready : Bool) (s : State) : State :=
  if s.fw.trial && !ready then { s with sys.bank := !s.sys.bank, sys.fallback := true, fw.trial := false } else s

/-- The stack die resets (R823 to R825). The cause is the bit of `SYS_RST_CAUSE`: 0 power-on, 1 long and 2 short `RST_N`, 3 command, 4 firmware. -/
def resetTo (cause : Nat) (s : State) : State :=
  let z := keepIdentity cause s (keepRecords s (keepCore s {}))
  let z1 := if cause = 0 then { z with log.opmin := s.log.opminSaved } else keepVao s z
  let z2 := if 2 ≤ cause then keepPorts s (keepThermal s z1) else z1
  trialFails s.sys.ready z2

/-- POWER_ON_RESET (R61, R86): `VSTK` falls below 7.8 V; every output is off. -/
def execPowerOnReset (s : State) : Out := .next (resetTo 0 s)

/-- RST_N_PULSE (R91, R823, R841): shorter than 1 µs it is ignored; from 10 ms on it is a power cycle; out of SHIP the member powers up as after a power-on
reset. -/
def execRstNPulse (lowUs : Nat) (s : State) : Out :=
  let c := if 10000 ≤ lowUs then 1 else 2
  if lowUs < 1 then .next s
  else if s.sys.mode = .ship then
    let z := resetTo 0 s
    .next { z with sys.rstCause := setBit z.sys.rstCause c true }
  else .next (resetTo c s)

/-- MEMBER_RESET (R823, R826): the reset that `RESET_MEMBER` asked for. -/
def execMemberReset (s : State) : Out := if s.sys.resetPending then .next (resetTo 3 s) else .next s

/-- FW_RESTART (R845): 100 ms after an activation the member restarts on the new bank. -/
def execFwRestart (s : State) : Out := if s.fw.restartDue then .next (resetTo 4 s) else .next s

/-- TRIAL_BOOT_FAIL (R846): the trial has not reached `READY` within 50 ms; the member restarts on the previous bank. -/
def execTrialBootFail (s : State) : Out := if s.fw.trial ∧ !s.sys.ready then .next (resetTo 4 s) else .next s

/-! ## The boot -/

/-- The anchor holds position 0 from the moment its pin is latched high (R64, R903). -/
def latchAnchor (pin : Bool) (s : State) : State :=
  if s.sys.rstCause.getLsbD 0 then { s with sys.anchor := pin, chain.addr := pin, chain.pos := 0 } else s

/-- A bank qualifies (R828): its image has a matching CRC; the bank not named active must also hold one that was once activated. -/
def bankOk (boot : BootIn) (b named : Bool) (s : State) : Bool :=
  (if b then boot.bankBOk else boot.bankAOk) && (b == named || (if b then s.fw.everB else s.fw.everA))

/-- The bank that boots (R828, R829). -/
def selectBank (boot : BootIn) (s : State) : State :=
  let run (b fall : Bool) : State :=
    { s with sys.bank := b, sys.fallback := s.sys.fallback || fall, sys.recovery := false, sys.fwVer := if b then s.fw.verB else s.fw.verA }
  let a := s.sys.bank
  if bankOk boot a a s then run a false
  else if bankOk boot (!a) a s then run (!a) true
  else { s with sys.recovery := true, sys.fwVer := 0 }

/-- The entries of a configuration image, in list order, as address and value (R833). -/
def cfgEntries : Nat → List Byte → List (Nat × Word)
  | 0, _ => []
  | n + 1, l =>
    if l.length < 6 ∨ field l 0 2 = 0xFFFF then [] else (field l 0 2, BitVec.ofNat 32 (field l 2 4)) :: cfgEntries n (l.drop 6)

/-- The copies of the configuration image are checked (R827, R835): the valid one with the higher count is in force. Where both fail, the copy in force stays (log 171). -/
def selectCopy (boot : BootIn) (s : State) : State :=
  if boot.cfgNewBad ∧ !boot.cfgOneBad then
    { s with sys.cfgOneBad := true, nv.cfgImage := s.nv.cfgOld, nv.cfgOld := s.nv.cfgImage, sys.cfgCopy := !s.sys.cfgCopy,
             sys.cfgCount := (s.sys.cfgCount + 65535) % 65536 }
  else { s with sys.cfgOneBad := boot.cfgOneBad }

/-- The committed image is applied to the RW NV fields (R833); the UART starts at the rate that `BAUD` then reads (R200, R902). -/
def loadConfig (s : State) : State :=
  let s1 := (cfgEntries 341 s.nv.cfgImage).foldl (fun s e => storeReg e.1 (merged (rwVal s e.1) (nvMask e.1) e.2) s) s
  { s1 with host.baudInUse := rf s1.regs.hostCfg 2 0, host.baudPending := false }

/-- Vermilion at the boot (R665, R835, R842, R776): the sealed block's check, the inputs, the class B cause of a dead log. -/
def startVermilion (blockBad : Bool) (s : State) : State :=
  let s1 := restartInputs { s with verm.blockBad := s.verm.isSealed && blockBad }
  let s2 := if s1.verm.blockBad || (s1.verm.isSealed && s1.chain.addr && blk s1 0x02 1 != s1.chain.pos) then classA 12 s1 else s1
  if s2.log.dead then classB 10 true s2 else s2

/-- The scan of Lampblack (R756, R775, R779, R780). -/
def scanLog (boot : BootIn) (s : State) : State :=
  let bad := s.log.slots.map fun x => if boot.badShadows.contains x.1 then (x.1, { x.2 with shadowOk := false }) else x
  let s1 := findDamaged boot.logDamaged { s with log.slots := bad }
  let top := ((s1.log.slots.map (·.2.seq)) ++ s1.log.lw.map (·.seq)).foldl max 0
  let s2 := { s1 with log.next := 1 + top, log.scanDone := true }
  if s2.log.dead then s2
  else if boot.logUnread then latchDead 5 none s2
  else if 64 ≤ s2.log.retired.length then latchDead 2 none s2
  else s2

/-- POWER_UP (R63, R64, R97, R170, R224, R665, R779, R827, R828, R833): the boot after a reset, up to `READY`. -/
def execPowerUp (boot : BootIn) (s : State) : Out :=
  if s.sys.powered then .next s
  else
    let s1 := knownAnswer boot.katOk (latchAnchor boot.anchorPin
      { s with sys.powered := true, sys.mode := .active, sys.vstk10mV := boot.vstk10mV, sys.vspMV := boot.vspMV })
    let s2 := selectBank boot s1
    let s3 := loadConfig (selectCopy boot s2)
    .next (startPort 1 (startPort 0 (scanLog boot (startVermilion boot.blockBad s3))))

/-- When the next proof falls due after a boot (R621): 1 h and 4 s for each position, or the stored start and `PROOF_H`, whichever is later. -/
def proofAfterBoot (s : State) : Nat :=
  let soon := s.clk + (3600 + 4 * s.chain.pos) * Config.sec
  match s.nv.proofStart with
  | some m => max soon (s.clk + (m + 60 * proofHours s - s.log.opmin) * 60 * Config.sec)
  | none => soon

/-- BOOT_COMPLETE (R63, R616, R621, R827, R828, R830): `READY` sets, with event 0x00 or 0x01; a held `ENUM` goes on, and a latched ALARM acts again. -/
def execBootComplete (s : State) : Out :=
  if !s.sys.powered ∨ s.sys.ready then .next s
  else
    let s1 := { s with sys.ready := true, sys.waking := false, fw.trial := false, watch.dueAt := some (proofAfterBoot s) }
    let s2 := raiseSys (if s.sys.rstCause.getLsbD 0 then 0x00 else 0x01) s1
    let s3 := if s.sys.fallback then raiseSys 0x0B s2 else s2
    let s4 := toneEvent (if s.watch.level = .alarm then alarmFrame s3 else s3)
    match s.chain.enumHeld with
    | some next => .next (enumStep next { s4 with chain.enumHeld := none })
    | none => .next s4

/-! ## Wakes by pin, host and chain -/

/-- A wake source takes the member out of SHIP (R65, R823): it powers up as after a power-on reset; the source is noted, and so is each further one until the member is
ACTIVE (R89, R96). -/
def leaveShip (bit : Nat) (s : State) : State := noteWake bit (resetTo 0 s)

/-- WAKE_PIN (R65, R66, R71, R88): `WAKE` goes high; the row's length 0 is its fall (log 64). A high time below 100 µs wakes no member in SENTINEL (R887). -/
def execWakePin (highUs : Nat) (s : State) : Out :=
  let s1 := { s with pins.wake := highUs != 0 }
  if highUs = 0 then .next s1
  else if s.sys.mode = .ship then .next (if 1000 ≤ highUs then sendTone .south (sendTone .north (leaveShip 0 s1)) else s1)
  else if s.sys.mode = .sentinel ∧ highUs < 100 then .next s1
  else .next (wakeUp 0 s1)

/-- HOST_WAKE_EDGE (R65, R82, R85, R88): a falling edge on `CS_N` or `RXD` that serves only as a wake source, while the host supply is there: it wakes a member in SENTINEL,
and abandons the entry to SENTINEL; it wakes none from SHIP (log 142). -/
def execHostWakeEdge (p : HPort) (s : State) : Out :=
  let bit := match p with | .spi => 2 | .uart => 3
  if s.pins.vddio ∧ (s.sys.mode = .sentinel ∨ s.sys.pendingMode = some .sentinel) then .next (wakeUp bit s) else .next s

/-- The port on which the tone came that woke the member (R311). -/
def noteTone (sd : Side) (s : State) : State := { s with chain.toneSouth := sd == .south }

/-- A tone, recognised after 100 µs of its 200 µs, ends like a frame (R248, R280). -/
def toneEnds (sd : Side) (s : State) : State := setPort sd (lineEnds false (s.clk + 100 * Config.us)) s

/-- WAKE_TONE (R65, R71, R88, R89, R281): recognised on a port; a sleeping member repeats it on the other port and wakes, a waking one notes it, an awake one ignores it
but for an entry that it abandons. -/
def execWakeTone (sd : Side) (s : State) : Out :=
  let s := toneEnds sd s
  if s.sys.waking then .next (noteWake 1 s)
  else
    match s.sys.mode with
    | .sentinel => .next (noteTone sd (noteWake 1 (sendTone (otherSide sd) s)))
    | .ship => .next (noteTone sd (sendTone (otherSide sd) (leaveShip 1 s)))
    | .active => .next (wakeUp 1 s)
    | .idle => .next (wakeUp 1 s)

/-- WAKE_TONE_REPEAT (R281): the tone again, up to 3 times after the first, until a frame arrives on the port. -/
def execWakeToneRepeat (sd : Side) (s : State) : Out :=
  let p := port s sd
  if p.tones = 0 ∨ 4 ≤ p.tones ∨ p.gotFrame then .next s else .next (setPort sd (fun p => { lineEnds true (s.clk + 200 * Config.us) p with tones := p.tones + 1 }) s)

/-! ## Firmware -/

/-- The bytes of the bank not named active. -/
def inactiveImage (s : State) : List Host.Cell := if s.sys.bank then s.fw.imgA else s.fw.imgB

/-- A bank's bytes from an offset on. -/
def imageBytesAt (m : List Host.Cell) (off n : Nat) : List Byte := memRead m off n

/-- A partial image is discarded (R844). -/
def discardPartial (s : State) : State := { s with fw.busy := false, fw.rcvd := 0, fw.declared := none }

/-- FW_PARTIAL_TIMEOUT (R844): 60 min without a chunk; an image whose checks run is complete. -/
def execFwPartialTimeout (s : State) : Out := if s.fw.busy ∧ s.fw.checking = [] then .next (discardPartial s) else .next s

/-- The result of the checks of R845 on the image held, in their order. -/
def fwResult (crc : Word) (s : State) : Nat :=
  let n := s.fw.rcvd
  let l := memRead (inactiveImage s) 0 n
  if crc32c l ≠ crc then 1
  else if (crc32c (l.drop 16)).toNat ≠ field l 12 4 then 1
  else if !Config.oliquaVerifies (sha256 (l.take (n - 64))) (l.drop (n - 64)) then 2
  else if field l 0 1 ≠ 0x10 ∨ field l 1 1 ≠ 0xC ∨ field l 2 2 ≠ 1 then 4
  else if field l 8 4 < s.sys.fwVer.toNat then 3
  else 0

/-- The image held is activated (R845, R846): the new bank is named active, its first boot a trial; event 0x0C carries its CRC, and Lampblack
takes it in whatever the route. -/
def activateFw (crc : Word) (s : State) : State :=
  let v := BitVec.ofNat 32 (field (memRead (inactiveImage s) 8 4) 0 4)
  let s1 : State := if s.sys.bank then { s with fw.verA := v, fw.crcA := crc, fw.everA := true } else { s with fw.verB := v, fw.crcB := crc, fw.everB := true }
  let s2 := discardPartial { s1 with sys.bank := !s.sys.bank, fw.trial := true, fw.restartDue := true }
  let d := sysDetailWith s.sys.wakeSrc.toNat crc.toNat s2
  let s3 := raise 0x0C d s2
  if routesLog s 0x0C then s3 else settle (logIntake 0x0C d (s3, []))

/-- FW_CHECK_DONE (R214, R845): the checks of the image end. -/
def execFwCheckDone (s : State) : Out :=
  match s.fw.checking with
  | [] => .next s
  | (crc, h, seq) :: rest =>
    let r := if s.fw.busy then fwResult crc s else 1
    let s1 := compareJob 1 (r != 1) false 0 { s with fw.checking := rest }
    let s2 := if r = 0 then activateFw crc s1 else raise 0x0B (sysDetailWith s.sys.wakeSrc.toNat crc.toNat s1) s1
    .next (completeQueued h seq (le 1 r) s2)

/-! ## The configuration image -/

/-- The 2048 bytes of the working copy (R833, R834). -/
def cfgWorkBytes (s : State) : List Byte := memRead s.nv.cfgWork 0 2048

/-- The offset of the first invalid entry of an image, none where it is valid (R834). -/
def cfgInvalid (off : Nat) : Nat → List Byte → Option Nat
  | 0, l => if l.all (· == 0) then none else some off
  | n + 1, l =>
    if l.length < 6 then (if l.all (· == 0) then none else some off)
    else
      let a := field l 0 2
      if a = 0xFFFF then (if (l.drop 6).all (· == 0) then none else some (off + 6 + (l.drop 6).findIdx (· != 0) / 6 * 6))
      else if a % 4 ≠ 0 ∨ 0x47FC < a ∨ nvMask a = 0 then some off
      else cfgInvalid (off + 6) n (l.drop 6)

/-- A working copy whose CRC was compared on `CHK_1` (R834): it is committed where both checks pass and the memory takes it; a write that fails its readback raises event 0x0D
(R835), and its result byte is a free value. -/
def commitImage (l : List Byte) (h : Fin 4) (seq : Nat) (agrees writeOk : Bool) (s : State) : State :=
  let s0 := compareJob 1 agrees false 0 s
  if !agrees then completeQueued h seq (le 1 1 ++ le 2 0) s0
  else
    match cfgInvalid 0 341 l with
    | some off => completeQueued h seq (le 1 2 ++ le 2 off) s0
    | none =>
      if !writeOk then completeQueued h seq (Config.failedWriteResult (drawFree s0).1 :: le 2 0) (raiseSys 0x0D (drawFree s0).2)
      else
        completeQueued h seq (le 1 0 ++ le 2 0)
          (raiseSys 0x0E { s0 with nv.cfgImage := l, nv.cfgOld := s.nv.cfgImage, sys.cfgCount := (s.sys.cfgCount + 1) % 65536, sys.cfgCopy := !s.sys.cfgCopy })

/-- CFG_CHECK_DONE (R214, R834, R835, R855): the CRC and the validation end; the image is committed where both pass and the memory takes it. -/
def execCfgCheckDone (writeOk : Bool) (s : State) : Out :=
  match s.nv.cfgChecking with
  | [] => .next s
  | (crc, h, seq) :: rest => .next (commitImage (cfgWorkBytes s) h seq (crc32c (cfgWorkBytes s) == crc) writeOk { s with nv.cfgChecking := rest })

end Sys2Proof.Machine
end

