-- ==== Sys2Proof/Machine/HostCmd2.lean ====
section
/-! DEFINITION. The commands of commissioning and update: firmware images, host bindings, keys, the configuration image (R198, R801, R805, R820, R834, R836 to R838,
R843 to R845). -/

namespace Sys2Proof.Machine

open Sys2Proof

/-! ## Firmware -/

/-- The bytes of the inactive bank replaced. -/
def setInactive (m : List Host.Cell) (s : State) : State := if s.sys.bank then { s with fw.imgA := m } else { s with fw.imgB := m }

/-- The inactive bank no longer holds an image that was activated (R828). -/
def unqualify (s : State) : State := if s.sys.bank then { s with fw.everA := false } else { s with fw.everB := false }

/-- `FW_LOAD` (R843, R844): the next chunk into the inactive bank; offset 0 starts anew. The bank's 128 KiB bound an image too, and a chunk while the checks of an
image run draws `BAD_PARAM` (log 60). -/
def cmdFwLoad (offset : Word) (image : List Byte) (s : State) : Res :=
  let start := offset = 0
  let n := offset.toNat + image.length
  let m := memWrite (if start then [] else inactiveImage s) offset.toNat image
  let len : Option Nat := if 8 ≤ n then some (field (memRead m 4 4) 0 4) else none
  if s.fw.checking ≠ [] ∨ (¬start ∧ offset.toNat ≠ s.fw.rcvd) ∨ 131072 < n ∨ (match len with | some l => decide (l < n) | none => false) = true then
    Res.of stBadParam s
  else Res.of stOk (unqualify (setInactive m { s with fw.rcvd := n, fw.declared := len, fw.busy := true }))

/-- FW_LOAD (R844). -/
def execFwLoad (rq : Req) (offset : Word) (image : List Byte) (s : State) : Out := .next (runCmd 0xA0 rq (cmdFwLoad offset image) s)

/-- A complete image is held: its declared length, which is one of R843, has been received (R843 to R845). -/
def imageComplete (s : State) : Bool :=
  s.fw.busy && (match s.fw.declared with | some l => l == s.fw.rcvd && decide (1024 ≤ l) | none => false)

/-- `FW_ACTIVATE` (R845). -/
def cmdFwActivate (rq : Req) (crc : Word) (s : State) : Res :=
  if !imageComplete s ∨ anyOutputOn s ∨ sweepBusy s ∨ proofRuns s ∨ s.watch.level = .preAlarm ∨ s.watch.level = .alarm then Res.of stBadParam s
  else Res.of stQueued { s with fw.checking := s.fw.checking ++ [(crc, rq.host, rq.seq.toNat)] }

/-- FW_ACTIVATE (R845). -/
def execFwActivate (rq : Req) (crc : Word) (s : State) : Out := .next (runCmd 0xA1 rq (cmdFwActivate rq crc) s)

/-! ## Bindings and keys -/

/-- The authority a host is bound with. -/
def boundAuth (h : Nat) (s : State) : Option Auth := (binding s h).map (·.auth)

/-- The command concerns a host of an authority that a seal protects (R838): SAFETY while the safety parameter block is sealed, METER while Umber reads `SEALED`. -/
def sealedFor (auths : List (Option Auth)) (s : State) : Bool :=
  (auths.contains (some .safety) && s.verm.isSealed) || (auths.contains (some .meter) && s.sys.variant == .m && s.umber.mirror.st == 2)

/-- The bindings as a `BIND_HOST` would leave them; authority 0xFF removes the host's (R836). -/
def newBindings (h pos port auth : Nat) (s : State) : List (Option Binding) :=
  s.nv.bindings.set h (if auth = 0xFF then none else some { uart := port == 1, auth := authOf auth, pos := pos })

/-- Two hosts of a list of bindings share a port (R198). -/
def portShared (l : List (Option Binding)) : Bool :=
  (List.range 4).any fun i => (List.range 4).any fun j =>
    i != j && (match nth l i none, nth l j none with | some a, some b => a.pos == b.pos && a.uart == b.uart | _, _ => false)

/-- The refusals of `BIND_HOST` (R198, R836). -/
def bindRefused (h pos port auth : Nat) (s : State) : Bool :=
  let l := newBindings h pos port auth s
  decide (3 < h) || decide (63 < pos) || decide (1 < port) || (decide (3 < auth) && auth != 0xFF) || (isFactory s && !(h == 0 && auth == 0)) ||
    (h == 0 && auth == 0xFF) || portShared l || !(l.any fun b => match b with | some b => b.auth == .operator | none => false)

/-- The route bit of a host in every source, as its binding sets it (R801). -/
def routeHost (h : Nat) (auth : Option Auth) (s : State) : State :=
  { s with evt.route := s.evt.route.mapIdx fun src r =>
      setBit r h (match auth with | some a => routedTo a src | none => false) }

/-- The effects of a binding (R801, R805, R820, R836, R856): it is written at once, the routes and the mask are set, and the store is emptied where the binding is
removed or moved. -/
def bindHost (h pos port auth : Nat) (s : State) : State :=
  let old := binding s h
  let l := newBindings h pos port auth s
  let new := nth l h none
  let moved := old.isSome && old.map (fun b => (b.pos, b.uart)) != new.map (fun b => (b.pos, b.uart))
  let s1 := routeHost h (new.map (·.auth)) { s with nv.bindings := l, evt.masks := s.evt.masks.set h (BitVec.allOnes 160) }
  if moved then { s1 with evt.stores := s1.evt.stores.set h [] } else s1

/-- A binding that a seal protects, by the host's present authority and the one named (R838). -/
def bindSealed (h auth : Nat) (s : State) : Bool := decide (h ≤ 3) && sealedFor [boundAuth h s, if auth ≤ 3 then some (authOf auth) else none] s

/-- `BIND_HOST` (R836, R838). -/
def cmdBindHost (rq : Req) (host position port authority : Byte) (s : State) : Res :=
  let h := host.toNat
  let a := authority.toNat
  if bindSealed h a s then Res.of stSealed s
  else if bindRefused h position.toNat port.toNat a s then Res.of stBadParam s
  else
    let s1 := bindHost h position.toNat port.toNat a s
    Res.of stOk (raise 0x19 (det (inst2 h port.toNat) rq.seq.toNat stOk 0) s1)

/-- BIND_HOST (R836). -/
def execBindHost (rq : Req) (host position port authority : Byte) (s : State) : Out :=
  .next (runCmd 0xB0 rq (cmdBindHost rq host position port authority) s)

/-- A new key of a host (R837): C is 0 and stored, the failure count and a lockout clear. -/
def storeKey (h : Nat) (key : List Byte) (s : State) : State :=
  { s with nv.keys := s.nv.keys.set h key, nv.tagC := s.nv.tagC.set h 0, nv.tagStored := s.nv.tagStored.set h 0, nv.tagSince := s.nv.tagSince.set h 0,
           tagFails := s.tagFails.set h 0, lockout := s.lockout.set h false }

/-- `KEY_PROVISION` (R837, R838): a key has 16 bytes. -/
def cmdKeyProvision (rq : Req) (host : Byte) (key : List Byte) (s : State) : Res :=
  let h := host.toNat
  let a := boundAuth h s
  if sealedFor [a] s then Res.of stSealed s
  else if 3 < h ∨ key.length ≠ 16 ∨ (a ≠ some .meter ∧ a ≠ some .safety) ∨ key.all (· == 0) then Res.of stBadParam s
  else
    let port := match binding s h with | some b => b2n b.uart | none => 0
    Res.of stOk (raise 0x1A (det (inst2 h port) rq.seq.toNat stOk 0) (storeKey h key s))

/-- KEY_PROVISION (R837). -/
def execKeyProvision (rq : Req) (host : Byte) (key : List Byte) (s : State) : Out := .next (runCmd 0xB1 rq (cmdKeyProvision rq host key) s)

/-! ## The configuration image -/

/-- `CFG_WRITE` (R834). -/
def cmdCfgWrite (offset : BitVec 16) (bytes : List Byte) (s : State) : Res :=
  if 2048 < offset.toNat + bytes.length then Res.of stBadParam s
  else Res.of stOk { s with nv.cfgWork := memWrite s.nv.cfgWork offset.toNat bytes }

/-- CFG_WRITE (R834). -/
def execCfgWrite (rq : Req) (offset : BitVec 16) (bytes : List Byte) (s : State) : Out := .next (runCmd 0xC0 rq (cmdCfgWrite offset bytes) s)

/-- `CFG_COMMIT` (R834): the checks follow. -/
def cmdCfgCommit (rq : Req) (crc : Word) (s : State) : Res :=
  Res.of stQueued { s with nv.cfgChecking := s.nv.cfgChecking ++ [(crc, rq.host, rq.seq.toNat)] }

/-- CFG_COMMIT (R834). -/
def execCfgCommit (rq : Req) (crc : Word) (s : State) : Out := .next (runCmd 0xC1 rq (cmdCfgCommit rq crc) s)

end Sys2Proof.Machine
end

