-- ==== Sys2Proof/Machine/IndigoScalar.lean ====
section
/-! DEFINITION. The scalar and control instructions of both engines (R501 to R505). -/

namespace Sys2Proof.Machine

open Sys2Proof

/-- A sign-extended 18-bit immediate. -/
def imm (k : BitVec 18) : Word := k.signExtend 32

/-- NOP (R505). -/
def execKernelNop (e : Engine) (s : State) : Out := .next (runInstr e .nop (fun s => .done s 1 none) s)

/-- LI (R505). -/
def execLi (e : Engine) (d : Fin 16) (k : BitVec 18) (s : State) : Out :=
  .next (runInstr e (.li d k) (fun s => .done (setScalar e d (imm k) s) 1 none) s)

/-- LIH (R505): the immediate in the upper 18 bits, the low 14 bits kept. -/
def execLih (e : Engine) (d : Fin 16) (k : BitVec 18) (s : State) : Out :=
  .next (runInstr e (.lih d k) (fun s => .done (setScalar e d ((k.zeroExtend 32 <<< 14) ||| (scalar (eng s e) d &&& 0x3FFF)) s) 1 none) s)

/-- ADDI (R505). -/
def execAddi (e : Engine) (d a : Fin 16) (k : BitVec 18) (s : State) : Out :=
  .next (runInstr e (.addi d a k) (fun s => .done (setScalar e d (scalar (eng s e) a + imm k) s) 1 none) s)

/-- The operations of `SOP` (R494, R505). -/
def scalarOp (op : Nat) (x y : Word) : Word :=
  let sh := y.toNat % 32
  match op with
  | 0 => x + y
  | 1 => x - y
  | 2 => x * y
  | 3 => x &&& y
  | 4 => x ||| y
  | 5 => x ^^^ y
  | 6 => x <<< sh
  | 7 => x >>> sh
  | 8 => x.sshiftRight sh
  | 9 => if x.slt y then x else y
  | 10 => if x.slt y then y else x
  | _ => if x.slt y then 1 else 0

/-- SOP (R505). -/
def execSop (e : Engine) (d a b : Fin 16) (op : Fin 12) (s : State) : Out :=
  .next (runInstr e (.sop d a b op) (fun s => .done (setScalar e d (scalarOp op (scalar (eng s e) a) (scalar (eng s e) b)) s) 1 none) s)

/-- The address of `LDS` and `STS` (R505). -/
def scalarAddr (e : Engine) (a : Fin 16) (k : BitVec 18) (s : State) : Nat := (scalar (eng s e) a + imm k).toNat

/-- LDS (R453, R505). -/
def execLds (e : Engine) (d a : Fin 16) (k : BitVec 18) (ecc : Ecc) (s : State) : Out :=
  .next (runInstr e (.lds d a k) (fun s =>
    let p := scalarAddr e a k s
    let s1 := noteCorrected ecc.corr [(p, 4)] s
    match accessFault s e false (p % 4 == 0) p [(p, 4)] ecc.bad with
    | some f => .fault s1 f.1 f.2
    | none => .done (setScalar e d (BitVec.ofNat 32 (padWord s p)) s1) 3 none) s)

/-- STS (R505). -/
def execSts (e : Engine) (d a : Fin 16) (k : BitVec 18) (s : State) : Out :=
  .next (runInstr e (.sts d a k) (fun s =>
    let p := scalarAddr e a k s
    match accessFault s e true (p % 4 == 0) p [(p, 4)] [] with
    | some f => .fault s f.1 f.2
    | none => .done (padWrite p (le 4 (scalar (eng s e) d).toNat) s) 3 none) s)

/-- A branch condition (R501). -/
def condHolds (cond : Nat) (x y : Word) : Bool :=
  match cond with
  | 0 => true
  | 1 => x == y
  | 2 => x != y
  | 3 => x.slt y
  | 4 => !x.slt y
  | 5 => x.ult y
  | _ => !x.ult y

/-- BR (R501, R504, R519, R520). -/
def execBr (e : Engine) (cond : Fin 7) (a b : Fin 16) (target : BitVec 11) (s : State) : Out :=
  .next (runInstr e (.br cond a b target) (fun s =>
    let g := eng s e
    if condHolds cond (scalar g a) (scalar g b) then
      if g.prog.length ≤ target.toNat then .fault s 7 target.toNat else .done s 3 (some target.toNat)
    else .done s 1 none) s)

/-- A loop opened on the next free level (R502). -/
def openLoop (e : Engine) (count last : Nat) (s : State) : IRes :=
  let g := eng s e
  let outside : Bool := match g.lc1, g.lc0 with
    | some l, _ => decide (l.last < last)
    | none, some l => decide (l.last < last)
    | none, none => false
  unlessFault s
    (faultIf (decide (g.prog.length ≤ last)) 7 last ++
      faultIf (g.lc1.isSome || count == 0 || decide (65535 < count) || decide (last ≤ g.pc) || outside) 10 g.pc)
    fun _ =>
      let l : Loop := { count := count, first := g.pc + 1, last := last }
      .done (setEng e (fun g => if g.lc0.isNone then { g with lc0 := some l } else { g with lc1 := some l }) s) 1 none

/-- LOOPR (R502). -/
def execLoopr (e : Engine) (a : Fin 16) (last : BitVec 11) (s : State) : Out :=
  .next (runInstr e (.loopr a last) (fun s => openLoop e (scalar (eng s e) a).toNat last.toNat s) s)

/-- LOOPI (R502). -/
def execLoopi (e : Engine) (count last : BitVec 11) (s : State) : Out :=
  .next (runInstr e (.loopi count last) (fun s => openLoop e count.toNat last.toNat s) s)

/-- END (R463, R504, R505): the kernel ends; its 2 cycles count like any other. -/
def execEndKernel (e : Engine) (a : Fin 16) (s : State) : Out :=
  let g := eng s e
  if !issues e (.endK a) s then .next s
  else if g.budget ≤ g.cycles + 2 then .next (takeFault e 8 g.pc ((g.cycles + 2) / 1024) s)
  else .next (takeEnd e (scalar g a) (setEng e (fun g => { g with cycles := g.cycles + 2 }) s))

/-- STW (R505, R522). -/
def execStw (e : Engine) (d a : Fin 16) (clear : Bool) (s : State) : Out :=
  .next (runInstr e (.stw d a clear) (fun s =>
    let g := eng s e
    if clear then .done (setEng e (fun g => { g with status := g.status &&& ~~~((scalar g a).truncate 4) }) s) 1 none
    else .done (setScalar e d (g.status.zeroExtend 32) s) 1 none) s)

/-- RING (R397, R505, R524). -/
def execRing (e : Engine) (d a : Fin 16) (write aux : Bool) (s : State) : Out :=
  .next (runInstr e (.ring d a write aux) (fun s =>
    let r := if aux then s.cell.auxRing else s.cell.cellRing
    if write then .done (writeRp aux (scalar (eng s e) a).toNat s) 1 none
    else .done (setScalar e d (BitVec.ofNat 32 r.wp) s) 1 none) s)

/-- UNDEFINED_ENCODING (R464, R489): the next word spells no instruction of the engine. -/
def execUndefinedEncoding (e : Engine) (w : Word) (s : State) : Out :=
  let g := eng s e
  if g.st == .running && !serviceSlot g.slot && g.prog[g.pc]? == some w && decodeI e w == none then .next (takeFault e 1 g.pc w.toNat s)
  else .next s

end Sys2Proof.Machine
end

