-- ==== Sys2Proof/Machine/IndigoTile.lean ====
section
/-! DEFINITION. The tile engine's instructions (R441 to R450, R496, R497, R499, R506, R507, R511, R512, R517, R518, R521, R526). -/

namespace Sys2Proof.Machine

open Sys2Proof

/-- A tile register, none where it is not in use (R447). -/
def tile (s : State) (r : Nat) : Option Tile := nth s.indigo.te.tiles r none

/-- A tile register written: in use, with shape and type of the result (R443, R447). -/
def setTile (r : Nat) (t : Tile) (s : State) : State := setEng .te (fun g => { g with tiles := g.tiles.set r (some t) }) s

/-- Tile reads in order through the operand cache (R445, R491): the cycles of the misses, and the state with the cache as it is then. -/
def readTiles (l : List Nat) (s : State) : Nat × State :=
  let r := l.foldl (fun (p : Nat × List Nat) x => if p.2.contains x then (p.1, x :: p.2.erase x) else (p.1 + 4, (x :: p.2).take 4)) (0, s.indigo.te.cache)
  (r.1, setEng .te (fun g => { g with cache := r.2 }) s)

/-- The fault `UNDEF` of a source that is not in use (R447). -/
def undef (s : State) (r : Nat) : List (Nat × Nat) := faultIf (tile s r).isNone 3 r

/-- An element-wise result with its flags. -/
def elemResult (d cost : Nat) (ty rows cols : Nat) (l : List (Nat × Flags)) (s : State) : IRes :=
  let r := joinFlags l
  .done (addFlags .te r.2 (setTile d { ty := ty, rows := rows, cols := cols, elems := r.1 } s)) cost none

/-- An empty tile, in place of one that is not in use. -/
def noTile : Tile := { ty := 0, rows := 1, cols := 1, elems := [0] }

/-- TSHP (R490, R506). -/
def execTshp (d : Fin 16) (p : BitVec 10) (s : State) : Out :=
  .next (runInstr .te (.tshp d p) (fun s =>
    let ty := bits p.toNat 1 0
    let rows := bits p.toNat 5 2 + 1
    let cols := bits p.toNat 9 6 + 1
    unlessFault s (faultIf (!shapeValid ty rows cols) 2 d) fun _ =>
      .done (setTile d { ty := ty, rows := rows, cols := cols, elems := List.replicate (rows * cols) 0 } s) 1 none) s)

/-- The runs of bytes of a tile in the scratchpad (R450). -/
def tileRuns (ty rows cols base stride : Nat) : List (Nat × Nat) := (List.range rows).map fun r => (base + r * stride, cols * tySize ty)

/-- Base and stride are multiples of the element size (R450). -/
def tileAligned (ty base stride : Nat) : Bool := base % tySize ty == 0 && stride % tySize ty == 0

/-- Cycles of a load or store of a number of bytes (R506, R508). -/
def moveCost (bytes : Nat) : Nat := 2 + (bytes + 63) / 64

/-- TLD (R450, R453, R506, R521). -/
def execTld (d a b : Fin 16) (p : BitVec 10) (ecc : Ecc) (s : State) : Out :=
  .next (runInstr .te (.tld d a b p) (fun s =>
    let ty := bits p.toNat 1 0
    let rows := bits p.toNat 5 2 + 1
    let cols := bits p.toNat 9 6 + 1
    let base := (scalar s.indigo.te a).toNat
    let stride := (scalar s.indigo.te b).toNat
    if !shapeValid ty rows cols then .fault s 2 d
    else
      let runs := tileRuns ty rows cols base stride
      let s1 := noteCorrected ecc.corr runs s
      match accessFault s .te false (tileAligned ty base stride) base runs ecc.bad with
      | some f => .fault s1 f.1 f.2
      | none =>
        let el := (List.range (rows * cols)).map fun i => leNat (memRead s.indigo.pad (base + i / cols * stride + i % cols * tySize ty) (tySize ty))
        .done (setTile d { ty := ty, rows := rows, cols := cols, elems := el } s1) (moveCost (rows * cols * tySize ty)) none) s)

/-- TST (R450, R506): the rows stored in order. -/
def execTst (d a b : Fin 16) (s : State) : Out :=
  .next (runInstr .te (.tst d a b) (fun s =>
    match tile s d with
    | none => .fault s 3 d
    | some t =>
      let base := (scalar s.indigo.te a).toNat
      let stride := (scalar s.indigo.te b).toNat
      let runs := tileRuns t.ty t.rows t.cols base stride
      match accessFault s .te true (tileAligned t.ty base stride) base runs [] with
      | some f => .fault s f.1 f.2
      | none =>
        let c := readTiles [d] s
        let row (r : Nat) : List Byte := ((List.range t.cols).map fun k => le (tySize t.ty) (nth t.elems (r * t.cols + k) 0)).flatten
        .done ((List.range t.rows).foldl (fun s r => padWrite (base + r * stride) (row r) s) c.2) (moveCost (t.rows * t.cols * tySize t.ty) + c.1) none) s)

/-- The operations of `TEW` (R506). -/
def tewOp (op ty a b : Nat) : Nat × Flags :=
  match op with
  | 0 => eAdd ty a b
  | 1 => eSub ty a b
  | 2 => eMul ty a b
  | 3 => ePick ty false a b
  | _ => ePick ty true a b

/-- TEW (R443, R506, R517). -/
def execTew (d a b : Fin 16) (op : Fin 5) (s : State) : Out :=
  .next (runInstr .te (.tew d a b op) (fun s =>
    let x := (tile s a).getD noTile
    let y := (tile s b).getD noTile
    let both := (tile s a).isSome && (tile s b).isSome
    unlessFault s (faultIf (both && (x.ty != y.ty || x.rows != y.rows || x.cols != y.cols)) 2 b ++ undef s a ++ undef s b) fun _ =>
      let c := readTiles [a, b] s
      elemResult d (2 + c.1) x.ty x.rows x.cols (List.zipWith (tewOp op x.ty) x.elems y.elems) c.2) s)

/-- TEWS (R506): the scalar read in the type of the tile. -/
def execTews (d a c : Fin 16) (op : Fin 3) (s : State) : Out :=
  .next (runInstr .te (.tews d a c op) (fun s =>
    let x := (tile s a).getD noTile
    unlessFault s (undef s a) fun _ =>
      let r := readTiles [a] s
      let v := (scalar s.indigo.te c).toNat % 2 ^ (8 * tySize x.ty)
      let f (y : Nat) : Nat × Flags := if op = 0 then eAdd x.ty y v else if op = 1 then eMul x.ty y v else (v, 0)
      elemResult d (2 + r.1) x.ty x.rows x.cols (x.elems.map f) r.2) s)

/-- One element of a product of fixed-point tiles (R496): the exact sum of products, with the old value where it accumulates, rounded and saturated once. -/
def mmFixed (src dst : Nat) (old : Option Nat) (pairs : List (Nat × Nat)) : Nat × Flags :=
  let sum := (pairs.map fun p => qOf src p.1 * qOf src p.2).foldl (· + ·) 0
  -- the sum has 2 × frac(src) fraction bits; the result has frac(dst)
  let sh := 2 * qFrac src - qFrac dst
  let base : Int := match old with | some c => qOf dst c * 2 ^ sh | none => 0
  if 2 * qFrac src < qFrac dst then qWrite dst ((match old with | some c => qOf dst c | none => 0) + sum * 2 ^ (qFrac dst - 2 * qFrac src))
  else qWrite dst (roundHalfEven (base + sum) (2 ^ sh))

/-- One element of a product of floating-point tiles (R497): fused steps in binary32, and one rounding to binary16 for a binary16 result. -/
def mmFloat (src dst : Nat) (old : Option Nat) (pairs : List (Nat × Nat)) : Nat × Flags :=
  let r := pairs.foldl (fun (p : Nat × Flags) q => let x := fFma src p.1 q.1 q.2; (x.1, p.2 ||| x.2)) (old.getD 0, 0)
  if dst = 2 then let x := eConvert 3 2 r.1 0; (x.1, r.2 ||| x.2) else r

/-- Multiply-accumulates per cycle by source type (R438, R507). -/
def macRate (ty : Nat) : Nat := if ty = 0 then 64 else if ty = 2 then 32 else 16

/-- TMM (R443, R496, R497, R506, R507, R518). -/
def execTmm (d a b : Fin 16) (op : Fin 3) (s : State) : Out :=
  .next (runInstr .te (.tmm d a b op) (fun s =>
    let x := (tile s a).getD noTile
    let y := (tile s b).getD noTile
    let z := tile s d
    let both := (tile s a).isSome && (tile s b).isSome
    let ty := if op = 0 then x.ty else tyWide x.ty
    let fits := x.cols == y.rows && x.ty == y.ty
    let zBad := match z with | some z => z.ty != ty || z.rows != x.rows || z.cols != y.cols | none => false
    unlessFault s
      (faultIf (both && !fits) 2 b ++ faultIf (both && fits && (!shapeValid ty x.rows y.cols || (op == 2 && zBad))) 2 d ++ undef s a ++ undef s b ++
        (if op = 2 then undef s d else []))
      fun _ =>
        let c := readTiles ([a.val, b.val] ++ (if op = 2 then [d.val] else [])) s
        let el (i : Nat) : Nat × Flags :=
          let r := i / y.cols
          let k := i % y.cols
          let pairs := (List.range x.cols).map fun j => (nth x.elems (r * x.cols + j) 0, nth y.elems (j * y.cols + k) 0)
          let old := if op = 2 then some (nth (z.getD noTile).elems i 0) else none
          if x.ty < 2 then mmFixed x.ty ty old pairs else mmFloat x.ty ty old pairs
        let macs := x.rows * x.cols * y.cols
        elemResult d (2 + (macs + macRate x.ty - 1) / macRate x.ty + c.1) ty x.rows y.cols ((List.range (x.rows * y.cols)).map el) c.2) s)

/-- TTR (R443, R506). -/
def execTtr (d a : Fin 16) (s : State) : Out :=
  .next (runInstr .te (.ttr d a) (fun s =>
    let x := (tile s a).getD noTile
    unlessFault s (faultIf ((tile s a).isSome && !shapeValid x.ty x.cols x.rows) 2 d ++ undef s a) fun _ =>
      let c := readTiles [a] s
      let el := (List.range (x.rows * x.cols)).map fun i => (nth x.elems (i % x.rows * x.cols + i / x.rows) 0, 0)
      elemResult d (6 + c.1) x.ty x.cols x.rows el c.2) s)

/-- TCVT (R499, R506, R526). -/
def execTcvt (d a : Fin 16) (ty : Fin 4) (exponent : Byte) (s : State) : Out :=
  .next (runInstr .te (.tcvt d a ty exponent) (fun s =>
    let x := (tile s a).getD noTile
    unlessFault s (faultIf ((tile s a).isSome && !shapeValid ty x.rows x.cols) 2 d ++ undef s a) fun _ =>
      let c := readTiles [a] s
      elemResult d (2 + c.1) ty x.rows x.cols (x.elems.map fun y => eConvert x.ty ty y exponent.toInt) c.2) s)

/-- A sum of elements in ascending order (R495, R497). -/
def redSum (ty : Nat) (l : List Nat) : Nat × Flags :=
  if ty < 2 then qWrite ty ((l.map (qOf ty)).foldl (· + ·) 0)
  else
    let step (p : Nat × Flags) (x : Nat) : Nat × Flags :=
      let r := fAdd (fOf 3 p.1) (fOf ty x)
      let w := fWrite 3 p.1 x r
      (w.1, p.2 ||| w.2)
    let r := l.foldl step (0, 0)
    if ty = 2 then let x := eConvert 3 2 r.1 0; (x.1, r.2 ||| x.2) else r

/-- The greatest of elements, in ascending order (R498). -/
def redMax (ty : Nat) : List Nat → Nat × Flags
  | [] => (0, 0)
  | x :: t => t.foldl (fun p y => let r := ePick ty true p.1 y; (r.1, p.2 ||| r.2)) (if ty < 2 then x else fCopy ty x, 0)

/-- TRED (R497, R506): sums or maxima along rows or columns. -/
def execTred (d a : Fin 16) (op : Fin 4) (s : State) : Out :=
  .next (runInstr .te (.tred d a op) (fun s =>
    let x := (tile s a).getD noTile
    unlessFault s (undef s a) fun _ =>
      let c := readTiles [a] s
      let row (r : Nat) : List Nat := (List.range x.cols).map fun k => nth x.elems (r * x.cols + k) 0
      let col (k : Nat) : List Nat := (List.range x.rows).map fun r => nth x.elems (r * x.cols + k) 0
      let f := if op = 0 ∨ op = 1 then redSum x.ty else redMax x.ty
      if op = 0 ∨ op = 2 then elemResult d (4 + c.1) x.ty x.rows 1 ((List.range x.rows).map fun r => f (row r)) c.2
      else elemResult d (4 + c.1) x.ty 1 x.cols ((List.range x.cols).map fun k => f (col k)) c.2) s)

/-- TMOV (R506). -/
def execTmov (d a : Fin 16) (s : State) : Out :=
  .next (runInstr .te (.tmov d a) (fun s =>
    unlessFault s (undef s a) fun _ =>
      let c := readTiles [a] s
      .done (setTile d ((tile s a).getD noTile) c.2) (2 + c.1) none) s)

/-- TGET (R506): Q15 sign-extended, binary16 zero-extended. -/
def execTget (d a : Fin 16) (row col : Fin 16) (s : State) : Out :=
  .next (runInstr .te (.tget d a row col) (fun s =>
    let x := (tile s a).getD noTile
    unlessFault s (faultIf ((tile s a).isSome && (decide (x.rows ≤ row) || decide (x.cols ≤ col))) 2 a ++ undef s a) fun _ =>
      let c := readTiles [a] s
      let v := nth x.elems (row * x.cols + col) 0
      .done (setScalar .te d (if x.ty = 0 then BitVec.ofInt 32 (signed 16 v) else BitVec.ofNat 32 v) c.2) (2 + c.1) none) s)

/-- TPUT (R506). -/
def execTput (d a : Fin 16) (row col : Fin 16) (s : State) : Out :=
  .next (runInstr .te (.tput d a row col) (fun s =>
    let x := (tile s d).getD noTile
    unlessFault s (faultIf ((tile s d).isSome && (decide (x.rows ≤ row) || decide (x.cols ≤ col))) 2 d ++ undef s d) fun _ =>
      let c := readTiles [d] s
      let v := (scalar s.indigo.te a).toNat % 2 ^ (8 * tySize x.ty)
      .done (setTile d { x with elems := x.elems.set (row * x.cols + col) v } c.2) (2 + c.1) none) s)

/-- The fields that `TUNPK` takes from a Q31 code (R506). -/
def unpackOp (op : Nat) (mask x : Nat) : Nat :=
  match op with
  | 0 => (signed 24 x % 2 ^ 32).toNat
  | 1 => x / 2 ^ 24
  | 2 => if (x / 2 ^ 24) &&& mask = 0 then 0x3F800000 else 0
  | 3 => x % 65536 * 65536
  | _ => x / 65536 * 65536

/-- TUNPK (R506). -/
def execTunpk (d a c : Fin 16) (op : Fin 5) (s : State) : Out :=
  .next (runInstr .te (.tunpk d a c op) (fun s =>
    let x := (tile s a).getD noTile
    unlessFault s (faultIf ((tile s a).isSome && x.ty != 1) 2 a ++ undef s a) fun _ =>
      let r := readTiles [a] s
      let mask := (scalar s.indigo.te c).toNat % 256
      elemResult d (2 + r.1) (if op = 2 then 3 else 1) x.rows x.cols (x.elems.map fun y => (unpackOp op mask y, 0)) r.2) s)

/-- TXS (R448, R506): stalls while the TE-to-SE queue holds two entries. -/
def execTxs (a : Fin 16) (s : State) : Out :=
  .next (runInstr .te (.txs a) (fun s =>
    match tile s a with
    | none => .fault s 3 a
    | some t =>
      if 2 ≤ s.indigo.ts.length then .stall
      else
        let c := readTiles [a] s
        .done { c.2 with indigo.ts := c.2.indigo.ts ++ [(t.ty, t.rows, t.cols, t.elems)] } (8 + c.1) none) s)

/-- TXR (R448, R511, R512): a spectral entry as a Q31 tile; a longer entry faults and stays. -/
def execTxr (d : Fin 16) (s : State) : Out :=
  .next (runInstr .te (.txr d) (fun s =>
    match s.indigo.st with
    | [] => .stall
    | l :: rest =>
      if 128 < l.length then .fault s 2 d
      else
        let rows := (l.length + 15) / 16
        let cols := min l.length 16
        let t : Tile := { ty := 1, rows := rows, cols := cols, elems := (List.range (rows * cols)).map fun i => nth l i 0 }
        .done (setTile d t { s with indigo.st := rest }) 8 none) s)

end Sys2Proof.Machine
end

