-- ==== Sys2Proof/Machine/IndigoSpectral.lean ====
section
/-! DEFINITION. The spectral engine's instructions (R446 to R450, R500, R508 to R510, R512, R523). -/

namespace Sys2Proof.Machine

open Sys2Proof

/-- A spectral register as its words, none where it is not in use (R446, R447). -/
def spec (s : State) (r : Nat) : Option (List Nat) := nth s.indigo.se.spec r none

/-- A spectral register written (R447). -/
def setSpec (r : Nat) (l : List Nat) (s : State) : State := setEng .se (fun g => { g with spec := g.spec.set r (some l) }) s

/-- The fault `UNDEF` of a source that is not in use (R447). -/
def undefS (s : State) (r : Nat) : List (Nat × Nat) := faultIf (spec s r).isNone 3 r

/-- The words of a source. -/
def specD (s : State) (r : Nat) : List Nat := (spec s r).getD []

/-- A result with its flags. -/
def specResult (d cost : Nat) (l : List (Nat × Flags)) (s : State) : IRes :=
  let r := joinFlags l
  .done (addFlags .se r.2 (setSpec d r.1 s)) cost none

/-- SSHP (R508). -/
def execSshp (d : Fin 8) (len : BitVec 9) (s : State) : Out :=
  .next (runInstr .se (.sshp d len) (fun s => .done (setSpec d (List.replicate (len.toNat + 1) 0) s) 1 none) s)

/-- SLD (R450, R453, R508). -/
def execSld (d : Fin 8) (a : Fin 16) (len : BitVec 9) (ecc : Ecc) (s : State) : Out :=
  .next (runInstr .se (.sld d a len) (fun s =>
    let n := len.toNat + 1
    let base := (scalar s.indigo.se a).toNat
    let s1 := noteCorrected ecc.corr [(base, 4 * n)] s
    match accessFault s .se false (base % 4 == 0) base [(base, 4 * n)] ecc.bad with
    | some f => .fault s1 f.1 f.2
    | none => .done (setSpec d ((List.range n).map fun i => padWord s (base + 4 * i)) s1) (moveCost (4 * n)) none) s)

/-- SST (R450, R508). -/
def execSst (d : Fin 8) (a : Fin 16) (s : State) : Out :=
  .next (runInstr .se (.sst d a) (fun s =>
    match spec s d with
    | none => .fault s 3 d
    | some l =>
      let base := (scalar s.indigo.se a).toNat
      match accessFault s .se true (base % 4 == 0) base [(base, 4 * l.length)] [] with
      | some f => .fault s f.1 f.2
      | none => .done (padWrite base (l.map (le 4)).flatten s) (moveCost (4 * l.length)) none) s)

/-- The operations of `SEW` (R500, R508). -/
def sewOp (op x y : Nat) : Nat × Flags :=
  match op with
  | 0 => cWrite (cRe x + cRe y) (cIm x + cIm y)
  | 1 => cWrite (cRe x - cRe y) (cIm x - cIm y)
  | 2 => cMul false x y
  | _ => cMul true x y

/-- Operands differ in length although both are in use (R446). -/
def lengthsDiffer (s : State) (a b : Nat) : Bool := (spec s a).isSome && (spec s b).isSome && (specD s a).length != (specD s b).length

/-- SEW (R508). -/
def execSew (d a b : Fin 8) (op : Fin 4) (s : State) : Out :=
  .next (runInstr .se (.sew d a b op) (fun s =>
    unlessFault s (faultIf (lengthsDiffer s a b) 2 b ++ undefS s a ++ undefS s b) fun _ =>
      specResult d (2 + ((specD s a).length + 3) / 4) (List.zipWith (sewOp op) (specD s a) (specD s b)) s) s)

/-- SSCL (R508). -/
def execSscl (d a : Fin 8) (c : Fin 16) (s : State) : Out :=
  .next (runInstr .se (.sscl d a c) (fun s =>
    unlessFault s (undefS s a) fun _ =>
      specResult d (2 + ((specD s a).length + 3) / 4) ((specD s a).map fun x => cMul false x (scalar s.indigo.se c).toNat) s) s)

/-- SDOT (R508, R523): the dot product with the conjugate, each part rounded and saturated to a Q31 code. -/
def execSdot (d : Fin 15) (a b : Fin 8) (h : Fin 16) (s : State) : Out :=
  .next (runInstr .se (.sdot d a b h) (fun s =>
    unlessFault s (faultIf (lengthsDiffer s a b) 2 b ++ undefS s a ++ undefS s b) fun _ =>
      let z := List.zip (specD s a) (specD s b)
      let re := (z.map fun p => cRe p.1 * cRe p.2 + cIm p.1 * cIm p.2).foldl (· + ·) 0
      let im := (z.map fun p => cIm p.1 * cRe p.2 - cRe p.1 * cIm p.2).foldl (· + ·) 0
      let x := qWrite 1 (roundHalfEven (2 * re) (2 ^ h.val))
      let y := qWrite 1 (roundHalfEven (2 * im) (2 ^ h.val))
      .done (addFlags .se (x.2 ||| y.2) (setScalar .se (d + 1) (BitVec.ofNat 32 y.1) (setScalar .se d (BitVec.ofNat 32 x.1) s)))
        (3 + ((specD s a).length + 3) / 4) none) s)

/-! ## The transform -/

/-- cos(2πk/256) × 2^62 for a quarter of the circle, rounded. -/
def cosTable : List Nat :=
    [4611686018427387904, 4610297064819661174, 4606131040650197959, 4599190455376180266, 4589479489746651964] ++
    [4577003993284191887, 4561771480761380163, 4543791127674180203, 4523073764714963030, 4499631871248503178] ++
    [4473479567794875989, 4444632607523784314, 4413108366765438139, 4378925834543703005, 4342105601137822079] ++
    [4302669845679601858, 4260642322793532497, 4216048348287890265, 4168914783905441250, 4119270021142931949] ++
    [4067143964149113252, 4012568011711599423, 3955575038343412514, 3896199374480604983, 3834476785802888710] ++
    [3770444451689726907, 3704140942824866152, 3635606197962798751, 3564881499871150442, 3492009450463484836] ++
    [3417033945137503676, 3340000146334100615, 3260954456333195553, 3179944489302736311, 3097019042617704261] ++
    [3012228067466400296, 2925622638761716784, 2837254924375519865, 2747178153714674114, 2655446585657638225] ++
    [2562115475870945497, 2467241043525256456, 2370880437431032621, 2273091701614230011, 2173933740352748318] ++
    [2073466282694696471, 1971749846479847467, 1868845701885954606, 1764815834521887442, 1659722908089818799] ++
    [1553630226638953726, 1446601696433537347, 1338701787458110889, 1229995494583203681, 1120548298414853464] ++
    [1010426125851537790, 899695310372275547, 788422552079819562, 676674877523008785, 564519599322481549] ++
    [452024275624069880, 339256669404298611, 226284707652502141, 113176440454146016, 0]

/-- cos(2πk/256) × 2^62. -/
def cos256 (k : Nat) : Int :=
  let k := k % 256
  if k ≤ 64 then nth cosTable k 0
  else if k ≤ 128 then -(nth cosTable (128 - k) 0 : Int)
  else if k ≤ 192 then -(nth cosTable (k - 128) 0 : Int)
  else nth cosTable (256 - k) 0

/-- sin(2πk/256) × 2^62. -/
def sin256 (k : Nat) : Int := cos256 (k + 192)

/-- The parts of element k of the exact transform, times 2^62 (R508), before the forward transform's division by the length. -/
def dftPart (inverse : Bool) (l : List Nat) (k : Nat) : Int × Int :=
  let n := l.length
  let term (i x : Nat) : Int × Int :=
    let t := 256 / n * (i * k % n)
    let c := cos256 t
    let q := if inverse then -sin256 t else sin256 t
    (cRe x * c + cIm x * q, cIm x * c - cRe x * q)
  (l.zipIdx.map fun p => term p.2 p.1).foldl (fun a b => (a.1 + b.1, a.2 + b.2)) (0, 0)

/-- The input is small enough that no stage saturates: every magnitude stays below 1 in a forward transform, and the sum of all parts in an inverse one. -/
def cannotSaturate (inverse : Bool) (l : List Nat) : Bool :=
  if inverse then decide ((l.map fun x => (cRe x).natAbs + (cIm x).natAbs).foldl (· + ·) 0 ≤ 32700)
  else l.all fun x => decide (cRe x * cRe x + cIm x * cIm x ≤ 32700 * 32700)

/-- One part of a result (R509): a free value within log₂L + 1 LSB of the exact part v / scale where nothing saturates, else any Q15 value (log 43). -/
def fftValue (bounded : Bool) (log2 : Nat) (free v scale : Int) : Int :=
  let x := clampI (-32768) 32767 free
  if bounded && decide ((log2 + 1) * scale < |x * scale - v|) then clampI (-32768) 32767 (roundHalfEven v scale) else x

/-- SFFT (R446, R508, R509). -/
def execSfft (d a : Fin 8) (inverse : Bool) (s : State) : Out :=
  .next (runInstr .se (.sfft d a inverse) (fun s =>
    let l := specD s a
    let n := l.length
    let ok := [4, 8, 16, 32, 64, 128, 256].contains n
    unlessFault s (faultIf ((spec s a).isSome && !ok) 2 a ++ undefS s a) fun _ =>
      let lg := Nat.log2 n
      let bounded := cannotSaturate inverse l
      let scale : Int := 2 ^ 62 * (if inverse then 1 else n)
      let f := drawFree s
      let el (k : Nat) : Nat × Flags :=
        let v := dftPart inverse l k
        cWrite (fftValue bounded lg (Config.fftPart f.1 (2 * k)) v.1 scale) (fftValue bounded lg (Config.fftPart f.1 (2 * k + 1)) v.2 scale)
      let sat := if !bounded && Config.fftSat f.1 then 1 else 0
      let r := joinFlags ((List.range n).map el)
      .done (addFlags .se (r.2 ||| sat) (setSpec d r.1 f.2)) (4 + (n * lg + 7) / 8) none) s)

/-- SGET (R508, R509). -/
def execSget (d : Fin 16) (a : Fin 8) (i : Byte) (s : State) : Out :=
  .next (runInstr .se (.sget d a i) (fun s =>
    unlessFault s (faultIf ((spec s a).isSome && decide ((specD s a).length ≤ i.toNat)) 2 a ++ undefS s a) fun _ =>
      .done (setScalar .se d (BitVec.ofNat 32 (nth (specD s a) i.toNat 0)) s) 2 none) s)

/-- SPUT (R508, R509). -/
def execSput (d : Fin 8) (a : Fin 16) (i : Byte) (s : State) : Out :=
  .next (runInstr .se (.sput d a i) (fun s =>
    unlessFault s (faultIf ((spec s d).isSome && decide ((specD s d).length ≤ i.toNat)) 2 d ++ undefS s d) fun _ =>
      .done (setSpec d ((specD s d).set i.toNat (scalar s.indigo.se a).toNat) s) 2 none) s)

/-- SXS (R448, R508): stalls while the SE-to-TE queue holds two entries. -/
def execSxs (a : Fin 8) (s : State) : Out :=
  .next (runInstr .se (.sxs a) (fun s =>
    match spec s a with
    | none => .fault s 3 a
    | some l => if 2 ≤ s.indigo.st.length then .stall else .done { s with indigo.st := s.indigo.st ++ [l] } 8 none) s)

/-- SXR (R448, R510, R512): a Q15 tile as real parts; any other tile faults and stays. -/
def execSxr (d : Fin 8) (s : State) : Out :=
  .next (runInstr .se (.sxr d) (fun s =>
    match s.indigo.ts with
    | [] => .stall
    | t :: rest =>
      if t.1 ≠ 0 ∨ 256 < t.2.1 * t.2.2.1 then .fault s 2 d
      else .done (setSpec d (t.2.2.2.map fun x => x % 65536) { s with indigo.ts := rest }) 8 none) s)

end Sys2Proof.Machine
end

