-- ==== Sys2Proof/Machine/Tick.lean ====
section
/-! DEFINITION. The dispatch tick: what a waiting command's bytes spell, the order of the checks it meets, arbitration, and execution (R153, R162, R180 to R182, R408,
R532, R864, R865, R901). -/

namespace Sys2Proof.Machine

open Sys2Proof

/-! ## What a command's bytes spell -/

/-- A field of a command's parameters as a bit vector. -/
def prm (p : List Byte) (off n w : Nat) : BitVec w := BitVec.ofNat w (field p off n)

/-- The meaning of a command of the opcodes below 0x60, by its parameters (R176). -/
def meaningA (ecc : Ecc) (rq : Req) (opc : Nat) (p : List Byte) : State → Res :=
  match opc with
  | 0x00 => cmdNop
  | 0x01 => cmdGetId
  | 0x02 => cmdReadReg rq (prm p 0 2 16) (prm p 2 1 8) ecc
  | 0x03 => cmdWriteReg rq (prm p 0 2 16) (prm p 2 4 32) (prm p 6 4 32)
  | 0x04 => cmdSetMode rq (prm p 0 1 8) (prm p 1 1 8)
  | 0x05 => cmdResetMember (prm p 0 1 8)
  | 0x06 => cmdTagSync rq (prm p 0 4 32)
  | 0x07 => cmdSetBaud (prm p 0 1 8)
  | 0x10 => cmdEvtRead rq (prm p 0 1 8)
  | 0x11 => cmdEvtAck (prm p 0 1 8) (prm p 1 2 16)
  | 0x12 => cmdEvtMask rq (prm p 0 20 160)
  | 0x13 => cmdCmdResult rq (prm p 0 2 16)
  | 0x20 => cmdEnumerate rq
  | 0x21 => cmdChainStat
  | 0x30 => cmdTimeSet (prm p 0 6 48) (prm p 6 4 32)
  | 0x31 => cmdTimeGet
  | 0x40 => cmdCellRead
  | 0x41 => cmdAuxRead
  | 0x42 => cmdCurrentRead
  | 0x43 => cmdStreamOpen rq (prm p 0 1 8) (prm p 1 1 8) (prm p 2 1 8)
  | 0x44 => cmdStreamClose (prm p 0 1 8)
  | 0x50 => cmdBalSet rq (prm p 0 2 16) (prm p 2 2 16)
  | 0x51 => cmdBalStop rq (prm p 0 2 16)
  | 0x52 => cmdStimSet rq (prm p 0 2 16) (prm p 2 1 8) (prm p 3 1 8) (prm p 4 4 32) (prm p 8 2 16) (prm p 10 2 16)
  | _ => Res.of stBadOpcode

/-- The meaning of a command of the opcodes from 0x60 on (R176); a `CURRENT_LIMIT` may have lost either object (R181). -/
def meaningB (ecc : Ecc) (winC winD : Bool) (rq : Req) (opc : Nat) (p : List Byte) : State → Res :=
  match opc with
  | 0x60 => cmdKernelLoad (prm p 0 1 8) (prm p 1 2 16) (p.drop 3) true
  | 0x61 => cmdKernelCommit (prm p 0 1 8) (prm p 1 4 32)
  | 0x62 => cmdKernelLaunch rq (prm p 0 1 8) (prm p 1 1 8) (p.drop 2)
  | 0x63 => cmdKernelStop rq (prm p 0 1 8)
  | 0x64 => cmdResultRead (prm p 0 2 16) (prm p 2 2 16) ecc
  | 0x65 => cmdSweepStart rq (prm p 0 6 48) (prm p 6 4 32) (prm p 10 2 16) (prm p 12 1 8) (prm p 13 1 8) (prm p 14 1 8) (prm p 15 1 8)
  | 0x70 => cmdSportRead (prm p 0 1 8)
  | 0x71 => cmdWatchRead
  | 0x72 => cmdProofRun rq
  | 0x80 => cmdContactor rq (prm p 0 1 8) (prm p 1 1 8)
  | 0x81 => cmdCurrentLimit rq (prm p 0 2 16) (prm p 2 2 16) winC winD
  | 0x82 => cmdResetReq
  | 0x83 => cmdSafeParamWrite (prm p 0 1 8) (p.drop 1)
  | 0x84 => cmdSafeParamRead
  | 0x85 => cmdCommitSeal rq (prm p 0 4 32)
  | 0x90 => cmdMtrRead
  | 0x91 => cmdMtrRecords rq (prm p 0 1 8)
  | 0x92 => cmdMtrConfig (prm p 0 1 8)
  | 0x93 => cmdMtrPubkey
  | 0x94 => cmdMtrSwid
  | 0x95 => cmdMtrUpdate rq (prm p 0 4 32) (p.drop 4)
  | 0x98 => cmdLogRead rq (prm p 0 2 16) (prm p 2 1 8)
  | 0x99 => cmdLogFreeze (prm p 0 1 8)
  | 0xA0 => cmdFwLoad (prm p 0 4 32) (p.drop 4)
  | 0xA1 => cmdFwActivate rq (prm p 0 4 32)
  | 0xB0 => cmdBindHost rq (prm p 0 1 8) (prm p 1 1 8) (prm p 2 1 8) (prm p 3 1 8)
  | 0xB1 => cmdKeyProvision rq (prm p 0 1 8) (p.drop 1)
  | 0xC0 => cmdCfgWrite (prm p 0 2 16) (p.drop 2)
  | 0xC1 => cmdCfgCommit rq (prm p 0 4 32)
  | _ => Res.of stBadOpcode

/-- The parameter count is one that R176 gives for the opcode (R901). -/
def sizeOk (c : PCmd) : Bool :=
  match opRow c.opc with
  | some r => decide (r.lo ≤ c.params.length) && decide (c.params.length ≤ r.hi)
  | none => true

/-- A command of a size that R176 does not give draws `BAD_PARAM` at step 15, but for what an earlier step finds: step 12 for the addresses of METER and SAFETY (R864), step 14
where the seal alone decides (R672, R673, R711, R725, R838). -/
def malformed (c : PCmd) (s : State) : Res :=
  if c.opc = 0x02 ∧ c.rq.auth = .meter ∨ c.opc = 0x03 ∧ c.rq.auth = .safety then Res.of stAuthFail s
  else if (c.opc = 0x83 ∨ c.opc = 0x85) ∧ s.verm.isSealed then Res.of stSealed s
  else if c.opc = 0x92 ∧ umbTalks s ∧ s.umber.st = .sealed then Res.of stSealed s
  else if c.opc = 0x95 ∧ umbTalks s ∧ s.pins.sealN then Res.of stSealed s
  else if c.opc = 0xB0 ∧ bindSealed (field c.params 0 1) (if 4 ≤ c.params.length then field c.params 3 1 else 0xFF) s then Res.of stSealed s
  else if c.opc = 0xB1 ∧ c.params ≠ [] ∧ sealedFor [boundAuth (field c.params 0 1) s] s then Res.of stSealed s
  else Res.of stBadParam s

/-- A waiting command's meaning (R153 steps 11 to 15). -/
def meaning (ecc : Ecc) (winC winD : Bool) (c : PCmd) : State → Res :=
  if !sizeOk c then malformed c
  else if c.opc < 0x60 then meaningA ecc c.rq c.opc c.params
  else meaningB ecc winC winD c.rq c.opc c.params

/-! ## Arbitration -/

/-- The channels of a mask as objects with one state. -/
def chClaims (mask state : Nat) : List (Obj × Nat) := (ones (BitVec.ofNat 16 mask)).map fun k => (5 + k, state)

/-- The stimulus of the channels of a mask as objects of their own: a stimulus against its end. -/
def stimClaims (mask state : Nat) : List (Obj × Nat) := (ones (BitVec.ofNat 16 mask)).map fun k => (24 + k, state)

/-- The state of a channel under a stimulus, above every on-time (R408). -/
def stimState : Nat := 65536

/-- The objects a command sets and their states, of two states the safer the lower number (R87, R180, R181, R408, R467, R532, R865). -/
def claims (c : PCmd) : List (Obj × Nat) :=
  let p := c.params
  match c.opc with
  | 0x03 =>
    if field p 0 2 = 0x0010 ∧ bits (field p 2 4) 1 0 ≠ 0 then
      [(21, bits ((prm p 2 4 32) &&& (prm p 6 4 32)).toNat 1 0)]
    else []
  | 0x04 => [(21, field p 0 1)]
  | 0x50 => chClaims (field p 0 2) (field p 2 2 / 2)
  | 0x51 => chClaims (field p 0 2) 0
  | 0x52 =>
    if field p 2 1 = 0 then stimClaims (field p 0 2) 0 else chClaims (field p 0 2) stimState ++ stimClaims (field p 0 2) 1
  | 0x62 => [(22 + field p 1 1, 1)]
  | 0x63 => if field p 0 1 % 4 = 2 then [(22, 0), (23, 0)] else [(22 + field p 0 1 % 4, 0)]
  | 0x65 => chClaims (field p 10 2) stimState ++ stimClaims (field p 10 2) 1
  | 0x80 => [(field p 0 1, field p 1 1)]
  | 0x81 => [(3, field p 0 2), (4, field p 2 2)]
  | _ => []

/-- An order of the tick: its command's place, its state of an object, and its command. -/
structure Order where
  idx : Nat
  obj : Obj
  state : Nat
  cmd : PCmd

/-- The command passes steps 11 to 15 as the tick begins, and takes part in its arbitration. -/
def competes (ecc : Ecc) (c : PCmd) (s : State) : Bool :=
  !outsideGroup c.rq s && (precheck c.opc c.rq s).isNone &&
    (let st := (meaning ecc true true c s).status
     st == stOk || st == stQueued || st == stOverruled)

/-- The orders of a tick (R180). -/
def orders (ecc : Ecc) (s : State) : Nat → List PCmd → List Order
  | _, [] => []
  | i, c :: t =>
    (if competes ecc c s then (claims c).map fun x => { idx := i, obj := x.1, state := x.2, cmd := c } else []) ++ orders ecc s (i + 1) t

/-- Order a beats order b (R181): SAFETY, the safer state, OPERATOR over ENERGY, the lower host id, the later sequence number. -/
def beats (a b : Order) : Bool :=
  let safe (o : Order) : Nat := if o.cmd.rq.auth = .safety then 0 else 1
  let op (o : Order) : Nat := if o.cmd.rq.auth = .energy then 1 else 0
  let later := (a.cmd.rq.seq.toNat + 4096 - b.cmd.rq.seq.toNat) % 4096
  if safe a ≠ safe b then safe a < safe b
  else if a.state ≠ b.state then a.state < b.state
  else if op a ≠ op b then op a < op b
  else if a.cmd.rq.host ≠ b.cmd.rq.host then a.cmd.rq.host < b.cmd.rq.host
  else 1 ≤ later && later ≤ 2047

/-- The winner among the orders on one object. -/
def winner (os : List Order) : Option Order :=
  match os with
  | [] => none
  | o :: t => some (t.foldl (fun w x => if beats x w then x else w) o)

/-- A command loses on an object where the winner sets it to another state. DESIGN CHOICE (log 154): an order that loses on one of its objects still beats others on the rest, although
its command has no effect. -/
def losesOn (all : List Order) (i : Nat) (obj : Obj) : Bool :=
  match (all.find? fun o => o.idx == i && o.obj == obj), winner (all.filter fun o => o.obj == obj) with
  | some o, some w => o.state != w.state
  | _, _ => false

/-- A command loses on some object. -/
def losesAny (all : List Order) (i : Nat) : Bool := (all.filter fun o => o.idx == i).any fun o => losesOn all i o.obj

/-- The execution of the command at a place of the tick (R162, R181): a loser has no effect, and a `CURRENT_LIMIT` sets the object it won. -/
def dispatchOne (ecc : Ecc) (all : List Order) (i : Nat) (c : PCmd) (s : State) : State :=
  let f : State → Res :=
    if c.opc = 0x81 then meaning ecc (!losesOn all i 3) (!losesOn all i 4) c
    else if losesAny all i then overruled c.rq
    else meaning ecc true true c
  runCmd c.opc c.rq f s

/-- The commands of a tick, in the order in which they became dispatchable. -/
def dispatchAll (ecc : Ecc) (all : List Order) : Nat → List PCmd → State → State
  | _, [], s => s
  | i, c :: t, s => dispatchAll ecc all (i + 1) t (dispatchOne ecc all i c s)

/-- A tick may end (R162, R344): the counter has passed a multiple of 250 000 ns since the tick began; a member whose counter is not yet disciplined, `UNSET`, runs its ticks free (log
167). -/
def tickEnds (s : State) : Bool := s.time.st == .unset || tickIndex s != s.cmd.tickNo

/-- The commands that execute as the next tick begins: those of the tick that ends here, or those of one that a step has ended before (R162, R335). -/
def tickDue (s : State) : List PCmd := if s.cmd.gap then s.cmd.ended else s.cmd.tick

/-- The next tick begins (R162, R335); after a step, the commands that became dispatchable since then belong to it. -/
def beginTick (s : State) : State :=
  { s with cmd.tick := if s.cmd.gap then s.cmd.tick else [], cmd.ended := [], cmd.gap := false, cmd.tickNo := tickIndex s, cmd.tickAt := some s.clk,
           time.armedThisTick := false, sys.coreStalled := false }

/-- DISPATCH_TICK_END (R162, R163, R180 to R182, R344): the commands of the tick are arbitrated and executed; a stopped core has resumed (R46). A boundary counts once. -/
def execDispatchTickEnd (ecc : Ecc) (s : State) : Out :=
  if tickEnds s then .next (dispatchAll ecc (orders ecc (beginTick s) 0 (tickDue s)) 0 (tickDue s) (beginTick s)) else .next s

end Sys2Proof.Machine
end

