-- ==== Sys2Proof/Machine/Dispatch.lean ====
section
/-! DEFINITION. One arm per command row of `spec/opcode_table.json`: each arm is one direct call of that row's meaning. -/

namespace Sys2Proof.Machine

open Sys2Proof

def exec (i : Instr) (s : State) : Host.Outcome State Fault Refusal :=
  match i with
  | .nop rq => Sys2Proof.Machine.execNop rq s
  | .getId rq => Sys2Proof.Machine.execGetId rq s
  | .readReg rq addr count ecc => Sys2Proof.Machine.execReadReg rq addr count ecc s
  | .writeReg rq addr mask value => Sys2Proof.Machine.execWriteReg rq addr mask value s
  | .setMode rq mode key => Sys2Proof.Machine.execSetMode rq mode key s
  | .resetMember rq key => Sys2Proof.Machine.execResetMember rq key s
  | .tagSync rq nonce => Sys2Proof.Machine.execTagSync rq nonce s
  | .setBaud rq code => Sys2Proof.Machine.execSetBaud rq code s
  | .baudChange => Sys2Proof.Machine.execBaudChange s
  | .evtRead rq max => Sys2Proof.Machine.execEvtRead rq max s
  | .evtAck rq src seq => Sys2Proof.Machine.execEvtAck rq src seq s
  | .evtMask rq mask => Sys2Proof.Machine.execEvtMask rq mask s
  | .cmdResult rq seq => Sys2Proof.Machine.execCmdResult rq seq s
  | .enumerate rq => Sys2Proof.Machine.execEnumerate rq s
  | .chainStat rq => Sys2Proof.Machine.execChainStat rq s
  | .timeSet rq sec ns => Sys2Proof.Machine.execTimeSet rq sec ns s
  | .timeGet rq => Sys2Proof.Machine.execTimeGet rq s
  | .cellRead rq => Sys2Proof.Machine.execCellRead rq s
  | .auxRead rq => Sys2Proof.Machine.execAuxRead rq s
  | .currentRead rq => Sys2Proof.Machine.execCurrentRead rq s
  | .streamOpen rq stream rate slots => Sys2Proof.Machine.execStreamOpen rq stream rate slots s
  | .streamClose rq stream => Sys2Proof.Machine.execStreamClose rq stream s
  | .balSet rq mask onTime => Sys2Proof.Machine.execBalSet rq mask onTime s
  | .balStop rq mask => Sys2Proof.Machine.execBalStop rq mask s
  | .stimSet rq mask wave dur freq bias amp => Sys2Proof.Machine.execStimSet rq mask wave dur freq bias amp s
  | .kernelLoad rq slot offset code written => Sys2Proof.Machine.execKernelLoad rq slot offset code written s
  | .kernelCommit rq slot crc => Sys2Proof.Machine.execKernelCommit rq slot crc s
  | .kernelLaunch rq slot engine args => Sys2Proof.Machine.execKernelLaunch rq slot engine args s
  | .codeCopyDone e => Sys2Proof.Machine.execCodeCopyDone e s
  | .kernelStop rq engine => Sys2Proof.Machine.execKernelStop rq engine s
  | .resultRead rq offset count ecc => Sys2Proof.Machine.execResultRead rq offset count ecc s
  | .sweepStart rq sec ns mask amp imax imin step => Sys2Proof.Machine.execSweepStart rq sec ns mask amp imax imin step s
  | .sportRead rq port => Sys2Proof.Machine.execSportRead rq port s
  | .watchRead rq => Sys2Proof.Machine.execWatchRead rq s
  | .proofRun rq => Sys2Proof.Machine.execProofRun rq s
  | .contactor rq output state => Sys2Proof.Machine.execContactor rq output state s
  | .currentLimit rq charge discharge => Sys2Proof.Machine.execCurrentLimit rq charge discharge s
  | .resetReq rq => Sys2Proof.Machine.execResetReq rq s
  | .safeParamWrite rq offset bytes => Sys2Proof.Machine.execSafeParamWrite rq offset bytes s
  | .safeParamRead rq => Sys2Proof.Machine.execSafeParamRead rq s
  | .commitSeal rq mordant => Sys2Proof.Machine.execCommitSeal rq mordant s
  | .mtrRead rq => Sys2Proof.Machine.execMtrRead rq s
  | .mtrRecords rq slots => Sys2Proof.Machine.execMtrRecords rq slots s
  | .mtrConfig rq interval => Sys2Proof.Machine.execMtrConfig rq interval s
  | .mtrPubkey rq => Sys2Proof.Machine.execMtrPubkey rq s
  | .mtrSwid rq => Sys2Proof.Machine.execMtrSwid rq s
  | .mtrUpdate rq offset image => Sys2Proof.Machine.execMtrUpdate rq offset image s
  | .meterUpdateDone => Sys2Proof.Machine.execMeterUpdateDone s
  | .logRead rq cursor count => Sys2Proof.Machine.execLogRead rq cursor count s
  | .logFreeze rq seconds => Sys2Proof.Machine.execLogFreeze rq seconds s
  | .fwLoad rq offset image => Sys2Proof.Machine.execFwLoad rq offset image s
  | .fwActivate rq crc => Sys2Proof.Machine.execFwActivate rq crc s
  | .fwCheckDone => Sys2Proof.Machine.execFwCheckDone s
  | .fwRestart => Sys2Proof.Machine.execFwRestart s
  | .trialBootFail => Sys2Proof.Machine.execTrialBootFail s
  | .fwPartialTimeout => Sys2Proof.Machine.execFwPartialTimeout s
  | .bindHost rq host position port authority => Sys2Proof.Machine.execBindHost rq host position port authority s
  | .keyProvision rq host key => Sys2Proof.Machine.execKeyProvision rq host key s
  | .cfgWrite rq offset bytes => Sys2Proof.Machine.execCfgWrite rq offset bytes s
  | .cfgCommit rq crc => Sys2Proof.Machine.execCfgCommit rq crc s
  | .cfgCheckDone writeOk => Sys2Proof.Machine.execCfgCheckDone writeOk s
  | .sealCheckDone writeOk => Sys2Proof.Machine.execSealCheckDone writeOk s
  | .modeReq rq mode shipKey => Sys2Proof.Machine.execModeReq rq mode shipKey s
  | .owStart => Sys2Proof.Machine.execOwStart s
  | .owPeriodic => Sys2Proof.Machine.execOwPeriodic s
  | .start n => Sys2Proof.Machine.execStart n s
  | .chkEnd n => Sys2Proof.Machine.execChkEnd n s
  | .abort n => Sys2Proof.Machine.execAbort n s
  | .suspend n => Sys2Proof.Machine.execSuspend n s
  | .resume n => Sys2Proof.Machine.execResume n s
  | .data n w => Sys2Proof.Machine.execData n w s
  | .exp n w => Sys2Proof.Machine.execExp n w s
  | .contextRestore n ctx1 => Sys2Proof.Machine.execContextRestore n ctx1 s
  | .chkJobEnd n => Sys2Proof.Machine.execChkJobEnd n s
  | .chkAlvResync mask => Sys2Proof.Machine.execChkAlvResync mask s
  | .portClr north south => Sys2Proof.Machine.execPortClr north south s
  | .balDiagClr mask => Sys2Proof.Machine.execBalDiagClr mask s
  | .alarmClr rq key => Sys2Proof.Machine.execAlarmClr rq key s
  | .unseal rq key => Sys2Proof.Machine.execUnseal rq key s
  | .logCursorSet code => Sys2Proof.Machine.execLogCursorSet code s
  | .logWinRead => Sys2Proof.Machine.execLogWinRead s
  | .timeNsRead => Sys2Proof.Machine.execTimeNsRead s
  | .cellDataLatch => Sys2Proof.Machine.execCellDataLatch s
  | .auxDataLatch => Sys2Proof.Machine.execAuxDataLatch s
  | .isnsDataLatch => Sys2Proof.Machine.execIsnsDataLatch s
  | .rpWrite aux value => Sys2Proof.Machine.execRpWrite aux value s
  | .sportCfgWrite port value => Sys2Proof.Machine.execSportCfgWrite port value s
  | .windowWrite addr mask value => Sys2Proof.Machine.execWindowWrite addr mask value s
  | .spiTransaction sdi => Sys2Proof.Machine.execSpiTransaction sdi s
  | .uartFrame rxd => Sys2Proof.Machine.execUartFrame rxd s
  | .breakStuck => Sys2Proof.Machine.execBreakStuck s
  | .breakRelease => Sys2Proof.Machine.execBreakRelease s
  | .lockoutExpiry h => Sys2Proof.Machine.execLockoutExpiry h s
  | .commandDispatchable => Sys2Proof.Machine.execCommandDispatchable s
  | .dispatchTickEnd ecc => Sys2Proof.Machine.execDispatchTickEnd ecc s
  | .noReply p seq => Sys2Proof.Machine.execNoReply p seq s
  | .groupReplyTimeout p seq => Sys2Proof.Machine.execGroupReplyTimeout p seq s
  | .powerOnReset => Sys2Proof.Machine.execPowerOnReset s
  | .powerUp boot => Sys2Proof.Machine.execPowerUp boot s
  | .bootComplete => Sys2Proof.Machine.execBootComplete s
  | .rstNPulse lowUs => Sys2Proof.Machine.execRstNPulse lowUs s
  | .memberReset => Sys2Proof.Machine.execMemberReset s
  | .vstkLowSet => Sys2Proof.Machine.execVstkLowSet s
  | .vstkLowClear => Sys2Proof.Machine.execVstkLowClear s
  | .railFault vregBad vdd33Bad => Sys2Proof.Machine.execRailFault vregBad vdd33Bad s
  | .vddioChange present => Sys2Proof.Machine.execVddioChange present s
  | .supplyUpdate vstk10mV vspMV => Sys2Proof.Machine.execSupplyUpdate vstk10mV vspMV s
  | .xtalTaken => Sys2Proof.Machine.execXtalTaken s
  | .xtalStop => Sys2Proof.Machine.execXtalStop s
  | .clockCheck dev mosc => Sys2Proof.Machine.execClockCheck dev mosc s
  | .strobeTimeout => Sys2Proof.Machine.execStrobeTimeout s
  | .coreStall => Sys2Proof.Machine.execCoreStall s
  | .crossingMessage src dst cls bytes => Sys2Proof.Machine.execCrossingMessage src dst cls bytes s
  | .fabricStall cls wait100ns => Sys2Proof.Machine.execFabricStall cls wait100ns s
  | .idleEntry => Sys2Proof.Machine.execIdleEntry s
  | .modeEntry => Sys2Proof.Machine.execModeEntry s
  | .sentinelWake cellUV auxUV vtrefUV dieTenths => Sys2Proof.Machine.execSentinelWake cellUV auxUV vtrefUV dieTenths s
  | .sentinelBurst vspOk => Sys2Proof.Machine.execSentinelBurst vspOk s
  | .wakePin highUs => Sys2Proof.Machine.execWakePin highUs s
  | .hostWakeEdge p => Sys2Proof.Machine.execHostWakeEdge p s
  | .wakeTone sd => Sys2Proof.Machine.execWakeTone sd s
  | .wakeToneRepeat sd => Sys2Proof.Machine.execWakeToneRepeat sd s
  | .wakeComplete => Sys2Proof.Machine.execWakeComplete s
  | .frameTransmit sd frac => Sys2Proof.Machine.execFrameTransmit sd frac s
  | .transitFrame sd f lq => Sys2Proof.Machine.execTransitFrame sd f lq s
  | .collision sd => Sys2Proof.Machine.execCollision sd s
  | .creditFrame sd f lq => Sys2Proof.Machine.execCreditFrame sd f lq s
  | .creditFrameSend sd => Sys2Proof.Machine.execCreditFrameSend sd s
  | .linkUp sd f lq => Sys2Proof.Machine.execLinkUp sd f lq s
  | .linkUpResend sd => Sys2Proof.Machine.execLinkUpResend sd s
  | .linkDead sd => Sys2Proof.Machine.execLinkDead sd s
  | .breakHealed sd => Sys2Proof.Machine.execBreakHealed sd s
  | .breakFrame sd f lq => Sys2Proof.Machine.execBreakFrame sd f lq s
  | .enumFrame sd f lq => Sys2Proof.Machine.execEnumFrame sd f lq s
  | .enumTopTimeout => Sys2Proof.Machine.execEnumTopTimeout s
  | .enumEnd sd f lq => Sys2Proof.Machine.execEnumEnd sd f lq s
  | .enumRetry => Sys2Proof.Machine.execEnumRetry s
  | .enumDone sd f lq => Sys2Proof.Machine.execEnumDone sd f lq s
  | .ack sd f lq => Sys2Proof.Machine.execAck sd f lq s
  | .ackTimer orig multi cls twin => Sys2Proof.Machine.execAckTimer orig multi cls twin s
  | .nakRepeat orig multi cls twin => Sys2Proof.Machine.execNakRepeat orig multi cls twin s
  | .retransmit dest multi cls twin => Sys2Proof.Machine.execRetransmit dest multi cls twin s
  | .voidFrame sd f lq => Sys2Proof.Machine.execVoidFrame sd f lq s
  | .alarmResend sd => Sys2Proof.Machine.execAlarmResend sd s
  | .commandFrame sd f lq => Sys2Proof.Machine.execCommandFrame sd f lq s
  | .responseFrame sd f lq => Sys2Proof.Machine.execResponseFrame sd f lq s
  | .eventFrame sd f lq => Sys2Proof.Machine.execEventFrame sd f lq s
  | .eventFrameSend dest => Sys2Proof.Machine.execEventFrameSend dest s
  | .safetyFrame sd f lq => Sys2Proof.Machine.execSafetyFrame sd f lq s
  | .twinWindow peer => Sys2Proof.Machine.execTwinWindow peer s
  | .metro sd f lq => Sys2Proof.Machine.execMetro sd f lq s
  | .dataFrame sd f lq => Sys2Proof.Machine.execDataFrame sd f lq s
  | .hopTimeout sd => Sys2Proof.Machine.execHopTimeout sd s
  | .hbInDecode pat => Sys2Proof.Machine.execHbInDecode pat s
  | .syncInEdge frac highNs => Sys2Proof.Machine.execSyncInEdge frac highNs s
  | .timeSetExpiry => Sys2Proof.Machine.execTimeSetExpiry s
  | .anchorHoldover => Sys2Proof.Machine.execAnchorHoldover s
  | .beaconSend => Sys2Proof.Machine.execBeaconSend s
  | .beacon sd f lq frac residence => Sys2Proof.Machine.execBeacon sd f lq frac residence s
  | .beaconTimeout => Sys2Proof.Machine.execBeaconTimeout s
  | .delayMeasure sd => Sys2Proof.Machine.execDelayMeasure sd s
  | .delayReq sd f lq frac => Sys2Proof.Machine.execDelayReq sd f lq frac s
  | .delayResp sd f lq frac => Sys2Proof.Machine.execDelayResp sd f lq frac s
  | .holdoverLimit => Sys2Proof.Machine.execHoldoverLimit s
  | .timeLabel => Sys2Proof.Machine.execTimeLabel s
  | .cellSample ins => Sys2Proof.Machine.execCellSample ins s
  | .limitSample ins => Sys2Proof.Machine.execLimitSample ins s
  | .limitReport => Sys2Proof.Machine.execLimitReport s
  | .clampTrip pin => Sys2Proof.Machine.execClampTrip pin s
  | .clampRelease pin => Sys2Proof.Machine.execClampRelease pin s
  | .sumCheck => Sys2Proof.Machine.execSumCheck s
  | .auxSample auxUV vtrefUV => Sys2Proof.Machine.execAuxSample auxUV vtrefUV s
  | .vtrefFault => Sys2Proof.Machine.execVtrefFault s
  | .currentSample shuntNV => Sys2Proof.Machine.execCurrentSample shuntNV s
  | .hardLimitTimer => Sys2Proof.Machine.execHardLimitTimer s
  | .currentReport => Sys2Proof.Machine.execCurrentReport s
  | .remoteStale => Sys2Proof.Machine.execRemoteStale s
  | .modulatorStuck m => Sys2Proof.Machine.execModulatorStuck m s
  | .hostStreamFlush stream => Sys2Proof.Machine.execHostStreamFlush stream s
  | .balPeriod meas => Sys2Proof.Machine.execBalPeriod meas s
  | .balTimeout => Sys2Proof.Machine.execBalTimeout s
  | .loadCheck startUV endUV gateOnMV gateOffMV => Sys2Proof.Machine.execLoadCheck startUV endUV gateOnMV gateOffMV s
  | .diagAgeExpiry ch => Sys2Proof.Machine.execDiagAgeExpiry ch s
  | .stimStart => Sys2Proof.Machine.execStimStart s
  | .stimEnd => Sys2Proof.Machine.execStimEnd s
  | .kernelTrigger e => Sys2Proof.Machine.execKernelTrigger e s
  | .watchdog e => Sys2Proof.Machine.execWatchdog e s
  | .kernelNop e => Sys2Proof.Machine.execKernelNop e s
  | .li e d k => Sys2Proof.Machine.execLi e d k s
  | .lih e d k => Sys2Proof.Machine.execLih e d k s
  | .addi e d a k => Sys2Proof.Machine.execAddi e d a k s
  | .sop e d a b op => Sys2Proof.Machine.execSop e d a b op s
  | .lds e d a k ecc => Sys2Proof.Machine.execLds e d a k ecc s
  | .sts e d a k => Sys2Proof.Machine.execSts e d a k s
  | .br e cond a b target => Sys2Proof.Machine.execBr e cond a b target s
  | .loopr e a last => Sys2Proof.Machine.execLoopr e a last s
  | .loopi e count last => Sys2Proof.Machine.execLoopi e count last s
  | .endKernel e a => Sys2Proof.Machine.execEndKernel e a s
  | .stw e d a clear => Sys2Proof.Machine.execStw e d a clear s
  | .ring e d a write aux => Sys2Proof.Machine.execRing e d a write aux s
  | .tshp d p => Sys2Proof.Machine.execTshp d p s
  | .tld d a b p ecc => Sys2Proof.Machine.execTld d a b p ecc s
  | .tst d a b => Sys2Proof.Machine.execTst d a b s
  | .tew d a b op => Sys2Proof.Machine.execTew d a b op s
  | .tews d a c op => Sys2Proof.Machine.execTews d a c op s
  | .tmm d a b op => Sys2Proof.Machine.execTmm d a b op s
  | .ttr d a => Sys2Proof.Machine.execTtr d a s
  | .tcvt d a ty exponent => Sys2Proof.Machine.execTcvt d a ty exponent s
  | .tred d a op => Sys2Proof.Machine.execTred d a op s
  | .tmov d a => Sys2Proof.Machine.execTmov d a s
  | .tget d a row col => Sys2Proof.Machine.execTget d a row col s
  | .tput d a row col => Sys2Proof.Machine.execTput d a row col s
  | .tunpk d a c op => Sys2Proof.Machine.execTunpk d a c op s
  | .txs a => Sys2Proof.Machine.execTxs a s
  | .txr d => Sys2Proof.Machine.execTxr d s
  | .sshp d len => Sys2Proof.Machine.execSshp d len s
  | .sld d a len ecc => Sys2Proof.Machine.execSld d a len ecc s
  | .sst d a => Sys2Proof.Machine.execSst d a s
  | .sew d a b op => Sys2Proof.Machine.execSew d a b op s
  | .sscl d a c => Sys2Proof.Machine.execSscl d a c s
  | .sdot d a b h => Sys2Proof.Machine.execSdot d a b h s
  | .sfft d a inverse => Sys2Proof.Machine.execSfft d a inverse s
  | .sget d a idx => Sys2Proof.Machine.execSget d a idx s
  | .sput d a idx => Sys2Proof.Machine.execSput d a idx s
  | .sxs a => Sys2Proof.Machine.execSxs a s
  | .sxr d => Sys2Proof.Machine.execSxr d s
  | .sweepPass => Sys2Proof.Machine.execSweepPass s
  | .sweepEnd => Sys2Proof.Machine.execSweepEnd s
  | .modelFitLaunch => Sys2Proof.Machine.execModelFitLaunch s
  | .impedanceReport => Sys2Proof.Machine.execImpedanceReport s
  | .dieMeasure tenths => Sys2Proof.Machine.execDieMeasure tenths s
  | .comparatorTrip => Sys2Proof.Machine.execComparatorTrip s
  | .throttleStepTimer pack => Sys2Proof.Machine.execThrottleStepTimer pack s
  | .dieSensorFault hard => Sys2Proof.Machine.execDieSensorFault hard s
  | .umberTempRead tenths => Sys2Proof.Machine.execUmberTempRead tenths s
  | .rorEval => Sys2Proof.Machine.execRorEval s
  | .thermalReport => Sys2Proof.Machine.execThermalReport s
  | .sentFrame port cal10ns pulses10ns pause10ns => Sys2Proof.Machine.execSentFrame port cal10ns pulses10ns pause10ns s
  | .serialMessage port fmt ident value crcOk => Sys2Proof.Machine.execSerialMessage port fmt ident value crcOk s
  | .sportReport port => Sys2Proof.Machine.execSportReport port s
  | .sportStale port => Sys2Proof.Machine.execSportStale port s
  | .lineLow port => Sys2Proof.Machine.execLineLow port s
  | .lineRetry port => Sys2Proof.Machine.execLineRetry port s
  | .vspAbsent => Sys2Proof.Machine.execVspAbsent s
  | .satTestTimeout port => Sys2Proof.Machine.execSatTestTimeout port s
  | .watchEval => Sys2Proof.Machine.execWatchEval s
  | .alarmDeferredActions => Sys2Proof.Machine.execAlarmDeferredActions s
  | .criteriaStale => Sys2Proof.Machine.execCriteriaStale s
  | .criterionUnavailable c => Sys2Proof.Machine.execCriterionUnavailable c s
  | .zoneShareSend => Sys2Proof.Machine.execZoneShareSend s
  | .zoneShareStale peer => Sys2Proof.Machine.execZoneShareStale peer s
  | .gasLearnEnd port => Sys2Proof.Machine.execGasLearnEnd port s
  | .gasBaselineUpdate port => Sys2Proof.Machine.execGasBaselineUpdate port s
  | .impedanceBaseline => Sys2Proof.Machine.execImpedanceBaseline s
  | .watchReport => Sys2Proof.Machine.execWatchReport s
  | .proofDue => Sys2Proof.Machine.execProofDue s
  | .proofStart meas => Sys2Proof.Machine.execProofStart meas s
  | .proofComplete => Sys2Proof.Machine.execProofComplete s
  | .proofOverdue => Sys2Proof.Machine.execProofOverdue s
  | .inputChange k chB high samples => Sys2Proof.Machine.execInputChange k chB high samples s
  | .testPulse b levels => Sys2Proof.Machine.execTestPulse b levels s
  | .discrepancy k => Sys2Proof.Machine.execDiscrepancy k s
  | .rampDone o => Sys2Proof.Machine.execRampDone o s
  | .pullinDone o => Sys2Proof.Machine.execPullinDone o s
  | .offPulse o mV => Sys2Proof.Machine.execOffPulse o mV s
  | .outputShort o => Sys2Proof.Machine.execOutputShort o s
  | .stuckOn o => Sys2Proof.Machine.execStuckOn o s
  | .openLoad o => Sys2Proof.Machine.execOpenLoad o s
  | .vcoilLow coil10mV => Sys2Proof.Machine.execVcoilLow coil10mV s
  | .preMaxTimeout => Sys2Proof.Machine.execPreMaxTimeout s
  | .stateFrameSend => Sys2Proof.Machine.execStateFrameSend s
  | .peerLost peer => Sys2Proof.Machine.execPeerLost peer s
  | .aliveTimeout ch => Sys2Proof.Machine.execAliveTimeout ch s
  | .safetyMessage ch alive bytes crc => Sys2Proof.Machine.execSafetyMessage ch alive bytes crc s
  | .classBEscalate cause => Sys2Proof.Machine.execClassBEscalate cause s
  | .classBTimerSave => Sys2Proof.Machine.execClassBTimerSave s
  | .resetArmExpiry => Sys2Proof.Machine.execResetArmExpiry s
  | .resetPulse highMs => Sys2Proof.Machine.execResetPulse highMs s
  | .umberSample shuntNV uhvUV => Sys2Proof.Machine.execUmberSample shuntNV uhvUV s
  | .intervalClose => Sys2Proof.Machine.execIntervalClose s
  | .umberSave => Sys2Proof.Machine.execUmberSave s
  | .umberSupplyLoss => Sys2Proof.Machine.execUmberSupplyLoss s
  | .umberPowerUp sealPin swid => Sys2Proof.Machine.execUmberPowerUp sealPin swid s
  | .swidCheck swid => Sys2Proof.Machine.execSwidCheck swid s
  | .sealNFall => Sys2Proof.Machine.execSealNFall s
  | .sealNRise => Sys2Proof.Machine.execSealNRise s
  | .inwardDiscard => Sys2Proof.Machine.execInwardDiscard s
  | .recordRequest h => Sys2Proof.Machine.execRecordRequest h s
  | .recordReturned h => Sys2Proof.Machine.execRecordReturned h s
  | .mirrorRefresh => Sys2Proof.Machine.execMirrorRefresh s
  | .linkDown => Sys2Proof.Machine.execLinkDown s
  | .logWrite verify => Sys2Proof.Machine.execLogWrite verify s
  | .logMemoryTimeout => Sys2Proof.Machine.execLogMemoryTimeout s
  | .shadowUpdate src => Sys2Proof.Machine.execShadowUpdate src s
  | .logRateRefill => Sys2Proof.Machine.execLogRateRefill s
  | .freezeEnd => Sys2Proof.Machine.execFreezeEnd s
  | .operatingMinute => Sys2Proof.Machine.execOperatingMinute s
  | .interDieLinkUp => Sys2Proof.Machine.execInterDieLinkUp s
  | .vtrefWithinLimits => Sys2Proof.Machine.execVtrefWithinLimits s
  | .sdCntExpiry => Sys2Proof.Machine.execSdCntExpiry s
  | .offCntExpiry sd => Sys2Proof.Machine.execOffCntExpiry sd s
  | .twinCauseEnd => Sys2Proof.Machine.execTwinCauseEnd s
  | .classBTimerReset cause => Sys2Proof.Machine.execClassBTimerReset cause s
  | .linePowerRestore port stillLow => Sys2Proof.Machine.execLinePowerRestore port stillLow s
  | .burstEnd port => Sys2Proof.Machine.execBurstEnd port s
  | .vspRestored => Sys2Proof.Machine.execVspRestored s
  | .undefinedEncoding e w => Sys2Proof.Machine.execUndefinedEncoding e w s

end Sys2Proof.Machine
end

