-- ==== Sys2Proof/Machine/Step.lean ====
section
/-! DEFINITION. One step of the machine: the command at the front of the queue is taken and executed with the queue's rest; on an empty
queue one step of the local clock passes (log 2). -/

namespace Sys2Proof.Machine

open Sys2Proof

/-- One step: next, fault or refusal. -/
def step (s : State) : Host.Outcome State Fault Refusal :=
  match s.pending with
  | [] => .next (clockTick s)
  | c :: rest => exec c { s with pending := rest }

/-- The state with the command that a word spells put at the front of the queue; no row of the command table gives bits, so every word leaves
the state as it is (log 1). -/
def State.withFetchWord (s : State) (nbits w : Nat) : State :=
  match decodeTableWord nbits w with
  | some c => { s with pending := c :: s.pending }
  | none => s

end Sys2Proof.Machine
end

