-- ==== Sys2Proof/Safety.lean ====
section
/-! DEFINITION. What the claims about whole runs speak of: the state a step starts from, and the facts that every step keeps. -/

namespace Sys2Proof.Machine

open Sys2Proof

/-- The stored words of the registers with RW fields, each with the bits that R876's tables call RW. -/
def storedWords (r : Regs) : List (Word × Word) :=
  [(r.pwrCtrl, 0x007FFF04), (r.fabCfg, 0xF), (r.hostCfg, 0xFF37), (r.chainCfg, 0x000FFF03), (r.timeCfg, 0x01FFFF01), (r.cellCfg, 0x00FFFFF7),
   (r.owCfg, 0xFFFF), (r.cellRbCfg, 0x03FFFFFF), (r.auxCfg, 0xFF), (r.auxRbCfg, 0x03FFFFFF), (r.balCfg, 0xFFFFFF03), (r.indigoCfg, 0x1FFFF), (r.indigoWin, 1), (r.ctxTe, 0xFFFF), (r.ctxSe, 0xFFFF),
   (r.trigTe, 0xFFFFFF03), (r.trigSe, 0xFFFFFF03), (r.swpCfg, 0xFFFF), (r.sp1Cfg, 0x03FFFF77), (r.sp2Cfg, 0x03FFFF77), (r.alvCfg, 0xF),
   (r.evtCfg, 1), (r.evtRsel, 0xFF)]

/-- No stored register word has a bit outside its RW fields (R16 to R18, R863): a reserved bit reads 0 whatever was written. -/
def RegsLegal (s : State) : Prop := ∀ p ∈ storedWords s.regs, p.1 &&& ~~~p.2 = 0

/-- The bits of the severity-3 sources (R805, R812). -/
def severeBits : BitVec 160 := (List.range 160).foldl (fun m i => if severity i = 3 then setBit m i true else m) 0

/-- There are four host masks, and none hides a severity-3 source (R805). -/
def MasksLegal (s : State) : Prop := s.evt.masks.length = 4 ∧ ∀ m ∈ s.evt.masks, m &&& severeBits = severeBits

/-- The invariant of a run. -/
def Inv (s : State) : Prop := RegsLegal s ∧ MasksLegal s

/-! ## What the statements about single commands speak of -/

/-- A command that its executing member takes up: it is not for a group the member is outside of, and the checks of steps 11 to 13 pass. -/
def Taken (opc : Nat) (rq : Req) (s : State) : Prop := outsideGroup rq s = false ∧ precheck opc rq s = none

/-- The answer to a command with a status and data, sent from a state. -/
def answered (rq : Req) (status : Nat) (data : List Byte) (s : State) : State := respond rq false false { st := s, status := status, data := data }

/-- An accepted order of a power mode withdraws a waiting one, and stands as the mode's last order (R66, R67, R182). -/
def modeOrdered (rq : Req) (s : State) : State := noteOrder rq [21] { s with sys.pendingMode := none, sys.idleReq := false }

/-- A frame other than a beacon or a time frame, as read from the line, that passes the checks of its hop. -/
def Arrives (sd : Side) (f : Frame) (lq : LineQ) (s : State) : Prop :=
  (hopIn sd (arrived f lq).1 (arrived f lq).2 s).2 = true ∧ (arrived f lq).1.cls ≠ 7 ∧ (arrived f lq).1.kind ≠ 7

/-- The state after the checks of a frame's hop. -/
def hopState (sd : Side) (f : Frame) (lq : LineQ) (s : State) : State := (hopIn sd (arrived f lq).1 (arrived f lq).2 s).1

/-- A frame addressed to this member's position. -/
def IsFor (f : Frame) (s : State) : Prop := s.chain.addr = true ∧ f.dest = s.chain.pos ∧ f.dest ≠ 0xFC

/-- A frame of classes 0 to 5 for this member judged by its stream: the state after it, and whether it is accepted. -/
def streamIn (sd : Side) (f : Frame) (s : State) : State × Bool := acceptStream sd false f (leaveIdle 4 (freeNow sd f s))

/-- The engine's next word spells the instruction, and its cycles leave the count below the budget. -/
def Issued (e : Engine) (i : IInstr) (cost : Nat) (s : State) : Prop := issues e i s = true ∧ (eng s e).cycles + cost < (eng s e).budget

/-- A tile written with its elements' words, and the flags of all of them joined to the status word. -/
def tileResult (d ty rows cols : Nat) (l : List (Nat × Flags)) (s : State) : State :=
  addFlags .te (joinFlags l).2 (setTile d { ty := ty, rows := rows, cols := cols, elems := (joinFlags l).1 } s)

/-- A vector written with its elements' words, and the flags of all of them joined to the status word. -/
def vectorResult (d : Nat) (l : List (Nat × Flags)) (s : State) : State := addFlags .se (joinFlags l).2 (setSpec d (joinFlags l).1 s)

/-- The type of a matrix product. -/
def productTy (op : Nat) (x : Tile) : Nat := if op = 0 then x.ty else tyWide x.ty

/-- The tiles a matrix product reads, in order. -/
def productReads (op d a b : Nat) : List Nat := if op = 2 then [a, b, d] else [a, b]

/-- One element of a matrix product, by its index; an accumulating product starts from the destination's element. -/
def productElem (op : Nat) (x y z : Tile) (i : Nat) : Nat × Flags :=
  let pairs := (List.range x.cols).map fun j => (nth x.elems (i / y.cols * x.cols + j) 0, nth y.elems (j * y.cols + i % y.cols) 0)
  let old := if op = 2 then some (nth z.elems i 0) else none
  if x.ty < 2 then mmFixed x.ty (productTy op x) old pairs else mmFloat x.ty (productTy op x) old pairs

/-- The correlation of pairs of elements in two registers: the sum of each element with the conjugate of its partner, shifted right by h. -/
def correlated (d h : Nat) (z : List (Nat × Nat)) (s : State) : State :=
  let x := qWrite 1 (roundHalfEven (2 * (z.map fun p => cRe p.1 * cRe p.2 + cIm p.1 * cIm p.2).foldl (· + ·) 0) (2 ^ h))
  let y := qWrite 1 (roundHalfEven (2 * (z.map fun p => cIm p.1 * cRe p.2 - cRe p.1 * cIm p.2).foldl (· + ·) 0) (2 ^ h))
  addFlags .se (x.2 ||| y.2) (setScalar .se (d + 1) (BitVec.ofNat 32 y.1) (setScalar .se d (BitVec.ofNat 32 x.1) s))

/-- A trigger that is due: its time has come in mode 2, or its field N's entries (0 acting as 1) are written in mode 1; the member measures, and the engines have
power (R461, R471, R486). -/
def Triggered (e : Engine) (s : State) : Prop :=
  (rf (trigReg s e) 1 0 = 2 ∨ (rf (trigReg s e) 1 0 = 1 ∧ max 1 (rf (trigReg s e) 31 16) ≤ (match e with | .te => s.cell.trigCount.1 | .se => s.cell.trigCount.2))) ∧
    measuring s = true ∧ s.indigo.off = false

/-- A trigger counted: its engine's number goes up, and the entries it waited for are taken from its count (R461). -/
def triggerCounted (e : Engine) (s : State) : State :=
  match e with
  | .te => { s with cell.trigCount := (s.cell.trigCount.1 - max 1 (rf s.regs.trigTe 31 16), s.cell.trigCount.2), indigo.te.trigN := (s.indigo.te.trigN + 1) % 2 ^ 32 }
  | .se => { s with cell.trigCount := (s.cell.trigCount.1, s.cell.trigCount.2 - max 1 (rf s.regs.trigSe 31 16)), indigo.se.trigN := (s.indigo.se.trigN + 1) % 2 ^ 32 }

/-- The kernel a trigger names is committed, of its engine, and one that triggers may launch (R461). -/
def triggerLaunches (e : Engine) (s : State) : Bool :=
  let slot := rf (trigReg s e) 15 8
  committed s slot && slot != 0x81 && slot != 0x82 && (slot != 0x80 || rf (trigReg s e) 1 0 == 1) && imageEngine s slot == engCode e

/-- The arguments of a triggered kernel: the two rings' write pointers and the trigger's number (R461). -/
def triggerArgs (e : Engine) (s : State) : List Word :=
  [BitVec.ofNat 32 s.cell.cellRing.wp, BitVec.ofNat 32 s.cell.auxRing.wp, BitVec.ofNat 32 ((eng s e).trigN + 1), 0]

/-- A cell's reading of a sample: its result in µV, its range bits, and what its converter remembers. -/
def readingOf (ins : List CellIn) (recs : List (Nat × Bool)) (k : Nat) : Int × Nat × Nat × Bool :=
  rangeOf (nth ins k { uV := 0, ovr := false, und := false }) (nth recs k (0, false))

/-- The results of a main sample: every channel's value and flags byte, the sample's instant, and what the converters remember. -/
def mainResults (ins : List CellIn) (s : State) : State :=
  { s with
    cell.mainRec := (List.range 16).map fun k => (readingOf ins s.cell.mainRec k).2.2, cell.mainSus := s.cell.mainSus.map (· - 1), cell.mainClampSeen := s.cell.clamp,
    cell.mainBal := 0, cell.mainAt := s.clk, cell.tstep := tstepLeft false s.cell.tstep, cell.value := (List.range 16).map fun k => (readingOf ins s.cell.mainRec k).1,
    cell.flags := (List.range 16).map fun k => BitVec.ofNat 8 ((readingOf ins s.cell.mainRec k).2.1 +
      sampleFlags s.cell.mainClampSeen (countPins s.cell.mainSus) s.cell.openPins (s.cell.ow.isSome || proofPhase s 10 31) (s.cell.tstep == 1)
        (heldAt (instantClk (rateOf (cellRate s)) s) s) ((balOn s.cell.mainBal s.cell.mainAt s).getLsbD k) k),
    cell.instant := gridInstant (rateOf (cellRate s)) s }

/-- A channel's flags of a limit sample. -/
def limitFlag (ins : List CellIn) (s : State) (k : Nat) : Nat :=
  (readingOf ins s.cell.limRec k).2.1 +
    sampleFlags s.cell.limClampSeen (countPins s.cell.limSus) s.cell.openPins (s.cell.ow.isSome || proofPhase s 10 31) (s.cell.tstepLim == 1)
      (heldAt (instantClk 1000 s) s) ((balOn s.cell.limBal s.cell.limAt s).getLsbD k) k

/-- The results of a limit sample: every channel's value and flags byte, and what the converters remember. -/
def limitResults (ins : List CellIn) (s : State) : State :=
  { s with
    cell.limRec := (List.range 16).map fun k => (readingOf ins s.cell.limRec k).2.2, cell.limSus := s.cell.limSus.map (· - 1), cell.limClampSeen := s.cell.clamp,
    cell.limBal := 0, cell.limAt := s.clk, cell.tstepLim := tstepLeft false s.cell.tstepLim, cell.mainBal := s.cell.mainBal ||| sinks s,
    cell.limVal := (List.range 16).map fun k => (readingOf ins s.cell.limRec k).1,
    cell.limFlags := ((List.range 16).map (limitFlag ins s)).map (BitVec.ofNat 8) }

/-- The time flags of a current result: the first after a step, and one whose instant lies in HOLDOVER (R353, R372). -/
def currentStamp (s : State) : Nat := 16 * b2n (s.cell.tstepCur == 1) + 32 * b2n (heldAt (instantClk 1000 s) s)

/-- The state with a current result and its flags taken, and what the shunt's converter gave, before its stream entry leaves. -/
def currentTaken (nv v : Int) (f : Nat) (s : State) : State :=
  let got := localCurrent nv s
  markCurrent s.cell.curHist.head? v f (raiseCurrent s.cell.isnsFlags v f
    { s with cell.isnsRec := got.2.2, cell.isnsLocal := got.1, cell.localFlags := BitVec.ofNat 8 (got.2.1 + currentStamp s), cell.tstepCur := s.cell.tstepCur - 1,
             cell.isnsMa := v, cell.isnsFlags := BitVec.ofNat 8 f, cell.curHist := ((v, BitVec.ofNat 8 f) :: s.cell.curHist).take 10,
             cell.curAt := (instantClk 1000 s :: s.cell.curAt).take 10 })

/-- The sum of the used cells' results, in µV (R362). -/
def usedSum (s : State) : Int := ((List.range 16).map fun k => if cellUsed s k then nth s.cell.value k 0 else 0).foldl (· + ·) 0

/-- The load check of one channel: a pulse of 3 ms, the drop of its cell against the limit of `BAL_CFG`, and the test of its gate. -/
def loadPulse (startUV endUV gateOnMV gateOffMV : List Int) (s : State) (k : Nat) : State :=
  gateTest (nth gateOnMV k 0) (nth gateOffMV k 0) k
    (loadTest startUV endUV k { s with bal.pulses := s.bal.pulses.set k (s.clk, s.clk + 3 * Config.ms) })

/-- The channels that pulsed in the balance period in progress. -/
def pulsedChannels (s : State) : List Nat := (List.range 16).filter fun k => nth s.bal.pulsed k 0 != 0

/-- The channels of pairs without a pulse or a stimulus in the balance period in progress. -/
def quietChannels (s : State) : List Nat := (List.range 16).filter fun k => !s.bal.busy.getLsbD k && !s.bal.busy.getLsbD (pairOf k)

/-- A test pulse on one input: what each channel should not see is counted, and a third count in a row is a cross fault, class A cause 2; an input under test
takes no part, and one of type 4 is read anew. -/
def pulseInput (b : Bool) (levels : List (Bool × Bool)) (s : State) (k : Nat) : State :=
  let i := nth s.verm.inps k {}
  let ty := inpType s k
  if ty = 0 ∨ 5 < ty ∨ underTest s k then s
  else if ty = 4 then noteInput k ty i (nextInp ty i) s
  else
    let l := nth levels k (i.a, i.b)
    let new := nextInp ty { i with crossA := pulseCount (inpFeed s k false) b i.a l.1 i.crossA, crossB := pulseCount (inpFeed s k true) b i.b l.2 i.crossB }
    let s1 := noteInput k ty i new s
    if new.st == .cross && i.st != .cross then classA 2 (raise 0x84 (vermDetail (k + 1) 0 4 s.verm.refuse) s1) else s1

/-- A criterion whose baseline is still being learnt, which is not reported as unavailable: the gas of a port in use, and the impedance of every watched cell. -/
def stillLearns (c : Fin 6) (s : State) : Prop :=
  (c.val = 0 ∧ ((givesGas s 0 = true ∧ nth s.watch.learn 0 true = true) ∨ (givesGas s 1 = true ∧ nth s.watch.learn 1 true = true))) ∨
  (c.val = 4 ∧ s.watch.c5Valid ≠ 0 ∧ ((List.range 16).all fun k => !s.watch.c5Valid.getLsbD k || (nth s.watch.base5 k none).isNone) = true)

/-- A cell's impedance baseline after a minute: it moves by a 1440th of the difference, where the resistance lies within half the limit of it (R612). -/
def baselineStep (s : State) (k : Nat) (b : Option Rat) : Option Rat :=
  match b, nth s.watch.rho k none with
  | some b, some r => if b ≠ 0 ∧ |r / b - 1| < zJump s / 2 then some (b + (r - b) / 1440) else some b
  | b, _ => b

/-- A proof cycle that begins. -/
def proofBegun (s : State) : State :=
  { leaveIdle 7 s with watch.pst := .running, watch.pdefer := 0, watch.dueSince := none, watch.pstartAt := s.clk, watch.pres := 0,
                       watch.pold := s.watch.pfailed, watch.dueAt := some (s.clk + 3600 * proofHours s * Config.sec), nv.proofStart := some s.log.opmin }

/-- The steps of a proof cycle in order, but for the open-wire test, and the failed ones reported. -/
def proofSteps (m : ProofIn) (s : State) : State :=
  let s3 := stepVerm m (stepHb m (stepSat 1 (stepSat 0 (stepAux (stepBalance m (stepPins (stepsA m s)))))))
  reportFailed [0, 1, 2, 4, 5, 8, 9, 10, 11, 12] (stepMemory m (stepCurrent m (stepLog m s3)))

/-- The first n digits of the check string "123456789", as bytes. -/
def digits (n : Nat) : List Byte := (List.range n).map fun k => BitVec.ofNat 8 (0x31 + k)

/-- Commands run one after the other from a state, each by exec. -/
def runAll (l : List Instr) (s : State) : State :=
  l.foldl (fun s c => match exec c s with | .next t => t | _ => s) s

/-- The instructions an engine has: the scalar ones on both, the tile ones on the TE, the spectral ones on the SE, a vector of 256 elements at most. -/
def fitsEngine (e : Engine) (i : IInstr) : Bool :=
  match i with
  | .sshp _ len | .sld _ _ len => e == .se && decide (len.toNat < 256)
  | .sst .. | .sew .. | .sscl .. | .sdot .. | .sfft .. | .sget .. | .sput .. | .sxs .. | .sxr .. => e == .se
  | .tshp .. | .tld .. | .tst .. | .tew .. | .tews .. | .tmm .. | .ttr .. | .tcvt .. | .tred .. | .tmov .. | .tget .. | .tput .. | .tunpk .. | .txs .. | .txr .. =>
    e == .te
  | .nop | .li .. | .lih .. | .addi .. | .sop .. | .lds .. | .sts .. | .br .. | .loopr .. | .loopi .. | .endK .. | .stw .. | .ring .. => true

/-! ## Boot, supplies and sleep -/

/-- The member is READY, and the boot's events are raised (R63, R616, R621, R827 to R830). -/
def booted (s : State) : State :=
  let up := { s with sys.ready := true, sys.waking := false, fw.trial := false, watch.dueAt := some (proofAfterBoot s) }
  let told := raiseSys (if s.sys.rstCause.getLsbD 0 then 0x00 else 0x01) up
  let fell := if s.sys.fallback then raiseSys 0x0B told else told
  toneEvent (if s.watch.level = .alarm then alarmFrame fell else fell)

/-- The islands that run and are counted right in a window of the clock check (R102). -/
def countedRight (dev : BitVec 25) (s : State) : BitVec 25 := islRun s &&& ~~~(checked s dev)

/-- The clocks after a window of the check, with what follows from the islands and the oscillator that failed in it (R102, R103, R143). -/
def clocksJudged (dev : BitVec 25) (mosc : Bool) (s : State) : State :=
  let fail := checked s dev &&& s.sys.clkSuspect
  let noted := noteOcc 0x44 ((fail.setWidth 32) ||| (if mosc && s.sys.moscSuspect then 0x80000000 else 0)) s
  let judged := islandsFail (fail &&& ~~~s.sys.clkFail)
    { noted with sys.clkSuspect := checked s dev, sys.clkFail := s.sys.clkFail ||| fail, sys.moscSuspect := mosc,
                 sys.clkDown := (s.sys.clkDown ||| fail) &&& ~~~countedRight dev s }
  if mosc && s.sys.moscSuspect && !s.sys.moscFail then raise 0x09 (sysDetailWith 0x00FF (activeCrc judged) judged) { judged with sys.moscFail := true } else judged

/-- The longest wait of an ALARM item after a wait of a class, in 100 ns (R146). -/
def alarmWaited (cls : Fin 6) (wait : Nat) (s : State) : State :=
  if cls = 0 then { s with sys.alarmWaitMax := max s.sys.alarmWaitMax (min 65535 wait) } else s

/-- A member may enter IDLE (R65, R67). -/
def MayIdle (s : State) : Prop :=
  s.sys.mode = .active ∧ s.sys.powered = true ∧ (s.sys.idleReq = true ∨ rf s.regs.pwrCtrl 2 2 = 1) ∧
    s.indigo.te.st ≠ .running ∧ s.indigo.te.st ≠ .loading ∧ s.indigo.se.st ≠ .running ∧ s.indigo.se.st ≠ .loading ∧ responsePending s = false

/-- The conversions of a wake in SENTINEL, judged by the watch and kept (R69, R557, R569, R606). -/
def wakeJudged (auxUV : List Nat) (vtrefUV : Nat) (die : Int) (s : State) : State :=
  let measured := auxConvert auxUV vtrefUV (measureDie die s)
  let rates := { measured with therm.auxRate := (List.range 8).map (wakeRate measured) }
  evalWatch (keepWake { rates with watch.therm := wakeReport rates })

/-- The islands read their crossings while the member is awake for its conversions (R101). -/
def wakeRead (auxUV : List Nat) (vtrefUV : Nat) (die : Int) (s : State) : State :=
  { readIslands { wakeJudged auxUV vtrefUV die s with sys.waking := true } with sys.waking := false }

/-- A burst begins on a sensor port that is in use (R582). -/
def burstPort (s : State) (n : Nat) : State :=
  if spMode s n = 0 then s
  else powerPort n (setSp n (fun p => { p with burst := true, burstAt := s.clk, burstGot := false, st := if p.st == .lineLow then .lineLow else .off }) s)

/-- The tones of a member that wakes by another source than a tone (R71, R281). -/
def wakeTones (s : State) : State := if s.sys.wakeSrc = 2 then s else sendTone .south (sendTone .north s)

end Sys2Proof.Machine
end

