-- ==== Sys2Proof/Certificates/Slice0/Obligations.lean ====
section
/-! DEFINITION. The statements for the provers: what each command does where it has its own effect, what it leaves alone, and what every step keeps. -/

open Sys2Proof Sys2Proof.Machine

/-- A step executes the command at the front of the queue. For every command c and every state whose queue is c followed by a rest, one step answers what
exec answers for c on the same state with the queue's rest. -/
def Obligations.StepRunsFront : Prop :=
  ∀ (c : Instr) (rest : List Instr) (s : State), s.pending = c :: rest → step s = exec c { s with pending := rest }

/-- With nothing to do the local clock goes on by one tick. The model's choice of log entry 2, not a rule: a step on an empty queue answers the state
after one 10 ns period of the local clock; that tick moves the clock by one and the queue stays empty. -/
def Obligations.IdleStep : Prop :=
  ∀ s : State, s.pending = [] → step s = .next (clockTick s) ∧ (clockTick s).clk = s.clk + 1 ∧ (clockTick s).pending = []

/-- Every command of every chapter completes and leaves the queue and the local clock alone. For every command and every state, exec answers a next state,
never a fault or a refusal, and in it the queue of waiting commands and the local clock are what they were. -/
def Obligations.CommandsNeverStop : Prop :=
  ∀ (c : Instr) (s : State), ∃ t, exec c s = .next t ∧ t.pending = s.pending ∧ t.clk = s.clk

/-- Every step keeps the invariant of registers and masks. For every state in which no stored register word has a bit outside its RW fields and every host
mask leaves every severity-3 source shown, whatever step answers as a next state has the same two properties. -/
def Obligations.InvariantKept : Prop :=
  ∀ s t : State, Inv s → step s = .next t → Inv t

/-- The machine after reset. The machine after reset has the invariant: After reset no stored register word has a bit outside its RW fields, there are
four host masks, and each leaves every severity-3 source shown. What reset leaves in registers: Reading registers of the machine after reset gives the
numbers of R876's Reset column: 0 where it says 0, the named values of the island state, the heartbeat, the rings, the temperatures, the sensor ports,
the limits, the check-value units, the alive channels and the event masks; and the factory values of the NV fields of eight configuration registers as
their chapters' tables give them. That State.reset is the state before a power-up is the model's reading (log entry 66). -/
def Obligations.ResetState : Prop :=
  (Inv State.reset) ∧
  ((∀ a ∈ [0x0014, 0x0018, 0x0020, 0x0044, 0x0048, 0x0068, 0x0408, 0x040C, 0x0804, 0x0808, 0x080C, 0x0810, 0x0814, 0x0818, 0x0820, 0x0824, 0x0828, 0x0C04, 0x0C08, 0x0C0C, 0x0C10, 0x0C14, 0x0C18, 0x0C1C, 0x0C20, 0x1004, 0x100C, 0x1010, 0x1014, 0x1018, 0x1020, 0x1080, 0x10C4, 0x10C8, 0x10CC, 0x10D0, 0x1104, 0x1108, 0x110C, 0x1444, 0x1448, 0x144C, 0x1804, 0x1850, 0x1854, 0x1858, 0x185C, 0x1860, 0x1864, 0x1868, 0x2004, 0x2020, 0x2024, 0x2028, 0x2030, 0x2034, 0x2038, 0x2040, 0x2048, 0x204C, 0x2080, 0x2408, 0x240C, 0x2808, 0x280C, 0x2810, 0x2814, 0x2C18, 0x300C, 0x3014, 0x3018, 0x301C, 0x3034, 0x3030, 0x3038, 0x3C08, 0x3C18, 0x3C0C, 0x3C14, 0x4004, 0x4010, 0x4014, 0x4018], regVal State.reset a = 0) ∧
    (∀ k < 16, regVal State.reset (0x1040 + 4 * k) = 0 ∧ regVal State.reset (0x1810 + 4 * k) = 0 ∧ regVal State.reset (0x1880 + 4 * k) = 0) ∧
    (∀ k < 8, regVal State.reset (0x1410 + 4 * k) = 0 ∧ regVal State.reset (0x2460 + 4 * k) = 0x8000 ∧ regVal State.reset (0x3C20 + 4 * k) = 0) ∧
    (∀ k < 20, regVal State.reset (0x4800 + 4 * k) = 0 ∧ regVal State.reset (0x4040 + 4 * k) = 0xFFFFFFFF) ∧
    (∀ k < 32, regVal State.reset (0x3900 + 4 * k) = 0x10000000) ∧
    (∀ n < 4, regVal State.reset (0x3800 + 0x20 * n) = 2 ∧ ∀ a ∈ [0x3804, 0x3808, 0x380C, 0x3810, 0x3814, 0x3818], regVal State.reset (a + 0x20 * n) = 0) ∧
    regVal State.reset 0x0040 = 1 ∧ regVal State.reset 0x081C = 0xF ∧ regVal State.reset 0x10C0 = 0x00400000 ∧ regVal State.reset 0x1440 = 0x00400000 ∧
    regVal State.reset 0x2804 = 0xFFFF0008 ∧ regVal State.reset 0x2824 = 0xFFFF0008 ∧ regVal State.reset 0x3020 = 0xFFFFFFFF ∧ regVal State.reset 0x3024 = 0xFFFFFFFF ∧
    regVal State.reset 0x0010 = 0x004A1404 ∧ regVal State.reset 0x0400 = 0x00000A30 ∧ regVal State.reset 0x0800 = 0x00081402 ∧ regVal State.reset 0x0C00 = 0x00C86401 ∧
    regVal State.reset 0x1000 = 0x004FFFF5 ∧ regVal State.reset 0x1800 = 0x3C323C02 ∧ regVal State.reset 0x2800 = 0x00281E64 ∧ regVal State.reset 0x4000 = 1)

/-- NOP, GET_ID, CHAIN_STAT, TIME_GET, CELL_READ, AUX_READ, CURRENT_READ, WATCH_READ and SAFE_PARAM_READ answer OK with their data. Where the shared
checks pass, each command changes nothing but the reply it sends: status OK with the fields of its row, in the row's order, least significant byte
first. -/
def Obligations.AnsweringCommands : Prop :=
  ∀ (rq : Req) (s : State),
    (Taken 0x00 rq s → exec (.nop rq) s = .next (answered rq stOk [] s)) ∧
    (Taken 0x01 rq s → exec (.getId rq) s = .next (answered rq stOk (idBytes s) s)) ∧
    (Taken 0x21 rq s → exec (.chainStat rq) s =
      .next (answered rq stOk (le 4 (regVal s 0x0804) ++ le 4 (regVal s 0x0808) ++ le 4 (regVal s 0x080C) ++ le 4 (regVal s 0x081C)) s)) ∧
    (Taken 0x31 rq s → exec (.timeGet rq) s =
      .next (answered rq stOk (le 6 s.time.sec.toNat ++ le 4 s.time.ns ++ le 1 (s.time.st.code + 8 * s.time.anchorSt.code)) s)) ∧
    (Taken 0x40 rq s → exec (.cellRead rq) s =
      .next (answered rq stOk ((List.range 16).map fun k => leI 3 (nth s.cell.value k 0) ++ [nth s.cell.flags k 0]).flatten s)) ∧
    (Taken 0x41 rq s → exec (.auxRead rq) s =
      .next (answered rq stOk ((List.range 8).map fun k => le 2 (nth s.cell.aux k 0).toNat ++ [nth s.cell.auxFlags k 0]).flatten s)) ∧
    (Taken 0x42 rq s → exec (.currentRead rq) s = .next (answered rq stOk (leI 4 s.cell.isnsMa ++ [s.cell.isnsFlags]) s)) ∧
    (Taken 0x71 rq s → exec (.watchRead rq) s =
      .next (answered rq stOk (le 1 s.watch.level.code ++ le 1 s.watch.own.toNat ++ le 1 s.watch.unavail.toNat ++ le 1 (seenMask s).toNat ++
        le 1 (s.watch.zone.toNat + 16 * (blk s 0x70 1 % 16)) ++ le 1 (proofStat s) ++ le 2 (levelSeconds s)) s)) ∧
    (Taken 0x84 rq s → exec (.safeParamRead rq) s = .next (answered rq stOk (slice s.verm.block 0 256) s))

/-- READ_REG, RESULT_READ, SPORT_READ, LOG_READ, EVT_READ and CMD_RESULT. Where the shared checks pass and the operands are in range: READ_REG answers the
registers read in order, with the effects of each read (a METER host only inside the Umber mirror); RESULT_READ the bytes of the result area;
SPORT_READ the port's fields and clears its error counters; LOG_READ the records from the cursor, moves the host's cursor and counts the check of each
record read; EVT_READ the oldest entries of the host's store and removes them; CMD_RESULT the held result and marks it returned. -/
def Obligations.ReadingCommands : Prop :=
  ∀ (rq : Req) (s : State),
    (∀ (addr : BitVec 16) (count : Byte) (ecc : Ecc), Taken 0x02 rq s → (rq.auth = .meter → metersReadOk addr.toNat count.toNat = true) →
      readRange addr.toNat count.toNat = true → exec (.readReg rq addr count ecc) s =
        .next (answered rq stOk (readRegs ecc count.toNat addr.toNat s).1 (readRegs ecc count.toNat addr.toNat s).2)) ∧
    (∀ (offset count : BitVec 16) (ecc : Ecc), Taken 0x64 rq s → rf s.regs.indigoRes 31 16 ≠ 0 →
      offset.toNat + count.toNat ≤ rf s.regs.indigoRes 31 16 → resBase s + rf s.regs.indigoRes 31 16 ≤ 65536 → count.toNat ≤ 512 →
      exec (.resultRead rq offset count ecc) s =
        .next (answered rq stOk (memRead s.indigo.pad (resBase s + offset.toNat) count.toNat) (hostEcc ecc (resBase s + offset.toNat) count.toNat s))) ∧
    (∀ p : Fin 2, Taken 0x70 rq s → exec (.sportRead rq (BitVec.ofNat 8 (p.val + 1))) s =
      .next (answered rq stOk
        (le 1 (spState s p.val) ++ le 1 (spType s p.val) ++ le 1 (spFlags s p.val) ++ le 1 (spPort s p.val).status ++ le 2 (spPort s p.val).ch1 ++
          le 2 (spPort s p.val).ch2 ++ le 2 (spAge s p.val) ++ le 2 (spPort s p.val).meas ++ le 4 (spErrs (spPort s p.val)) ++ le 1 (spPort s p.val).esmId ++
          le 1 0 ++ le 2 (spPort s p.val).esmData ++ le 4 (spPort s p.val).total)
        (clearErrs p.val s))) ∧
    (∀ (cursor : BitVec 16) (count : Byte) (c : Cursor), Taken 0x98 rq s → 1 ≤ count.toNat → count.toNat ≤ 15 →
      placeCursor s cursor.toNat (nth s.log.cursors rq.host.val {}) = some c → exec (.logRead rq cursor count) s =
        .next (answered rq stOk (cursorReads s count.toNat c).1
          (noteReads (cursorReads s count.toNat c).1 { s with log.cursors := s.log.cursors.set rq.host.val (cursorReads s count.toNat c).2 }))) ∧
    (∀ max : Byte, Taken 0x10 rq s → 1 ≤ max.toNat → max.toNat ≤ 16 → exec (.evtRead rq max) s =
      .next (respond rq false false
        { st := { s with evt.stores := s.evt.stores.set rq.host.val ((nth s.evt.stores rq.host.val []).drop max.toNat) }, status := stOk,
          data := (((nth s.evt.stores rq.host.val []).take max.toNat).map entryBytes).flatten,
          more := decide (max.toNat < (nth s.evt.stores rq.host.val []).length) })) ∧
    (∀ (seq : BitVec 16) (l : List Byte), Taken 0x13 rq s → findResult rq seq.toNat s = .held l →
      exec (.cmdResult rq seq) s = .next (answered rq stOk l (noteReturned rq seq.toNat s)))

/-- Commands that set state, and power mode orders. RESET_MEMBER, SET_BAUD, TAG_SYNC, EVT_ACK, EVT_MASK and STREAM_CLOSE: Where the shared checks pass and
the operands are in range: RESET_MEMBER with key 0xA5 and every output off marks the reset as due; SET_BAUD writes HOST_CFG.BAUD; TAG_SYNC at the
entry port answers the host's tag counter and the nonce, and raises event 0x1B; EVT_ACK drops the held ALARM event of that source and number; EVT_MASK
stores the host's mask with every severity-3 source shown; STREAM_CLOSE closes the stream. SET_MODE and MODE_REQ order a power mode: Where the shared
checks pass, SET_MODE with a mode and a key it defines and MODE_REQ from a host that may write its register do the same. The present mode is answered
OK and changes nothing. A refused request for SENTINEL or SHIP answers BAD_PARAM, records its cause and raises event 0x05. An order less safe than one
of SAFETY answers OVERRULED with event 0x1C. Any other order withdraws a waiting one and becomes the mode's last order: ACTIVE leaves IDLE with event
0x04 and the heartbeat decoder starting afresh; IDLE in ACTIVE is kept as a request; SENTINEL or SHIP becomes the pending mode. MODE_REQ from SAFETY
authority draws AUTH_FAIL. -/
def Obligations.SettingCommands : Prop :=
  (∀ (rq : Req) (s : State),
    (Taken 0x05 rq s → anyOutputOn s = false → exec (.resetMember rq 0xA5) s = .next (answered rq stOk [] { s with sys.resetPending := true })) ∧
    (∀ code : Byte, Taken 0x07 rq s → code.toNat ≤ 7 → exec (.setBaud rq code) s =
      .next (answered rq stOk [] (writeRw 0x0400 7 (BitVec.ofNat 32 code.toNat) s))) ∧
    (∀ (nonce : Word) (p : HPort), Taken 0x06 rq s → rq.orig = .port p → exec (.tagSync rq nonce) s =
      .next (respond rq true false
        { st := raise 0x1B (det (inst2 rq.host.val (reqPort rq s)) rq.seq.toNat stOk 0) s, status := stOk,
          data := le 4 (nth s.nv.tagC rq.host.val 0) ++ le 4 nonce.toNat })) ∧
    (∀ (src : Byte) (seq : BitVec 16), Taken 0x11 rq s → src.toNat ≤ 0x9F → exec (.evtAck rq src seq) s =
      .next (answered rq stOk [] { s with evt.hold := s.evt.hold.filter fun h => !(h.src == src.toNat && h.seq == seq.toNat) })) ∧
    (∀ mask : BitVec 160, Taken 0x12 rq s → exec (.evtMask rq mask) s =
      .next (answered rq stOk [] { s with evt.masks := s.evt.masks.set rq.host.val (mask ||| severe) })) ∧
    (∀ stream : Byte, Taken 0x44 rq s → [0x00, 0x01, 0x10, 0x11, 0x12].contains stream.toNat = true → exec (.streamClose rq stream) s =
      .next (answered rq stOk [] (closeStream stream.toNat s)))) ∧
  (∀ (rq : Req) (m : Mode) (key : Byte) (s : State),
    (m = s.sys.mode →
      (Taken 0x04 rq s → (m ≠ .ship → key = 0) → exec (.setMode rq (BitVec.ofNat 8 (modeCode m)) key) s = .next (answered rq stOk [] s)) ∧
      (Taken 0x03 rq s → rq.auth ≠ .safety → exec (.modeReq rq (BitVec.ofNat 2 (modeCode m)) key) s = .next (answered rq stOk [] s))) ∧
    (m ≠ s.sys.mode → (m = .sentinel ∨ m = .ship) → refuseCause m key.toNat s ≠ 0 →
      (Taken 0x04 rq s → (m ≠ .ship → key = 0) → exec (.setMode rq (BitVec.ofNat 8 (modeCode m)) key) s = .next (answered rq stBadParam [] (raiseSys 0x05 { s with sys.refuse := refuseCause m key.toNat s }))) ∧
      (Taken 0x03 rq s → rq.auth ≠ .safety → exec (.modeReq rq (BitVec.ofNat 2 (modeCode m)) key) s = .next (answered rq stBadParam [] (raiseSys 0x05 { s with sys.refuse := refuseCause m key.toNat s })))) ∧
    (m ≠ s.sys.mode → ((m = .sentinel ∨ m = .ship) → refuseCause m key.toNat s = 0) → heldAgainst rq 21 (decide (modeCode s.sys.mode < modeCode m)) s = true →
      (Taken 0x04 rq s → (m ≠ .ship → key = 0) → exec (.setMode rq (BitVec.ofNat 8 (modeCode m)) key) s = .next (answered rq stOverruled [] (raise 0x1C (det (inst2 rq.host.val (reqPort rq s)) rq.seq.toNat stOverruled 1) s))) ∧
      (Taken 0x03 rq s → rq.auth ≠ .safety → exec (.modeReq rq (BitVec.ofNat 2 (modeCode m)) key) s = .next (answered rq stOverruled [] (raise 0x1C (det (inst2 rq.host.val (reqPort rq s)) rq.seq.toNat stOverruled 1) s)))) ∧
    (m = .active → s.sys.mode = .idle → heldAgainst rq 21 false s = false →
      (Taken 0x04 rq s → (m ≠ .ship → key = 0) → exec (.setMode rq (BitVec.ofNat 8 (modeCode m)) key) s = .next (answered rq stOk [] (raiseSys 0x04 (hbAfresh { modeOrdered rq s with sys.mode := .active })))) ∧
      (Taken 0x03 rq s → rq.auth ≠ .safety → exec (.modeReq rq (BitVec.ofNat 2 (modeCode m)) key) s = .next (answered rq stOk [] (raiseSys 0x04 (hbAfresh { modeOrdered rq s with sys.mode := .active }))))) ∧
    (m = .active → (s.sys.mode = .sentinel ∨ s.sys.mode = .ship) → heldAgainst rq 21 false s = false →
      (Taken 0x04 rq s → (m ≠ .ship → key = 0) → exec (.setMode rq (BitVec.ofNat 8 (modeCode m)) key) s = .next (answered rq stOk [] (modeOrdered rq s))) ∧
      (Taken 0x03 rq s → rq.auth ≠ .safety → exec (.modeReq rq (BitVec.ofNat 2 (modeCode m)) key) s = .next (answered rq stOk [] (modeOrdered rq s)))) ∧
    (m = .idle → s.sys.mode = .active → heldAgainst rq 21 true s = false →
      (Taken 0x04 rq s → (m ≠ .ship → key = 0) → exec (.setMode rq (BitVec.ofNat 8 (modeCode m)) key) s = .next (answered rq stOk [] { modeOrdered rq s with sys.idleReq := true })) ∧
      (Taken 0x03 rq s → rq.auth ≠ .safety → exec (.modeReq rq (BitVec.ofNat 2 (modeCode m)) key) s = .next (answered rq stOk [] { modeOrdered rq s with sys.idleReq := true }))) ∧
    (m = .idle → (s.sys.mode = .sentinel ∨ s.sys.mode = .ship) → heldAgainst rq 21 false s = false →
      (Taken 0x04 rq s → (m ≠ .ship → key = 0) → exec (.setMode rq (BitVec.ofNat 8 (modeCode m)) key) s = .next (answered rq stOk [] (modeOrdered rq s))) ∧
      (Taken 0x03 rq s → rq.auth ≠ .safety → exec (.modeReq rq (BitVec.ofNat 2 (modeCode m)) key) s = .next (answered rq stOk [] (modeOrdered rq s)))) ∧
    (m = .sentinel → s.sys.mode ≠ .sentinel → refuseCause .sentinel key.toNat s = 0 → heldAgainst rq 21 (decide (modeCode s.sys.mode < 2)) s = false →
      (Taken 0x04 rq s → (m ≠ .ship → key = 0) → exec (.setMode rq (BitVec.ofNat 8 (modeCode m)) key) s = .next (answered rq stOk [] { modeOrdered rq s with sys.pendingMode := some .sentinel })) ∧
      (Taken 0x03 rq s → rq.auth ≠ .safety → exec (.modeReq rq (BitVec.ofNat 2 (modeCode m)) key) s = .next (answered rq stOk [] { modeOrdered rq s with sys.pendingMode := some .sentinel }))) ∧
    (m = .ship → s.sys.mode ≠ .ship → refuseCause .ship key.toNat s = 0 → heldAgainst rq 21 true s = false →
      (Taken 0x04 rq s → (m ≠ .ship → key = 0) → exec (.setMode rq (BitVec.ofNat 8 (modeCode m)) key) s = .next (answered rq stOk [] { modeOrdered rq s with sys.pendingMode := some .ship })) ∧
      (Taken 0x03 rq s → rq.auth ≠ .safety → exec (.modeReq rq (BitVec.ofNat 2 (modeCode m)) key) s = .next (answered rq stOk [] { modeOrdered rq s with sys.pendingMode := some .ship }))) ∧
    (Taken 0x03 rq s → rq.auth = .safety → exec (.modeReq rq (BitVec.ofNat 2 (modeCode m)) key) s = .next (answered rq stAuthFail [] s)))

/-- WRITE_REG, WINDOW_WRITE, PORT_CLR, BAL_DIAG_CLR, RP_WRITE, SPORT_CFG_WRITE and OW_START, OW_PERIODIC. Where the shared checks pass, WRITE_REG of an
aligned address that is neither a mode request nor an ALARM clear writes the masked bits of that register (a SAFETY host only in WATCH and VERM); an
accepted mode request also writes the register's other masked bits; an ALARM clear acts as ALARM_CLR. The rows of single registers have their effect
alone. WINDOW_WRITE writes the masked bits of a scratchpad word. PORT_CLR clears the error counters of the ports named, which are ACTIVE after it
unless LINK_DEAD, and a port that was off exchanges figures again. BAL_DIAG_CLR clears the diagnosis of the channels named. RP_WRITE sets a read
pointer inside its ring and nothing otherwise. SPORT_CFG_WRITE writes a sensor port's configuration. OW_START, and OW_PERIODIC where a period is set,
begin an open-wire test; with a sweep or a stimulus running they defer it, and during a test or where nothing is measured they do nothing. -/
def Obligations.RegisterWrites : Prop :=
  (∀ (rq : Req) (addr : BitVec 16) (mask value : Word) (s : State), Taken 0x03 rq s → (rq.auth = .safety → safetyWriteOk addr.toNat = true) →
      addr.toNat % 4 = 0 → addr.toNat ≠ 0x0010 → addr.toNat ≠ 0x2C18 →
      exec (.writeReg rq addr mask value) s = .next (answered rq stOk [] (writePlain rq addr.toNat mask value s))) ∧
    (∀ (addr : BitVec 16) (mask value : Word) (s : State), 0x8000 ≤ addr.toNat → addr.toNat % 4 = 0 →
      exec (.windowWrite addr mask value) s = .next (padWrite (windowOff s addr.toNat)
        (le 4 ((BitVec.ofNat 32 (padWord s (windowOff s addr.toNat)) &&& ~~~mask) ||| (value &&& mask)).toNat) s)) ∧
    (∀ (rq : Req) (mask value : Word) (s : State), Taken 0x03 rq s → rq.auth ≠ .safety → rf mask 1 0 ≠ 0 →
      (modeOrder rq (rf (value &&& mask) 1 0) (rf (value &&& mask) 31 24) s).status = stOk →
      exec (.writeReg rq 0x0010 mask value) s =
        .next (answered rq stOk [] (writeRw 0x0010 mask value (modeOrder rq (rf (value &&& mask) 1 0) (rf (value &&& mask) 31 24) s).st))) ∧
    (∀ (rq : Req) (mask value : Word) (s : State), Taken 0x03 rq s → (value &&& mask).getLsbD 0 = true →
      exec (.writeReg rq 0x2C18 mask value) s = exec (.alarmClr rq (BitVec.ofNat 8 (rf (value &&& mask) 15 8))) s) ∧
    (∀ (sd : Side) (s : State), (port s sd).st = .active ∨ (port s sd).st = .degraded → exec (.portClr (sd == .north) (sd == .south)) s =
      .next (setPort sd (fun p => { p with tec := 0, recErr := 0, exchanges := 0, st := .active }) s)) ∧
    (∀ (sd : Side) (s : State), (port s sd).st = .linkDead → exec (.portClr (sd == .north) (sd == .south)) s =
      .next (setPort sd (fun p => { p with tec := 0, recErr := 0, exchanges := 0 }) s)) ∧
    (∀ (sd : Side) (s : State), (port s sd).st = .portOff ∨ (port s sd).st = .offLatched → exec (.portClr (sd == .north) (sd == .south)) s =
      .next (sendLinkUp sd (setPort sd (fun p => { p with tec := 0, recErr := 0, exchanges := 0, st := .active, healDue := some s.clk }) s))) ∧
    (∀ s : State, exec (.portClr true true) s = .next (clrPort .south (clrPort .north s)) ∧ exec (.portClr false false) s = .next s) ∧
    (∀ (mask : BitVec 16) (s : State), exec (.balDiagClr mask) s = .next (clearDiag mask s)) ∧
    (∀ (value : BitVec 10) (s : State), exec (.rpWrite false value) s =
      .next (if value.toNat < ringEntries s.regs.cellRbCfg then { s with cell.cellRing.rp := value.toNat } else s)) ∧
    (∀ (value : BitVec 10) (s : State), exec (.rpWrite true value) s =
      .next (if value.toNat < ringEntries s.regs.auxRbCfg then { s with cell.auxRing.rp := value.toNat } else s)) ∧
    (∀ (port : Fin 2) (value : Word) (s : State), exec (.sportCfgWrite port value) s = .next (writeSpCfg port.val value s)) ∧
    (∀ s : State, s.cell.ow = none → measuring s = true → sweepBusy s = false → stimRuns s = false →
      exec .owStart s = .next { s with cell.ow := some owFirst, cell.owDeferred := false } ∧
      exec .owPeriodic s = .next (if rf s.regs.owCfg 7 0 = 0 then s else { s with cell.ow := some owFirst, cell.owDeferred := false })) ∧
    (∀ s : State, s.cell.ow = none → measuring s = true → (sweepBusy s = true ∨ stimRuns s = true) →
      exec .owStart s = .next { s with cell.owDeferred := true } ∧
      exec .owPeriodic s = .next (if rf s.regs.owCfg 7 0 = 0 then s else { s with cell.owDeferred := true })) ∧
    (∀ s : State, (s.cell.ow ≠ none ∨ measuring s = false) → exec .owStart s = .next s ∧ exec .owPeriodic s = .next s)

/-- The reads that latch: TIME_NS, CELL_DATA, AUX_DATA, ISNS_DATA, LOG_WIN and LOG_CUR.SET. Reading TIME_NS latches the time; reading the last word of a
group of results latches the group; reading LOG_WIN reads the record at the window's cursor, counts its check and moves the cursor; writing
LOG_CUR.SET places it where the code is a defined one, and changes nothing otherwise. -/
def Obligations.LatchingReads : Prop :=
  (∀ s : State, exec .timeNsRead s =
      .next { s with time.latLo := BitVec.ofNat 32 s.time.sec.toNat, time.latHi := BitVec.ofNat 32 (s.time.sec.toNat / 2 ^ 32) }) ∧
    (∀ s : State, exec .cellDataLatch s =
      .next { s with cell.latVal := s.cell.value.map (BitVec.ofInt 24), cell.latFlags := s.cell.flags, cell.snum := s.cell.instant }) ∧
    (∀ s : State, exec .auxDataLatch s = .next { s with cell.auxLat := s.cell.aux, cell.auxLatFlags := s.cell.auxFlags }) ∧
    (∀ s : State, exec .isnsDataLatch s = .next { s with cell.isnsFlagsLat := s.cell.isnsFlags }) ∧
    (∀ s : State, exec .logWinRead s = .next
      (noteReads (cursorRead s (nth s.log.cursors 4 {})).1
        { s with log.cursors := s.log.cursors.set 4 (cursorRead s (nth s.log.cursors 4 {})).2, log.win := (cursorRead s (nth s.log.cursors 4 {})).1 })) ∧
    (∀ (code : BitVec 16) (c : Cursor) (s : State), placeCursor s code.toNat (nth s.log.cursors 4 {}) = some c →
      exec (.logCursorSet code) s = .next { s with log.cursors := s.log.cursors.set 4 c }) ∧
    (∀ (code : BitVec 16) (s : State), placeCursor s code.toNat (nth s.log.cursors 4 {}) = none → exec (.logCursorSet code) s = .next s)

/-- TIME_SET, ENUMERATE and STREAM_OPEN take effect. TIME_SET and ENUMERATE take effect at the anchor: Where the shared checks pass at the anchor:
TIME_SET with SYNC_EN set arms the time for the next accepted edge; with SYNC_EN clear it sets the time, moves the epoch on and enters FREE; a count
of nanoseconds of one second or more, or a member that is not the anchor, draws BAD_PARAM and changes nothing. ENUMERATE at a host port of the anchor,
while no enumeration runs, starts the first attempt and answers QUEUED. STREAM_OPEN opens rings and host streams: Where the shared checks pass:
opening stream 0x00 sets the cell rate where another is named and opens the cell ring from sample number 0; 0xFF keeps the rate; stream 0x01 opens the
AUX ring; stream 0x10 sets the cell rate where neither the cell ring nor a sweep uses it, and otherwise is decimated from the rate in use; streams
0x11 and 0x12 have no rate. A host stream is added for its host with its slots. An open stream, a ring that does not fit, no slots, a rate above the
one in use or outside its list, or another stream number draws BAD_PARAM. -/
def Obligations.TimeChainAndStreams : Prop :=
  (∀ (rq : Req) (s : State),
    (∀ (sec : BitVec 48) (ns : Word), Taken 0x30 rq s → s.sys.anchor = true → ns.toNat < 1000000000 → syncEn s = true →
      exec (.timeSet rq sec ns) s =
        .next (answered rq stOk [] { s with time.armed := some (sec.toNat, ns.toNat), time.armedThisTick := true, time.firstEdge := true })) ∧
    (∀ (sec : BitVec 48) (ns : Word), Taken 0x30 rq s → s.sys.anchor = true → ns.toNat < 1000000000 → syncEn s = false →
      exec (.timeSet rq sec ns) s =
        .next (answered rq stOk [] (stepped (setTimeSt .free
          { s with time.sec := sec, time.ns := ns.toNat, time.frac := 0, time.epoch := (s.time.epoch + 1) % 256, time.firstEdge := true })))) ∧
    (∀ (sec : BitVec 48) (ns : Word), Taken 0x30 rq s → 1000000000 ≤ ns.toNat ∨ s.sys.anchor = false → exec (.timeSet rq sec ns) s = .next (answered rq stBadParam [] s)) ∧
    (∀ p : HPort, Taken 0x20 rq s → rq.orig = .port p → s.sys.anchor = true → s.chain.enumBusy = false → exec (.enumerate rq) s =
      .next (answered rq stQueued [] (keepQueued rq
        (enumAttempt { s with chain.enumBusy := true, chain.enumTries := 1, chain.enumBy := some (rq.host, rq.seq.toNat) }))))) ∧
  (∀ (rq : Req) (s : State) (rate slots : Byte), Taken 0x43 rq s →
    (∀ r : Nat, (if rate = 0xFF then r = cellRate s else r = rate.toNat) → r ≤ 6 → s.cell.cellRing.isOpen = false → ringFits s.regs.cellRbCfg 80 = true →
      (r = cellRate s ∨ (streamIsOpen s 0x10 = false ∧ sweepBusy s = false)) →
      exec (.streamOpen rq 0x00 rate slots) s =
        .next (answered rq stOk [] { setRate r s with cell.cellRing := { (setRate r s).cell.cellRing with isOpen := true, snum := 0, fresh := false } })) ∧
    (s.cell.auxRing.isOpen = false → ringFits s.regs.auxRbCfg 32 = true → exec (.streamOpen rq 0x01 0xFF slots) s =
      .next (answered rq stOk [] { s with cell.auxRing := { s.cell.auxRing with isOpen := true, snum := 0, fresh := false } })) ∧
    (∀ r : Nat, (if rate = 0xFF then r = cellRate s else r = rate.toNat) → r ≤ 2 → r ≤ cellRate s → streamIsOpen s 0x10 = false → slots.toNat ≠ 0 →
      s.cell.cellRing.isOpen = true ∨ sweepBusy s = true →
      exec (.streamOpen rq 0x10 rate slots) s =
        .next (answered rq stOk [] { s with cell.streams := s.cell.streams ++
          [{ code := 0x10, host := rq.host.val, m := rateOf (cellRate s) / rateOf r, slots := slots.toNat }] })) ∧
    (∀ r : Nat, (if rate = 0xFF then r = cellRate s else r = rate.toNat) → r ≤ 2 → r ≤ cellRate s → streamIsOpen s 0x10 = false → slots.toNat ≠ 0 →
      s.cell.cellRing.isOpen = false → sweepBusy s = false →
      exec (.streamOpen rq 0x10 rate slots) s =
        .next (answered rq stOk [] { setRate r s with cell.streams := (setRate r s).cell.streams ++
          [{ code := 0x10, host := rq.host.val, m := 1, slots := slots.toNat }] })) ∧
    (∀ stream : Byte, stream = 0x11 ∨ stream = 0x12 → streamIsOpen s stream.toNat = false → slots.toNat ≠ 0 →
      exec (.streamOpen rq stream 0xFF slots) s =
        .next (answered rq stOk [] { s with cell.streams := s.cell.streams ++ [{ code := stream.toNat, host := rq.host.val, m := 1, slots := slots.toNat }] })) ∧
    (∀ stream : Byte, (stream = 0x00 ∧ s.cell.cellRing.isOpen = true) ∨ (stream = 0x01 ∧ s.cell.auxRing.isOpen = true) ∨
        ((stream = 0x10 ∨ stream = 0x11 ∨ stream = 0x12) ∧ (streamIsOpen s stream.toNat = true ∨ slots.toNat = 0)) ∨
        (stream ≠ 0x00 ∧ stream ≠ 0x01 ∧ stream ≠ 0x10 ∧ stream ≠ 0x11 ∧ stream ≠ 0x12) →
      exec (.streamOpen rq stream rate slots) s = .next (answered rq stBadParam [] s)))

/-- BAL_SET, BAL_STOP and STIM_SET. Where the shared checks pass: BAL_SET of used channels with an on-time within the limit gives them that on-time,
counted in pairs of microseconds, and clears what a channel owes where its on-time changes; one that a SAFETY host's order forbids is overruled and
has no other effect. BAL_STOP ends balancing on the channels and, where a sweep uses one of them, the sweep. STIM_SET with a waveform replaces the one
stimulus, to start at the next whole second that is at least 10 ms away; with waveform 0 it ends it on the named channels and, where a sweep uses one
of them, the sweep. What BAL_SET or STIM_SET does not admit draws BAD_PARAM. -/
def Obligations.BalanceCommands : Prop :=
  ∀ (rq : Req) (mask : BitVec 16) (s : State),
    (∀ onTime : BitVec 16, Taken 0x50 rq s → onTime.toNat / 2 ≤ balMaxOn s → namesUnused s mask = false →
      ((ones mask).any fun k => heldAgainst rq (5 + k) (nth s.bal.onT k 0 < onTime.toNat / 2) s) = false →
      exec (.balSet rq mask onTime) s = .next (answered rq stOk [] (noteHeld (noteOrder rq (chObjs mask)
        { s with bal.onT := s.bal.onT.mapIdx fun k t => if mask.getLsbD k then onTime.toNat / 2 else t,
                 bal.debt := s.bal.debt.mapIdx fun k t => if mask.getLsbD k && nth s.bal.onT k 0 != onTime.toNat / 2 then 0 else t })))) ∧
    (∀ onTime : BitVec 16, Taken 0x50 rq s → onTime.toNat / 2 ≤ balMaxOn s → namesUnused s mask = false →
      ((ones mask).any fun k => heldAgainst rq (5 + k) (nth s.bal.onT k 0 < onTime.toNat / 2) s) = true →
      exec (.balSet rq mask onTime) s =
        .next (answered rq stOverruled [] (raise 0x1C (det (inst2 rq.host.val (reqPort rq s)) rq.seq.toNat stOverruled 1) s))) ∧
    (∀ onTime : BitVec 16, Taken 0x50 rq s → balMaxOn s < onTime.toNat / 2 ∨ namesUnused s mask = true →
      exec (.balSet rq mask onTime) s = .next (answered rq stBadParam [] s)) ∧
    (Taken 0x51 rq s → s.sweep.st = .idle ∨ s.sweep.st = .fitting ∨ s.sweep.mask &&& mask = 0 →
      exec (.balStop rq mask) s = .next (answered rq stOk [] (noteOrder rq (chObjs mask) (clearBal mask 1 s)))) ∧
    (Taken 0x51 rq s → s.sweep.st ≠ .idle → s.sweep.st ≠ .fitting → s.sweep.mask &&& mask ≠ 0 →
      exec (.balStop rq mask) s = .next (answered rq stOk [] (noteOrder rq (chObjs mask) (endSweep 2 (clearBal mask 1 s))))) ∧
    (∀ (wave dur : Byte) (freq : Word) (bias amp : BitVec 16), Taken 0x52 rq s →
      stimBad s mask wave.toNat dur.toNat freq.toNat bias.toNat amp.toNat = false → wave ≠ 0 → mask ≠ 0 →
      ((ones mask).any fun k => heldAgainst rq (5 + k) (!stimOn s false k) s) = false →
      exec (.stimSet rq mask wave dur freq bias amp) s = .next (answered rq stOk [] (noteHeld (noteOrder rq (chObjs mask)
        { endStim allCh 0 s with
          bal.stim := some { mask := mask, wave := wave.toNat, dur := dur.toNat, freq := freq.toNat, bias := bias.toNat, amp := amp.toNat, running := false, sweep := false,
                             t0 := (counterNs s + 10000000 + 999999999) / 1000000000 * 1000000000, offAt := none, onAt := 0 },
          bal.stimW := wave.toNat, bal.stimDur := dur.toNat, bal.stimF := freq.toNat, bal.stimBias := bias.toNat, bal.stimAmp := amp.toNat })))) ∧
    (∀ (wave dur : Byte) (freq : Word) (bias amp : BitVec 16), Taken 0x52 rq s →
      stimBad s mask wave.toNat dur.toNat freq.toNat bias.toNat amp.toNat = false → wave ≠ 0 →
      ((ones mask).any fun k => heldAgainst rq (5 + k) (!stimOn s false k) s) = true →
      exec (.stimSet rq mask wave dur freq bias amp) s =
        .next (answered rq stOverruled [] (raise 0x1C (det (inst2 rq.host.val (reqPort rq s)) rq.seq.toNat stOverruled 1) s))) ∧
    (∀ (dur : Byte) (freq : Word) (bias amp : BitVec 16), Taken 0x52 rq s →
      stimBad s mask 0 dur.toNat freq.toNat bias.toNat amp.toNat = false → s.sweep.st = .idle ∨ s.sweep.st = .fitting ∨ s.sweep.mask &&& mask = 0 →
      exec (.stimSet rq mask 0 dur freq bias amp) s = .next (answered rq stOk [] (noteOrder rq (chObjs mask) (endStim mask 0 s)))) ∧
    (∀ (dur : Byte) (freq : Word) (bias amp : BitVec 16), Taken 0x52 rq s →
      stimBad s mask 0 dur.toNat freq.toNat bias.toNat amp.toNat = false → s.sweep.st ≠ .idle → s.sweep.st ≠ .fitting → s.sweep.mask &&& mask ≠ 0 →
      exec (.stimSet rq mask 0 dur freq bias amp) s = .next (answered rq stOk [] (noteOrder rq (chObjs mask) (endSweep 2 (endStim mask 0 s))))) ∧
    (∀ (wave dur : Byte) (freq : Word) (bias amp : BitVec 16), Taken 0x52 rq s →
      stimBad s mask wave.toNat dur.toNat freq.toNat bias.toNat amp.toNat = true →
      exec (.stimSet rq mask wave dur freq bias amp) s = .next (answered rq stBadParam [] s))

/-- KERNEL_LOAD, KERNEL_COMMIT, KERNEL_LAUNCH, KERNEL_STOP and SWEEP_START. Where the shared checks pass, on the state t in which a finished code copy has
become a running kernel: KERNEL_LOAD writes bytes of a slot that no engine loads, runs or has suspended and makes the slot unchecked; where the store
does not take them, it raises event 0x6E and the bytes are free (log 197); KERNEL_COMMIT with the CRC-32C of the slot's image and a sound header makes
the slot valid and raises event 0x6D, and otherwise draws BAD_PARAM; KERNEL_LAUNCH of a kernel that may be launched starts loading it with its
arguments, or, inside the self-test, is kept and answers QUEUED; slot 0xFF resumes a suspended kernel whose context is whole, inside the self-test
kept in the same way; KERNEL_STOP stops the engines named, bit 7 saving the context. SWEEP_START answers QUEUED with the sweep waiting for its start. -/
def Obligations.KernelCommands : Prop :=
  ∀ (rq : Req) (s t : State), t = settleCopies s →
    (∀ (slot : Byte) (offset : BitVec 16) (code : List Byte), Taken 0x60 rq s → slot.toNat < 8 → offset.toNat + code.length ≤ 8192 →
      (t.indigo.te.slot ≠ slot.toNat ∨ t.indigo.te.st = .idle) →
      (t.indigo.se.slot ≠ slot.toNat ∨ t.indigo.se.st = .idle) → exec (.kernelLoad rq slot offset code true) s =
        .next (answered rq stOk [] { t with
          indigo.store := memWrite t.indigo.store (8192 * slot.toNat + offset.toNat) code, indigo.valid := setBit t.indigo.valid slot.toNat false,
          indigo.dirty := setBit t.indigo.dirty slot.toNat true,
          indigo.te := { t.indigo.te with loaded := setBit t.indigo.te.loaded slot.toNat true,
                                          progSlot := if t.indigo.te.progSlot == some slot.toNat then none else t.indigo.te.progSlot },
          indigo.se := { t.indigo.se with loaded := setBit t.indigo.se.loaded slot.toNat true,
                                          progSlot := if t.indigo.se.progSlot == some slot.toNat then none else t.indigo.se.progSlot } })) ∧
    (∀ (slot : Byte) (offset : BitVec 16) (code : List Byte) (u : State), Taken 0x60 rq s → slot.toNat < 8 → offset.toNat + code.length ≤ 8192 →
      (t.indigo.te.slot ≠ slot.toNat ∨ t.indigo.te.st = .idle) →
      (t.indigo.se.slot ≠ slot.toNat ∨ t.indigo.se.st = .idle) → 
        u = { t with
          indigo.store := memWrite t.indigo.store (8192 * slot.toNat + offset.toNat) ((List.range code.length).map (Config.failedStoreByte t.freeCtr)), freeCtr := t.freeCtr + 1, indigo.valid := setBit t.indigo.valid slot.toNat false,
          indigo.dirty := setBit t.indigo.dirty slot.toNat true,
          indigo.te := { t.indigo.te with loaded := setBit t.indigo.te.loaded slot.toNat true,
                                          progSlot := if t.indigo.te.progSlot == some slot.toNat then none else t.indigo.te.progSlot },
          indigo.se := { t.indigo.se with loaded := setBit t.indigo.se.loaded slot.toNat true,
                                          progSlot := if t.indigo.se.progSlot == some slot.toNat then none else t.indigo.se.progSlot } } →
        exec (.kernelLoad rq slot offset code false) s = .next (answered rq stOk [] (raise 0x6E (det (inst2 (imageEngine u slot.toNat) slot.toNat) 0 0 0) u))) ∧
    (∀ (slot : Byte) (crc : Word), Taken 0x61 rq s → slot.toNat < 8 →
      crc32c (memRead t.indigo.store (8192 * slot.toNat) (min (16 + 4 * slotField t slot.toNat 2 2) 8192)) = crc → headerOk t slot.toNat = true →
      exec (.kernelCommit rq slot crc) s = .next (answered rq stOk [] (raise 0x6D (det (inst2 (imageEngine t slot.toNat) slot.toNat) 0 0 0)
        { compareDone 1 true false t with indigo.valid := setBit (compareDone 1 true false t).indigo.valid slot.toNat true,
                                          indigo.dirty := setBit (compareDone 1 true false t).indigo.dirty slot.toNat false }))) ∧
    (∀ (slot : Byte) (crc : Word), Taken 0x61 rq s → slot.toNat < 8 →
      crc32c (memRead t.indigo.store (8192 * slot.toNat) (min (16 + 4 * slotField t slot.toNat 2 2) 8192)) ≠ crc →
      exec (.kernelCommit rq slot crc) s =
        .next (answered rq stBadParam [] (raise 0x39 (chkDetail 1 crc.toNat (compareDone 1 false false t)) (compareDone 1 false false t)))) ∧
    (∀ (slot engine : Byte) (args : List Byte), Taken 0x62 rq s → engine.toNat ≤ 1 → args.length ≤ 16 → slot.toNat ≠ 0xFF →
      heldAgainst rq (22 + engine.toNat) ((eng t (engOf engine.toNat)).st != .running) t = false → launchBad t (engOf engine.toNat) slot.toNat args.length = false →
      t.indigo.selfTest = false →
      exec (.kernelLaunch rq slot engine args) s = .next (answered rq stOk [] (noteOrder rq [22 + engine.toNat]
        (launch (engOf engine.toNat) slot.toNat ((List.range ((args.length + 3) / 4)).map fun i => BitVec.ofNat 32 (field args (4 * i) 4)) t)))) ∧
    (∀ (slot engine : Byte) (args : List Byte), Taken 0x62 rq s → engine.toNat ≤ 1 → args.length ≤ 16 → slot.toNat ≠ 0xFF →
      heldAgainst rq (22 + engine.toNat) ((eng t (engOf engine.toNat)).st != .running) t = false → launchBad t (engOf engine.toNat) slot.toNat args.length = false →
      t.indigo.selfTest = true →
      exec (.kernelLaunch rq slot engine args) s = .next (answered rq stQueued [] (noteOrder rq [22 + engine.toNat]
        (deferLaunch (engOf engine.toNat) slot.toNat ((List.range ((args.length + 3) / 4)).map fun i => BitVec.ofNat 32 (field args (4 * i) 4))
          (some (rq.host, rq.seq.toNat)) (keepQueued rq t))))) ∧
    (∀ (engine : Byte) (args : List Byte), Taken 0x62 rq s → engine.toNat ≤ 1 → args.length ≤ 16 → heldAgainst rq (22 + engine.toNat) true t = false →
      (eng t (engOf engine.toNat)).st = .suspended → t.indigo.off = false → contextOk (engOf engine.toNat) t = true → t.indigo.selfTest = false →
      resident (engOf engine.toNat) (field (memRead t.indigo.pad (ctxBase t (engOf engine.toNat)) 4) 2 1)
        (setEng (engOf engine.toNat) (fun g => { g with st := .loading, pendingResume := true }) (leaveIdle 7 t)) = false →
      exec (.kernelLaunch rq 0xFF engine args) s = .next (answered rq stOk [] (noteOrder rq [22 + engine.toNat]
        (setEng (engOf engine.toNat) (fun g => { g with st := .loading, pendingResume := true }) (leaveIdle 7 t))))) ∧
    (∀ (engine : Byte) (args : List Byte), Taken 0x62 rq s → engine.toNat ≤ 1 → args.length ≤ 16 → heldAgainst rq (22 + engine.toNat) true t = false →
      (eng t (engOf engine.toNat)).st = .suspended → t.indigo.off = false → contextOk (engOf engine.toNat) t = true → t.indigo.selfTest = true →
      exec (.kernelLaunch rq 0xFF engine args) s = .next (answered rq stQueued [] (noteOrder rq [22 + engine.toNat]
        (deferLaunch (engOf engine.toNat) 0xFF [] (some (rq.host, rq.seq.toNat)) (keepQueued rq t))))) ∧
    (Taken 0x63 rq s → exec (.kernelStop rq 0) s = .next (answered rq stOk [] (noteOrder rq [22] (stopEngine .te false t)))) ∧
    (Taken 0x63 rq s → exec (.kernelStop rq 1) s = .next (answered rq stOk [] (noteOrder rq [23] (stopEngine .se false t)))) ∧
    (Taken 0x63 rq s → exec (.kernelStop rq 2) s =
      .next (answered rq stOk [] (noteOrder rq [22, 23] (stopEngine .se false (stopEngine .te false t))))) ∧
    (Taken 0x63 rq s → exec (.kernelStop rq 0x80) s = .next (answered rq stOk [] (noteOrder rq [22] (stopEngine .te true t)))) ∧
    (Taken 0x63 rq s → exec (.kernelStop rq 0x81) s = .next (answered rq stOk [] (noteOrder rq [23] (stopEngine .se true t)))) ∧
    (Taken 0x63 rq s → exec (.kernelStop rq 0x82) s =
      .next (answered rq stOk [] (noteOrder rq [22, 23] (stopEngine .se true (stopEngine .te true t))))) ∧
    (∀ (sec : BitVec 48) (ns : Word) (mask : BitVec 16) (amp imax imin step : Byte), Taken 0x65 rq s →
      sweepBad s sec.toNat ns.toNat mask amp.toNat imax.toNat imin.toNat step.toNat = false →
      ((ones mask).any fun k => heldAgainst rq (5 + k) (!stimOn s false k) s) = false →
      exec (.sweepStart rq sec ns mask amp imax imin step) s = .next (answered rq stQueued [] (keepQueued rq (noteOrder rq (chObjs mask)
        { endStim mask 0 s with sweep := { (endStim mask 0 s).sweep with
            st := .waiting, point := 0, passB := false, num := s.sweep.num + 1, startSec := sec.toNat, startNs := ns.toNat, mask := mask, amp := amp.toNat,
            imax := imax.toNat, imin := imin.toNat, step := step.toNat, nc := false, hold := false, byCmd := some (rq.host, rq.seq.toNat),
            samples := [], bad := 0, curBad := false, meanSum := List.replicate 16 0, meanCnt := 0, fitCell := 0 } })))) ∧
    (∀ (sec : BitVec 48) (ns : Word) (mask : BitVec 16) (amp imax imin step : Byte), Taken 0x65 rq s →
      sweepBad s sec.toNat ns.toNat mask amp.toNat imax.toNat imin.toNat step.toNat = true →
      exec (.sweepStart rq sec ns mask amp imax imin step) s = .next (answered rq stBadParam [] s))

/-- FW_LOAD, FW_ACTIVATE, CFG_WRITE, CFG_COMMIT, BIND_HOST, KEY_PROVISION and PROOF_RUN. Where the shared checks pass: a first part of FW_LOAD shorter
than its length field begins the inactive bank anew; a later part that continues what was received, and does not go beyond the length already read, is
added; while a check runs FW_LOAD draws BAD_PARAM. FW_ACTIVATE of a complete image with outputs off, no sweep, no proof cycle and no PRE_ALARM or
ALARM is queued, and otherwise draws BAD_PARAM. CFG_WRITE writes the working copy inside its 2048 bytes. CFG_COMMIT is queued. BIND_HOST and
KEY_PROVISION that nothing seals or refuses take effect and raise events 0x19 and 0x1A; a sealed one draws SEALED. PROOF_RUN, while no cycle runs,
makes the cycle due and is queued. -/
def Obligations.FirmwareAndConfiguration : Prop :=
  ∀ (rq : Req) (s : State),
    (∀ image : List Byte, Taken 0xA0 rq s → s.fw.checking = [] → image.length < 8 → exec (.fwLoad rq 0 image) s =
      .next (answered rq stOk [] (unqualify (setInactive (memWrite [] 0 image) { s with fw.rcvd := image.length, fw.declared := none, fw.busy := true })))) ∧
    (∀ (offset : Word) (image : List Byte), Taken 0xA0 rq s → s.fw.checking = [] → offset ≠ 0 → offset.toNat = s.fw.rcvd → 8 ≤ offset.toNat →
      offset.toNat + image.length ≤ 131072 →
      offset.toNat + image.length ≤ field (memRead (memWrite (if s.sys.bank then s.fw.imgA else s.fw.imgB) offset.toNat image) 4 4) 0 4 →
      exec (.fwLoad rq offset image) s =
        .next (answered rq stOk [] (unqualify (setInactive (memWrite (if s.sys.bank then s.fw.imgA else s.fw.imgB) offset.toNat image)
          { s with fw.rcvd := offset.toNat + image.length, fw.busy := true,
                   fw.declared := some (field (memRead (memWrite (if s.sys.bank then s.fw.imgA else s.fw.imgB) offset.toNat image) 4 4) 0 4) })))) ∧
    (∀ (offset : Word) (image : List Byte), Taken 0xA0 rq s → s.fw.checking ≠ [] → exec (.fwLoad rq offset image) s = .next (answered rq stBadParam [] s)) ∧
    (∀ crc : Word, Taken 0xA1 rq s → imageComplete s = true → anyOutputOn s = false → sweepBusy s = false → proofRuns s = false →
      s.watch.level ≠ .preAlarm → s.watch.level ≠ .alarm →
      exec (.fwActivate rq crc) s =
        .next (answered rq stQueued [] (keepQueued rq { s with fw.checking := s.fw.checking ++ [(crc, rq.host, rq.seq.toNat)] }))) ∧
    (∀ crc : Word, Taken 0xA1 rq s → imageComplete s = false ∨ anyOutputOn s = true ∨ sweepBusy s = true ∨ proofRuns s = true ∨
        s.watch.level = .preAlarm ∨ s.watch.level = .alarm → exec (.fwActivate rq crc) s = .next (answered rq stBadParam [] s)) ∧
    (∀ (offset : BitVec 16) (bytes : List Byte), Taken 0xC0 rq s → offset.toNat + bytes.length ≤ 2048 → exec (.cfgWrite rq offset bytes) s =
      .next (answered rq stOk [] { s with nv.cfgWork := memWrite s.nv.cfgWork offset.toNat bytes })) ∧
    (∀ crc : Word, Taken 0xC1 rq s → exec (.cfgCommit rq crc) s =
      .next (answered rq stQueued [] (keepQueued rq { s with nv.cfgChecking := s.nv.cfgChecking ++ [(crc, rq.host, rq.seq.toNat)] }))) ∧
    (∀ host position port authority : Byte, Taken 0xB0 rq s → bindSealed host.toNat authority.toNat s = false →
      bindRefused host.toNat position.toNat port.toNat authority.toNat s = false → exec (.bindHost rq host position port authority) s =
        .next (answered rq stOk [] (raise 0x19 (det (inst2 host.toNat port.toNat) rq.seq.toNat stOk 0)
          (bindHost host.toNat position.toNat port.toNat authority.toNat s)))) ∧
    (∀ host position port authority : Byte, Taken 0xB0 rq s → bindSealed host.toNat authority.toNat s = true →
      exec (.bindHost rq host position port authority) s = .next (answered rq stSealed [] s)) ∧
    (∀ (host : Byte) (key : List Byte) (b : Binding), Taken 0xB1 rq s → binding s host.toNat = some b → b.auth = .meter ∨ b.auth = .safety →
      sealedFor [some b.auth] s = false → host.toNat ≤ 3 → key.length = 16 → key.all (· == 0) = false →
      exec (.keyProvision rq host key) s =
        .next (answered rq stOk [] (raise 0x1A (det (inst2 host.toNat (b2n b.uart)) rq.seq.toNat stOk 0) (storeKey host.toNat key s)))) ∧
    (∀ (host : Byte) (key : List Byte) (b : Binding), Taken 0xB1 rq s → binding s host.toNat = some b → sealedFor [some b.auth] s = true →
      exec (.keyProvision rq host key) s = .next (answered rq stSealed [] s)) ∧
    (Taken 0x72 rq s → proofRuns s = false → exec (.proofRun rq) s =
      .next (answered rq stQueued [] (keepQueued rq (proofFallsDue { s with watch.pby := s.watch.pby ++ [(rq.host, rq.seq.toNat)] })))) ∧
    (Taken 0x72 rq s → proofRuns s = true → exec (.proofRun rq) s = .next (answered rq stBadParam [] s))

/-- CONTACTOR, CURRENT_LIMIT, RESET_REQ, SAFE_PARAM_WRITE, COMMIT_SEAL, ALARM_CLR and UNSEAL. Where the shared checks pass: CONTACTOR off turns the output
off; CONTACTOR on leaves a driven output as it is; an output that is not driven starts its ramp with event 0x80 where no cause refuses it, and draws
BAD_PARAM with the lowest cause recorded where one does; a SAFETY host's order can overrule it. CURRENT_LIMIT sets each limit that no order of SAFETY
holds lower, and a limit so held is overruled. RESET_REQ with something latched arms the reset, and otherwise draws BAD_PARAM. SAFE_PARAM_WRITE of an
unsealed block with every output off writes its bytes and starts retyped inputs anew. COMMIT_SEAL of an unsealed block with every output off is
queued. A sealed block draws SEALED from both. ALARM_CLR with its key ends a latched ALARM that nothing demands any longer, and otherwise draws
BAD_PARAM. UNSEAL with its key from an OPERATOR, with every output off and the block sealed, arms the unsealing, and otherwise changes nothing. -/
def Obligations.SafetyCommands : Prop :=
  ∀ (rq : Req) (s : State),
    (∀ o : Fin 3, Taken 0x80 rq s → exec (.contactor rq (BitVec.ofNat 8 o.val) 0) s =
      .next (answered rq stOk [] (noteOrder rq [o.val] (classB 3 (openLoadNow (turnOff o.val .off s) != 0)
        { turnOff o.val .off s with verm.openLoad := openLoadNow (turnOff o.val .off s) })))) ∧
    (∀ o : Fin 3, Taken 0x80 rq s → driven (nth s.verm.outs o.val {}) = true → exec (.contactor rq (BitVec.ofNat 8 o.val) 1) s = .next (answered rq stOk [] s)) ∧
    (∀ o : Fin 3, Taken 0x80 rq s → driven (nth s.verm.outs o.val {}) = false → closeRefused o.val s = 0 → vermRuns s = true →
      heldAgainst rq o.val true s = false → s.verm.strobeLost = false → exec (.contactor rq (BitVec.ofNat 8 o.val) 1) s =
        .next (answered rq stOk [] (noteOrder rq [o.val] (raise 0x80 (vermDetail o.val s.cell.isnsMa 1 s.verm.refuse)
          (updOut o.val (fun x => { x with st := .ramp, atClk := s.clk, offFails := 0 }) s))))) ∧
    (∀ o : Fin 3, Taken 0x80 rq s → driven (nth s.verm.outs o.val {}) = false → closeRefused o.val s ≠ 0 →
      exec (.contactor rq (BitVec.ofNat 8 o.val) 1) s = .next (answered rq stBadParam [] { s with verm.refuse := closeRefused o.val s })) ∧
    (∀ o : Fin 3, Taken 0x80 rq s → driven (nth s.verm.outs o.val {}) = false → closeRefused o.val s = 0 → vermRuns s = true → heldAgainst rq o.val true s = true →
      exec (.contactor rq (BitVec.ofNat 8 o.val) 1) s =
        .next (answered rq stOverruled [] (raise 0x1C (det (inst2 rq.host.val (reqPort rq s)) rq.seq.toNat stOverruled 1) s))) ∧
    (∀ charge discharge : BitVec 16, Taken 0x81 rq s → heldAgainst rq 3 (decide (s.verm.cmdChg < charge.toNat)) s = false →
      heldAgainst rq 4 (decide (s.verm.cmdDis < discharge.toNat)) s = false → exec (.currentLimit rq charge discharge) s =
      .next (answered rq stOk [] (noteOrder rq [4] { noteOrder rq [3] { s with verm.cmdChg := charge.toNat } with verm.cmdDis := discharge.toNat }))) ∧
    (∀ charge discharge : BitVec 16, Taken 0x81 rq s → heldAgainst rq 3 (decide (s.verm.cmdChg < charge.toNat)) s = true →
      heldAgainst rq 4 (decide (s.verm.cmdDis < discharge.toNat)) s = true → exec (.currentLimit rq charge discharge) s =
      .next (answered rq stOverruled [] (raise 0x1C (det (inst2 rq.host.val (reqPort rq s)) rq.seq.toNat stOverruled 1) s))) ∧
    (Taken 0x82 rq s → s.verm.faultA ≠ 0 ∨ s.verm.inps.any (·.latch) = true →
      exec (.resetReq rq) s = .next (answered rq stOk [] { s with verm.armReset := some s.clk, verm.newA := false })) ∧
    (Taken 0x82 rq s → s.verm.faultA = 0 → s.verm.inps.any (·.latch) = false → exec (.resetReq rq) s = .next (answered rq stBadParam [] s)) ∧
    (∀ (offset : Byte) (bytes : List Byte), Taken 0x83 rq s → s.verm.isSealed = false → offset.toNat + bytes.length ≤ 256 → anyOutputOn s = false →
      exec (.safeParamWrite rq offset bytes) s = .next (answered rq stOk [] (evalTwoHand
        { s with verm.block := overwrite s.verm.block offset.toNat bytes,
                 verm.inps := retyped s { s with verm.block := overwrite s.verm.block offset.toNat bytes } }))) ∧
    (∀ (offset : Byte) (bytes : List Byte), Taken 0x83 rq s → s.verm.isSealed = true →
      exec (.safeParamWrite rq offset bytes) s = .next (answered rq stSealed [] s)) ∧
    (∀ mordant : Word, Taken 0x85 rq s → s.verm.isSealed = false → anyOutputOn s = false → exec (.commitSeal rq mordant) s =
      .next (answered rq stQueued [] (keepQueued rq { s with verm.sealing := s.verm.sealing ++ [(mordant, rq.host, rq.seq.toNat)] }))) ∧
    (∀ mordant : Word, Taken 0x85 rq s → s.verm.isSealed = true → exec (.commitSeal rq mordant) s = .next (answered rq stSealed [] s)) ∧
    (Taken 0x03 rq s → s.watch.level = .alarm → (itemsNow s).isEmpty = true → s.watch.own = 0 → (seenNow s).isEmpty = true → exec (.alarmClr rq 0xC3) s =
      .next (answered rq stOk [] (enterLevel .none false { s with watch.strong := false, sys.sentinelAlarm := false }))) ∧
    (∀ key : Byte, Taken 0x03 rq s → key ≠ 0xC3 ∨ s.watch.level ≠ .alarm ∨ (itemsNow s).isEmpty = false ∨ s.watch.own ≠ 0 ∨ (seenNow s).isEmpty = false →
      exec (.alarmClr rq key) s = .next (answered rq stBadParam [] s)) ∧
    (rq.auth = .operator → s.verm.outs.all (·.st == .off) = true → s.verm.isSealed = true →
      exec (.unseal rq 0x5E) s = .next { s with verm.armUnseal := some s.clk }) ∧
    (∀ key : Byte, key ≠ 0x5E ∨ rq.auth ≠ .operator ∨ s.verm.outs.all (·.st == .off) = false ∨ s.verm.isSealed = false → exec (.unseal rq key) s = .next s)

/-- MTR_READ, MTR_RECORDS, MTR_CONFIG, MTR_PUBKEY, MTR_SWID, MTR_UPDATE and METER_UPDATE_DONE. Where the shared checks pass on a member whose meter
answers: MTR_READ answers the registers, the means and the state; MTR_CONFIG of a meter that is neither sealed nor in fault, with a new length, closes
the interval and opens one of that length with an audit entry, and with its own length changes nothing; a sealed meter draws SEALED; MTR_PUBKEY and
MTR_SWID answer the key and the software identity; a part of MTR_UPDATE with the seal contact open, no check running and the image still incomplete is
kept, and the last part is queued for the check. MTR_RECORDS gives its host slots, 16 at most, bit 7 restarting the records, and 0 withdraws them. The
end of the check of an image activates it or raises event 0x94, and completes the command. -/
def Obligations.MeterCommands : Prop :=
  ∀ (rq : Req) (s : State),
    (Taken 0x90 rq s → umbTalks s = true → exec (.mtrRead rq) s =
      .next (answered rq stOk (le 8 (umbReg s 0) ++ le 8 (umbReg s 1) ++ le 8 (umbReg s 2) ++ le 8 (umbReg s 3) ++
        leI 4 s.umber.i ++ leI 3 s.umber.v ++ le 1 (meterCode s.umber.st)) s)) ∧
    (∀ slots : Byte, Taken 0x91 rq s → slots.toNat ≠ 0 → exec (.mtrRecords rq slots) s =
      .next (answered rq stOk [] { s with umber.slots := s.umber.slots.set rq.host.val (min 16 (nth s.umber.slots rq.host.val 0 + slots.toNat % 128)),
                                          umber.restart := if 128 ≤ slots.toNat then s.umber.restart.set rq.host.val true else s.umber.restart })) ∧
    (Taken 0x91 rq s → exec (.mtrRecords rq 0) s = .next (answered rq stOk [] { s with umber.slots := s.umber.slots.set rq.host.val 0 })) ∧
    (∀ interval : Byte, Taken 0x92 rq s → umbTalks s = true → s.umber.st ≠ .sealed → s.umber.st ≠ .fault → lengthOk interval.toNat = true →
      interval.toNat ≠ s.umber.len → exec (.mtrConfig rq interval) s =
        .next (answered rq stOk [] (openInterval (auditChange 3 { closeNow 64 (boundaryFirst s) with umber.len := interval.toNat })))) ∧
    (∀ interval : Byte, Taken 0x92 rq s → umbTalks s = true → s.umber.st ≠ .sealed → s.umber.st ≠ .fault → lengthOk interval.toNat = true →
      interval.toNat = s.umber.len → exec (.mtrConfig rq interval) s = .next (answered rq stOk [] s)) ∧
    (∀ interval : Byte, Taken 0x92 rq s → umbTalks s = true → s.umber.st = .sealed → exec (.mtrConfig rq interval) s = .next (answered rq stSealed [] s)) ∧
    (Taken 0x93 rq s → umbTalks s = true → exec (.mtrPubkey rq) s = .next (answered rq stOk ((List.range 64).map Config.umberPublicKey) s)) ∧
    (Taken 0x94 rq s → umbTalks s = true → exec (.mtrSwid rq) s = .next (answered rq stOk (le 4 s.umber.swidNow.toNat) s)) ∧
    (∀ image : List Byte, Taken 0x95 rq s → umbTalks s = true → s.pins.sealN = false → s.umber.updBy = none → image.length < 8 →
      exec (.mtrUpdate rq 0 image) s = .next (answered rq stOk [] { dropImage s with umber.upd := image })) ∧
    (∀ (offset : Word) (image : List Byte), Taken 0x95 rq s → umbTalks s = true → s.pins.sealN = false → s.umber.updBy = none → offset ≠ 0 →
      offset.toNat = s.umber.upd.length → 8 ≤ offset.toNat → (s.umber.upd ++ image).length = field (s.umber.upd ++ image) 4 4 → (s.umber.upd ++ image).length ≤ 49152 →
      exec (.mtrUpdate rq offset image) s = .next (answered rq stQueued []
        (keepQueued rq { s with umber.upd := s.umber.upd ++ image, umber.updBy := some (rq.host, rq.seq.toNat) }))) ∧
    (∀ (offset : Word) (image : List Byte), Taken 0x95 rq s → umbTalks s = true → s.pins.sealN = true →
      exec (.mtrUpdate rq offset image) s = .next (answered rq stSealed [] s)) ∧
    (∀ (h : Fin 4) (q : Nat), s.umber.updBy = some (h, q) → exec .meterUpdateDone s =
      .next (completeQueued h q (le 1 (imageResult s.umber.upd s))
        (if imageResult s.umber.upd s = 0 then activateImage s.umber.upd { s with umber.upd := [], umber.updBy := none }
         else raiseUmb 0x94 0 { s with umber.upd := [], umber.updBy := none }))) ∧
    (s.umber.updBy = none → exec .meterUpdateDone s = .next s)

/-- LOG_FREEZE, LOG_WRITE, LOG_MEMORY_TIMEOUT, SHADOW_UPDATE, LOG_RATE_REFILL, FREEZE_END and OPERATING_MINUTE. LOG_FREEZE of 1 to 10 seconds, with no
freeze running and none ended within the last 10 s, starts one and raises event 0x99; while one runs it moves its end, 10 s from its start at most; 0
ends it; more than 10 seconds, or a freeze too soon after the last, draws BAD_PARAM. LOG_WRITE takes the oldest waiting entry, ALARM entries first,
then held entries once no freeze runs, then the write queue, and does nothing without one or before the start-up scan: a dead recorder writes last
words for severity 3 and counts other drops; an entry like a recent one adds to its repeat count; during a freeze an entry is held where its queue has
room; a severity of 0 or 1 without a token is lost; any other entry is written. A memory timeout latches the recorder dead with the entry it would
take next. A shadow update writes a pending repeat count where it is due, and nothing otherwise. A refill adds one token up to 64. The end of a freeze
raises event 0x99. An operating minute is counted outside SHIP and saved every ten minutes. -/
def Obligations.RecorderRows : Prop :=
  (∀ (rq : Req) (seconds : Byte) (s : State), Taken 0x99 rq s → seconds.toNat ≠ 0 → seconds.toNat ≤ 10 → s.log.freezeEnd = none →
      (∀ last, s.log.lastFreeze = some last → last + 10 * Config.sec ≤ s.clk) →
      exec (.logFreeze rq seconds) s = .next (answered rq stOk []
        (raise 0x99 (logDetail 0 { s with log.freezeEnd := some (s.clk, s.clk + seconds.toNat * Config.sec), log.holdEvt := false })
          { s with log.freezeEnd := some (s.clk, s.clk + seconds.toNat * Config.sec), log.holdEvt := false }))) ∧
    (∀ (rq : Req) (seconds : Byte) (begun ends : Nat) (s : State), Taken 0x99 rq s → seconds.toNat ≠ 0 → seconds.toNat ≤ 10 → s.log.freezeEnd = some (begun, ends) →
      exec (.logFreeze rq seconds) s = .next (answered rq stOk []
        { s with log.freezeEnd := some (begun, min (s.clk + seconds.toNat * Config.sec) (begun + 10 * Config.sec)) })) ∧
    (∀ (rq : Req) (s : State), Taken 0x99 rq s → s.log.freezeEnd.isSome = true → exec (.logFreeze rq 0) s =
      .next (answered rq stOk [] (raise 0x99 (logDetail 0 { s with log.freezeEnd := none, log.lastFreeze := some s.clk, log.holdEvt := false })
        { s with log.freezeEnd := none, log.lastFreeze := some s.clk, log.holdEvt := false }))) ∧
    (∀ (rq : Req) (s : State), Taken 0x99 rq s → s.log.freezeEnd = none → exec (.logFreeze rq 0) s = .next (answered rq stOk [] s)) ∧
    (∀ (rq : Req) (seconds : Byte) (last : Nat) (s : State), Taken 0x99 rq s →
      10 < seconds.toNat ∨ (seconds.toNat ≠ 0 ∧ s.log.freezeEnd = none ∧ s.log.lastFreeze = some last ∧ s.clk < last + 10 * Config.sec) →
      exec (.logFreeze rq seconds) s = .next (answered rq stBadParam [] s)) ∧
    (∀ (v : List Bool) (s : State), s.log.scanDone = false ∨ waitingEntry s = none → exec (.logWrite v) s = .next s) ∧
    (∀ (v : List Bool) (e : LogIn) (s t : State), s.log.scanDone = true → waitingEntry s = some (e, t) → t.log.dead = true →
      exec (.logWrite v) s = .next (if e.sev = 3 then lastWords e (v.getD 0 true) t else dropCounted t)) ∧
    (∀ (v : List Bool) (e : LogIn) (c : RepCand) (s t : State), s.log.scanDone = true → waitingEntry s = some (e, t) → t.log.dead = false → repeatOf e t = some c →
      exec (.logWrite v) s = .next (addRepeat c (e.rep + 1) t)) ∧
    (∀ (v : List Bool) (e : LogIn) (s t : State), s.log.scanDone = true → waitingEntry s = some (e, t) → t.log.dead = false → repeatOf e t = none →
      t.log.freezeEnd.isSome = true → t.log.holdq.length < 32 → exec (.logWrite v) s = .next { t with log.holdq := t.log.holdq ++ [{ e with held := true }] }) ∧
    (∀ (v : List Bool) (e : LogIn) (s t : State), s.log.scanDone = true → waitingEntry s = some (e, t) → t.log.dead = false → repeatOf e t = none →
      t.log.freezeEnd = none → t.log.next ≤ 0xFFFFFFFF → 2 ≤ e.sev → exec (.logWrite v) s = .next (writeTo 3 e v t)) ∧
    (∀ (v : List Bool) (e : LogIn) (s t : State), s.log.scanDone = true → waitingEntry s = some (e, t) → t.log.dead = false → repeatOf e t = none →
      t.log.freezeEnd = none → t.log.next ≤ 0xFFFFFFFF → e.sev ≤ 1 → t.log.tokens ≠ 0 →
      exec (.logWrite v) s = .next (writeTo 3 e v { t with log.tokens := t.log.tokens - 1 })) ∧
    (∀ (v : List Bool) (e : LogIn) (s t : State), s.log.scanDone = true → waitingEntry s = some (e, t) → t.log.dead = false → repeatOf e t = none →
      t.log.freezeEnd = none → t.log.next ≤ 0xFFFFFFFF → e.sev ≤ 1 → t.log.tokens = 0 →
      exec (.logWrite v) s = .next (dropRecord { t with log.rateLoss := satAdd 255 t.log.rateLoss 1 })) ∧
    (∀ s : State, exec .logMemoryTimeout s =
      .next (match waitingEntry s with | some (e, t) => latchDead 3 (some e) t | none => latchDead 3 none s)) ∧
    (∀ (src : Byte) (c : RepCand) (r : Rec) (s : State), s.log.cands.lookup src.toNat = some c → logSlot s c.slot = some r → c.pending ≠ 0 →
      secondPassed s c.shadowAt = true ∨ c.atClk + 60 * Config.sec ≤ s.clk → r.seq = c.seq → s.log.freezeEnd = none → c.slot < 4096 → s.log.dead = false →
      exec (.shadowUpdate src) s =
        .next { s with log.slots := putSlot c.slot { r with rep := min 0xFFFF (r.rep + c.pending), shadowOk := true } s.log.slots,
                       log.cands := (c.evid, { c with pending := 0, shadowAt := some s.clk }) :: s.log.cands.filter (fun x => x.1 != c.evid) }) ∧
    (∀ (src : Byte) (s : State), s.log.cands.lookup src.toNat = none ∨ s.log.freezeEnd.isSome = true ∨ s.log.dead = true → exec (.shadowUpdate src) s = .next s) ∧
    (∀ s : State, exec .logRateRefill s = .next { s with log.tokens := min 64 (s.log.tokens + 1) }) ∧
    (∀ s : State, s.log.freezeEnd.isSome = true → exec .freezeEnd s =
      .next (raise 0x99 (logDetail 0 { s with log.freezeEnd := none, log.lastFreeze := some s.clk, log.holdEvt := false })
        { s with log.freezeEnd := none, log.lastFreeze := some s.clk, log.holdEvt := false })) ∧
    (∀ s : State, s.log.freezeEnd = none → exec .freezeEnd s = .next s) ∧
    (∀ s : State, s.sys.mode ≠ .ship → s.sys.powered = true → exec .operatingMinute s =
      .next { s with log.opmin := (s.log.opmin + 1) % 2 ^ 32,
                     log.opminSaved := if s.log.opminSaved + 10 ≤ s.log.opmin + 1 then s.log.opmin + 1 else s.log.opminSaved }) ∧
    (∀ s : State, s.sys.mode = .ship ∨ s.sys.powered = false → exec .operatingMinute s = .next s)

/-- The rows of the host ports and of the dispatch tick. SPI_TRANSACTION, UART_FRAME, BREAK_STUCK, BREAK_RELEASE, LOCKOUT_EXPIRY and BAUD_CHANGE:
SPI_TRANSACTION: with SPI off or without host supply nothing changes; else SDO carries STAT, the length of the item that waits, the item, and zeros,
as many bytes as are clocked in. While the ports are not awake, or no byte is clocked in, that is all. An operation byte that is neither 0xA5 nor 0x5A
sets DROP too; a read delivers the item where all of it is clocked; a write does the same and takes the packet that follows, and where no item waited
as it began SDO carries the one that waits after the packet. UART_FRAME takes the characters received one after the other; with the UART off, the
ports not awake or the break stuck nothing changes. BREAK_STUCK empties the frame in progress, has RXD ignored and raises event 0x14; BREAK_RELEASE
ends that; LOCKOUT_EXPIRY ends the host's lockout; BAUD_CHANGE puts HOST_CFG.BAUD in use with event 0x1E where a change waits, and else changes
nothing. COMMAND_DISPATCHABLE, DISPATCH_TICK_END, NO_REPLY and GROUP_REPLY_TIMEOUT: COMMAND_DISPATCHABLE: the oldest waiting command joins the tick
behind those already there; with none waiting nothing changes. DISPATCH_TICK_END: where the counter has passed a boundary, or time is UNSET, the next
tick begins, and the commands due are executed in order against the orders of all of them; else nothing changes. NO_REPLY: the slot that waits for
that number's reply to a command for one member is filled with NO_REPLY; GROUP_REPLY_TIMEOUT: that of a command for a group is combined from what was
reported; where no slot waits for it, or one of the other sort, neither changes anything. -/
def Obligations.HostPortRows : Prop :=
  ((∀ (l : List Byte) (s : State), rf s.regs.hostCfg 4 4 = 0 ∨ s.pins.vddio = false → exec (.spiTransaction l) s = .next s) ∧
    (∀ (l : List Byte) (s : State), rf s.regs.hostCfg 4 4 ≠ 0 → s.pins.vddio = true → portsAwake s = false →
      exec (.spiTransaction l) s = .next { s with host.sdo := spiOut l.length s (spiItem s) }) ∧
    (∀ s : State, rf s.regs.hostCfg 4 4 ≠ 0 → s.pins.vddio = true → portsAwake s = true → exec (.spiTransaction []) s = .next { s with host.sdo := spiOut 0 s (spiItem s) }) ∧
    (∀ (op : Byte) (l : List Byte) (s : State), rf s.regs.hostCfg 4 4 ≠ 0 → s.pins.vddio = true → portsAwake s = true → op ≠ 0xA5 → op ≠ 0x5A →
      exec (.spiTransaction (op :: l)) s = .next { s with host.sdo := spiOut (l.length + 1) s (spiItem s), host.drop := true }) ∧
    (∀ (l : List Byte) (s : State), rf s.regs.hostCfg 4 4 ≠ 0 → s.pins.vddio = true → portsAwake s = true →
      exec (.spiTransaction (0x5A :: l)) s = .next (spiRead (l.length + 1) { s with host.sdo := spiOut (l.length + 1) s (spiItem s) })) ∧
    (∀ (l : List Byte) (s : State), rf s.regs.hostCfg 4 4 ≠ 0 → s.pins.vddio = true → portsAwake s = true → spiItem s ≠ [] →
      exec (.spiTransaction (0xA5 :: l)) s = .next (spiPacket l (spiRead (l.length + 1) { s with host.sdo := spiOut (l.length + 1) s (spiItem s) }))) ∧
    (∀ (l : List Byte) (s : State), rf s.regs.hostCfg 4 4 ≠ 0 → s.pins.vddio = true → portsAwake s = true → spiItem s = [] →
      exec (.spiTransaction (0xA5 :: l)) s = .next (spiRead (l.length + 1) { spiPacket l { s with host.sdo := spiOut (l.length + 1) s [] } with
        host.sdo := spiOut (l.length + 1) s (spiItem (spiPacket l { s with host.sdo := spiOut (l.length + 1) s [] })) })) ∧
    (∀ (rxd : List Bool) (s : State), rf s.regs.hostCfg 5 5 ≠ 0 → portsAwake s = true → s.host.breakStuck = false → exec (.uartFrame rxd) s =
      .next ((rxChars rxd true 0).foldl takeChar s)) ∧
    (∀ (rxd : List Bool) (s : State), rf s.regs.hostCfg 5 5 = 0 ∨ portsAwake s = false ∨ s.host.breakStuck = true → exec (.uartFrame rxd) s = .next s) ∧
    (∀ s : State, exec .breakStuck s =
      .next (raise 0x14 (det (inst2 ((portHost s .uart).getD 0) 1) 0 0 1) { s with host.breakStuck := true, host.rx := [], host.rxBad := true })) ∧
    (∀ s : State, exec .breakRelease s = .next { s with host.breakStuck := false }) ∧
    (∀ (h : Fin 4) (s : State), exec (.lockoutExpiry h) s = .next { s with lockout := s.lockout.set h.val false }) ∧
    (∀ s : State, s.host.baudPending = true → exec .baudChange s =
      .next (raise 0x1E (det (inst2 ((portHost s .uart).getD 0) 1) 0 0 0) { s with host.baudInUse := rf s.regs.hostCfg 2 0, host.baudPending := false })) ∧
    (∀ s : State, s.host.baudPending = false → exec .baudChange s = .next s)) ∧
  ((∀ (c : PCmd) (t : List PCmd) (s : State), s.cmd.waiting = c :: t → exec .commandDispatchable s =
      .next { s with cmd.waiting := t, cmd.tick := s.cmd.tick ++ [c] }) ∧
    (∀ s : State, s.cmd.waiting = [] → exec .commandDispatchable s = .next s) ∧
    (∀ (ecc : Ecc) (s : State), tickEnds s = true → exec (.dispatchTickEnd ecc) s =
      .next (dispatchAll ecc (orders ecc (beginTick s) 0 (tickDue s)) 0 (tickDue s) (beginTick s))) ∧
    (∀ (ecc : Ecc) (s : State), tickEnds s = false → exec (.dispatchTickEnd ecc) s = .next s) ∧
    (∀ (p : HPort) (seq : BitVec 12) (sl : Slot) (s : State), (portBuf s p).slots[waitingSlot (portBuf s p) seq.toNat]? = some sl → sl.dev ≠ 0xFE → sl.dev ≠ 0xFF →
      exec (.noReply p seq) s = .next (fillSlot p (waitingSlot (portBuf s p) seq.toNat) true (slotReply s sl stNoReply) s) ∧
      exec (.groupReplyTimeout p seq) s = .next s) ∧
    (∀ (p : HPort) (seq : BitVec 12) (sl : Slot) (s : State), (portBuf s p).slots[waitingSlot (portBuf s p) seq.toNat]? = some sl → sl.dev = 0xFE ∨ sl.dev = 0xFF →
      exec (.groupReplyTimeout p seq) s = .next (combine p (waitingSlot (portBuf s p) seq.toNat) s) ∧ exec (.noReply p seq) s = .next s) ∧
    (∀ (p : HPort) (seq : BitVec 12) (s : State), (portBuf s p).slots[waitingSlot (portBuf s p) seq.toNat]? = none →
      exec (.noReply p seq) s = .next s ∧ exec (.groupReplyTimeout p seq) s = .next s))

/-- POWER_ON_RESET, RST_N_PULSE, MEMBER_RESET, FW_RESTART and TRIAL_BOOT_FAIL. Each is the reset of its cause: POWER_ON_RESET of cause 0; an RST_N low
pulse of 10 ms or longer of cause 1, a shorter one of cause 2, one of less than 1 µs nothing, and one in SHIP that of cause 0 with the bit of its own
cause set too; MEMBER_RESET, where RESET_MEMBER asked for it, of cause 3; FW_RESTART, where a restart is due, and TRIAL_BOOT_FAIL, where a trial bank
is not READY, of cause 4; where they are not, nothing changes. After the reset of any cause the member is neither powered up nor READY, no command
waits, and the hosts' bindings are as before. -/
def Obligations.ResetRows : Prop :=
  (∀ s : State, exec .powerOnReset s = .next (resetTo 0 s)) ∧
    (∀ (lowUs : Nat) (s : State), s.sys.mode ≠ .ship → 1 ≤ lowUs → lowUs < 10000 → exec (.rstNPulse lowUs) s = .next (resetTo 2 s)) ∧
    (∀ (lowUs : Nat) (s : State), s.sys.mode ≠ .ship → 10000 ≤ lowUs → exec (.rstNPulse lowUs) s = .next (resetTo 1 s)) ∧
    (∀ (lowUs : Nat) (s : State), s.sys.mode = .ship → 1 ≤ lowUs → exec (.rstNPulse lowUs) s =
      .next { resetTo 0 s with sys.rstCause := setBit (resetTo 0 s).sys.rstCause (if 10000 ≤ lowUs then 1 else 2) true }) ∧
    (∀ s : State, exec (.rstNPulse 0) s = .next s) ∧
    (∀ s : State, s.sys.resetPending = true → exec .memberReset s = .next (resetTo 3 s)) ∧
    (∀ s : State, s.sys.resetPending = false → exec .memberReset s = .next s) ∧
    (∀ s : State, s.fw.restartDue = true → exec .fwRestart s = .next (resetTo 4 s)) ∧
    (∀ s : State, s.fw.restartDue = false → exec .fwRestart s = .next s) ∧
    (∀ s : State, s.fw.trial = true → s.sys.ready = false → exec .trialBootFail s = .next (resetTo 4 s)) ∧
    (∀ s : State, s.fw.trial = false ∨ s.sys.ready = true → exec .trialBootFail s = .next s) ∧
    (∀ (cause : Nat) (s : State), (resetTo cause s).sys.powered = false ∧ (resetTo cause s).sys.ready = false ∧ (resetTo cause s).cmd.waiting = [] ∧
      (resetTo cause s).nv.bindings = s.nv.bindings)

/-- POWER_UP, BOOT_COMPLETE, CLOCK_CHECK, XTAL_TAKEN and XTAL_STOP. POWER_UP of an unpowered member makes it powered and ACTIVE with the supply readings,
takes the anchor pin and the known-answer tests, chooses the bank and the configuration copy and applies it, starts Vermilion, scans the log and
starts both sensor ports, in this order; a powered one keeps its state. BOOT_COMPLETE makes a powered member that is not READY READY, ends a trial,
gives the next proof its time, raises event 0x00 after a power-on and 0x01 after another reset, 0x0B where it fell back to the other bank, the ALARM
again where it is latched, and 0x2D after a wake tone, and goes on with an ENUM that was held; else nothing changes. CLOCK_CHECK on a powered member
marks an island that deviates for the second time in a row as failed, with what follows from it, raises event 0x09 once the reference oscillator
deviates twice in a row, has every island that can read its crossings, and records class A cause 5 once islands 17 and 18 are counted right after a
lost strobe; unpowered nothing changes. XTAL_TAKEN notes the crystal; XTAL_STOP forgets it with event 0x07 where it was noted. -/
def Obligations.BootRows : Prop :=
  (∀ (boot : BootIn) (s : State), s.sys.powered = false → exec (.powerUp boot) s =
      .next (startPort 1 (startPort 0 (scanLog boot (startVermilion boot.blockBad (loadConfig (selectCopy boot
        (selectBank boot (knownAnswer boot.katOk (latchAnchor boot.anchorPin
          { s with sys.powered := true, sys.mode := .active, sys.vstk10mV := boot.vstk10mV, sys.vspMV := boot.vspMV })))))))))) ∧
    (∀ (boot : BootIn) (s : State), s.sys.powered = true → exec (.powerUp boot) s = .next s) ∧
    (∀ s : State, s.sys.powered = true → s.sys.ready = false → s.chain.enumHeld = none → exec .bootComplete s = .next (booted s)) ∧
    (∀ (n : Nat) (s : State), s.sys.powered = true → s.sys.ready = false → s.chain.enumHeld = some n → exec .bootComplete s =
      .next (enumStep n { booted s with chain.enumHeld := none })) ∧
    (∀ s : State, s.sys.powered = false ∨ s.sys.ready = true → exec .bootComplete s = .next s) ∧
    (∀ (dev : BitVec 25) (mosc : Bool) (s : State), s.sys.powered = true → exec (.clockCheck dev mosc) s =
      .next (if s.verm.strobeLost = true ∧ (countedRight dev s).getLsbD 17 = true ∧ (countedRight dev s).getLsbD 18 = true
        then classA 5 { readIslands (clocksJudged dev mosc s) with verm.strobeLost := false } else readIslands (clocksJudged dev mosc s))) ∧
    (∀ (dev : BitVec 25) (mosc : Bool) (s : State), s.sys.powered = false → exec (.clockCheck dev mosc) s = .next s) ∧
    (∀ s : State, exec .xtalTaken s = .next { s with sys.xtalOk := true }) ∧
    (∀ s : State, s.sys.xtalOk = true → exec .xtalStop s = .next (raiseSys 0x07 { s with sys.xtalOk := false })) ∧
    (∀ s : State, s.sys.xtalOk = false → exec .xtalStop s = .next s)

/-- The rows of supplies, rails and the fabric. VSTK_LOW_SET, VSTK_LOW_CLEAR, RAIL_FAULT, VDDIO_CHANGE, SUPPLY_UPDATE, STROBE_TIMEOUT and CORE_STALL:
VSTK_LOW_SET on a powered member that does not show it yet ends balancing and any sweep and raises event 0x02, and else changes nothing;
VSTK_LOW_CLEAR ends it with event 0x03. RAIL_FAULT takes both rails' flags, with event 0x06 where one sets; VDDIO_CHANGE takes the host supply;
SUPPLY_UPDATE takes the readings in ACTIVE and IDLE. STROBE_TIMEOUT turns every output off; CORE_STALL with an output on is class A cause 6, and else
changes nothing. CROSSING_MESSAGE and FABRIC_STALL: CROSSING_MESSAGE: the message comes to the sender's side of its crossing and enters it where it
fits; the receiving island then reads its crossings in its arbiter's order where its clock runs or may be restarted, and else reads none.
FABRIC_STALL: a wait of class 0 moves the longest ALARM wait; one of more than 10 ms marks its class as stalled, with event 0x0F where it was not yet
marked. -/
def Obligations.SupplyAndFabricRows : Prop :=
  ((∀ s : State, s.sys.vstkLow = false → s.sys.powered = true → exec .vstkLowSet s =
      .next (raiseSys 0x02 (endSweep 8 (clearBal allCh 3 { markSinks s with sys.vstkLow := true })))) ∧
    (∀ s : State, s.sys.vstkLow = true ∨ s.sys.powered = false → exec .vstkLowSet s = .next s) ∧
    (∀ s : State, s.sys.vstkLow = true → exec .vstkLowClear s = .next (raiseSys 0x03 { s with sys.vstkLow := false })) ∧
    (∀ s : State, s.sys.vstkLow = false → exec .vstkLowClear s = .next s) ∧
    (∀ (a b : Bool) (s : State), (a = true ∧ s.sys.vregFault = false) ∨ (b = true ∧ s.sys.vdd33Fault = false) → exec (.railFault a b) s =
      .next (raiseSys 0x06 { s with sys.vregFault := a, sys.vdd33Fault := b })) ∧
    (∀ (a b : Bool) (s : State), (a = true → s.sys.vregFault = true) → (b = true → s.sys.vdd33Fault = true) → exec (.railFault a b) s =
      .next { s with sys.vregFault := a, sys.vdd33Fault := b }) ∧
    (∀ (present : Bool) (s : State), exec (.vddioChange present) s = .next { s with pins.vddio := present }) ∧
    (∀ (v p : BitVec 16) (s : State), measuring s = true → exec (.supplyUpdate v p) s = .next { s with sys.vstk10mV := v, sys.vspMV := p }) ∧
    (∀ (v p : BitVec 16) (s : State), measuring s = false → exec (.supplyUpdate v p) s = .next s) ∧
    (∀ s : State, exec .strobeTimeout s = .next (allOff { s with verm.strobeLost := true })) ∧
    (∀ s : State, anyOutputOn s = true → exec .coreStall s = .next (classA 6 { s with sys.coreStalled := true })) ∧
    (∀ s : State, anyOutputOn s = false → exec .coreStall s = .next s)) ∧
  ((∀ (src dst : Fin 28) (cls : Fin 6) (bytes : List Byte) (s : State), exec (.crossingMessage src dst cls bytes) s =
      .next (readIsland dst.val { s with sys.xings := addMsg src.val dst.val (mkMsg cls.val bytes) s.sys.xings })) ∧
    (∀ (src dst : Fin 28) (cls : Fin 6) (bytes : List Byte) (s : State), canRead s dst.val = false → exec (.crossingMessage src dst cls bytes) s =
      .next { s with sys.xings := addMsg src.val dst.val (mkMsg cls.val bytes) s.sys.xings }) ∧
    (∀ (cls : Fin 6) (wait : Nat) (s : State), exec (.fabricStall cls wait) s = .next
      (if 100000 < wait ∧ s.sys.stall.getLsbD cls.val = false then raiseSys 0x0F { alarmWaited cls wait s with sys.stall := setBit s.sys.stall cls.val true }
       else if 100000 < wait then { alarmWaited cls wait s with sys.stall := setBit s.sys.stall cls.val true } else alarmWaited cls wait s)))

/-- The rows of IDLE, SENTINEL, SHIP and waking. IDLE_ENTRY, MODE_ENTRY, SENTINEL_WAKE, SENTINEL_BURST, BURST_END and WAKE_COMPLETE: IDLE_ENTRY: a powered
ACTIVE member that IDLE was requested of, or that enters it by itself, with no kernel loaded or running and no reply pending, enters IDLE with event
0x04; else nothing changes. MODE_ENTRY: a pending SENTINEL or SHIP that nothing refuses is entered, a refused one given up with its cause.
SENTINEL_WAKE in SENTINEL, not waking: the conversions are judged and kept, the islands read their messages, and a thermistor that rises, a coarse
cell result out of its limits or an ALARM wakes the member; SENTINEL_BURST, in SENTINEL with bursts enabled, takes VSP's presence and powers the line
of each port in use for a burst; BURST_END takes the burst's value to the watch, or makes the port STALE where it got no frame, and ends its line
power; WAKE_COMPLETE makes a member that wakes ACTIVE, restarts what SENTINEL stopped and raises events 0x0A, 0x2D after a wake tone, and 0x04. Else
none of them changes anything. WAKE_PIN, HOST_WAKE_EDGE, WAKE_TONE and WAKE_TONE_REPEAT: WAKE_PIN: a high WAKE takes a member out of SHIP after 1 ms
with a tone on both sides, and outside SHIP is wake source 0, but below 100 µs in SENTINEL; its fall is noted. HOST_WAKE_EDGE is source 2 (SPI) or 3
(UART) in SENTINEL and while an entry to it is pending, with the host supply there, and else changes nothing. WAKE_TONE ends the tone on its line; a
waking member notes source 1; one in SENTINEL notes it, repeats the tone on the other side and wakes; one in SHIP repeats it and leaves SHIP; an awake
one takes it as source 1. WAKE_TONE_REPEAT sends the tone again while fewer than four went out and no frame came, and else changes nothing. -/
def Obligations.SleepAndWakeRows : Prop :=
  ((∀ s : State, MayIdle s → exec .idleEntry s =
      .next (raiseSys 0x04 { s with sys.mode := .idle, sys.idleReq := false,
                                    cmd.safetyHeld := if s.sys.idleReq then s.cmd.safetyHeld else s.cmd.safetyHeld.filter (· != 21) })) ∧
    (∀ s : State, ¬MayIdle s → exec .idleEntry s = .next s) ∧
    (∀ (m : Mode) (s : State), s.sys.pendingMode = some m → refuseCause m 0x5A s = 0 → exec .modeEntry s = .next (fallAsleep m s)) ∧
    (∀ (m : Mode) (s : State), s.sys.pendingMode = some m → refuseCause m 0x5A s ≠ 0 → exec .modeEntry s =
      .next (refuseMode (refuseCause m 0x5A s) { s with sys.pendingMode := none })) ∧
    (∀ s : State, s.sys.pendingMode = none → exec .modeEntry s = .next s) ∧
    (∀ (cellUV : List Int) (auxUV : List Nat) (v : Nat) (die : Int) (s : State), s.sys.mode = .sentinel → s.sys.waking = false →
      exec (.sentinelWake cellUV auxUV v die) s = .next
        (if ((List.range 8).any fun k => wakeRises (auxConvert auxUV v (measureDie die s)) k) = true ∨ ((List.range 16).any fun k => Config.outsideCoarse (nth cellUV k 0)) = true ∨
            (wakeJudged auxUV v die s).sys.sentinelAlarm = true
          then noteWake 5 (wakeRead auxUV v die s) else wakeRead auxUV v die s)) ∧
    (∀ (cellUV : List Int) (auxUV : List Nat) (v : Nat) (die : Int) (s : State), s.sys.mode ≠ .sentinel ∨ s.sys.waking = true →
      exec (.sentinelWake cellUV auxUV v die) s = .next s) ∧
    (∀ (ok : Bool) (s : State), s.sys.mode = .sentinel → rf s.regs.pwrCtrl 22 22 ≠ 0 → exec (.sentinelBurst ok) s =
      .next (burstPort (burstPort { s with pins.vsp := ok } 0) 1)) ∧
    (∀ (ok : Bool) (s : State), s.sys.mode ≠ .sentinel ∨ rf s.regs.pwrCtrl 22 22 = 0 → exec (.sentinelBurst ok) s = .next s) ∧
    (∀ (port : Fin 2) (s : State), (spPort s port.val).burst = true → exec (.burstEnd port) s =
      .next (setSp port.val (fun p => { p with burst := false, burstGot := false, linePwr := false, st := if p.st == .vspAbsent || p.st == .lineLow then p.st else .off })
        (if (spPort s port.val).burstGot = true then burstValue port.val s else setStale port.val s))) ∧
    (∀ (port : Fin 2) (s : State), (spPort s port.val).burst = false → exec (.burstEnd port) s = .next s) ∧
    (∀ s : State, s.sys.mode = .sentinel → s.sys.waking = true → exec .wakeComplete s =
      .next (raiseSys 0x04 (toneEvent (raiseSys 0x0A (enforceStop (readIslands (powerPort 1 (powerPort 0
        { restartMeasuring (runTimers (restartInputs (wakeTones (hbAfresh
            { s with sys.mode := .active, sys.waking := false, cmd.safetyHeld := s.cmd.safetyHeld.filter (· != 21) }))))
          with sp1.burst := false, sp2.burst := false })))))))) ∧
    (∀ s : State, s.sys.mode ≠ .sentinel ∨ s.sys.waking = false → exec .wakeComplete s = .next s)) ∧
  ((∀ (us : Nat) (s : State), us ≠ 0 → s.sys.mode ≠ .ship → (s.sys.mode = .sentinel → 100 ≤ us) → exec (.wakePin us) s = .next (wakeUp 0 { s with pins.wake := true })) ∧
    (∀ (us : Nat) (s : State), us ≠ 0 → us < 100 → s.sys.mode = .sentinel → exec (.wakePin us) s = .next { s with pins.wake := true }) ∧
    (∀ (us : Nat) (s : State), 1000 ≤ us → s.sys.mode = .ship → exec (.wakePin us) s =
      .next (sendTone .south (sendTone .north (leaveShip 0 { s with pins.wake := true })))) ∧
    (∀ (us : Nat) (s : State), us ≠ 0 → us < 1000 → s.sys.mode = .ship → exec (.wakePin us) s = .next { s with pins.wake := true }) ∧
    (∀ s : State, exec (.wakePin 0) s = .next { s with pins.wake := false }) ∧
    (∀ s : State, s.pins.vddio = true → s.sys.mode = .sentinel ∨ s.sys.pendingMode = some .sentinel →
      exec (.hostWakeEdge .spi) s = .next (wakeUp 2 s) ∧ exec (.hostWakeEdge .uart) s = .next (wakeUp 3 s)) ∧
    (∀ (p : HPort) (s : State), s.pins.vddio = false ∨ (s.sys.mode ≠ .sentinel ∧ s.sys.pendingMode ≠ some .sentinel) → exec (.hostWakeEdge p) s = .next s) ∧
    (∀ (sd : Side) (s : State), (toneEnds sd s).sys.waking = true → exec (.wakeTone sd) s = .next (noteWake 1 (toneEnds sd s))) ∧
    (∀ (sd : Side) (s : State), (toneEnds sd s).sys.waking = false → (toneEnds sd s).sys.mode = .sentinel → exec (.wakeTone sd) s =
      .next (noteTone sd (noteWake 1 (sendTone (otherSide sd) (toneEnds sd s))))) ∧
    (∀ (sd : Side) (s : State), (toneEnds sd s).sys.waking = false → (toneEnds sd s).sys.mode = .ship → exec (.wakeTone sd) s =
      .next (noteTone sd (sendTone (otherSide sd) (leaveShip 1 (toneEnds sd s))))) ∧
    (∀ (sd : Side) (s : State), (toneEnds sd s).sys.waking = false → (toneEnds sd s).sys.mode = .active ∨ (toneEnds sd s).sys.mode = .idle → exec (.wakeTone sd) s =
      .next (wakeUp 1 (toneEnds sd s))) ∧
    (∀ (sd : Side) (s : State), (port s sd).tones ≠ 0 → (port s sd).tones < 4 → (port s sd).gotFrame = false → exec (.wakeToneRepeat sd) s =
      .next (setPort sd (fun p => { lineEnds true (s.clk + 200 * Config.us) p with tones := p.tones + 1 }) s)) ∧
    (∀ (sd : Side) (s : State), (port s sd).tones = 0 ∨ 4 ≤ (port s sd).tones ∨ (port s sd).gotFrame = true → exec (.wakeToneRepeat sd) s = .next s))

/-- FW_CHECK_DONE, FW_PARTIAL_TIMEOUT, CFG_CHECK_DONE and SEAL_CHECK_DONE. Each of the three checks' ends takes the oldest queued command of its kind;
with none queued nothing changes. FW_CHECK_DONE completes it with the result of the image's checks, activates an image whose result is 0 and raises
event 0x0B for any other; a command whose image is gone has result 1. CFG_CHECK_DONE completes it with 1 where the CRC differs, with 2 and the first
invalid entry's offset where an entry is invalid, and else with 0, the image committed and event 0x0E. SEAL_CHECK_DONE completes it with 2 and the
first invalid byte's offset, and else with 1 where the check value differs, or with 0, the block sealed and event 0x8E. A write that fails its
readback raises event 0x0D in the last two, changes neither image nor seal, and its result byte is a free value (log entry 22). FW_PARTIAL_TIMEOUT
discards a partial image, and changes nothing where none is held or its checks run. -/
def Obligations.CheckDoneRows : Prop :=
  (∀ (crc : Word) (h : Fin 4) (q : Nat) (rest : List (Word × Fin 4 × Nat)) (s : State), s.fw.checking = (crc, h, q) :: rest →
      (s.fw.busy = true → fwResult crc s = 0 → exec .fwCheckDone s =
        .next (completeQueued h q (le 1 0) (activateFw crc (compareJob 1 true false 0 { s with fw.checking := rest })))) ∧
      (s.fw.busy = true → fwResult crc s ≠ 0 → exec .fwCheckDone s =
        .next (completeQueued h q (le 1 (fwResult crc s)) (raise 0x0B
          (sysDetailWith s.sys.wakeSrc.toNat crc.toNat (compareJob 1 (fwResult crc s != 1) false 0 { s with fw.checking := rest }))
          (compareJob 1 (fwResult crc s != 1) false 0 { s with fw.checking := rest })))) ∧
      (s.fw.busy = false → exec .fwCheckDone s =
        .next (completeQueued h q (le 1 1) (raise 0x0B
          (sysDetailWith s.sys.wakeSrc.toNat crc.toNat (compareJob 1 false false 0 { s with fw.checking := rest }))
          (compareJob 1 false false 0 { s with fw.checking := rest }))))) ∧
    (∀ s : State, s.fw.checking = [] → exec .fwCheckDone s = .next s) ∧
    (∀ s : State, s.fw.busy = true → s.fw.checking = [] → exec .fwPartialTimeout s =
      .next { s with fw.busy := false, fw.rcvd := 0, fw.declared := none }) ∧
    (∀ s : State, s.fw.busy = false ∨ s.fw.checking ≠ [] → exec .fwPartialTimeout s = .next s) ∧
    (∀ (crc : Word) (h : Fin 4) (q : Nat) (rest : List (Word × Fin 4 × Nat)) (ok : Bool) (s : State), s.nv.cfgChecking = (crc, h, q) :: rest →
      (crc32c (cfgWorkBytes s) ≠ crc → exec (.cfgCheckDone ok) s =
        .next (completeQueued h q (le 1 1 ++ le 2 0) (compareJob 1 false false 0 { s with nv.cfgChecking := rest }))) ∧
      (∀ off : Nat, crc32c (cfgWorkBytes s) = crc → cfgInvalid 0 341 (cfgWorkBytes s) = some off → exec (.cfgCheckDone ok) s =
        .next (completeQueued h q (le 1 2 ++ le 2 off) (compareJob 1 true false 0 { s with nv.cfgChecking := rest }))) ∧
      (crc32c (cfgWorkBytes s) = crc → cfgInvalid 0 341 (cfgWorkBytes s) = none → ok = true → exec (.cfgCheckDone ok) s =
        .next (completeQueued h q (le 1 0 ++ le 2 0) (raiseSys 0x0E
          { compareJob 1 true false 0 { s with nv.cfgChecking := rest } with
            nv.cfgImage := cfgWorkBytes s, nv.cfgOld := s.nv.cfgImage, sys.cfgCount := (s.sys.cfgCount + 1) % 65536, sys.cfgCopy := !s.sys.cfgCopy }))) ∧
      (crc32c (cfgWorkBytes s) = crc → cfgInvalid 0 341 (cfgWorkBytes s) = none → ok = false → ∃ (b : Byte) (n : Nat), exec (.cfgCheckDone ok) s =
        .next (completeQueued h q (b :: le 2 0) (raiseSys 0x0D { compareJob 1 true false 0 { s with nv.cfgChecking := rest } with freeCtr := n })))) ∧
    (∀ (ok : Bool) (s : State), s.nv.cfgChecking = [] → exec (.cfgCheckDone ok) s = .next s) ∧
    (∀ (m : Word) (h : Fin 4) (q : Nat) (rest : List (Word × Fin 4 × Nat)) (ok : Bool) (s : State), s.verm.sealing = (m, h, q) :: rest →
      (∀ off : Nat, firstInvalid s = some off → exec (.sealCheckDone ok) s = .next (completeQueued h q (le 1 2 ++ le 1 off) { s with verm.sealing := rest })) ∧
      (firstInvalid s = none → crc32c (slice s.verm.block 0 256) ≠ m → exec (.sealCheckDone ok) s =
        .next (completeQueued h q (le 1 1 ++ le 1 0) (compareJob 1 false false 0 { s with verm.sealing := rest }))) ∧
      (firstInvalid s = none → crc32c (slice s.verm.block 0 256) = m → ok = true → exec (.sealCheckDone ok) s =
        .next (completeQueued h q (le 1 0 ++ le 1 0) (raise 0x8E (vermDetail 0 0 1 s.verm.refuse)
          { compareJob 1 true false 0 { s with verm.sealing := rest } with verm.isSealed := true, verm.sealVal := m, verm.blockBad := false }))) ∧
      (firstInvalid s = none → crc32c (slice s.verm.block 0 256) = m → ok = false → ∃ (b : Byte) (n : Nat), exec (.sealCheckDone ok) s =
        .next (completeQueued h q (b :: le 1 0) (raiseSys 0x0D { compareJob 1 true false 0 { s with verm.sealing := rest } with freeCtr := n })))) ∧
    (∀ (ok : Bool) (s : State), s.verm.sealing = [] → exec (.sealCheckDone ok) s = .next s)

/-- FRAME_TRANSMIT, COLLISION, HOP_TIMEOUT, CREDIT_FRAME_SEND, LINK_UP_RESEND, ALARM_RESEND and EVENT_FRAME_SEND. While the chain runs: the arbiter's
pick, where the line is idle and its class has its turn, leaves its queue and goes onto the line, and otherwise nothing starts; a collision of a frame
being sent ends it with an abort, puts it back at the head of its queue with its credit, counts a send error and judges the port, where a link frame
that no longer fits is dropped with event 0x2F; an idle line is noted as open to any class; a port that is up queues a credit frame; a dead link, or
one off for a second, sends LINK_UP again; each held ALARM event that is due is sent again on a port that is up, and on an off port one at a time, 1
ms apart; event entries that wait for a destination leave in one frame, or are lost where the way there is dead. In every other state each of these
rows changes nothing. -/
def Obligations.FrameSending : Prop :=
  (∀ (sd : Side) (frac k n : Nat) (x : TxItem) (s t : State), chainOn s = true → t = linesDone s → pick (rf t.regs.fabCfg 3 0) (port t sd) = some (.inl k, n) →
      (port t sd).txq[k]? = some x → mayStart (port t sd) t.clk x.frame.cls = true →
      exec (.frameTransmit sd frac) s = .next (startFrame sd frac x (setPort sd (fun p => { p with txq := p.txq.eraseIdx k, passed := n }) t))) ∧
    (∀ (sd : Side) (frac k n : Nat) (f : Frame) (s t : State), chainOn s = true → t = linesDone s → pick (rf t.regs.fabCfg 3 0) (port t sd) = some (.inr k, n) →
      (port t sd).linkq[k]? = some f → mayStart (port t sd) t.clk f.cls = true →
      exec (.frameTransmit sd frac) s = .next (startFrame sd frac { frame := f, transit := false, holds := none, came := none }
        (setPort sd (fun p => { p with linkq := p.linkq.eraseIdx k, passed := n }) t))) ∧
    (∀ (sd : Side) (frac : Nat) (s : State), chainOn s = true → pick (rf (linesDone s).regs.fabCfg 3 0) (port (linesDone s) sd) = none →
      exec (.frameTransmit sd frac) s = .next (linesDone s)) ∧
    (∀ (sd : Side) (frac k n : Nat) (x : TxItem) (s t : State), chainOn s = true → t = linesDone s → pick (rf t.regs.fabCfg 3 0) (port t sd) = some (.inl k, n) →
      (port t sd).txq[k]? = some x → mayStart (port t sd) t.clk x.frame.cls = false → exec (.frameTransmit sd frac) s = .next t) ∧
    (∀ (sd : Side) (frac k n : Nat) (f : Frame) (s t : State), chainOn s = true → t = linesDone s → pick (rf t.regs.fabCfg 3 0) (port t sd) = some (.inr k, n) →
      (port t sd).linkq[k]? = some f → mayStart (port t sd) t.clk f.cls = false → exec (.frameTransmit sd frac) s = .next t) ∧
    (∀ (sd : Side) (i : TxItem) (s t : State), chainOn s = true → lineIdle (port s sd) s.clk = false → (port s sd).sentLast = true → (port s sd).line = some i →
      t = setPort sd (fun p => { lineEnds (sd == .south) s.clk p with tec := satAdd 255 p.tec 8, line := none, aborted := true }) s →
      exec (.collision sd) s = .next (judgePort sd (sendBack sd i t)) ∧
      (i.frame.cls ≤ 5 → sendBack sd i t =
        setPort sd (fun p => { p with txq := i :: p.txq, sent := addBlk p.sent i.frame.cls (256 - i.frame.blk), outst := p.outst.dropLast }) t) ∧
      (i.frame.cls = 7 → sendBack sd i t = setPort sd (fun p => { p with txq := i :: p.txq }) t) ∧
      (i.frame.cls = 6 → (port t sd).linkq.length < 4 → sendBack sd i t = setPort sd (fun p => { p with linkq := i.frame :: p.linkq }) t) ∧
      (i.frame.cls = 6 → 4 ≤ (port t sd).linkq.length →
        sendBack sd i t = raise 0x2F (portDetail t sd 0) { t with chain.linkDrop := satAdd 255 t.chain.linkDrop 1 })) ∧
    (∀ (sd : Side) (s : State), chainOn s = true → lineIdle (port s sd) s.clk = true → exec (.hopTimeout sd) s = .next (setPort sd (fun p => { p with anyTime := true }) s)) ∧
    (∀ (sd : Side) (s : State), chainOn s = true → portUp (port s sd) = true → exec (.creditFrameSend sd) s =
      .next (enqueueLink sd (mkFrame s 6 0xFC 0x0 0 false false []) s)) ∧
    (∀ (sd : Side) (s : State), chainOn s = true → (port s sd).st = .linkDead → exec (.linkUpResend sd) s = .next (sendLinkUp sd s)) ∧
    (∀ (sd : Side) (off : Nat) (l : List Nat) (s : State), chainOn s = true → (port s sd).st = .portOff → (port s sd).offTimes = off :: l → off + Config.sec ≤ s.clk →
      exec (.linkUpResend sd) s = .next (sendLinkUp sd s)) ∧
    (∀ (sd : Side) (s : State), chainOn s = true → s.chain.addr = true → portUp (port s sd) = true → exec (.alarmResend sd) s =
      .next ((s.evt.hold.filter (heldDue s sd)).foldl (fun s h => resendHeld sd h s) s)) ∧
    (∀ (sd : Side) (i : Nat) (h : Held) (s : State), chainOn s = true → s.chain.addr = true → (port s sd).st = .portOff ∨ (port s sd).st = .offLatched →
      (∀ c, (port s sd).offTurnAt = some c → c + Config.ms ≤ s.clk) → i = (if (port s sd).turn < s.evt.hold.length then (port s sd).turn else 0) →
      s.evt.hold[i]? = some h → exec (.alarmResend sd) s =
        .next (resendHeld sd h (setPort sd (fun p => { p with turn := i + 1, offTurnAt := some s.clk }) s))) ∧
    (∀ (sd : Side) (c : Nat) (s : State), portUp (port s sd) = false → s.evt.hold = [] ∨ ((port s sd).offTurnAt = some c ∧ s.clk < c + Config.ms) →
      exec (.alarmResend sd) s = .next s) ∧
    (∀ (sd : Side) (s : State), portUp (port s sd) = true ∨ (port s sd).st = .offLatched ∨
        ((port s sd).st = .portOff ∧ ∃ off l, (port s sd).offTimes = off :: l ∧ s.clk < off + Config.sec) → exec (.linkUpResend sd) s = .next s) ∧
    (∀ (dest : Nat) (q : List Entry) (s t : State), s.evt.outq.lookup dest = some q → q ≠ [] → s.chain.addr = true →
      t = { s with evt.outq := (dest, q.drop (frameEntries q).length) :: s.evt.outq.filter (fun x => x.1 != dest) } →
      (returnsAtOnce t dest = false → exec (.eventFrameSend dest) s = .next (sendStream false
        (mkFrame t 3 dest 0xA ((frameEntries q).map entryBytes).flatten.length false false ((frameEntries q).map entryBytes).flatten) t)) ∧
      (returnsAtOnce t dest = true → exec (.eventFrameSend dest) s = .next t)) ∧
    (∀ (sd : Side) (frac : Nat) (s : State), chainOn s = false →
      exec (.frameTransmit sd frac) s = .next s ∧ exec (.collision sd) s = .next s ∧ exec (.hopTimeout sd) s = .next s ∧ exec (.creditFrameSend sd) s = .next s ∧
        exec (.linkUpResend sd) s = .next s ∧ exec (.alarmResend sd) s = .next s) ∧
    (∀ (sd : Side) (s : State), lineIdle (port s sd) s.clk = true ∨ (port s sd).sentLast = false → exec (.collision sd) s = .next s) ∧
    (∀ (sd : Side) (s : State), lineIdle (port s sd) s.clk = false → exec (.hopTimeout sd) s = .next s) ∧
    (∀ (sd : Side) (s : State), portUp (port s sd) = false → exec (.creditFrameSend sd) s = .next s) ∧
    (∀ (sd : Side) (s : State), (port s sd).st = .linkDead ∨ s.chain.addr = false → exec (.alarmResend sd) s = .next s) ∧
    (∀ (dest : Nat) (s : State), s.evt.outq.lookup dest = none ∨ s.evt.outq.lookup dest = some [] ∨ s.chain.addr = false → exec (.eventFrameSend dest) s = .next s)

/-- CREDIT_FRAME, LINK_UP, ENUM, ENUM_END, ENUM_DONE, BREAK and ACK received. A link frame that passes the checks of its hop, as read from its bytes where
they are given, has its effect after a copy already going on is cut: a credit frame only what its header carries; LINK_UP takes the neighbour's blocks
and answers or completes the link; ENUM goes on with the enumeration; ENUM_END at its destination ends it; a broadcast ENUM_DONE of another member is
passed on and gives N and the ring's state; a broadcast BREAK is passed on and notes a hop dead or healed; an ACK for this member acknowledges its
streams. Afterwards a member that is alone is judged. A frame that its hop's checks reject has only their effect. -/
def Obligations.LinkFrames : Prop :=
  ∀ (sd : Side) (f g : Frame) (lq : LineQ) (s t u : State), g = (arrived f lq).1 → t = hopState sd f lq s → u = cutCopy (otherSide sd) g (cutAt g t) t →
    (Arrives sd f lq s → g.cls = 6 → g.kind = 0 → g.dest = 0xFC → exec (.creditFrame sd f lq) s = .next (judgeSingle u)) ∧
    (Arrives sd f lq s → g.cls = 6 → g.kind = 1 → g.dest = 0xFC → exec (.linkUp sd f lq) s = .next (judgeSingle (takeLinkUp sd g u))) ∧
    (Arrives sd f lq s → g.cls = 6 → g.kind = 2 → g.dest = 0xFC → exec (.enumFrame sd f lq) s = .next (judgeSingle (takeEnum sd g u))) ∧
    (Arrives sd f lq s → g.cls = 6 → g.kind = 3 → IsFor g t → exec (.enumEnd sd f lq) s = .next (judgeSingle (takeEnumEnd g u))) ∧
    (Arrives sd f lq s → g.cls = 6 → g.kind = 4 → g.dest = 0xFF → t.chain.addr = true → t.chain.pos < 64 → g.orig ≠ t.chain.pos →
      exec (.enumDone sd f lq) s = .next (judgeSingle (takeEnumDone g (forward sd g t).1))) ∧
    (Arrives sd f lq s → g.cls = 6 → g.kind = 5 → IsFor g t →
      exec (.ack sd f lq) s = .next (judgeSingle (takeAcks sd g.orig (slice g.body 0 g.plen) u))) ∧
    (Arrives sd f lq s → g.cls = 6 → g.kind = 6 → g.dest = 0xFF → t.chain.addr = true → t.chain.pos < 64 → g.orig ≠ t.chain.pos →
      exec (.breakFrame sd f lq) s = .next (judgeSingle (takeBreak g (forward sd g t).1))) ∧
    (chainOn s = true → (hopIn sd g (arrived f lq).2 s).2 = false → (arrived f lq).2 ≠ .crcBad → (arrived f lq).2 ≠ .codeBad →
      exec (.creditFrame sd f lq) s = .next t ∧ exec (.linkUp sd f lq) s = .next t ∧ exec (.enumFrame sd f lq) s = .next t ∧ exec (.enumEnd sd f lq) s = .next t ∧
        exec (.enumDone sd f lq) s = .next t ∧ exec (.ack sd f lq) s = .next t ∧ exec (.breakFrame sd f lq) s = .next t)

/-- TRANSIT_FRAME, COMMAND_FRAME, RESPONSE_FRAME, EVENT_FRAME, SAFETY_FRAME, METRO, DATA_FRAME and VOID_FRAME received. A frame that passes the checks of
its hop, of classes 0 to 5 and for this member once it is READY, frees its blocks and, where its stream accepts it, is delivered by its kind: a
command waits for execution, a reply or report goes to its slot, event entries to the stores, a safety copy to Vermilion, a record or data item to its
host; a VOID delivers nothing. One that its stream does not accept delivers nothing. A frame for another member that this member did not send goes on
out of its other port where that port passes it: at once where it could be cut through, and otherwise into the port's queue. -/
def Obligations.ContentFrames : Prop :=
  ∀ (sd : Side) (f g : Frame) (lq : LineQ) (s t u : State), g = (arrived f lq).1 → t = hopState sd f lq s → u = cutCopy (otherSide sd) g (cutAt g t) t → Arrives sd f lq s →
    (g.cls ≤ 5 → IsFor g t → t.sys.ready = true → (streamIn sd g u).2 = true →
      (g.kind = 0x8 → exec (.commandFrame sd f lq) s = .next (judgeSingle (takeCommand g (streamIn sd g u).1))) ∧
      (g.kind = 0x9 → exec (.responseFrame sd f lq) s = .next (judgeSingle (takeResponse g (streamIn sd g u).1))) ∧
      (g.kind = 0xA → exec (.eventFrame sd f lq) s = .next (judgeSingle (takeEvents g (streamIn sd g u).1))) ∧
      (g.kind = 0xB → exec (.safetyFrame sd f lq) s = .next (judgeSingle (takeSafety g (streamIn sd g u).1))) ∧
      (g.kind = 0xC → exec (.metro sd f lq) s = .next (judgeSingle (takeMetro g (streamIn sd g u).1))) ∧
      (g.kind = 0xD → exec (.dataFrame sd f lq) s = .next (judgeSingle (takeData g (streamIn sd g u).1))) ∧
      (g.kind = 0xE → exec (.voidFrame sd f lq) s = .next (judgeSingle (streamIn sd g u).1))) ∧
    (g.cls ≤ 5 → IsFor g t → t.sys.ready = true → (streamIn sd g u).2 = false → ∀ i ∈
      [Instr.commandFrame sd f lq, .responseFrame sd f lq, .eventFrame sd f lq, .safetyFrame sd f lq, .metro sd f lq, .dataFrame sd f lq, .voidFrame sd f lq],
      exec i s = .next (judgeSingle (streamIn sd g u).1)) ∧
    (g.cls ≠ 6 → g.dest < 0xFC → g.dest ≠ t.chain.pos → g.orig ≠ t.chain.pos → passes t (otherSide sd) g = true →
      (cutsThrough t (otherSide sd) g && credited (port t (otherSide sd)) g) = false → exec (.transitFrame sd f lq) s =
        .next (judgeSingle (queueTransit (otherSide sd) sd none { g with hops := min 63 (g.hops + 1) } (cutCopy (otherSide sd) g 1 t)))) ∧
    (g.cls ≠ 6 → g.dest < 0xFC → g.dest ≠ t.chain.pos → g.orig ≠ t.chain.pos → passes t (otherSide sd) g = true →
      (cutsThrough t (otherSide sd) g && credited (port t (otherSide sd)) g) = true → exec (.transitFrame sd f lq) s =
        .next (judgeSingle (cutWhole (otherSide sd) sd { g with hops := min 63 (g.hops + 1) } t)))

/-- The rows of links, enumeration and streams. LINK_DEAD, BREAK_HEALED, OFF_CNT_EXPIRY, ENUM_TOP_TIMEOUT and ENUM_RETRY: A link that falls silent on a
port that is up becomes dead, raises the port's event and its hop is lost; a healed hop of an enumerated chain is noted, announced on both sides and
judged, and without an enumeration only the wait for it ends; the oldest entry to PORT_OFF is forgotten after its hour; a chain whose top does not
answer ends its enumeration there, at an anchor with N = 1 and the ring open, which is the model's choice (log entry 159); an enumeration that gets no
answer is tried up to three times and then ends with N = 0, event 0x28 and, where the ring had a state, event 0x27, and completes its command. In
every other state each row changes nothing. ACK_TIMER, NAK_REPEAT, RETRANSMIT, TWIN_WINDOW and HB_IN_DECODE: An unacknowledged received stream is
acknowledged when its timer ends; an open gap is complained of again; a stream without progress sends its unacknowledged frames again, or the first of
those that wait, and a frame to all that came home both ways is released; on an open ring the first copy of a safety frame is applied alone, counted
and class B 5, on a closed one its missing twin is counted; a heartbeat pattern decides the heartbeat input: two periods of RUN, STOP or LOST at once,
a WORD once it is seen twice within 128 words with sound parity, and a word of 16 periods is read from their duties. A row without its stream, gap or
waiting copy, and HB_IN_DECODE where HB_IN is not used or the chain does not run, changes nothing. -/
def Obligations.LinkAndStreamRows : Prop :=
  ((∀ (sd : Side) (s : State), chainOn s = true → portUp (port s sd) = true → exec (.linkDead sd) s =
      .next (loseHop sd true (raise (0x21 + sideCode sd) (portDetail (setPort sd (fun p => { p with st := .linkDead }) s) sd 0)
        (setPort sd (fun p => { p with st := .linkDead }) s)))) ∧
    (∀ (sd : Side) (s : State), chainOn s = false ∨ portUp (port s sd) = false → exec (.linkDead sd) s = .next s ∧ exec (.breakHealed sd) s = .next s) ∧
    (∀ (sd : Side) (s : State), chainOn s = true → portUp (port s sd) = true → (port s sd).healDue.isSome = true → s.chain.addr = true → s.chain.n ≠ 0 →
      exec (.breakHealed sd) s = .next (judgeSingle (sendBreak .south (hopOf s sd) true (sendBreak .north (hopOf s sd) true
        (noteHop (hopOf s sd) false (setPort sd (fun p => { p with healDue := none }) s)))))) ∧
    (∀ (sd : Side) (s : State), chainOn s = true → portUp (port s sd) = true → (port s sd).healDue.isSome = true → s.chain.addr = false ∨ s.chain.n = 0 →
      exec (.breakHealed sd) s = .next (setPort sd (fun p => { p with healDue := none }) s)) ∧
    (∀ (sd : Side) (s : State), (port s sd).healDue = none → exec (.breakHealed sd) s = .next s) ∧
    (∀ (sd : Side) (s : State), exec (.offCntExpiry sd) s = .next (setPort sd (fun p => { p with offTimes := p.offTimes.dropLast }) s)) ∧
    (∀ s : State, s.chain.enumWaitTop = true → s.sys.anchor = false → exec .enumTopTimeout s =
      .next (sendEnumEnd (s.chain.pos + 1) 1 { s with chain.enumWaitTop := false })) ∧
    (∀ s : State, s.chain.enumWaitTop = true → s.sys.anchor = true → s.chain.enumBusy = true → exec .enumTopTimeout s =
      .next (enumFinish 1 1 { s with chain.enumWaitTop := false })) ∧
    (∀ s : State, s.chain.enumWaitTop = true → s.sys.anchor = true → s.chain.enumBusy = false → exec .enumTopTimeout s = .next { s with chain.enumWaitTop := false }) ∧
    (∀ s : State, s.chain.enumWaitTop = false → exec .enumTopTimeout s = .next s) ∧
    (∀ s : State, s.chain.enumBusy = true → s.chain.enumTries < 3 → exec .enumRetry s =
      .next (enumAttempt { s with chain.enumTries := s.chain.enumTries + 1 })) ∧
    (∀ (h : Fin 4) (q : Nat) (s t : State), s.chain.enumBusy = true → 3 ≤ s.chain.enumTries → s.chain.enumBy = some (h, q) →
      t = { s with chain.enumBusy := false, chain.enumWaitTop := false, chain.n := 0, chain.ring := .notEnumerated, chain.enumBy := none } →
      (s.chain.ring = .notEnumerated → exec .enumRetry s = .next (completeQueued h q (le 1 0) (raise 0x28 (ringDetail t 0) t))) ∧
      (s.chain.ring ≠ .notEnumerated → exec .enumRetry s =
        .next (completeQueued h q (le 1 0) (raise 0x28 (ringDetail (raise 0x27 (ringDetail t 0) t) 0) (raise 0x27 (ringDetail t 0) t))))) ∧
    (∀ s : State, s.chain.enumBusy = false → exec .enumRetry s = .next s)) ∧
  ((∀ (orig : Nat) (multi : Bool) (cls : Nat) (twin : Bool) (r : RxStream) (s : State), rxGet orig multi cls twin s = some r → r.unackedRx ≠ 0 →
      exec (.ackTimer orig multi cls twin) s =
        .next (sendAck r.orig (ackEntry r.cls false r.multi r.twin ((r.next + 16383) % 16384)) (rxPut { r with unackedRx := 0 } s))) ∧
    (∀ (orig : Nat) (multi : Bool) (cls : Nat) (twin : Bool) (s : State), (∀ r, rxGet orig multi cls twin s = some r → r.unackedRx = 0) →
      exec (.ackTimer orig multi cls twin) s = .next s) ∧
    (∀ (orig : Nat) (multi : Bool) (cls : Nat) (twin : Bool) (r : RxStream) (s : State), rxGet orig multi cls twin s = some r → r.gap = true →
      exec (.nakRepeat orig multi cls twin) s = .next (sendAck r.orig (ackEntry r.cls true r.multi r.twin r.next) (rxPut { r with lastNak := some s.clk } s))) ∧
    (∀ (orig : Nat) (multi : Bool) (cls : Nat) (twin : Bool) (s : State), (∀ r, rxGet orig multi cls twin s = some r → r.gap = false) →
      exec (.nakRepeat orig multi cls twin) s = .next s) ∧
    (∀ (dest : Nat) (multi : Bool) (cls : Nat) (twin : Bool) (x : TxStream) (s : State), s.chain.tx.any (txIs dest multi cls twin) = true → x = txGet s dest multi cls twin →
      (multi && (x.unacked.take x.sent).any (fun f => x.back.contains f.seq)) = false →
      (x.sent ≠ 0 → exec (.retransmit dest multi cls twin) s = .next (resendRound x s)) ∧
      (x.sent = 0 → exec (.retransmit dest multi cls twin) s = .next (pump 8 dest multi cls twin s))) ∧
    (∀ (dest : Nat) (cls : Nat) (twin : Bool) (x : TxStream) (s : State), s.chain.tx.any (txIs dest true cls twin) = true → x = txGet s dest true cls twin →
      (x.unacked.take x.sent).any (fun f => x.back.contains f.seq) = true →
      exec (.retransmit dest true cls twin) s = .next (releaseFrames dest true cls twin (fun f => x.back.contains f.seq) s)) ∧
    (∀ (dest : Nat) (multi : Bool) (cls : Nat) (twin : Bool) (s : State), s.chain.tx.any (txIs dest multi cls twin) = false →
      exec (.retransmit dest multi cls twin) s = .next s) ∧
    (∀ (peer : Fin 24) (a : Nat) (d : List Byte) (l : List (Nat × List Byte)) (s : State), s.chain.ring ≠ .closed → (nth s.verm.peers peer.val {}).firsts = (a, d) :: l →
      exec (.twinWindow peer) s = .next (applyAll peer.val true d (classB 5 true
        (updPeer peer.val (fun p => { p with firsts := l }) { s with verm.single := satAdd 255 s.verm.single 1 })))) ∧
    (∀ (peer : Fin 24) (a : Nat) (d : List Byte) (l : List (Nat × List Byte)) (s : State), s.chain.ring = .closed → (nth s.verm.peers peer.val {}).firsts = (a, d) :: l →
      s.verm.missRow < 2 → exec (.twinWindow peer) s = .next (applyAll peer.val false d
        { updPeer peer.val (fun p => { p with firsts := l }) s with verm.twinMiss := satAdd 255 s.verm.twinMiss 1, verm.missRow := s.verm.missRow + 1 })) ∧
    (∀ (peer : Fin 24) (a : Nat) (d : List Byte) (l : List (Nat × List Byte)) (s : State), s.chain.ring = .closed → (nth s.verm.peers peer.val {}).firsts = (a, d) :: l →
      2 ≤ s.verm.missRow → exec (.twinWindow peer) s = .next (applyAll peer.val false d (classB 7 true
        { updPeer peer.val (fun p => { p with firsts := l }) s with verm.twinMiss := satAdd 255 s.verm.twinMiss 1, verm.missRow := s.verm.missRow + 1 }))) ∧
    (∀ (peer : Fin 24) (s : State), (nth s.verm.peers peer.val {}).firsts = [] → exec (.twinWindow peer) s = .next s) ∧
    (∀ s : State, rf s.regs.chainCfg 1 1 ≠ 0 → chainOn s = true →
      exec (.hbInDecode .run) s = .next (hbDecide .run s) ∧
      exec (.hbInDecode .stop) s = .next (hbDecide .stop { s with chain.hbDuty := [] }) ∧
      exec (.hbInDecode .lost) s = .next (hbDecide .lost { s with chain.hbDuty := [] })) ∧
    (∀ (p c : Nat) (parity : Bool) (l : List (Option (Nat × Nat))) (s : State), rf s.regs.chainCfg 1 1 ≠ 0 → chainOn s = true →
      l = ((if parity then some (p % 64, c % 16) else none) :: s.chain.hbWords).take 128 →
      ((parity = true ∧ 2 ≤ l.count (some (p % 64, c % 16))) → exec (.hbInDecode (.word p c parity)) s = .next (hbDecide .word
        { s with chain.hbWords := l, chain.hbPass := decodedWords l, chain.hbWordPos := p % 64, chain.hbWordCode := c % 16 })) ∧
      (¬(parity = true ∧ 2 ≤ l.count (some (p % 64, c % 16))) → exec (.hbInDecode (.word p c parity)) s =
        .next { s with chain.hbWords := l, chain.hbPass := decodedWords l })) ∧
    (∀ (high len : Nat) (l : List Nat) (s : State), rf s.regs.chainCfg 1 1 ≠ 0 → chainOn s = true → l = (dutyClass high len :: s.chain.hbDuty).take 16 →
      (l.take 2 = [2, 2] → exec (.hbInDecode (.period high len)) s = .next (hbDecide .run { s with chain.hbDuty := l })) ∧
      (l.take 2 ≠ [2, 2] → wordOf l = none → exec (.hbInDecode (.period high len)) s = .next { s with chain.hbDuty := l }) ∧
      (∀ (p c : Nat) (ok : Bool), l.take 2 ≠ [2, 2] → wordOf l = some (p, c, ok) →
        exec (.hbInDecode (.period high len)) s = exec (.hbInDecode (.word p c ok)) { s with chain.hbDuty := [] })) ∧
    (∀ (x : HbPat) (s : State), rf s.regs.chainCfg 1 1 = 0 ∨ chainOn s = false → exec (.hbInDecode x) s = .next s))

/-- The rows of time and its frames. SYNC_IN_EDGE, TIME_SET_EXPIRY, ANCHOR_HOLDOVER, HOLDOVER_LIMIT, BEACON_SEND, BEACON_TIMEOUT, DELAY_MEASURE and
TIME_LABEL: At the anchor an accepted edge gives the time armed before this tick, or the nearest whole second, corrects the counter and judges the
offset; an edge out of place is counted; one shorter than 1 µs, or elsewhere, is not seen. An armed time that no edge takes expires with event 0x34. A
locked or acquiring anchor without edges, and a member whose time is set without beacons, enter HOLDOVER, and its limit raises event 0x36 once. The
anchor, its time set, numbers its beacons and queues them north, and south too on a ring that is not closed, on ports that are up. A hop is measured
by a numbered request on a port that is up; a request still unanswered is discarded first. A time label gives the meter its slew within 2 s, and makes
a step with event 0x91 beyond, and marks an interval that runs on FREE or HOLDOVER time. In every other state each row changes nothing. BEACON,
DELAY_REQ and DELAY_RESP received: A beacon that passes its hop's checks goes on, at a member that is neither the anchor nor its origin, with the
hop's delay added to its correction and the residence added where it is cut through, and by a measured hop on the better path from a set anchor it
disciplines the clock; the anchor and the origin pass no beacon on. A delay request is answered with its number, the turnaround stamped when the
answer is sent. The answer to the request in flight gives the hop's delay, kept where it lies between 0 and 200 ns and discarded otherwise; any other
answer changes nothing more. -/
def Obligations.TimeRows : Prop :=
  ((∀ (frac high : Nat) (v : Int) (s : State), timeOn s = true → s.sys.anchor = true → syncEn s = true → 1000 ≤ high → edgeOk s = true →
      ((∃ a n, s.time.armed = some (a, n) ∧ s.time.armedThisTick = false ∧ v = ((a * 1000000000 + n : Nat) : Int) * 16) ∨
        ((s.time.armed = none ∨ s.time.armedThisTick = true) ∧ v = nearestSec (captured frac s) * 16000000000)) →
      exec (.syncInEdge frac high) s = .next (judgeOffset 3200 6400 4 (captured frac s - v) (correct false .acquiring (captured frac s - v)
        { s with time.lastEdge := some s.clk, time.firstEdge := s.time.armedThisTick, time.armed := if s.time.armedThisTick then s.time.armed else none }))) ∧
    (∀ (frac high : Nat) (s : State), timeOn s = true → s.sys.anchor = true → syncEn s = true → 1000 ≤ high → edgeOk s = false → exec (.syncInEdge frac high) s =
      .next { s with time.syncBad := satAdd 255 s.time.syncBad 1 }) ∧
    (∀ (frac high : Nat) (s : State), timeOn s = false ∨ s.sys.anchor = false ∨ syncEn s = false ∨ high < 1000 → exec (.syncInEdge frac high) s = .next s) ∧
    (∀ s : State, s.time.armed.isSome = true → exec .timeSetExpiry s =
      .next (raise 0x34 (timeDetail { s with time.armed := none, time.setExpired := true }) (noteOcc 0xC04 (setBit 0 6 true) { s with time.armed := none, time.setExpired := true }))) ∧
    (∀ s : State, s.time.armed = none → exec .timeSetExpiry s = .next s) ∧
    (∀ s : State, timeOn s = true → s.sys.anchor = true → s.time.st = .locked ∨ s.time.st = .acquiring → exec .anchorHoldover s = .next (setTimeSt .holdover s)) ∧
    (∀ s : State, timeOn s = false ∨ s.sys.anchor = false ∨ (s.time.st ≠ .locked ∧ s.time.st ≠ .acquiring) → exec .anchorHoldover s = .next s) ∧
    (∀ s : State, s.time.st = .holdover → s.time.holdLimit = false → exec .holdoverLimit s =
      .next (raise 0x36 (timeDetail { s with time.holdLimit := true }) { s with time.holdLimit := true })) ∧
    (∀ s : State, s.time.st ≠ .holdover ∨ s.time.holdLimit = true → exec .holdoverLimit s = .next s) ∧
    (∀ (f : Frame) (s t : State), timeOn s = true → s.sys.anchor = true → s.time.st ≠ .unset →
      f = mkFrame s 7 0xFF 0x7 20 false false (List.replicate 17 0 ++ le 2 s.time.beaconNum ++ le 1 (b2n (syncEn s))) →
      t = { s with time.beaconNum := (s.time.beaconNum + 1) % 65536 } →
      (s.chain.ring = .closed → exec .beaconSend s = .next (if portUp s.chain.north then enqueue .north f t else t)) ∧
      (s.chain.ring ≠ .closed → portUp s.chain.north = false → exec .beaconSend s = .next (if portUp s.chain.south then enqueue .south f t else t)) ∧
      (s.chain.ring ≠ .closed → portUp s.chain.north = true → exec .beaconSend s =
        .next (if portUp (enqueue .north f t).chain.south then enqueue .south f (enqueue .north f t) else enqueue .north f t))) ∧
    (∀ s : State, timeOn s = false ∨ s.sys.anchor = false ∨ s.time.st = .unset → exec .beaconSend s = .next s) ∧
    (∀ s : State, timeOn s = true → s.sys.anchor = false → s.time.st ≠ .unset → exec .beaconTimeout s = .next (setTimeSt .holdover s)) ∧
    (∀ s : State, timeOn s = false ∨ s.sys.anchor = true ∨ s.time.st = .unset → exec .beaconTimeout s = .next s) ∧
    (∀ (sd : Side) (n : Nat) (s t : State), timeOn s = true → n = ((hopDelay s sd).reqNum + 1) % 65536 → t = (if (hopDelay s sd).t1.isSome then discardResult sd s else s) →
      (portUp (port s sd) = true → exec (.delayMeasure sd) s =
        .next (enqueue sd (mkFrame t 7 0xFC 0x7 3 false false (le 1 1 ++ le 2 n)) (setHop sd (fun h => { h with reqNum := n }) t))) ∧
      (portUp (port s sd) = false → exec (.delayMeasure sd) s = .next t)) ∧
    (∀ (sd : Side) (s : State), timeOn s = false → exec (.delayMeasure sd) s = .next s) ∧
    (∀ (now : Nat) (d : Int) (s t : State), umbTalks s = true → s.time.st ≠ .unset → now = s.time.sec.toNat * 1000000000 + s.time.ns → d = (now : Int) - (s.umber.tNs : Int) →
      ((-2000000000 ≤ d ∧ d ≤ 2000000000 ∧ t = { s with umber.timeOk := true, umber.tstate := s.time.st.code, umber.slew := d, umber.flags := if metering s = true ∧ 100000000 < |d| then s.umber.flags ||| 1024 else s.umber.flags }) ∨
        (d < -2000000000 ∧ t = raiseUmb 0x91 0 (stepBackward now { s with umber.timeOk := true, umber.tstate := s.time.st.code })) ∨
        (2000000000 < d ∧ t = raiseUmb 0x91 0 (stepForward now { s with umber.timeOk := true, umber.tstate := s.time.st.code }))) →
      exec .timeLabel s = .next (if metering s = true ∧ (s.time.st = .free ∨ s.time.st = .holdover) then { t with umber.flags := t.umber.flags ||| 8 } else t)) ∧
    (∀ s : State, umbTalks s = false ∨ s.time.st = .unset → exec .timeLabel s = .next s)) ∧
  (∀ (sd : Side) (f g : Frame) (lq : LineQ) (frac : Nat) (s t : State), g = (arrived f lq).1 → t = hopState sd f lq s → (hopIn sd g (arrived f lq).2 s).2 = true → g.kind = 7 →
    (∀ (residence old : Nat) (b : Nat → Frame) (u : State), field g.body 0 1 = 0 → g.plen = 20 → s.sys.anchor = false → s.chain.addr = false ∨ g.orig ≠ s.chain.pos →
      old = field g.body 11 4 + (hopDelay s sd).delay → (∀ c, b c = { g with body := slice g.body 0 11 ++ le 4 (c % 2 ^ 32) ++ slice g.body 15 5 }) →
      u = (forwardAs sd (b old) (b (old + residence)) (some (localFine s (- sinceSd g) frac)) t).1 →
      (((hopDelay s sd).unusable = false ∧ timeStOf (field g.body 15 1) ≠ .unset ∧ bestPath sd (field g.body 17 2) g.hops s = true) →
        exec (.beacon sd f lq frac residence) s = .next (useBeacon sd g frac u)) ∧
      (((hopDelay s sd).unusable = true ∨ timeStOf (field g.body 15 1) = .unset ∨ bestPath sd (field g.body 17 2) g.hops s = false) →
        exec (.beacon sd f lq frac residence) s = .next u)) ∧
    (∀ residence : Nat, field g.body 0 1 = 0 → g.plen = 20 → s.sys.anchor = true ∨ (s.chain.addr = true ∧ g.orig = s.chain.pos) →
      exec (.beacon sd f lq frac residence) s = .next (cutCopy (otherSide sd) g 3 t)) ∧
    (field g.body 0 1 = 1 → g.dest = 0xFC → exec (.delayReq sd f lq frac) s =
      .next (enqueueAt sd (localFine s (- sinceSd g) frac) (mkFrame t 7 0xFC 0x7 7 false false (le 1 2 ++ slice g.body 1 2 ++ le 4 0)) t)) ∧
    (∀ (t1 d : Int), field g.body 0 1 = 2 → g.dest = 0xFC → field g.body 1 2 = (hopDelay s sd).reqNum → (hopDelay s sd).t1 = some t1 →
      d = divFree (localFine s (- sinceSd g) frac - t1 - field g.body 3 4) 2 →
      (0 ≤ d → d ≤ 3200 → exec (.delayResp sd f lq frac) s = .next (validResult sd d.toNat t)) ∧
      (d < 0 ∨ 3200 < d → exec (.delayResp sd f lq frac) s = .next (discardResult sd t))) ∧
    (field g.body 0 1 ≠ 2 ∨ g.dest ≠ 0xFC ∨ field g.body 1 2 ≠ (hopDelay s sd).reqNum ∨ (hopDelay s sd).t1 = none → exec (.delayResp sd f lq frac) s = .next t))

/-- CELL_SAMPLE, LIMIT_SAMPLE, LIMIT_REPORT, CLAMP_TRIP, CLAMP_RELEASE, MODULATOR_STUCK and SUM_CHECK. While measuring: a main sample gives every channel
its value and flags byte, raises event 0x40 for a used cell that comes out of range, and goes to the ring, the sweep and the host stream; a limit
sample is classed per used cell, or goes to a running open-wire test, or is not classed while the proof holds it; a sample skipped after a rate change
only moves the converters' memory. The limit report goes on its on-die channel. A clamp that trips is noted everywhere it shows and raises event 0x41,
one already tripped changes nothing, and its release holds its pin suspect for four samples. A stuck modulator raises event 0x4D with its channel's
result. A sum check whose cells are sound counts a difference above 1.5 V, the second in a row raising event 0x4E, and counts a good one, the second
in a row clearing the error; it is skipped with a flagged cell or a low stack. Where nothing is measured each row but a release changes nothing. -/
def Obligations.CellRows : Prop :=
  (∀ (ins : List CellIn) (s : State), measuring s = true → s.cell.mainSkip ≠ 0 → exec (.cellSample ins) s =
      .next { s with cell.mainRec := (List.range 16).map fun k => (readingOf ins s.cell.mainRec k).2.2,
                     cell.mainSus := s.cell.mainSus.map (· - 1), cell.mainClampSeen := s.cell.clamp, cell.mainBal := 0, cell.mainAt := s.clk,
                     cell.tstep := tstepLeft true s.cell.tstep, cell.mainSkip := s.cell.mainSkip - 1 }) ∧
    (∀ (ins : List CellIn) (s t : State), measuring s = true → s.cell.mainSkip = 0 →
      t = noteRange (maskOf 16 fun k => cellUsed s k && bitN (readingOf ins s.cell.mainRec k).2.1 0)
        (maskOf 16 fun k => cellUsed s k && bitN (readingOf ins s.cell.mainRec k).2.1 1) (mainResults ins s) →
      exec (.cellSample ins) s = .next (streamEntry 0x10 (cellEntry t) (sweepSample (ringCell (noteFlagged t))))) ∧
    (∀ (ins : List CellIn) (s : State), measuring s = true → s.cell.limSkip = 0 → s.cell.ow = none → s.watch.owDue = false → proofPhase s 10 31 = false →
      exec (.limitSample ins) s = .next (noteC4 (noteHeld (((List.range 16).filter (cellUsed s)).foldl classCell (limitResults ins s))))) ∧
    (∀ (ins : List CellIn) (s : State), measuring s = true → s.cell.limSkip = 0 → s.cell.ow = none → s.watch.owDue = false → proofPhase s 10 31 = true →
      exec (.limitSample ins) s = .next (noteC4 (noteHeld (limitResults ins s)))) ∧
    (∀ (ins : List CellIn) (o : Owt) (s : State), measuring s = true → s.cell.limSkip = 0 → s.cell.ow = some o →
      exec (.limitSample ins) s = .next (noteC4 (noteHeld (endProofOw (owSample (limitResults ins s).cell.limVal
        ((List.range 16).map (limitFlag ins s)) (limitResults ins s)))))) ∧
    (∀ (ins : List CellIn) (s : State), measuring s = true → s.cell.limSkip ≠ 0 → exec (.limitSample ins) s =
      .next { s with cell.limRec := (List.range 16).map fun k => (readingOf ins s.cell.limRec k).2.2,
                     cell.limSus := s.cell.limSus.map (· - 1), cell.limClampSeen := s.cell.clamp, cell.limBal := 0, cell.limAt := s.clk,
                     cell.tstepLim := tstepLeft true s.cell.tstepLim, cell.mainBal := s.cell.mainBal ||| sinks s, cell.limSkip := s.cell.limSkip - 1 }) ∧
    (∀ s : State, measuring s = true → exec .limitReport s = .next (sendOnDie 0 (le 4 (limWord s)) s)) ∧
    (∀ (pin : Fin 17) (s : State), measuring s = true → s.cell.clamp.getLsbD pin.val = false → exec (.clampTrip pin) s =
      .next (raise 0x41 (det pin.val 0 0 0) (noteOcc 0x1018 (setBit 0 pin.val true)
        { s with cell.clamp := setBit s.cell.clamp pin.val true, cell.clampLat := setBit s.cell.clampLat pin.val true,
                 cell.mainClampSeen := setBit s.cell.mainClampSeen pin.val true, cell.limClampSeen := setBit s.cell.limClampSeen pin.val true,
                 cell.ow := s.cell.ow.map fun o => { o with clamped := setBit o.clamped pin.val true } }))) ∧
    (∀ (pin : Fin 17) (s : State), s.cell.clamp.getLsbD pin.val = true → exec (.clampTrip pin) s = .next s) ∧
    (∀ (pin : Fin 17) (s : State), exec (.clampRelease pin) s =
      .next (if s.cell.clamp.getLsbD pin.val then
        { s with cell.clamp := setBit s.cell.clamp pin.val false, cell.mainSus := s.cell.mainSus.set pin.val 4, cell.limSus := s.cell.limSus.set pin.val 4 } else s)) ∧
    (∀ (c : Fin 16) (s : State), measuring s = true → exec (.modulatorStuck ⟨c.val, by omega⟩) s =
      .next (raise 0x4D (det (c.val + 1 : Nat) (nth s.cell.value c.val 0) (nth s.cell.flags c.val 0).toNat (limCode (nth s.cell.limRes c.val .inLimits)))
        { s with cell.stuck := setBit s.cell.stuck c.val true })) ∧
    (∀ s : State, measuring s = true → exec (.modulatorStuck 16) s =
      .next (raise 0x4D (det 0 s.cell.isnsMa s.cell.isnsFlags.toNat 0) { s with cell.stuck := setBit s.cell.stuck 16 true })) ∧
    (∀ s : State, s.sys.powered = true → s.sys.mode = .active → sumSkipped s = false → 1500000 < |usedSum s - 10000 * (s.sys.vstk10mV.toNat : Int)| →
      ((s.cell.sumBad = 0 ∨ s.cell.sumErr = true) → exec .sumCheck s = .next { s with cell.sumBad := min 2 (s.cell.sumBad + 1), cell.sumGood := 0 }) ∧
      (s.cell.sumBad ≠ 0 → s.cell.sumErr = false → exec .sumCheck s =
        .next (raise 0x4E (det 0 (usedSum s) 0 0) { s with cell.sumBad := min 2 (s.cell.sumBad + 1), cell.sumGood := 0, cell.sumErr := true }))) ∧
    (∀ s : State, s.sys.powered = true → s.sys.mode = .active → sumSkipped s = false → |usedSum s - 10000 * (s.sys.vstk10mV.toNat : Int)| ≤ 1500000 →
      exec .sumCheck s = .next { s with cell.sumGood := min 2 (s.cell.sumGood + 1), cell.sumBad := 0, cell.sumErr := s.cell.sumErr && decide (s.cell.sumGood = 0) }) ∧
    (∀ s : State, s.sys.powered = false ∨ s.sys.mode ≠ .active ∨ sumSkipped s = true → exec .sumCheck s = .next s) ∧
    (∀ (ins : List CellIn) (pin c : Fin 17) (s : State), measuring s = false → exec (.cellSample ins) s = .next s ∧ exec (.limitSample ins) s = .next s ∧
      exec .limitReport s = .next s ∧ exec (.clampTrip pin) s = .next s ∧ exec (.modulatorStuck c) s = .next s)

/-- AUX_SAMPLE, VTREF_FAULT, VTREF_WITHIN_LIMITS, CURRENT_SAMPLE, CURRENT_REPORT, REMOTE_STALE and HOST_STREAM_FLUSH. While measuring: an auxiliary sample
is converted, judged and entered in its ring and stream; a shunt sample gives the local current with its flags, and the safety current is that or,
where the block says so, the remote one with its flags; it is kept, its changes raise events 0x49 and 0x4A, and its stream entry leaves; ten samples
make a report. A failed reference marks every auxiliary result, and raises event 0x48 unless it was bad; within limits again, it is noted when. A
remote current that stays away for too long is marked, and raises event 0x4A unless it was; on a member with a local one the row changes nothing. A
host stream's waiting entries are sent where there are some and a slot is left. Where nothing is measured, AUX_SAMPLE, CURRENT_SAMPLE and
CURRENT_REPORT change nothing. -/
def Obligations.CurrentAndAuxRows : Prop :=
  (∀ (uv : List Nat) (v : Nat) (e : Nat → List Byte) (s t : State) (r : RingSt × State × Bool), measuring s = true → t = auxConvert uv v s → e = auxEntry t (auxInstant t) →
      r = ringEntry t.regs.auxRbCfg 32 1 e t.cell.auxRing t →
      exec (.auxSample uv v) s = .next (streamEntry 0x11 e { r.2.1 with cell.auxRing := r.1 })) ∧
    (∀ s : State, s.cell.vtrefBad = true → exec .vtrefFault s = .next (settleAux s
      { s with sys.vtrefFault := true, cell.vtrefBad := true, cell.vtrefOkAt := none, cell.auxFlags := s.cell.auxFlags.map (· ||| 4) })) ∧
    (∀ s : State, s.cell.vtrefBad = false → exec .vtrefFault s = .next (settleAux s (raise 0x48 (det 0 0 4 0)
      { s with sys.vtrefFault := true, cell.vtrefBad := true, cell.vtrefOkAt := none, cell.auxFlags := s.cell.auxFlags.map (· ||| 4) }))) ∧
    (∀ s : State, exec .vtrefWithinLimits s = .next { s with sys.vtrefFault := false, cell.vtrefOkAt := some s.clk }) ∧
    (∀ (nv v : Int) (f : Nat) (s : State), measuring s = true → bitN (blk s 0x01 1) 3 = false → v = (localCurrent nv s).1 → f = (localCurrent nv s).2.1 + currentStamp s →
      exec (.currentSample nv) s = .next (streamEntry 0x12 (curEntry (currentTaken nv v f s) (gridInstant 1000 s)) (currentTaken nv v f s))) ∧
    (∀ (nv v : Int) (f : Nat) (s : State), measuring s = true → bitN (blk s 0x01 1) 3 = true → v = s.cell.remote.1 →
      f = (s.cell.remote.2.toNat &&& 0x0B) ||| 4 ||| (if remoteIsStale s then 8 else 0) ||| currentStamp s →
      exec (.currentSample nv) s = .next (streamEntry 0x12 (curEntry (currentTaken nv v f s) (gridInstant 1000 s)) (currentTaken nv v f s))) ∧
    (∀ s : State, measuring s = true → exec .currentReport s =
      .next (sendOnDie 1 ((List.range 10).map fun i => leI 4 (s.cell.curHist.getD (9 - i) (0, 0)).1 ++ [(s.cell.curHist.getD (9 - i) (0, 0)).2]).flatten s)) ∧
    (∀ s : State, bitN (blk s 0x01 1) 3 = true → s.cell.isnsFlags.getLsbD 3 = false → exec .remoteStale s =
      .next (raise 0x4A (det 0 s.cell.isnsMa (s.cell.isnsFlags ||| 0x08).toNat 0) { s with cell.remoteStale := true, cell.isnsFlags := s.cell.isnsFlags ||| 0x08 })) ∧
    (∀ s : State, bitN (blk s 0x01 1) 3 = true → s.cell.isnsFlags.getLsbD 3 = true → exec .remoteStale s =
      .next { s with cell.remoteStale := true, cell.isnsFlags := s.cell.isnsFlags ||| 0x08 }) ∧
    (∀ s : State, bitN (blk s 0x01 1) 3 = false → exec .remoteStale s = .next s) ∧
    (∀ (stream : Byte) (i : Nat) (x : StreamSt) (s : State), i = (s.cell.streams.findIdx fun x => x.code == stream.toNat) → s.cell.streams[i]? = some x →
      ((x.buf.isEmpty = false ∧ x.slots ≠ 0) → exec (.hostStreamFlush stream) s =
        .next { sendItem x.host (le 1 x.code ++ le 1 x.buf.length ++ x.buf.flatten) s with
          cell.streams := s.cell.streams.set i { x with buf := [], slots := if itemLeaves x.host s then x.slots - 1 else x.slots, fresh := true } }) ∧
      ((x.buf.isEmpty = true ∨ x.slots = 0) → exec (.hostStreamFlush stream) s = .next { s with cell.streams := s.cell.streams.set i x })) ∧
    (∀ (stream : Byte) (s : State), s.cell.streams[s.cell.streams.findIdx fun x => x.code == stream.toNat]? = none → exec (.hostStreamFlush stream) s = .next s) ∧
    (∀ (uv : List Nat) (v : Nat) (nv : Int) (s : State), measuring s = false →
      exec (.auxSample uv v) s = .next s ∧ exec (.currentSample nv) s = .next s ∧ exec .currentReport s = .next s)

/-- STIM_START, STIM_END, BAL_TIMEOUT, DIAG_AGE_EXPIRY, LOAD_CHECK and BAL_PERIOD. While measuring, an ordered stimulus whose start has come turns on, its
channels' and their partners' pulses cut; one that runs already, or is not due, changes nothing. The end of a running stimulus that is not a sweep's
ends it on every channel. A balancing time-out, where one is set and an on-time stands, clears every on-time and raises event 0x55. A diagnosis OK
that grows old is UNTESTED again. While measuring, a load check of external balancing, where its drop limit is set, pulses and tests every balancing
channel that is not held; a balance period first tests what the last one pulsed by the measurements of that period, the quiet channels for a short
with internal balancing, and then gives each channel its pulse. In every other state each row changes nothing. -/
def Obligations.BalanceRows : Prop :=
  (∀ (x : Stim) (s : State), measuring s = true → s.bal.stim = some x → x.running = false → x.t0 ≤ counterNs s → exec .stimStart s = .next (turnOnStim x s)) ∧
    (∀ s : State, measuring s = false ∨ s.bal.stim = none → exec .stimStart s = .next s) ∧
    (∀ (x : Stim) (s : State), s.bal.stim = some x → x.running = true ∨ counterNs s < x.t0 → exec .stimStart s = .next s) ∧
    (∀ (x : Stim) (s : State), s.bal.stim = some x → x.running = true → x.sweep = false → exec .stimEnd s = .next (endStim allCh 0 s)) ∧
    (∀ s : State, (∀ x, s.bal.stim = some x → x.running = false ∨ x.sweep = true) → exec .stimEnd s = .next s) ∧
    (∀ s : State, rf s.regs.balCfg 15 8 ≠ 0 → s.bal.onT.all (· == 0) = false → exec .balTimeout s =
      .next (raise 0x55 (det 0 0 0 2) (clearOn allCh (noteStop 2 s)))) ∧
    (∀ s : State, rf s.regs.balCfg 15 8 = 0 ∨ s.bal.onT.all (· == 0) = true → exec .balTimeout s = .next s) ∧
    (∀ (ch : Fin 16) (s : State), nth s.bal.diag ch.val .untested = .ok → exec (.diagAgeExpiry ch) s =
      .next (setDiag ch.val .untested { s with bal.passes := s.bal.passes.set ch.val 0 })) ∧
    (∀ (ch : Fin 16) (s : State), nth s.bal.diag ch.val .untested ≠ .ok → exec (.diagAgeExpiry ch) s = .next s) ∧
    (∀ (a b g h : List Int) (s : State), measuring s = true → balExternal s = true → rf s.regs.balCfg 31 24 ≠ 0 →
      exec (.loadCheck a b g h) s = .next (((List.range 16).filter fun k => nth s.bal.onT k 0 != 0 && !balHeld s k).foldl (loadPulse a b g h)
        { settleAcc s with bal.loadLeft := 6 })) ∧
    (∀ (a b g h : List Int) (s : State), measuring s = false ∨ balExternal s = false ∨ rf s.regs.balCfg 31 24 = 0 → exec (.loadCheck a b g h) s = .next s) ∧
    (∀ (m : BalMeas) (s : State), measuring s = true → s.bal.inPeriod = false → exec (.balPeriod m) s = .next (beginPeriod s)) ∧
    (∀ (m : BalMeas) (s : State), measuring s = true → s.bal.inPeriod = true → balExternal s = true →
      exec (.balPeriod m) s = .next (beginPeriod ((pulsedChannels s).foldl (pulseTest m) (noteClip m (settleAcc (cutLimited m s)))))) ∧
    (∀ (m : BalMeas) (s : State), measuring s = true → s.bal.inPeriod = true → balExternal s = false →
      exec (.balPeriod m) s = .next (beginPeriod ((quietChannels s).foldl (fun t k => shortTest m k t)
        ((pulsedChannels s).foldl (pulseTest m) (noteClip m (settleAcc (cutLimited m s))))))) ∧
    (∀ (m : BalMeas) (s : State), measuring s = false → exec (.balPeriod m) s = .next s)

/-- The scalar and control instructions of Indigo. KERNEL_NOP, LI, LIH, ADDI, SOP, LDS, STS, STW and RING: Where the engine's next word spells the
instruction and its cycles stay below the budget, each has the result of its row and the engine goes on to the next word: constants and sums in a
scalar register, loads and stores of an aligned word the kernel may reach, the status word, and the ring pointers. BR, LOOPR, LOOPI, END and
UNDEFINED_ENCODING: Where the engine's next word spells the instruction and its cycles stay below the budget: a branch whose condition holds goes to
its target, and one whose condition does not hold goes on; a loop opens the outer level, or the inner one inside the outer's body; END ends the kernel
with its result; a word that spells no instruction faults with code 1. -/
def Obligations.ScalarRows : Prop :=
  (∀ (e : Engine) (s : State),
    (Issued e .nop 1 s → exec (.kernelNop e) s = .next (advance e none 1 s)) ∧
    (∀ (d : Fin 16) (k : BitVec 18), Issued e (.li d k) 1 s → exec (.li e d k) s = .next (advance e none 1 (setScalar e d (k.signExtend 32) s))) ∧
    (∀ (d : Fin 16) (k : BitVec 18), Issued e (.lih d k) 1 s → exec (.lih e d k) s =
      .next (advance e none 1 (setScalar e d ((k.zeroExtend 32 <<< 14) ||| (scalar (eng s e) d &&& 0x3FFF)) s))) ∧
    (∀ (d a : Fin 16) (k : BitVec 18), Issued e (.addi d a k) 1 s → exec (.addi e d a k) s =
      .next (advance e none 1 (setScalar e d (scalar (eng s e) a + k.signExtend 32) s))) ∧
    (∀ (d a b : Fin 16) (op : Fin 12), Issued e (.sop d a b op) 1 s → exec (.sop e d a b op) s =
      .next (advance e none 1 (setScalar e d (scalarOp op (scalar (eng s e) a) (scalar (eng s e) b)) s))) ∧
    (∀ (d a : Fin 16) (k : BitVec 18) (ecc : Ecc), Issued e (.lds d a k) 3 s →
      accessFault s e false (scalarAddr e a k s % 4 == 0) (scalarAddr e a k s) [(scalarAddr e a k s, 4)] ecc.bad = none → exec (.lds e d a k ecc) s =
        .next (advance e none 3 (setScalar e d (BitVec.ofNat 32 (padWord s (scalarAddr e a k s))) (noteCorrected ecc.corr [(scalarAddr e a k s, 4)] s)))) ∧
    (∀ (d a : Fin 16) (k : BitVec 18), Issued e (.sts d a k) 3 s →
      accessFault s e true (scalarAddr e a k s % 4 == 0) (scalarAddr e a k s) [(scalarAddr e a k s, 4)] [] = none → exec (.sts e d a k) s =
        .next (advance e none 3 (padWrite (scalarAddr e a k s) (le 4 (scalar (eng s e) d).toNat) s))) ∧
    (∀ d a : Fin 16, Issued e (.stw d a true) 1 s → exec (.stw e d a true) s =
      .next (advance e none 1 (setEng e (fun g => { g with status := g.status &&& ~~~((scalar (eng s e) a).truncate 4) }) s))) ∧
    (∀ d a : Fin 16, Issued e (.stw d a false) 1 s → exec (.stw e d a false) s =
      .next (advance e none 1 (setScalar e d ((eng s e).status.zeroExtend 32) s))) ∧
    (∀ (d a : Fin 16) (aux : Bool), Issued e (.ring d a false aux) 1 s → exec (.ring e d a false aux) s =
      .next (advance e none 1 (setScalar e d (BitVec.ofNat 32 (if aux then s.cell.auxRing else s.cell.cellRing).wp) s))) ∧
    (∀ (d a : Fin 16) (aux : Bool), Issued e (.ring d a true aux) 1 s → exec (.ring e d a true aux) s =
      .next (advance e none 1 (writeRp aux (scalar (eng s e) a).toNat s)))) ∧
  (∀ (e : Engine) (s : State),
    (∀ (c : Fin 7) (a b : Fin 16) (t : BitVec 11), Issued e (.br c a b t) 3 s → condHolds c (scalar (eng s e) a) (scalar (eng s e) b) = true →
      t.toNat < (eng s e).prog.length → exec (.br e c a b t) s = .next (advance e (some t.toNat) 3 s)) ∧
    (∀ (c : Fin 7) (a b : Fin 16) (t : BitVec 11), Issued e (.br c a b t) 1 s → condHolds c (scalar (eng s e) a) (scalar (eng s e) b) = false →
      exec (.br e c a b t) s = .next (advance e none 1 s)) ∧
    (∀ count last : BitVec 11, Issued e (.loopi count last) 1 s → count ≠ 0 → (eng s e).lc0 = none → (eng s e).lc1 = none → (eng s e).pc < last.toNat →
      last.toNat < (eng s e).prog.length → exec (.loopi e count last) s =
        .next (advance e none 1 (setEng e (fun g => { g with lc0 := some { count := count.toNat, first := (eng s e).pc + 1, last := last.toNat } }) s))) ∧
    (∀ (a : Fin 16) (last : BitVec 11) (l : Loop), Issued e (.loopr a last) 1 s → 1 ≤ (scalar (eng s e) a).toNat → (scalar (eng s e) a).toNat ≤ 65535 →
      (eng s e).lc0 = some l → (eng s e).lc1 = none → last.toNat ≤ l.last → (eng s e).pc < last.toNat → last.toNat < (eng s e).prog.length →
      exec (.loopr e a last) s =
        .next (advance e none 1 (setEng e (fun g => { g with lc1 := some { count := (scalar (eng s e) a).toNat, first := (eng s e).pc + 1, last := last.toNat } }) s))) ∧
    (∀ a : Fin 16, Issued e (.endK a) 2 s → exec (.endKernel e a) s =
      .next (takeEnd e (scalar (eng s e) a) (setEng e (fun g => { g with cycles := g.cycles + 2 }) s))) ∧
    (∀ w : Word, (eng s e).st = .running → serviceSlot (eng s e).slot = false → (eng s e).prog[(eng s e).pc]? = some w → decodeI e w = none →
      exec (.undefinedEncoding e w) s = .next (takeFault e 1 (eng s e).pc w.toNat s)))

/-- TSHP, TLD, TST, TMOV, TGET, TPUT, TXS and TXR. Where the TE's next word spells the instruction and its cycles stay below the budget: a valid shape
makes a tile of zeros; a tile is loaded and stored row by row at its stride, where the kernel may reach every byte; a tile is copied; one element is
read, a Q1.15 one with its sign, or written, cut to the element's width; a tile goes to the transfer queue, and a vector in it becomes a tile of rows
of 16. -/
def Obligations.TileMoveRows : Prop :=
  ∀ s : State,
    (∀ (d : Fin 16) (p : BitVec 10), Issued .te (.tshp d p) 1 s → shapeValid (bits p.toNat 1 0) (bits p.toNat 5 2 + 1) (bits p.toNat 9 6 + 1) = true →
      exec (.tshp d p) s = .next (advance .te none 1 (setTile d
        { ty := bits p.toNat 1 0, rows := bits p.toNat 5 2 + 1, cols := bits p.toNat 9 6 + 1,
          elems := List.replicate ((bits p.toNat 5 2 + 1) * (bits p.toNat 9 6 + 1)) 0 } s))) ∧
    (∀ (d a b : Fin 16) (p : BitVec 10), Issued .te (.tld d a b p) (moveCost ((bits p.toNat 5 2 + 1) * (bits p.toNat 9 6 + 1) * tySize (bits p.toNat 1 0))) s →
      shapeValid (bits p.toNat 1 0) (bits p.toNat 5 2 + 1) (bits p.toNat 9 6 + 1) = true →
      accessFault s .te false (tileAligned (bits p.toNat 1 0) (scalar s.indigo.te a).toNat (scalar s.indigo.te b).toNat) (scalar s.indigo.te a).toNat
        (tileRuns (bits p.toNat 1 0) (bits p.toNat 5 2 + 1) (bits p.toNat 9 6 + 1) (scalar s.indigo.te a).toNat (scalar s.indigo.te b).toNat) [] = none →
      exec (.tld d a b p { corr := [], bad := [] }) s =
        .next (advance .te none (moveCost ((bits p.toNat 5 2 + 1) * (bits p.toNat 9 6 + 1) * tySize (bits p.toNat 1 0)))
          (setTile d
            { ty := bits p.toNat 1 0, rows := bits p.toNat 5 2 + 1, cols := bits p.toNat 9 6 + 1, elems := (List.range ((bits p.toNat 5 2 + 1) * (bits p.toNat 9 6 + 1))).map fun i =>
              leNat (memRead s.indigo.pad ((scalar s.indigo.te a).toNat + i / (bits p.toNat 9 6 + 1) * (scalar s.indigo.te b).toNat +
                i % (bits p.toNat 9 6 + 1) * tySize (bits p.toNat 1 0)) (tySize (bits p.toNat 1 0))) } s))) ∧
    (∀ (d a b : Fin 16) (t : Tile), Issued .te (.tst d a b) (moveCost (t.rows * t.cols * tySize t.ty) + (readTiles [d] s).1) s → tile s d = some t →
      accessFault s .te true (tileAligned t.ty (scalar s.indigo.te a).toNat (scalar s.indigo.te b).toNat) (scalar s.indigo.te a).toNat
        (tileRuns t.ty t.rows t.cols (scalar s.indigo.te a).toNat (scalar s.indigo.te b).toNat) [] = none →
      exec (.tst d a b) s = .next (advance .te none (moveCost (t.rows * t.cols * tySize t.ty) + (readTiles [d] s).1)
        ((List.range t.rows).foldl (fun u r => padWrite ((scalar s.indigo.te a).toNat + r * (scalar s.indigo.te b).toNat)
          ((List.range t.cols).map fun k => le (tySize t.ty) (nth t.elems (r * t.cols + k) 0)).flatten u) (readTiles [d] s).2))) ∧
    (∀ (d a : Fin 16) (t : Tile), Issued .te (.tmov d a) (2 + (readTiles [a] s).1) s → tile s a = some t → exec (.tmov d a) s =
      .next (advance .te none (2 + (readTiles [a] s).1) (setTile d t (readTiles [a] s).2))) ∧
    (∀ (d a row col : Fin 16) (t : Tile), Issued .te (.tget d a row col) (2 + (readTiles [a] s).1) s → tile s a = some t → row.val < t.rows → col.val < t.cols →
      exec (.tget d a row col) s = .next (advance .te none (2 + (readTiles [a] s).1) (setScalar .te d
        (if t.ty = 0 then BitVec.ofInt 32 (signed 16 (nth t.elems (row.val * t.cols + col.val) 0)) else BitVec.ofNat 32 (nth t.elems (row.val * t.cols + col.val) 0))
        (readTiles [a] s).2))) ∧
    (∀ (d a row col : Fin 16) (t : Tile), Issued .te (.tput d a row col) (2 + (readTiles [d] s).1) s → tile s d = some t → row.val < t.rows → col.val < t.cols →
      exec (.tput d a row col) s = .next (advance .te none (2 + (readTiles [d] s).1) (setTile d
        { t with elems := t.elems.set (row.val * t.cols + col.val) ((scalar s.indigo.te a).toNat % 2 ^ (8 * tySize t.ty)) } (readTiles [d] s).2))) ∧
    (∀ (a : Fin 16) (t : Tile), Issued .te (.txs a) (8 + (readTiles [a] s).1) s → tile s a = some t → s.indigo.ts.length < 2 → exec (.txs a) s =
      .next (advance .te none (8 + (readTiles [a] s).1) { (readTiles [a] s).2 with indigo.ts := s.indigo.ts ++ [(t.ty, t.rows, t.cols, t.elems)] })) ∧
    (∀ (d : Fin 16) (l : List Nat) (rest : List (List Nat)), Issued .te (.txr d) 8 s → s.indigo.st = l :: rest → l.length ≤ 128 → exec (.txr d) s =
      .next (advance .te none 8 (setTile d
        { ty := 1, rows := (l.length + 15) / 16, cols := min l.length 16, elems := (List.range ((l.length + 15) / 16 * min l.length 16)).map fun i => nth l i 0 } { s with indigo.st := rest })))

/-- TEW, TEWS, TMM, TTR, TCVT, TRED and TUNPK. Where the TE's next word spells the instruction, its operands are in use with fitting types and shapes and
its cycles stay below the budget, the result has the shape of the row, each element is the row's function of its operands, and the flags of all
elements join the status word. -/
def Obligations.TileArithmeticRows : Prop :=
  ∀ s : State,
    (∀ (d a b : Fin 16) (op : Fin 5) (x y : Tile), tile s a = some x → tile s b = some y → x.ty = y.ty → x.rows = y.rows → x.cols = y.cols →
      Issued .te (.tew d a b op) (2 + (readTiles [a, b] s).1) s → exec (.tew d a b op) s =
        .next (advance .te none (2 + (readTiles [a, b] s).1)
          (tileResult d x.ty x.rows x.cols (List.zipWith (tewOp op x.ty) x.elems y.elems) (readTiles [a, b] s).2))) ∧
    (∀ (d a c : Fin 16) (op : Fin 3) (x : Tile), tile s a = some x → Issued .te (.tews d a c op) (2 + (readTiles [a] s).1) s → exec (.tews d a c op) s =
      .next (advance .te none (2 + (readTiles [a] s).1) (tileResult d x.ty x.rows x.cols
        (x.elems.map fun y => match op with
          | 0 => eAdd x.ty y ((scalar s.indigo.te c).toNat % 2 ^ (8 * tySize x.ty))
          | 1 => eMul x.ty y ((scalar s.indigo.te c).toNat % 2 ^ (8 * tySize x.ty))
          | 2 => ((scalar s.indigo.te c).toNat % 2 ^ (8 * tySize x.ty), 0)) (readTiles [a] s).2))) ∧
    (∀ (d a b : Fin 16) (op : Fin 3) (x y z : Tile), tile s a = some x → tile s b = some y → x.cols = y.rows → x.ty = y.ty →
      shapeValid (productTy op x) x.rows y.cols = true →
      (op = 2 → tile s d = some z ∧ z.ty = productTy op x ∧ z.rows = x.rows ∧ z.cols = y.cols) →
      Issued .te (.tmm d a b op) (2 + (x.rows * x.cols * y.cols + macRate x.ty - 1) / macRate x.ty + (readTiles (productReads op d a b) s).1) s →
      exec (.tmm d a b op) s =
        .next (advance .te none (2 + (x.rows * x.cols * y.cols + macRate x.ty - 1) / macRate x.ty + (readTiles (productReads op d a b) s).1)
          (tileResult d (productTy op x) x.rows y.cols
            ((List.range (x.rows * y.cols)).map fun i => productElem op x y z i) (readTiles (productReads op d a b) s).2))) ∧
    (∀ (d a : Fin 16) (x : Tile), tile s a = some x → shapeValid x.ty x.cols x.rows = true → Issued .te (.ttr d a) (6 + (readTiles [a] s).1) s →
      exec (.ttr d a) s = .next (advance .te none (6 + (readTiles [a] s).1) (tileResult d x.ty x.cols x.rows
        ((List.range (x.rows * x.cols)).map fun i => (nth x.elems (i % x.rows * x.cols + i / x.rows) 0, 0)) (readTiles [a] s).2))) ∧
    (∀ (d a : Fin 16) (ty : Fin 4) (ex : Byte) (x : Tile), tile s a = some x → shapeValid ty x.rows x.cols = true → Issued .te (.tcvt d a ty ex) (2 + (readTiles [a] s).1) s →
      exec (.tcvt d a ty ex) s = .next (advance .te none (2 + (readTiles [a] s).1)
        (tileResult d ty x.rows x.cols (x.elems.map fun y => eConvert x.ty ty y ex.toInt) (readTiles [a] s).2))) ∧
    (∀ (d a : Fin 16) (x : Tile), tile s a = some x →
      (Issued .te (.tred d a 0) (4 + (readTiles [a] s).1) s → exec (.tred d a 0) s = .next (advance .te none (4 + (readTiles [a] s).1)
        (tileResult d x.ty x.rows 1 ((List.range x.rows).map fun r => redSum x.ty ((List.range x.cols).map fun k => nth x.elems (r * x.cols + k) 0)) (readTiles [a] s).2))) ∧
      (Issued .te (.tred d a 1) (4 + (readTiles [a] s).1) s → exec (.tred d a 1) s = .next (advance .te none (4 + (readTiles [a] s).1)
        (tileResult d x.ty 1 x.cols ((List.range x.cols).map fun k => redSum x.ty ((List.range x.rows).map fun r => nth x.elems (r * x.cols + k) 0)) (readTiles [a] s).2))) ∧
      (Issued .te (.tred d a 2) (4 + (readTiles [a] s).1) s → exec (.tred d a 2) s = .next (advance .te none (4 + (readTiles [a] s).1)
        (tileResult d x.ty x.rows 1 ((List.range x.rows).map fun r => redMax x.ty ((List.range x.cols).map fun k => nth x.elems (r * x.cols + k) 0)) (readTiles [a] s).2))) ∧
      (Issued .te (.tred d a 3) (4 + (readTiles [a] s).1) s → exec (.tred d a 3) s = .next (advance .te none (4 + (readTiles [a] s).1)
        (tileResult d x.ty 1 x.cols ((List.range x.cols).map fun k => redMax x.ty ((List.range x.rows).map fun r => nth x.elems (r * x.cols + k) 0)) (readTiles [a] s).2)))) ∧
    (∀ (d a c : Fin 16) (op : Fin 5) (x : Tile), tile s a = some x → x.ty = 1 → Issued .te (.tunpk d a c op) (2 + (readTiles [a] s).1) s →
      exec (.tunpk d a c op) s = .next (advance .te none (2 + (readTiles [a] s).1) (tileResult d (if op = 2 then 3 else 1) x.rows x.cols
        (x.elems.map fun y => (unpackOp op ((scalar s.indigo.te c).toNat % 256) y, 0)) (readTiles [a] s).2)))

/-- SSHP, SLD, SST, SEW, SSCL, SDOT, SFFT, SGET, SPUT, SXS and SXR. Where the SE's next word spells the instruction, its operands are in use and fit and
its cycles stay below the budget: vectors are made, loaded, stored, combined, scaled, correlated, transformed, read and written by element, and passed
to and from the TE. A transform writes vectors of the same length whose rounding the manual leaves open (a free value, log entry 43). -/
def Obligations.SpectralRows : Prop :=
  ∀ s : State,
    (∀ (d : Fin 8) (len : BitVec 9), Issued .se (.sshp d len) 1 s → exec (.sshp d len) s =
      .next (advance .se none 1 (setSpec d (List.replicate (len.toNat + 1) 0) s))) ∧
    (∀ (d : Fin 8) (a : Fin 16) (len : BitVec 9), Issued .se (.sld d a len) (moveCost (4 * (len.toNat + 1))) s →
      accessFault s .se false ((scalar s.indigo.se a).toNat % 4 == 0) (scalar s.indigo.se a).toNat [((scalar s.indigo.se a).toNat, 4 * (len.toNat + 1))] [] = none →
      exec (.sld d a len { corr := [], bad := [] }) s = .next (advance .se none (moveCost (4 * (len.toNat + 1)))
        (setSpec d ((List.range (len.toNat + 1)).map fun i => padWord s ((scalar s.indigo.se a).toNat + 4 * i)) s))) ∧
    (∀ (d : Fin 8) (a : Fin 16) (l : List Nat), spec s d = some l → Issued .se (.sst d a) (moveCost (4 * l.length)) s →
      accessFault s .se true ((scalar s.indigo.se a).toNat % 4 == 0) (scalar s.indigo.se a).toNat [((scalar s.indigo.se a).toNat, 4 * l.length)] [] = none →
      exec (.sst d a) s = .next (advance .se none (moveCost (4 * l.length)) (padWrite (scalar s.indigo.se a).toNat (l.map (le 4)).flatten s))) ∧
    (∀ (d a b : Fin 8) (op : Fin 4) (x y : List Nat), spec s a = some x → spec s b = some y → x.length = y.length → Issued .se (.sew d a b op) (2 + (x.length + 3) / 4) s →
      exec (.sew d a b op) s = .next (advance .se none (2 + (x.length + 3) / 4) (vectorResult d (List.zipWith (sewOp op) x y) s))) ∧
    (∀ (d a : Fin 8) (c : Fin 16) (x : List Nat), spec s a = some x → Issued .se (.sscl d a c) (2 + (x.length + 3) / 4) s → exec (.sscl d a c) s =
      .next (advance .se none (2 + (x.length + 3) / 4) (vectorResult d (x.map fun v => cMul false v (scalar s.indigo.se c).toNat) s))) ∧
    (∀ (d : Fin 15) (a b : Fin 8) (h : Fin 16) (x y : List Nat), spec s a = some x → spec s b = some y → x.length = y.length →
      Issued .se (.sdot d a b h) (3 + (x.length + 3) / 4) s → exec (.sdot d a b h) s =
        .next (advance .se none (3 + (x.length + 3) / 4) (correlated d h.val (List.zip x y) s))) ∧
    (∀ (d a : Fin 8) (inverse : Bool) (x : List Nat), spec s a = some x → [4, 8, 16, 32, 64, 128, 256].contains x.length = true →
      Issued .se (.sfft d a inverse) (4 + (x.length * Nat.log2 x.length + 7) / 8) s →
      ∃ (y : List Nat) (fl : Flags), y.length = x.length ∧ exec (.sfft d a inverse) s =
        .next (advance .se none (4 + (x.length * Nat.log2 x.length + 7) / 8) (addFlags .se fl (setSpec d y (drawFree s).2)))) ∧
    (∀ (d : Fin 16) (a : Fin 8) (idx : Byte) (x : List Nat), spec s a = some x → idx.toNat < x.length → Issued .se (.sget d a idx) 2 s →
      exec (.sget d a idx) s = .next (advance .se none 2 (setScalar .se d (BitVec.ofNat 32 (nth x idx.toNat 0)) s))) ∧
    (∀ (d : Fin 8) (a : Fin 16) (idx : Byte) (x : List Nat), spec s d = some x → idx.toNat < x.length → Issued .se (.sput d a idx) 2 s →
      exec (.sput d a idx) s = .next (advance .se none 2 (setSpec d (x.set idx.toNat (scalar s.indigo.se a).toNat) s))) ∧
    (∀ (a : Fin 8) (x : List Nat), spec s a = some x → s.indigo.st.length < 2 → Issued .se (.sxs a) 8 s → exec (.sxs a) s =
      .next (advance .se none 8 { s with indigo.st := s.indigo.st ++ [x] })) ∧
    (∀ (d : Fin 8) (rows cols : Nat) (el : List Nat) (rest : List (Nat × Nat × Nat × List Nat)), s.indigo.ts = (0, rows, cols, el) :: rest → rows * cols ≤ 256 →
      Issued .se (.sxr d) 8 s → exec (.sxr d) s =
        .next (advance .se none 8 (setSpec d (el.map fun x => x % 65536) { s with indigo.ts := rest })))

/-- The rows of sweeps and of the engines. SWEEP_PASS, SWEEP_END and IMPEDANCE_REPORT: A waiting sweep whose engine is idle begins at its first point, and
one whose engine is not idle ends with cause 9 (log entry 71). A running one stores its pass and goes on to the next, and after the last pass it ends
with cause 1; where the store of the pass is a fault of the demodulator, the engine takes that fault instead. In every other state of the sweep both
rows change nothing. The impedance report goes on its on-die channel while the member measures, the state service runs and the engines have power, and
else nothing happens. CODE_COPY_DONE, KERNEL_TRIGGER, WATCHDOG and MODEL_FIT_LAUNCH: Outside the self-test, the end of a code copy starts a loaded
kernel at its entry word with its arguments and cleared registers, faults it with code 7 where the entry lies outside its code, runs a library kernel,
or resumes a kernel whose context is whole, which faults with code 7 where its place lies outside its code; one whose context is damaged stays
suspended with event 0x66; an engine that loads nothing is left alone. A trigger that is due (in mode 2 its time has come, in mode 1 its field N's
entries are written, 0 acting as 1), while the member measures and the engines have power, counts, takes those entries from its count, and launches
its committed kernel with the ring pointers and the trigger number on an idle engine, keeps the launch inside the self-test, raises event 0x64 where
the engine is busy, and launches nothing that triggers may not launch; one that is not due does nothing. The watchdog of a running engine faults it
with code 8, and ends the sweep with cause 9 where its demodulator runs; an engine that is not running is left alone. The model fit is launched on the
idle TE once a sweep asks for it, and otherwise nothing happens. -/
def Obligations.SweepAndEngineRows : Prop :=
  (∀ s : State,
    (s.sweep.st = .waiting → s.indigo.se.st = .idle → exec .sweepPass s =
      .next (startPass (0, (beginSweep s).sweep.passB) (beginSweep s))) ∧
    (s.sweep.st = .waiting → s.indigo.se.st ≠ .idle → exec .sweepPass s = .next (endSweep 9 s)) ∧
    (∀ (p : Nat × Bool), s.sweep.st = .running → nextPass s = some p →
      (passFault s = none → exec .sweepPass s = .next (startPass p (storePass s))) ∧
      (∀ f : Nat × Nat, passFault s = some f → exec .sweepPass s = .next (demodFault f s))) ∧
    (s.sweep.st = .running → nextPass s = none → exec .sweepPass s = .next s) ∧
    (s.sweep.st ≠ .waiting → s.sweep.st ≠ .running → exec .sweepPass s = .next s) ∧
    (s.sweep.st = .running → nextPass s = none → passFault s = none → exec .sweepEnd s = .next (endSweep 1 s)) ∧
    (∀ f : Nat × Nat, s.sweep.st = .running → nextPass s = none → passFault s = some f → exec .sweepEnd s = .next (demodFault f s)) ∧
    (s.sweep.st ≠ .running ∨ nextPass s ≠ none → exec .sweepEnd s = .next s) ∧
    (measuring s = true → stateServiceOn s = true → s.indigo.off = false → exec .impedanceReport s = .next (sendOnDie 2 (impedanceData s) s)) ∧
    (measuring s = false ∨ stateServiceOn s = false ∨ s.indigo.off = true → exec .impedanceReport s = .next s)) ∧
  (∀ (e : Engine) (s : State),
    (∀ (code : List Word) (u : State), s.indigo.selfTest = false → (eng s e).st = .loading → (eng s e).pendingResume = false → serviceSlot (eng s e).slot = false →
      code = (if resident e (eng s e).slot s then (eng s e).prog else imageCode s (eng s e).slot) →
      u = setEng e (fun g => { g with st := .running, prog := code, progSlot := some g.slot, pc := g.entryIdx, cycles := 0, status := 0, lc0 := none, lc1 := none,
                                      a := (List.range 16).map (fun i => if i < 4 then nth g.pendingArgs i 0 else 0), tiles := List.replicate 16 none,
                                      spec := List.replicate 8 none, cache := [], page := s.regs.indigoPage }) s →
      ((eng s e).entryIdx < code.length → exec (.codeCopyDone e) s = .next u) ∧
      (code.length ≤ (eng s e).entryIdx → exec (.codeCopyDone e) s = .next (takeFault e 7 (eng s e).entryIdx (eng s e).entryIdx u))) ∧
    (s.indigo.selfTest = false → (eng s e).st = .loading → (eng s e).pendingResume = false → serviceSlot (eng s e).slot = true →
      exec (.codeCopyDone e) s = .next (runLibrary e (startEngine e s))) ∧
    (s.indigo.selfTest = false → (eng s e).st = .loading → (eng s e).pendingResume = true → contextOk e s = true →
      serviceSlot (eng (startEngine e s) e).slot = false →
      ((eng (startEngine e s) e).pc < (eng (startEngine e s) e).prog.length → exec (.codeCopyDone e) s = .next (startEngine e s)) ∧
      ((eng (startEngine e s) e).prog.length ≤ (eng (startEngine e s) e).pc → exec (.codeCopyDone e) s =
        .next (takeFault e 7 (eng (startEngine e s) e).pc (eng (startEngine e s) e).pc (startEngine e s)))) ∧
    (∀ u : State, s.indigo.selfTest = false → (eng s e).st = .loading → (eng s e).pendingResume = true → contextOk e s = false →
      u = setEng e (fun g => { g with st := .suspended, pendingResume := false }) s →
      exec (.codeCopyDone e) s = .next (raise 0x66 (engDetail e (eng s e).result.toNat (eng s e).pc u) u)) ∧
    (s.indigo.selfTest = false → (eng s e).st ≠ .loading → exec (.codeCopyDone e) s = .next s) ∧
    (∀ u : State, Triggered e s → u = triggerCounted e s →
      (triggerLaunches e s = false → exec (.kernelTrigger e) s = .next u) ∧
      (triggerLaunches e s = true → s.indigo.selfTest = true →
        exec (.kernelTrigger e) s = .next (deferLaunch e (rf (trigReg s e) 15 8) (triggerArgs e s) none u)) ∧
      (triggerLaunches e s = true → s.indigo.selfTest = false → (eng s e).st = .idle →
        exec (.kernelTrigger e) s = .next (launch e (rf (trigReg s e) 15 8) (triggerArgs e s) u)) ∧
      (triggerLaunches e s = true → s.indigo.selfTest = false → (eng s e).st ≠ .idle → exec (.kernelTrigger e) s =
        .next (raise 0x64 (det (inst2 (engCode e) (rf (trigReg s e) 15 8)) 0 0 0) { u with indigo.trigMiss := satAdd 255 u.indigo.trigMiss 1 }))) ∧
    (¬Triggered e s → exec (.kernelTrigger e) s = .next s) ∧
    (∀ (n : Nat) (u : State), (eng s e).st = .running → n = max (eng s e).cycles (eng s e).budget →
      u = takeFault e 8 (eng s e).pc (n / 1024) (setEng e (fun g => { g with cycles := n }) s) →
      (e = .te ∨ (eng s e).slot ≠ 0x81 → exec (.watchdog e) s = .next u) ∧
      (e = .se → (eng s e).slot = 0x81 → exec (.watchdog e) s = .next (endSweep 9 u))) ∧
    ((eng s e).st ≠ .running → exec (.watchdog e) s = .next s) ∧
    (s.sweep.st = .fitting → s.indigo.te.st = .idle → s.indigo.off = false → measuring s = true → exec .modelFitLaunch s = .next (beginLaunch .te 0x82 [] s)) ∧
    (s.sweep.st ≠ .fitting ∨ s.indigo.te.st ≠ .idle ∨ s.indigo.off = true ∨ measuring s = false → exec .modelFitLaunch s = .next s))

/-- DIE_MEASURE, COMPARATOR_TRIP, THROTTLE_STEP_TIMER, DIE_SENSOR_FAULT, UMBER_TEMP_READ, SD_CNT_EXPIRY, ROR_EVAL and THERMAL_REPORT. While measuring: a
die reading is judged; the comparator shuts the chip down at once; the die's throttle timer sets step 4 in shutdown and cooling, raises the step by
one while the sensor is broken or the throttled die does not fall, and lowers it by one in a normal die without a rise; the pack's timer sets step 4
for a group in shutdown, raises the step by one for a hot pack and else lowers it; a hard sensor fault, or a tenth bad reading, breaks the sensor; the
meter's temperature is taken while the link is up on an NV16-M; each second the rates are formed and compared; the thermal report goes on its on-die
channel. While not measuring these rows change nothing. A shutdown older than an hour is forgotten while not latched. -/
def Obligations.HeatRows : Prop :=
  ∀ s : State,
    (∀ t : Int, measuring s = true → exec (.dieMeasure t) s = .next (measureDie t s)) ∧
    (measuring s = true → exec .comparatorTrip s = .next (enterShutdown s)) ∧
    (measuring s = true → s.therm.level = .shutdown ∨ s.therm.level = .cooling → exec (.throttleStepTimer false) s = .next (setSDie 4 s)) ∧
    (measuring s = true → s.therm.level ≠ .shutdown → s.therm.level ≠ .cooling → s.therm.broken = true → exec (.throttleStepTimer false) s =
      .next (setSDie (min 4 (s.therm.sDie + 1)) s)) ∧
    (measuring s = true → s.therm.level = .throttle → s.therm.broken = false →
      (dieFalling s = false → exec (.throttleStepTimer false) s = .next (setSDie (min 4 (s.therm.sDie + 1)) s)) ∧
      (dieFalling s = true → exec (.throttleStepTimer false) s = .next s)) ∧
    (measuring s = true → s.therm.level = .normal → s.therm.broken = false →
      (s.therm.rise = false → exec (.throttleStepTimer false) s = .next (setSDie (s.therm.sDie - 1) s)) ∧
      (s.therm.rise = true → exec (.throttleStepTimer false) s = .next s)) ∧
    (measuring s = true → s.therm.grp.contains 3 = true → exec (.throttleStepTimer true) s = .next (setSPack 4 s)) ∧
    (measuring s = true → s.therm.grp.contains 3 = false →
      (packHot s = true → exec (.throttleStepTimer true) s = .next (setSPack (min 4 (s.therm.sPack + 1)) s)) ∧
      (packHot s = false → exec (.throttleStepTimer true) s = .next (setSPack (s.therm.sPack - 1) s))) ∧
    (measuring s = true → exec (.dieSensorFault true) s = .next (breakDie { s with therm.hardFault := true })) ∧
    (measuring s = true → 10 ≤ s.therm.xBad → exec (.dieSensorFault false) s = .next (breakDie s)) ∧
    (s.therm.xBad < 10 → exec (.dieSensorFault false) s = .next s) ∧
    (∀ t : Int, measuring s = true → s.umber.linkUp = true → s.sys.variant = .m → exec (.umberTempRead t) s =
      .next { s with umber.temp := t, therm.umbTemp := t, therm.umbAt := some s.clk }) ∧
    (∀ t : Int, s.umber.linkUp = false ∨ s.sys.variant = .s → exec (.umberTempRead t) s = .next s) ∧
    (s.therm.latched = false → exec .sdCntExpiry s = .next { s with therm.sdTimes := s.therm.sdTimes.dropLast }) ∧
    (s.therm.latched = true → exec .sdCntExpiry s = .next s) ∧
    (measuring s = true → exec .rorEval s = .next (settleAux s
      (compareDie { (List.range 8).foldl (compareChannel s) ((List.range 8).foldl rorChannel s)
        with therm.secAux := List.replicate 8 (0, 0) }))) ∧
    (measuring s = true → exec .thermalReport s = .next (sendOnDie 3 (thermReport s) s)) ∧
    (∀ (t : Int) (b : Bool) (i : Instr), measuring s = false →
      i = .dieMeasure t ∨ i = .comparatorTrip ∨ i = .throttleStepTimer b ∨ i = .dieSensorFault b ∨ i = .umberTempRead t ∨ i = .rorEval ∨ i = .thermalReport →
      exec i s = .next s)

/-- SENT_FRAME, SERIAL_MESSAGE, SPORT_REPORT, SPORT_STALE, LINE_LOW, LINE_POWER_RESTORE, LINE_RETRY, VSP_ABSENT, VSP_RESTORED and SAT_TEST_TIMEOUT. On a
port that takes frames now: a frame with a bad calibration pulse, with a bad pulse, count or pause, or with a bad check nibble is counted as such, and
a good one is taken with its status and data nibbles. A serial message with a bad CRC is counted; a good one is kept, and one of the short format with
identifier 1 gives the satellite's type, and with identifier 9 answers an awaited self-test whose request was sent: any value but 0 fails it with
event 0x76. A port that takes no frames leaves both without effect. A report of a port in use goes on its on-die channel while measuring. A fresh port
that gives nothing becomes stale, with event 0x72 while measuring. A line held low on a listening port takes LINE_LOW with event 0x71 and stale, and
loses its power; a restore or a retry acts on a listening powered port in LINE_LOW. VSP's loss and return are taken to each powered port in turn that
measures or is in a burst. An awaited self-test answer that does not come fails the test with event 0x76. -/
def Obligations.SensorPortRows : Prop :=
  ∀ (port : Fin 2) (s : State),
    (∀ (cal : Nat) (pulses ticks : List Nat) (pause : Option Nat) (bad : Bool), spAccepts s port.val = true → ticks = pulses.map (pulseTicks cal) →
      bad = (ticks.any (fun t => t < 12 || 27 < t) || pulses.length != spNib s port.val + 2 || !(match pause with
        | some t => rf (spCfg s port.val) 2 2 == 1 && decide (12 ≤ pulseTicks cal t) && decide (pulseTicks cal t ≤ 768)
        | none => true)) →
      (calOk s port.val cal = false → exec (.sentFrame port cal pulses pause) s = .next (badFrame port.val (fun p => { p with calCnt := satAdd 255 p.calCnt 1 }) s)) ∧
      (calOk s port.val cal = true → bad = true → exec (.sentFrame port cal pulses pause) s =
        .next (badFrame port.val (fun p => takeCal cal { p with nibCnt := satAdd 255 p.nibCnt 1 }) s)) ∧
      (calOk s port.val cal = true → bad = false → crc4 (((ticks.map (· - 12)).drop 1).take (spNib s port.val)) ≠ nth (ticks.map (· - 12)) (spNib s port.val + 1) 0 →
        exec (.sentFrame port cal pulses pause) s = .next (badFrame port.val (fun p => takeCal cal { p with crcCnt := satAdd 255 p.crcCnt 1 }) s)) ∧
      (calOk s port.val cal = true → bad = false → crc4 (((ticks.map (· - 12)).drop 1).take (spNib s port.val)) = nth (ticks.map (· - 12)) (spNib s port.val + 1) 0 →
        exec (.sentFrame port cal pulses pause) s =
          .next (goodFrame port.val cal (nth (ticks.map (· - 12)) 0 0) (((ticks.map (· - 12)).drop 1).take (spNib s port.val)) s))) ∧
    (∀ (fmt : Bool) (ident : Byte) (value : BitVec 16), spAccepts s port.val = true → exec (.serialMessage port fmt ident value false) s =
      .next (setSp port.val (fun p => { p with esmCnt := satAdd 255 p.esmCnt 1 }) s)) ∧
    (∀ (fmt : Bool) (ident : Byte) (value : BitVec 16) (u : State), spAccepts s port.val = true →
      u = setSp port.val (fun p => { p with esmId := ident.toNat, esmData := value.toNat, esmFmt := fmt }) s →
      (fmt = true ∨ (ident ≠ 0x01 ∧ (ident ≠ 0x09 ∨ (spPort s port.val).awaiting = false ∨ requestSent s port.val = false)) →
        exec (.serialMessage port fmt ident value true) s = .next u) ∧
      (fmt = false → ident = 0x01 → exec (.serialMessage port fmt ident value true) s = .next (takeType port.val (value.toNat % 256) u)) ∧
      (fmt = false → ident = 0x09 → (spPort s port.val).awaiting = true → requestSent s port.val = true →
        (value = 0 → exec (.serialMessage port fmt ident value true) s = .next (setSp port.val (fun p => { p with awaiting := false, satFailed := false }) u)) ∧
        (value ≠ 0 → exec (.serialMessage port fmt ident value true) s =
          .next (raise 0x76 (spDetail (setSp port.val (fun p => { p with awaiting := false, satFailed := true }) u) port.val)
            (setSp port.val (fun p => { p with awaiting := false, satFailed := true }) u))))) ∧
    (∀ (cal : Nat) (pulses : List Nat) (pause : Option Nat) (fmt ok : Bool) (ident : Byte) (value : BitVec 16), spAccepts s port.val = false →
      exec (.sentFrame port cal pulses pause) s = .next s ∧ exec (.serialMessage port fmt ident value ok) s = .next s) ∧
    (measuring s = true → spMode s port.val ≠ 0 → exec (.sportReport port) s = .next (sendOnDie (4 + port.val) (sportData s port.val) s)) ∧
    (measuring s = false ∨ spMode s port.val = 0 → exec (.sportReport port) s = .next s) ∧
    (∀ u : State, (spPort s port.val).stale = false → u = setSp port.val (fun p => { p with stale := true }) s →
      (measuring s = true → exec (.sportStale port) s = .next (raise 0x72 (spDetail u port.val) u)) ∧
      (measuring s = false → exec (.sportStale port) s = .next u)) ∧
    ((spPort s port.val).stale = true → exec (.sportStale port) s = .next s) ∧
    (∀ u : State, spListens s port.val = true → (spPort s port.val).st ≠ .lineLow → u = setSp port.val (fun p => { p with st := .lineLow, linePwr := false }) s →
      exec (.lineLow port) s = .next (setStale port.val (raise 0x71 (spDetail u port.val) u))) ∧
    (spListens s port.val = true → (spPort s port.val).st = .lineLow → exec (.lineLow port) s = .next (setSp port.val (fun p => { p with linePwr := false }) s)) ∧
    (spListens s port.val = false → exec (.lineLow port) s = .next s) ∧
    (∀ low : Bool, (spPort s port.val).st = .lineLow → spPowers s port.val = true → spListens s port.val = true →
      exec (.linePowerRestore port low) s = .next (setSp port.val (fun p => { p with linePwr := !low }) s) ∧
      exec (.lineRetry port) s = .next (setSp port.val (fun p => { p with linePwr := true }) s)) ∧
    (∀ low : Bool, (spPort s port.val).st ≠ .lineLow ∨ spPowers s port.val = false ∨ spListens s port.val = false →
      exec (.linePowerRestore port low) s = .next s ∧ exec (.lineRetry port) s = .next s) ∧
    (exec .vspAbsent s = .next ([0, 1].foldl (fun u n => if spPowers u n && (measuring u || (spPort u n).burst) then powerPort n u else u)
      { s with pins.vsp := false })) ∧
    (exec .vspRestored s = .next ([0, 1].foldl (fun u n => if (spPort u n).st == .vspAbsent && (measuring u || (spPort u n).burst) then powerPort n u else u)
      { s with pins.vsp := true })) ∧
    (∀ u : State, (spPort s port.val).awaiting = true → u = setSp port.val (fun p => { p with awaiting := false, satFailed := true }) s →
      exec (.satTestTimeout port) s = .next (raise 0x76 (spDetail u port.val) u)) ∧
    ((spPort s port.val).awaiting = false → exec (.satTestTimeout port) s = .next s)

/-- The rows of the runaway watch. WATCH_EVAL, ALARM_DEFERRED_ACTIONS, CRITERIA_STALE, CRITERION_UNAVAILABLE, ZONE_SHARE_SEND, ZONE_SHARE_STALE,
GAS_LEARN_END, GAS_BASELINE_UPDATE, IMPEDANCE_BASELINE and WATCH_REPORT. While measuring, the watch is evaluated and reported, and the frame of an
ALARM decided in SENTINEL is sent; else these do nothing. Criteria that stop coming from the core are noted. A criterion unavailable for its time
raises event 0x7F, but for one that is available by then or whose baseline is still being learnt. While the core gives criteria they go to every peer
of the zone; a peer's share that grows old is dropped. The learnt gas baseline is the mean of what was learnt, at most the cap, and is left open where
nothing was learnt. Each minute's mean begins anew; a minute without an alarm level, like the one before it, whose mean lies below the baseline plus
half the threshold moves the learnt baseline by a sixtieth of the difference, at most to the cap. The impedance baselines move by a 1440th. -/
def Obligations.WatchRows : Prop :=
  ∀ s : State,
    (measuring s = true → exec .watchEval s = .next (evalWatch s)) ∧
    (s.sys.sentinelAlarm = true → measuring s = true → exec .alarmDeferredActions s = .next (alarmFrame { s with sys.sentinelAlarm := false })) ∧
    (s.sys.sentinelAlarm = false ∨ measuring s = false → exec .alarmDeferredActions s = .next s) ∧
    (exec .criteriaStale s = .next { s with watch.coreStale := true }) ∧
    (∀ c : Fin 6, s.watch.unavail.getLsbD c.val = true → ¬stillLearns c s → exec (.criterionUnavailable c) s =
      .next (raise 0x7F (det (2 ^ c.val : Nat) s.watch.own.toNat s.watch.level.code (seenMask s).toNat) s)) ∧
    (∀ c : Fin 6, s.watch.unavail.getLsbD c.val = false ∨ stillLearns c s → exec (.criterionUnavailable c) s = .next s) ∧
    (coreGives s = true → exec .zoneShareSend s =
      .next ((List.range 24).foldl (fun s j => if zonePeer s j then sendSafety j (shareData s) s else s) s)) ∧
    (coreGives s = false → exec .zoneShareSend s = .next s) ∧
    (∀ peer : Fin 24, exec (.zoneShareStale peer) s = .next { s with watch.shares := s.watch.shares.set peer.val none }) ∧
    (∀ (port : Fin 2) (sum : Int) (n : Nat), nth s.watch.learn port.val true = true → nth s.watch.learnSum port.val (0, 0) = (sum, n) → n ≠ 0 →
      exec (.gasLearnEnd port) s =
        .next { s with watch.learn := s.watch.learn.set port.val false, watch.learnSum := s.watch.learnSum.set port.val (0, 0),
                       watch.minSum := s.watch.minSum.set port.val (0, 0),
                       watch.gasBase := s.watch.gasBase.set port.val (min (gCap s : Rat) ((sum : Rat) / (n : Rat))) }) ∧
    (∀ (port : Fin 2), nth s.watch.learn port.val true = false ∨ (nth s.watch.learnSum port.val (0, 0)).2 = 0 → exec (.gasLearnEnd port) s = .next s) ∧
    (∀ (port : Fin 2) (sum : Int) (n : Nat) (base : Rat) (u : State), nth s.watch.minSum port.val (0, 0) = (sum, n) → base = nth s.watch.gasBase port.val 0 →
      u = { s with watch.minSum := s.watch.minSum.set port.val (0, 0), watch.minNone := s.watch.minNone.set port.val (s.watch.level == .none) } →
      (nth s.watch.learn port.val true = false → n ≠ 0 → nth s.watch.minNone port.val false = true → s.watch.level = .none →
        (sum : Rat) / (n : Rat) < base + (gThr s : Rat) / 2 → exec (.gasBaselineUpdate port) s =
          .next { u with watch.gasBase := s.watch.gasBase.set port.val (min (gCap s : Rat) (base + ((sum : Rat) / (n : Rat) - base) / 60)) }) ∧
      (nth s.watch.learn port.val true = true ∨ n = 0 ∨ nth s.watch.minNone port.val false = false ∨ s.watch.level ≠ .none ∨
        base + (gThr s : Rat) / 2 ≤ (sum : Rat) / (n : Rat) → exec (.gasBaselineUpdate port) s = .next u)) ∧
    (exec .impedanceBaseline s = .next { s with watch.base5 := s.watch.base5.mapIdx (baselineStep s) }) ∧
    (measuring s = true → exec .watchReport s =
      .next (sendOnDie 6 (le 1 s.watch.level.code ++ le 1 s.watch.own.toNat ++ le 1 s.watch.unavail.toNat ++
        le 1 (b2n (s.watch.strong && s.watch.level == .alarm))) s)) ∧
    (measuring s = false → exec .watchEval s = .next s ∧ exec .watchReport s = .next s)

/-- PROOF_DUE, PROOF_START, PROOF_COMPLETE and PROOF_OVERDUE. On a powered member whose proof cycle does not run, a cycle falls due: it is deferred while
a cause stands. A due cycle without a cause starts: the member leaves IDLE, the steps are taken in order, the failed ones are reported, and it awaits
the satellites whose answers are still to come; with a cause it is deferred. A started cycle whose satellites and open-wire test are done completes:
where a step failed the next one is due an hour after its start and the result is 2, else the result is 1 with event 0x7C; its kept launches begin,
and every PROOF_RUN that waits for it is completed with the number, the result and the steps. A cycle deferred for too long raises event 0x7E once.
Where there is nothing to start, complete or report, nothing changes. -/
def Obligations.ProofRows : Prop :=
  ∀ s : State,
    (proofRuns s = false → s.sys.powered = true → exec .proofDue s =
      .next { s with watch.dueSince := some (s.watch.dueSince.getD s.clk), watch.pdefer := proofCause s,
                     watch.pst := if proofCause s = 0 then .idle else .deferred }) ∧
    (proofRuns s = true ∨ s.sys.powered = false → exec .proofDue s = .next s) ∧
    (∀ (m : ProofIn) (u : State), s.watch.dueSince.isSome = true → proofRuns s = false → proofCause s = 0 → u = proofSteps m (proofBegun s) →
      exec (.proofStart m) s = .next { u with watch.pst := if u.sp1.awaiting || u.sp2.awaiting then .awaiting else u.watch.pst }) ∧
    (∀ m : ProofIn, s.watch.dueSince.isSome = true → proofRuns s = false → proofCause s ≠ 0 → exec (.proofStart m) s = .next (proofFallsDue s)) ∧
    (∀ m : ProofIn, s.watch.dueSince = none ∨ proofRuns s = true → exec (.proofStart m) s = .next s) ∧
    (∀ (u v : State) (failed : Bool) (n : Nat), proofRuns s = true → s.sp1.awaiting = false → s.sp2.awaiting = false → s.watch.owDue = false →
      u = reportFailed [6, 7] (finishSat 1 (finishSat 0 s)) → n = (s.watch.pnum + 1) % 65536 →
      failed = ((List.range 13).any fun k => bits u.watch.pres.toNat (2 * k + 1) (2 * k) == 2) →
      (failed = true → v = endSelfTest { u with watch.pst := .idle, watch.plast := 2, watch.pnum := n, watch.poverdue := false, watch.pby := [],
                                                  watch.dueAt := some (s.watch.pstartAt + 3600 * Config.sec) } →
        exec .proofComplete s = .next (s.watch.pby.foldl (fun s c => completeQueued c.1 c.2 (le 2 n ++ le 1 2 ++ le 1 0 ++ le 4 u.watch.pres.toNat) s) v)) ∧
      (failed = false → v = endSelfTest { u with watch.pst := .idle, watch.plast := 1, watch.pnum := n, watch.poverdue := false, watch.pby := [] } →
        exec .proofComplete s = .next (s.watch.pby.foldl (fun s c => completeQueued c.1 c.2 (le 2 n ++ le 1 1 ++ le 1 0 ++ le 4 u.watch.pres.toNat) s)
          (raise 0x7C (watchDetail v) v)))) ∧
    (proofRuns s = false ∨ s.sp1.awaiting = true ∨ s.sp2.awaiting = true ∨ s.watch.owDue = true → exec .proofComplete s = .next s) ∧
    (s.watch.pst = .deferred → s.watch.poverdue = false → exec .proofOverdue s =
      .next (raise 0x7E (watchDetail s) { s with watch.poverdue := true })) ∧
    (s.watch.pst ≠ .deferred ∨ s.watch.poverdue = true → exec .proofOverdue s = .next s)

/-- INPUT_CHANGE, TEST_PULSE, DISCREPANCY, RESET_PULSE, RESET_ARM_EXPIRY and SAFETY_MESSAGE. While Vermilion runs: a channel of an input that has held a
new level for its filter time (48 samples; for an OSSD's low 20, with 17 to 19 open, log 196) is judged by the input's type, with the two-hand rule
and any stop that follows, and only kept while the input is under test; a test pulse counts on each channel what it should not see; an input whose
channels disagree is in DISCREPANCY with event 0x83, once; a pulse of RESET that began after an arming resets: of another length than 100 ms to 3 s it
is refused with cause 3, with a class A condition present with 1, with an emergency stop in demand with 2, and else it clears the latched faults; one
that began after the seal's arming takes the seal off with event 0x8E; an on-die message that passes the alive check is taken and one that does not is
discarded and counted. While Vermilion does not run these change nothing but the message sent. The earlier of two armings runs out first: the reset's
with event 0x8C and cause 4, and both where they are equal. -/
def Obligations.SafetyInputRows : Prop :=
  ∀ s : State,
    (∀ (k : Fin 4) (chB high : Bool) (n : Nat) (i : InpS), vermRuns s = true → levelHeld (inpType s k.val) high n = true → i = (if chB then { nth s.verm.inps k.val {} with b := high } else { nth s.verm.inps k.val {} with a := high }) →
      (underTest s k.val = false → exec (.inputChange k chB high n) s =
        .next (enforceStop (evalTwoHand (noteInput k.val (inpType s k.val) (nth s.verm.inps k.val {}) (nextInp (inpType s k.val) i) s)))) ∧
      (underTest s k.val = true → exec (.inputChange k chB high n) s = .next { s with verm.inps := s.verm.inps.set k.val i })) ∧
    (∀ (b : Bool) (levels : List (Bool × Bool)), vermRuns s = true → exec (.testPulse b levels) s =
      .next (enforceStop ((List.range 4).foldl (pulseInput b levels) s))) ∧
    (∀ k : Fin 4, vermRuns s = true → inpType s k.val ≠ 0 → inpType s k.val < 5 → disagrees (inpType s k.val) (nth s.verm.inps k.val {}) = true →
      (nth s.verm.inps k.val {}).st ≠ .cross → (nth s.verm.inps k.val {}).st ≠ .discrepancy → exec (.discrepancy k) s =
        .next (enforceStop (raise 0x83 (vermDetail (k.val + 1) 0 3 s.verm.refuse)
          { s with verm.inps := s.verm.inps.set k.val { nth s.verm.inps k.val {} with st := .discrepancy, bothDemand := false, disagree := true } }))) ∧
    (∀ k : Fin 4, inpType s k.val = 0 ∨ 5 ≤ inpType s k.val ∨ disagrees (inpType s k.val) (nth s.verm.inps k.val {}) = false ∨
      (nth s.verm.inps k.val {}).st = .cross ∨ (nth s.verm.inps k.val {}).st = .discrepancy → exec (.discrepancy k) s = .next s) ∧
    (∀ (ms : Nat) (u : State), vermRuns s = true → 100 ≤ ms → ms ≤ 3000 → pulseCounts ms s.verm.armReset s = true →
      (presentA s ≠ 0 ∨ s.verm.newA = true → u = resetFails 1 s) → (presentA s = 0 → s.verm.newA = false → estopInDemand s = true → u = resetFails 2 s) →
      (presentA s = 0 → s.verm.newA = false → estopInDemand s = false → u = resetSucceeds s) →
      (pulseCounts ms s.verm.armUnseal s = false → exec (.resetPulse ms) s = .next u) ∧
      (pulseCounts ms s.verm.armUnseal s = true → exec (.resetPulse ms) s =
        .next (enforceStop (raise 0x8E (vermDetail 0 0 0 s.verm.refuse) { u with verm.isSealed := false, verm.armUnseal := none })))) ∧
    (∀ ms : Nat, vermRuns s = true → ms < 100 ∨ 3000 < ms → pulseCounts ms s.verm.armReset s = true → exec (.resetPulse ms) s = .next (resetFails 3 s)) ∧
    (∀ ms : Nat, vermRuns s = true → 100 ≤ ms → ms ≤ 3000 → pulseCounts ms s.verm.armReset s = false → pulseCounts ms s.verm.armUnseal s = true →
      exec (.resetPulse ms) s = .next (enforceStop (raise 0x8E (vermDetail 0 0 0 s.verm.refuse) { s with verm.isSealed := false, verm.armUnseal := none }))) ∧
    (∀ ms : Nat, pulseCounts ms s.verm.armReset s = false → pulseCounts ms s.verm.armUnseal s = false ∨ ms < 100 ∨ 3000 < ms → exec (.resetPulse ms) s = .next s) ∧
    (∀ (t : Nat) (u : Option Nat), s.verm.armReset = some t → s.verm.armUnseal = u →
      ((∃ v, u = some v ∧ v < t) → exec .resetArmExpiry s = .next { s with verm.armUnseal := none }) ∧
      ((∀ v, u = some v → t ≤ v) → exec .resetArmExpiry s = .next (raise 0x8C (vermDetail 0 s.verm.faultA.toNat 0 4)
        { s with verm.armReset := none, verm.armUnseal := if u = some t then none else u, verm.rstFail := 4 }))) ∧
    (s.verm.armReset = none → exec .resetArmExpiry s = .next { s with verm.armUnseal := none }) ∧
    (∀ (ch : Fin 8) (alive : Byte) (d : List Byte) (crc : Byte) (u : State) (ok : Bool), vermRuns s = true →
      aliveCheck ch.val alive.toNat d crc { s with chk.sent := takeSent ch.val s.chk.sent } = (u, ok) →
      (ok = true → exec (.safetyMessage ch alive d crc) s = .next (onDie ch.val d { u with verm.deadCh := setBit u.verm.deadCh ch.val false })) ∧
      (ok = false → exec (.safetyMessage ch alive d crc) s = .next { u with verm.discard := satAdd 255 u.verm.discard 1 })) ∧
    (∀ (ch : Fin 8) (alive : Byte) (d : List Byte) (crc : Byte), vermRuns s = false → exec (.safetyMessage ch alive d crc) s =
      .next { s with chk.sent := takeSent ch.val s.chk.sent }) ∧
    (∀ (k : Fin 4) (chB high : Bool) (n : Nat), levelHeld (inpType s k.val) high n = false → exec (.inputChange k chB high n) s = .next s) ∧
    (∀ (k : Fin 4) (b high : Bool) (n : Nat) (levels : List (Bool × Bool)) (ms : Nat) (i : Instr), vermRuns s = false →
      i = .inputChange k b high n ∨ i = .testPulse b levels ∨ i = .discrepancy k ∨ i = .resetPulse ms → exec i s = .next s)

/-- RAMP_DONE, PULLIN_DONE, OFF_PULSE, OUTPUT_SHORT, STUCK_ON, OPEN_LOAD, VCOIL_LOW and PRE_MAX_TIMEOUT. A contactor output goes from its ramp to pull-in
and from pull-in to hold. A test pulse on an output in pull-in or hold passes below 2 V and sets the count of failures to 0; the first that does not
sets it to 1, and the next is class A cause 1 with event 0x86. A driven output that is shorted while VCOIL is not low is in FAULT with event 0x85 and
class A cause 0. While Vermilion runs, an output that is on undriven is class A cause 1 with event 0x86. An open load at hold is in FAULT with event
0x87 and class B cause 3. While Vermilion runs, VCOIL is kept; below its limit it is low, class B cause 4 with event 0x8F, and more than 1 V above the
limit it is not. The precharge output is turned off at its longest time. Otherwise these rows change nothing. -/
def Obligations.OutputRows : Prop :=
  ∀ (o : Fin 3) (s : State),
    ((nth s.verm.outs o.val {}).st = .ramp → exec (.rampDone o) s = .next (updOut o.val (fun x => { x with st := .pullin, atClk := s.clk }) s)) ∧
    ((nth s.verm.outs o.val {}).st ≠ .ramp → exec (.rampDone o) s = .next s) ∧
    ((nth s.verm.outs o.val {}).st = .pullin → exec (.pullinDone o) s = .next (updOut o.val (fun x => { x with st := .hold, atClk := s.clk }) s)) ∧
    ((nth s.verm.outs o.val {}).st ≠ .pullin → exec (.pullinDone o) s = .next s) ∧
    (∀ mV : BitVec 16, (nth s.verm.outs o.val {}).st = .pullin ∨ (nth s.verm.outs o.val {}).st = .hold →
      (mV.toNat < 2000 → exec (.offPulse o mV) s = .next (updOut o.val (fun x => { x with offFails := 0 }) s)) ∧
      (2000 ≤ mV.toNat → (nth s.verm.outs o.val {}).offFails = 0 → exec (.offPulse o mV) s = .next (updOut o.val (fun x => { x with offFails := 1 }) s)) ∧
      (2000 ≤ mV.toNat → (nth s.verm.outs o.val {}).offFails ≠ 0 → exec (.offPulse o mV) s =
        .next (classA 1 (raise 0x86 (vermDetail o.val s.cell.isnsMa 4 s.verm.refuse) (updOut o.val (fun x => { x with offFails := 2 }) s))))) ∧
    (∀ mV : BitVec 16, (nth s.verm.outs o.val {}).st ≠ .pullin → (nth s.verm.outs o.val {}).st ≠ .hold → exec (.offPulse o mV) s = .next s) ∧
    (driven (nth s.verm.outs o.val {}) = true → s.verm.vcoilLow = false → exec (.outputShort o) s =
      .next (classA 0 (raise 0x85 (vermDetail o.val s.cell.isnsMa 4 s.verm.refuse) (turnOff o.val .fault s)))) ∧
    (driven (nth s.verm.outs o.val {}) = false ∨ s.verm.vcoilLow = true → exec (.outputShort o) s = .next s) ∧
    (driven (nth s.verm.outs o.val {}) = false → vermRuns s = true → exec (.stuckOn o) s =
      .next (classA 1 (raise 0x86 (vermDetail o.val s.cell.isnsMa 0 s.verm.refuse) s))) ∧
    (driven (nth s.verm.outs o.val {}) = true ∨ vermRuns s = false → exec (.stuckOn o) s = .next s) ∧
    ((nth s.verm.outs o.val {}).st = .hold → exec (.openLoad o) s =
      .next (classB 3 true (raise 0x87 (vermDetail o.val s.cell.isnsMa 4 s.verm.refuse)
        { turnOff o.val .fault s with verm.openLoad := setBit (turnOff o.val .fault s).verm.openLoad o.val true }))) ∧
    ((nth s.verm.outs o.val {}).st ≠ .hold → exec (.openLoad o) s = .next s) ∧
    (∀ (v : BitVec 12) (limit : Nat), vermRuns s = true → limit = (if bitN (blk s 0x01 1) 1 then 1700 else 850) →
      (s.verm.vcoilLow = false → v.toNat < limit → exec (.vcoilLow v) s =
        .next (classB 4 true (raise 0x8F (vermDetail 0 s.cell.isnsMa 1 s.verm.refuse) (enforceStop { s with verm.vcoil := v, verm.vcoilLow := true })))) ∧
      (s.verm.vcoilLow = true → limit + 100 < v.toNat → exec (.vcoilLow v) s = .next (classB 4 false { s with verm.vcoil := v, verm.vcoilLow := false })) ∧
      ((s.verm.vcoilLow = true ∧ v.toNat ≤ limit + 100) ∨ (s.verm.vcoilLow = false ∧ limit ≤ v.toNat) → exec (.vcoilLow v) s = .next { s with verm.vcoil := v })) ∧
    (∀ v : BitVec 12, vermRuns s = false → exec (.vcoilLow v) s = .next s) ∧
    (driven (nth s.verm.outs 2 {}) = true → exec .preMaxTimeout s = .next (turnOff 2 .off s)) ∧
    (driven (nth s.verm.outs 2 {}) = false → exec .preMaxTimeout s = .next s)

/-- STATE_FRAME_SEND, PEER_LOST, ALIVE_TIMEOUT, HARD_LIMIT_TIMER, CLASS_B_ESCALATE, CLASS_B_TIMER_SAVE, CLASS_B_TIMER_RESET and TWIN_CAUSE_END. While
Vermilion runs: state frames go to every peer that watches or takes the current; a watched peer that falls silent is lost with event 0x8D and class B
cause 6, once; a supervised on-die channel that falls silent is class A cause 3; a current above the hard limit for its time holds condition 3; the
time of a class B cause that is absent is cleared. A standing class B cause that outlasts its time escalates to class A cause 11 with event 0x8A. The
times are saved; the TWIN cause ends. Otherwise these rows change nothing. -/
def Obligations.FaultClassRows : Prop :=
  ∀ s : State,
    (vermRuns s = true → exec .stateFrameSend s =
      .next ((List.range 24).foldl (fun s j => if peerRole s j 0 || peerRole s j 2 then sendSafety j (stateData s) s else s) s)) ∧
    (∀ peer : Fin 24, vermRuns s = true → peerRole s peer.val 0 = true → (nth s.verm.peers peer.val {}).lost = false → exec (.peerLost peer) s =
      .next (classB 6 true (raise 0x8D (vermDetail peer.val 0 1 s.verm.refuse) (enforceStop (updPeer peer.val (fun p => { p with lost := true }) s))))) ∧
    (∀ peer : Fin 24, vermRuns s = false ∨ peerRole s peer.val 0 = false ∨ (nth s.verm.peers peer.val {}).lost = true → exec (.peerLost peer) s = .next s) ∧
    (∀ ch : Fin 8, vermRuns s = true → [0, 1, 3, 6, 7].contains ch.val = true → exec (.aliveTimeout ch) s =
      .next (classA 3 { s with verm.deadCh := setBit s.verm.deadCh ch.val true })) ∧
    (∀ ch : Fin 8, vermRuns s = false ∨ [0, 1, 3, 6, 7].contains ch.val = false → exec (.aliveTimeout ch) s = .next s) ∧
    (vermRuns s = true → aboveHard s s.verm.curMsg.1 = true → exec .hardLimitTimer s = .next (setCond 3 true s)) ∧
    (vermRuns s = false ∨ aboveHard s s.verm.curMsg.1 = false → exec .hardLimitTimer s = .next s) ∧
    (∀ c : Fin 11, s.verm.faultB.getLsbD c.val = true → exec (.classBEscalate c) s =
      .next (classA 11 (raise 0x8A (vermDetail c.val s.verm.faultB.toNat 1 s.verm.refuse) s))) ∧
    (∀ c : Fin 11, s.verm.faultB.getLsbD c.val = false → exec (.classBEscalate c) s = .next s) ∧
    (exec .classBTimerSave s = .next { s with verm.bSaved := (List.range 11).map (bTime s) }) ∧
    (∀ c : Fin 11, s.verm.faultB.getLsbD c.val = false → vermRuns s = true → exec (.classBTimerReset c) s =
      .next { s with verm.bTimer := s.verm.bTimer.set c.val 0 }) ∧
    (∀ c : Fin 11, s.verm.faultB.getLsbD c.val = true ∨ vermRuns s = false → exec (.classBTimerReset c) s = .next s) ∧
    (exec .twinCauseEnd s = .next (classB 7 false s)) ∧
    (vermRuns s = false → exec .stateFrameSend s = .next s)

/-- The rows of the meter and its link. UMBER_SAMPLE, INTERVAL_CLOSE, UMBER_SAVE, UMBER_SUPPLY_LOSS, UMBER_POWER_UP, SWID_CHECK, SEAL_N_FALL and
SEAL_N_RISE: While the meter of an NV16-M is powered: a sample moves its clock by 250 us and the slew; that of a metering meter is clamped to the
range, with flag 256 where it lay outside, counts as current 0 below 80 uV, adds its time, its energy and charge unless the meter is in FAULT, and its
means. An interval of a metering meter closes at its boundary and the next opens. The registers are saved; a loss of supply saves them and forgets the
rest; a power-up takes them back with flag 16 and the state that the calibration and the seal contact give, but a FAULT stays; a software identity
that differs is a FAULT, at the power-up and at each check. The seal contact's fall raises event 0x92 and opens a sealed meter; its rise drops a
received image and seals an opened one. Otherwise these rows change nothing but the contact. INWARD_DISCARD, RECORD_REQUEST, RECORD_RETURNED,
MIRROR_REFRESH, LINK_DOWN and INTER_DIE_LINK_UP: A malformed message to a powered meter is discarded and counted. While the meter talks, the next
record after a host's cursor (after a restart, the oldest one) goes into flight for a host with a slot and nothing in flight; a gap in the sequence
raises event 0x90, and where no record is left only the restart ends. A record that returns moves the cursor and is delivered, and takes a slot of a
remote host; a host without slots loses it. The mirror takes the meter's registers. A link that goes down drops a received image and what was in
flight, with event 0x95; one that comes up raises event 0x95. Otherwise these rows change nothing. -/
def Obligations.MeterRows : Prop :=
  (∀ s : State,
    (∀ nv uv : Int, s.umber.powered = true → s.sys.variant = .m → metering s = false → exec (.umberSample nv uv) s =
      .next { s with umber.tNs := (s.umber.tNs + (250000 + slewStep s.umber.slew)).toNat, umber.slew := s.umber.slew - slewStep s.umber.slew }) ∧
    (∀ nv uv n v : Int, s.umber.powered = true → s.sys.variant = .m → metering s = true → n = clampI (-100000000) 100000000 nv → v = clampI 0 1200000 uv →
      exec (.umberSample nv uv) s = .next (meanStep (if |n| < 80000 then 0 else n) v
        { s with umber.tNs := (s.umber.tNs + (250000 + slewStep s.umber.slew)).toNat, umber.slew := s.umber.slew - slewStep s.umber.slew,
                 umber.dur := s.umber.dur + 1, umber.flags := if n ≠ nv ∨ v ≠ uv then s.umber.flags ||| 256 else s.umber.flags,
                 umber.acc := if s.umber.st = .fault then s.umber.acc else accumulate (if |n| < 80000 then 0 else n) v s })) ∧
    (∀ nv uv : Int, s.umber.powered = false ∨ s.sys.variant = .s → exec (.umberSample nv uv) s = .next s) ∧
    (s.umber.powered = true → metering s = true → s.sys.variant = .m → exec .intervalClose s =
      .next (openInterval (closeInterval 0 (s.umber.start + intervalSec s) 0
        { s with umber.tNs := max s.umber.tNs ((s.umber.start + intervalSec s) * 1000000000) }))) ∧
    (s.umber.powered = false ∨ metering s = false ∨ s.sys.variant = .s → exec .intervalClose s = .next s) ∧
    (∀ u : State, u = { s with umber.saved := { acc := s.umber.acc, flags := s.umber.flags, start := s.umber.start, dur := s.umber.dur,
                                                accAtOpen := s.umber.accAtOpen, tNs := s.umber.tNs } } →
      (s.umber.powered = true → exec .umberSave s = .next u ∧ exec .umberSupplyLoss s =
        .next { u with umber.powered := false, umber.timeOk := false, umber.slew := 0, umber.meanSum := (0, 0, 0), umber.i := 0, umber.v := 0,
                       umber.upd := [], umber.updBy := none }) ∧
      (s.umber.powered = false → exec .umberSave s = .next s ∧ exec .umberSupplyLoss s = .next s)) ∧
    (∀ (pin : Bool) (w : Word) (t u : State), s.umber.powered = false → s.sys.variant = .m →
      t = { s with pins.sealN := pin, umber.powered := true, umber.timeOk := false, umber.acc := s.umber.saved.acc, umber.start := s.umber.saved.start,
                   umber.dur := s.umber.saved.dur, umber.accAtOpen := s.umber.saved.accAtOpen, umber.tNs := s.umber.saved.tNs,
                   umber.flags := s.umber.saved.flags ||| 0x10 } →
      (s.umber.st = .fault → u = t) → (s.umber.st ≠ .fault → u = { t with umber.st := soundState t }) →
      (w = s.nv.swid → exec (.umberPowerUp pin w) s = .next u) ∧ (w ≠ s.nv.swid → exec (.umberPowerUp pin w) s = .next (umberFault u))) ∧
    (∀ (pin : Bool) (w : Word), s.umber.powered = true ∨ s.sys.variant = .s → exec (.umberPowerUp pin w) s = .next s) ∧
    (∀ w : Word, s.umber.powered = true → s.sys.variant = .m → w ≠ s.nv.swid → exec (.swidCheck w) s = .next (umberFault s)) ∧
    (∀ w : Word, s.umber.powered = false ∨ s.sys.variant = .s ∨ w = s.nv.swid → exec (.swidCheck w) s = .next s) ∧
    (s.umber.powered = true → s.sys.variant = .m → s.pins.sealN = true → exec .sealNFall s =
      .next (raiseUmb 0x92 0 { s with pins.sealN := false, umber.st := if s.umber.st = .sealed then .opened else s.umber.st })) ∧
    (s.umber.powered = false ∨ s.sys.variant = .s ∨ s.pins.sealN = false → exec .sealNFall s = .next { s with pins.sealN := false }) ∧
    (s.umber.powered = true → s.sys.variant = .m → exec .sealNRise s =
      .next (dropImage { s with pins.sealN := true, umber.st := if s.umber.st = .opened then .sealed else s.umber.st })) ∧
    (s.umber.powered = false ∨ s.sys.variant = .s → exec .sealNRise s = .next { s with pins.sealN := true })) ∧
  (∀ s : State,
    (s.umber.powered = true → s.sys.variant = .m → exec .inwardDiscard s = .next (discardInward s)) ∧
    (s.umber.powered = false ∨ s.sys.variant = .s → exec .inwardDiscard s = .next s) ∧
    (∀ (h : Fin 4) (again : Bool) (q : Nat), umbTalks s = true → nth s.umber.slots h.val 0 ≠ 0 → nth s.umber.inflight h.val none = none →
      nth s.umber.restart h.val false = again → q = (if again then 0 else nth s.nv.cursor h.val 0) →
      (recordAfter s q = none → exec (.recordRequest h) s = .next { s with umber.restart := s.umber.restart.set h.val false }) ∧
      (∀ (r : URec) (u : State), recordAfter s q = some r →
        u = { s with umber.restart := s.umber.restart.set h.val false, umber.inflight := s.umber.inflight.set h.val (some r) } →
        (again = true ∨ r.seq = q + 1 → exec (.recordRequest h) s = .next u) ∧
        (again = false → r.seq ≠ q + 1 → exec (.recordRequest h) s = .next (raiseUmb 0x90 h.val u)))) ∧
    (∀ h : Fin 4, umbTalks s = false ∨ nth s.umber.slots h.val 0 = 0 ∨ nth s.umber.inflight h.val none ≠ none → exec (.recordRequest h) s = .next s) ∧
    (∀ (h : Fin 4) (r : URec) (u : State), nth s.umber.inflight h.val none = some r → u = { s with umber.inflight := s.umber.inflight.set h.val none } →
      (nth s.umber.slots h.val 0 ≠ 0 → exec (.recordReturned h) s =
        .next (sendMetro h.val (recordBytes s h.val r)
          { u with umber.slots := if hostRemote h.val s then upd s.umber.slots h.val (· - 1) else s.umber.slots, nv.cursor := s.nv.cursor.set h.val r.seq })) ∧
      (nth s.umber.slots h.val 0 = 0 → exec (.recordReturned h) s = .next u)) ∧
    (∀ h : Fin 4, nth s.umber.inflight h.val none = none → exec (.recordReturned h) s = .next s) ∧
    (umbTalks s = true → exec .mirrorRefresh s = .next { s with umber.mirror := mirrorNow s }) ∧
    (umbTalks s = false → exec .mirrorRefresh s = .next s) ∧
    (s.sys.variant = .m → s.sys.powered = true → s.umber.linkUp = true → exec .linkDown s =
      .next (raise 0x95 (det 0 s.umber.mirror.seq s.umber.mirror.st s.umber.mirror.audit)
        { dropImage s with umber.linkUp := false, umber.inflight := [none, none, none, none] })) ∧
    (s.sys.variant = .s ∨ s.sys.powered = false ∨ s.umber.linkUp = false → exec .linkDown s = .next s) ∧
    (s.sys.variant = .m → s.sys.powered = true → s.umber.powered = true → s.umber.linkUp = false → exec .interDieLinkUp s =
      .next (raiseUmb 0x95 0 { s with umber.linkUp := true })) ∧
    (s.sys.variant = .s ∨ s.sys.powered = false ∨ s.umber.powered = false ∨ s.umber.linkUp = true → exec .interDieLinkUp s = .next s))

/-- START, DATA, CHK_END, CHK_JOB_END, ABORT, SUSPEND, RESUME, EXP, CONTEXT_RESTORE and CHK_ALV_RESYNC. On any unit: START begins a job of firmware from
the unit's initial value; DATA of a running job takes its bytes in order and else is dropped; END and a job's end give the value of the bytes taken,
and a job in value mode is then done, one in compare mode decided where the expected value is there; ABORT returns the unit to its initial value;
SUSPEND stops a running job and RESUME continues a suspended one, which is decided where its end and the expected value are both there; EXP keeps the
expected value and decides an ended job. A context is refused with the error flag while the unit is busy; one whose check byte and unit are right
continues the suspended job, and one that is wrong starts a tainted one with event 0x3E. A resynchronisation marks the channels named. -/
def Obligations.CheckUnitRows : Prop :=
  ∀ (n : Fin 4) (s : State),
    (exec (.start n) s = .next (updChk n.val (fun u => { u with owner := false, busy := true, susp := false, ended := false, taint := false, run := chkInit n.val,
                                                                count := 0, jobMode := u.mode }) s)) ∧
    (∀ w : Word, (chkU s n.val).busy = true → (chkU s n.val).ended = false → exec (.data n w) s =
      .next { s with chk.units := s.chk.units.set n.val { chkU s n.val with
        run := ((le 4 w.toNat).take (if (chkU s n.val).nb = 0 then 4 else (chkU s n.val).nb)).foldl (chkByte n.val) (chkU s n.val).run,
        count := ((chkU s n.val).count + (if (chkU s n.val).nb = 0 then 4 else (chkU s n.val).nb)) % 65536 } }) ∧
    (∀ w : Word, (chkU s n.val).busy = false ∨ (chkU s n.val).ended = true → exec (.data n w) s = .next s) ∧
    (∀ (i : Instr) (t : State), i = .chkEnd n ∨ i = .chkJobEnd n → (chkU s n.val).busy = true → (chkU s n.val).ended = false →
      t = updChk n.val (fun u => { u with ended := true, val := chkFinal n.val u.run }) s →
      ((chkU s n.val).jobMode = false → exec i s = .next (updChk n.val (fun u => { u with busy := false, ended := false, taint := false }) t)) ∧
      ((chkU s n.val).jobMode = true → exec i s = .next (decideChk n.val t))) ∧
    (∀ i : Instr, i = .chkEnd n ∨ i = .chkJobEnd n → (chkU s n.val).busy = false ∨ (chkU s n.val).ended = true → exec i s = .next (decideChk n.val s)) ∧
    (exec (.abort n) s = .next (updChk n.val (fun u => { u with busy := false, susp := false, ended := false, taint := false, run := chkInit n.val, count := 0 }) s)) ∧
    ((chkU s n.val).busy = true → exec (.suspend n) s =
      .next { s with chk.units := s.chk.units.set n.val { chkU s n.val with busy := false, susp := true } }) ∧
    ((chkU s n.val).busy = false → exec (.suspend n) s = .next s) ∧
    ((chkU s n.val).susp = true → exec (.resume n) s =
      .next (decideChk n.val { s with chk.units := s.chk.units.set n.val { chkU s n.val with owner := false, busy := true, susp := false } })) ∧
    ((chkU s n.val).susp = false → exec (.resume n) s = .next (decideChk n.val s)) ∧
    (∀ w : Word, exec (.exp n w) s = .next (decideChk n.val (updChk n.val (fun u => { u with expv := w, armed := true }) s))) ∧
    (∀ ctx1 : Word, (chkU s n.val).busy = true → exec (.contextRestore n ctx1) s =
      .next (updChk n.val (fun u => { u with ctxErr := true }) (noteOcc (chkStatAt n.val) 16 s))) ∧
    (∀ (ctx1 : Word) (ok : Bool), (chkU s n.val).busy = false →
      ok = (((le 4 (chkU s n.val).ctx0.toNat ++ le 3 ctx1.toNat).foldl (· ^^^ ·) (0xA5 : Byte)).toNat == rf ctx1 31 24 && rf ctx1 17 16 == n.val) →
      (ok = true → exec (.contextRestore n ctx1) s =
        .next (updChk n.val (fun u => { u with ctx1 := ctx1, owner := false, busy := true, susp := false, ended := false, jobMode := rf ctx1 18 18 == 1, taint := false,
                                               run := u.ctx0 &&& chkMask n.val, count := rf ctx1 15 0 }) s)) ∧
      (∀ t : State, t = updChk n.val (fun u => { u with ctx1 := ctx1, owner := false, busy := true, susp := false, ended := false, jobMode := rf ctx1 18 18 == 1,
                                                           taint := true, run := chkInit n.val, count := 0, ctxErr := true }) s →
        ok = false → exec (.contextRestore n ctx1) s = .next (raise 0x3E (chkDetail n.val (chkU s n.val).ctx0.toNat t) (noteOcc (chkStatAt n.val) 16 t)))) ∧
    (∀ mask : Word, exec (.chkAlvResync mask) s =
      .next { s with chk.alv := s.chk.alv.mapIdx fun k c => if mask.getLsbD k then { c with init := true } else c })

/-- Decoding the encoding of a kernel instruction gives it back. For every engine and every instruction that engine has, with every operand at every value
its field admits (a vector of at most 256 elements), the engine decodes the instruction's word to the instruction. -/
def Obligations.IndigoRoundTrip : Prop :=
  ∀ (e : Engine) (i : IInstr), fitsEngine e i = true → decodeI e (encodeI i) = some i

/-- No two words of an engine mean the same instruction. Whatever word an engine decodes to an instruction, that word is the instruction's encoding: every
bit of the word is told by the instruction. That a field a row does not list must be 0 is the model's reading (log entry 49). -/
def Obligations.IndigoWordsExact : Prop :=
  ∀ (e : Engine) (w : Word) (i : IInstr), decodeI e w = some i → encodeI i = w ∧ fitsEngine e i = true

/-- Words and check values the manual writes out. Words of the worked example decode as it says: The words 0x05004000, 0x15500000, 0x1D1CC006, 0x11DE0002,
0x441CC3C1 and 0x70803002 of the worked kernel decode to LI A4, 0x4000; LDS A5, [A4+0]; BR GE A7, A3, 6; SOP MUL A7, A7, A8; TLD T0, [A7], A3 with
shape 1 by 16 of Q31; TUNPK T2, T0, A12, gate. The check values of R205's table: The value of each unit over the nine bytes of "123456789" and over no
bytes is what the table of check-value units says, and the host packet, recorder and alive CRCs are those of the units. -/
def Obligations.KnownAnswers : Prop :=
  (decodeI .te 0x05004000 = some (.li 4 0x4000) ∧ decodeI .te 0x15500000 = some (.lds 5 4 0) ∧ decodeI .te 0x1D1CC006 = some (.br 4 7 3 6) ∧
    decodeI .te 0x11DE0002 = some (.sop 7 7 8 2) ∧ decodeI .te 0x441CC3C1 = some (.tld 0 7 3 0x3C1) ∧ decodeI .te 0x70803002 = some (.tunpk 2 0 12 2)) ∧
  (chkValue 0 (digits 9) = 0xE3069283 ∧ chkValue 1 (digits 9) = 0xE3069283 ∧ chkValue 2 (digits 9) = 0x29B1 ∧ chkValue 3 (digits 9) = 0xDF ∧
    chkValue 0 [] = 0 ∧ chkValue 1 [] = 0 ∧ chkValue 2 [] = 0xFFFF ∧ chkValue 3 [] = 0 ∧
    crc32c (digits 9) = 0xE3069283 ∧ crc16 (digits 9) = 0x29B1 ∧ crc8 (digits 9) = 0xDF)

/-- A job over any words gives the unit's check value of their bytes. On every unit with NB = 0 and value mode, START, then a DATA for each word of any
list, then END leave in VAL the unit's check value over the words' bytes, least significant first, and the unit no longer busy. -/
def Obligations.CheckJob : Prop :=
  ∀ (n : Fin 4) (l : List Word) (s : State), s.chk.units.length = 4 → (chkU s n.val).mode = false → (chkU s n.val).nb = 0 →
    (chkU (runAll ([.start n] ++ l.map (Instr.data n) ++ [.chkEnd n]) s) n.val).val = chkValue n.val (l.flatMap fun w => le 4 w.toNat) ∧
    (chkU (runAll ([.start n] ++ l.map (Instr.data n) ++ [.chkEnd n]) s) n.val).busy = false

/-- Reading CHK_n_VAL while a job runs. On every unit with a job running, CHK_n_VAL reads the value that END would leave there, and CHK_n_STAT.BUSY reads
1. -/
def Obligations.RunningValue : Prop :=
  ∀ (n : Fin 4) (s : State), s.chk.units.length = 4 → (chkU s n.val).busy = true → (chkU s n.val).ended = false →
    (∃ t, exec (.chkEnd n) s = .next t ∧ regVal s (0x3808 + 0x20 * n.val) = (chkU t n.val).val.toNat) ∧ regVal s (0x3818 + 0x20 * n.val) % 2 = 1

/-- An aborted check-value job. ABORT leaves the unit at its initial value, not busy and not suspended, with its match, mismatch and mismatch count and
every event store, queue and number as they were, and every other unit alone. -/
def Obligations.AbortedJob : Prop :=
  ∀ (n : Fin 4) (s : State), s.chk.units.length = 4 → ∃ t, exec (.abort n) s = .next t ∧ (chkU t n.val).run = chkInit n.val ∧ (chkU t n.val).busy = false ∧
    (chkU t n.val).susp = false ∧ (chkU t n.val).matched = (chkU s n.val).matched ∧ (chkU t n.val).mismatched = (chkU s n.val).mismatched ∧
    (chkU t n.val).misCnt = (chkU s n.val).misCnt ∧ t.evt = s.evt ∧ t.log = s.log ∧ ∀ m, m ≠ n.val → chkU t m = chkU s m

/-- A safety message with an invalid CRC-8. A message of an on-die channel whose CRC-8 is wrong, while Vermilion runs and CHK_3 has not failed: LAST of
every channel and all of Vermilion but its count of discarded messages are as before, and the step raises event 0x3B for the channel. -/
def Obligations.InvalidCrc8 : Prop :=
  ∀ (ch : Fin 8) (a : Byte) (d : List Byte) (crc : Byte) (s : State), vermRuns s = true → chk3Failed s = false →
    crc8 (BitVec.ofNat 8 ch.val :: a :: d) ≠ crc → ∃ t, exec (.safetyMessage ch a d crc) s = .next t ∧
      t.chk.alv = s.chk.alv ∧ t.verm = { s.verm with discard := satAdd 255 s.verm.discard 1 } ∧
      t.evt = (raise 0x3B (chkDetail ch.val a.toNat s) (compareDone 3 false true { s with chk.sent := takeSent ch.val s.chk.sent })).evt

/-- Metrology commands on an NV16-S. On an NV16-S each of the six metrology commands that reaches it (not outside its group, not in recovery mode, from a
host of a permitted authority) is answered NOT_FITTED without data, and nothing else changes. -/
def Obligations.NoMeterOnS : Prop :=
  ∀ (rq : Req) (s : State), s.sys.variant = .s → s.sys.recovery = false → outsideGroup rq s = false →
    exec (.mtrRead rq) s = .next (answered rq stNotFitted [] s) ∧
    (∀ n : Byte, rq.auth = .operator ∨ rq.auth = .meter → exec (.mtrRecords rq n) s = .next (answered rq stNotFitted [] s)) ∧
    (∀ n : Byte, rq.auth = .meter → exec (.mtrConfig rq n) s = .next (answered rq stNotFitted [] s)) ∧
    exec (.mtrPubkey rq) s = .next (answered rq stNotFitted [] s) ∧
    exec (.mtrSwid rq) s = .next (answered rq stNotFitted [] s) ∧
    (∀ (o : Word) (l : List Byte), rq.auth = .operator → exec (.mtrUpdate rq o l) s = .next (answered rq stNotFitted [] s))

/-- ENUMERATE while one runs, or elsewhere than at the anchor's host. ENUMERATE that reaches its member is answered BAD_PARAM, with everything but the
answer as it was, so that an enumeration that runs goes on: while ENUM_BUSY = 1, at a member that is not the anchor, and from a host attached to
another member. -/
def Obligations.EnumerationGoesOn : Prop :=
  ∀ (rq : Req) (s : State), Taken 0x20 rq s → s.chain.enumBusy = true ∨ s.sys.anchor = false ∨ (∃ pos, rq.orig = .chain pos) →
    exec (.enumerate rq) s = .next (answered rq stBadParam [] s)

/-- What raising an event can change. For every source, detail and state, raising an event changes only the event stores, queues, counters and numbers,
the log's queues and freeze, the notices to a UART host, and what an event may wake or call off: the power mode out of IDLE with its order, the
heartbeat decoding that begins anew, the wake sources and the pending mode with its cause. -/
def Obligations.RaiseFrame : Prop :=
  ∀ (src : Nat) (d : List Byte) (s : State), raise src d s =
    { s with evt := (raise src d s).evt, log := (raise src d s).log, host.txd := (raise src d s).host.txd, sys.mode := (raise src d s).sys.mode,
             sys.wakeSrc := (raise src d s).sys.wakeSrc, sys.waking := (raise src d s).sys.waking, sys.pendingMode := (raise src d s).sys.pendingMode,
             sys.refuse := (raise src d s).sys.refuse, sys.idleReq := (raise src d s).sys.idleReq, cmd.safetyHeld := (raise src d s).cmd.safetyHeld,
             chain.hbDecided := (raise src d s).chain.hbDecided, chain.hbWords := (raise src d s).chain.hbWords,
             chain.hbPass := (raise src d s).chain.hbPass, chain.hbDuty := (raise src d s).chain.hbDuty }

/-- What answering a command can change. For every command, status, data and state, sending the answer changes only the host ports, the chain's queues and
streams, check-value unit 0 with the marks of its flags, and what an event raised on the way changes: measurement, balancing, Indigo, the sweep, heat,
the sensor ports, the watch, Vermilion, the other check-value units and the alive channels, time, the meter, the registers, the firmware store, the
configuration memory, and the kept commands but for the mode that SAFETY holds are as they were. -/
def Obligations.AnswerFrame : Prop :=
  ∀ (rq : Req) (st : Nat) (d : List Byte) (s : State),
    (answered rq st d s).cell = s.cell ∧ (answered rq st d s).bal = s.bal ∧ (answered rq st d s).indigo = s.indigo ∧ (answered rq st d s).sweep = s.sweep ∧
    (answered rq st d s).therm = s.therm ∧ (answered rq st d s).sp1 = s.sp1 ∧ (answered rq st d s).sp2 = s.sp2 ∧ (answered rq st d s).watch = s.watch ∧
    (answered rq st d s).verm = s.verm ∧ (answered rq st d s).time = s.time ∧ (answered rq st d s).umber = s.umber ∧
    (answered rq st d s).regs = s.regs ∧ (answered rq st d s).fw = s.fw ∧ (answered rq st d s).nv = s.nv ∧ (answered rq st d s).pending = s.pending ∧
    (answered rq st d s).cmd = { s.cmd with safetyHeld := (answered rq st d s).cmd.safetyHeld } ∧
    (answered rq st d s).chk = { s.chk with units := (answered rq st d s).chk.units } ∧ (∀ n : Nat, n ≠ 0 → chkU (answered rq st d s) n = chkU s n)

/-- A store writes its bytes and no others, and keeps a memory's form. WINDOW_WRITE, STS, CFG_WRITE and KERNEL_LOAD, where they store: the memory they
store to keeps its canonical form, the bytes stored read back, and every other address of it reads as before. -/
def Obligations.ByteStores : Prop :=
  (∀ (addr : BitVec 16) (mask value : Word) (s : State), 0x8000 ≤ addr.toNat → addr.toNat % 4 = 0 → windowOff s addr.toNat + 4 ≤ 65536 →
      Memory.wf s.indigo.pad = true → ∃ t, exec (.windowWrite addr mask value) s = .next t ∧ Memory.wf t.indigo.pad = true ∧
        padWord t (windowOff s addr.toNat) = ((BitVec.ofNat 32 (padWord s (windowOff s addr.toNat)) &&& ~~~mask) ||| (value &&& mask)).toNat ∧
        ∀ a, a < windowOff s addr.toNat ∨ windowOff s addr.toNat + 4 ≤ a → memGet t.indigo.pad a = memGet s.indigo.pad a) ∧
    (∀ (e : Engine) (d a : Fin 16) (k : BitVec 18) (s t : State), exec (.sts e d a k) s = .next t → Memory.wf s.indigo.pad = true → rf s.regs.indigoCfg 16 16 = 0 →
        Memory.wf t.indigo.pad = true ∧
        ∀ x, x < scalarAddr e a k s ∨ scalarAddr e a k s + 4 ≤ x → memGet t.indigo.pad x = memGet s.indigo.pad x) ∧
    (∀ (rq : Req) (offset : BitVec 16) (bytes : List Byte) (s : State), Taken 0xC0 rq s → offset.toNat + bytes.length ≤ 2048 → Memory.wf s.nv.cfgWork = true →
      ∃ t, exec (.cfgWrite rq offset bytes) s = .next t ∧ Memory.wf t.nv.cfgWork = true ∧ memRead t.nv.cfgWork offset.toNat bytes.length = bytes ∧
        ∀ a, a < offset.toNat ∨ offset.toNat + bytes.length ≤ a → memGet t.nv.cfgWork a = memGet s.nv.cfgWork a) ∧
    (∀ (rq : Req) (slot : Byte) (offset : BitVec 16) (code : List Byte) (s : State), Taken 0x60 rq s → settleCopies s = s → slot.toNat < 8 →
      offset.toNat + code.length ≤ 8192 → s.indigo.te.st = .idle → s.indigo.se.st = .idle → Memory.wf s.indigo.store = true →
      ∃ t, exec (.kernelLoad rq slot offset code true) s = .next t ∧ Memory.wf t.indigo.store = true ∧
        memRead t.indigo.store (8192 * slot.toNat + offset.toNat) code.length = code ∧
        ∀ a, a < 8192 * slot.toNat + offset.toNat ∨ 8192 * slot.toNat + offset.toNat + code.length ≤ a → memGet t.indigo.store a = memGet s.indigo.store a)

/-- What a scalar instruction leaves alone. Where an engine's next word spells LI, LIH, ADDI or SOP and its cycles stay below the budget, with words after
it and no loop open: afterwards only the destination register, the program counter and the cycle count of that engine have changed. -/
def Obligations.ScalarFrame : Prop :=
  ∀ (e : Engine) (d a b : Fin 16) (k : BitVec 18) (op : Fin 12) (s t : State), (eng s e).lc0 = none → (eng s e).lc1 = none → (eng s e).pc + 1 < (eng s e).prog.length →
    (Issued e (.li d k) 1 s → exec (.li e d k) s = .next t →
      t = setEng e (fun g => { g with a := g.a.set d (k.signExtend 32), pc := g.pc + 1, cycles := g.cycles + 1 }) s) ∧
    (Issued e (.lih d k) 1 s → exec (.lih e d k) s = .next t → ∃ v,
      t = setEng e (fun g => { g with a := g.a.set d v, pc := g.pc + 1, cycles := g.cycles + 1 }) s) ∧
    (Issued e (.addi d a k) 1 s → exec (.addi e d a k) s = .next t →
      t = setEng e (fun g => { g with a := g.a.set d (nth (eng s e).a a 0 + k.signExtend 32), pc := g.pc + 1, cycles := g.cycles + 1 }) s) ∧
    (Issued e (.sop d a b op) 1 s → exec (.sop e d a b op) s = .next t → ∃ v,
      t = setEng e (fun g => { g with a := g.a.set d v, pc := g.pc + 1, cycles := g.cycles + 1 }) s)
end

