-- ==== Sys2Proof/Laws/Commands.lean ====
section
/-! SUPPORT. What a command row does once its own effect is known: the answer of a command that is taken up, queued, turned away, or outside its group. -/

namespace Sys2Proof.Machine

open Sys2Proof

theorem stOk_ne_stQueued : stOk ≠ stQueued := by decide

theorem stBadParam_ne_stQueued : stBadParam ≠ stQueued := by decide

theorem stOverruled_ne_stQueued : stOverruled ≠ stQueued := by decide

/-- A command that is taken up and completes at once answers with its result. -/
theorem runCmd_taken {opc : Nat} {rq : Req} {f : State → Res} {s : State} {r : Res} (h : Taken opc rq s) (hf : f s = r) (hq : r.status ≠ stQueued)
    (h6 : opc ≠ 6) : runCmd opc rq f s = respond rq false false r := by
  obtain ⟨h1, h2⟩ := h
  have e6 : (opc == 6) = false := by simpa using h6
  simp only [runCmd, h1, h2, hf, hq, e6, false_and, if_false, Bool.false_and, Bool.false_eq_true]

/-- `TAG_SYNC` answers with the tag count in the answer's tag. -/
theorem runCmd_sync {rq : Req} {f : State → Res} {s : State} {r : Res} (h : Taken 6 rq s) (hf : f s = r) (hq : r.status = stOk) :
    runCmd 6 rq f s = respond rq true false r := by
  obtain ⟨h1, h2⟩ := h
  simp [runCmd, h1, h2, hf, hq, stQueued, stOk]

/-- A command that is taken up and queued is kept for its result. -/
theorem runCmd_queued {opc : Nat} {rq : Req} {f : State → Res} {s : State} {r : Res} (h : Taken opc rq s) (hf : f s = r) (hq : r.status = stQueued)
    (hk : r.kept = false) (h6 : opc ≠ 6) (h13 : opc ≠ 0x13) : runCmd opc rq f s = respond rq false false { r with st := keepQueued rq r.st } := by
  obtain ⟨h1, h2⟩ := h
  have e6 : (opc == 6) = false := by simpa using h6
  have c : r.status = stQueued ∧ opc ≠ 0x13 ∧ (!r.kept) = true := ⟨hq, h13, by rw [hk]; rfl⟩
  simp only [runCmd, h1, h2, hf, e6, Bool.false_and, Bool.false_eq_true, if_false]
  rw [if_pos c]

/-- A queued command whose row has kept it itself is not kept a second time. -/
theorem runCmd_kept {opc : Nat} {rq : Req} {f : State → Res} {s : State} {r : Res} (h : Taken opc rq s) (hf : f s = r) (hk : r.kept = true)
    (h6 : opc ≠ 6) : runCmd opc rq f s = respond rq false false r := by
  obtain ⟨h1, h2⟩ := h
  have e6 : (opc == 6) = false := by simpa using h6
  simp only [runCmd, h1, h2, hf, hk, e6, Bool.not_true, Bool.false_eq_true, and_false, if_false, Bool.false_and]

/-- A command that the shared checks turn away is answered with the first check's status and has no effect. -/
theorem runCmd_turned {opc st : Nat} {rq : Req} {f : State → Res} {s : State} (h1 : outsideGroup rq s = false) (h2 : precheck opc rq s = some st) :
    runCmd opc rq f s = respond rq false false (Res.of st s) := by
  simp [runCmd, h1, h2]

/-- A group command outside its group executes nothing. -/
theorem runCmd_outside {opc : Nat} {rq : Req} {f : State → Res} {s : State} (h : outsideGroup rq s = true) :
    runCmd opc rq f s = respond rq false true (Res.of stOk s) := by
  simp [runCmd, h]

end Sys2Proof.Machine
end

