-- ==== Sys2Proof/Laws/Indigo.lean ====
section
/-! SUPPORT. What issuing an instruction of Indigo does, said once for every instruction: it completes and the engine goes on, it faults, it stalls, or another word is next. -/

namespace Sys2Proof.Machine

open Sys2Proof

/-- An instruction that is issued and completes below the budget has its effect, and the engine goes on. -/
theorem runInstr_done {e : Engine} {i : IInstr} {sem : State → IRes} {s t : State} {cost : Nat} {jump : Option Nat} (h : Issued e i cost s)
    (hs : sem s = .done t cost jump) : runInstr e i sem s = advance e jump cost t := by
  have hb : ¬(eng s e).budget ≤ (eng s e).cycles + cost := Nat.not_le.mpr h.2
  simp only [runInstr, h.1, hs, hb, Bool.not_true, Bool.false_eq_true, if_false]

/-- An instruction that is issued and faults takes its fault at its own word, whatever the budget. -/
theorem runInstr_fault {e : Engine} {i : IInstr} {sem : State → IRes} {s t : State} {code detail : Nat} (h : issues e i s = true)
    (hs : sem s = .fault t code detail) : runInstr e i sem s = takeFault e code (eng s e).pc detail t := by
  simp only [runInstr, h, hs, Bool.not_true, Bool.false_eq_true, if_false]

/-- An instruction that is issued and stalls costs one cycle and stays the next word. -/
theorem runInstr_stall {e : Engine} {i : IInstr} {sem : State → IRes} {s : State} (h : Issued e i 1 s) (hs : sem s = .stall) :
    runInstr e i sem s = setEng e (fun g => { g with cycles := g.cycles + 1 }) s := by
  have hb : ¬(eng s e).budget ≤ (eng s e).cycles + 1 := Nat.not_le.mpr h.2
  simp only [runInstr, h.1, hs, hb, Bool.not_true, Bool.false_eq_true, if_false]

/-- Where the engine's next word is another one, nothing happens. -/
theorem runInstr_idle {e : Engine} {i : IInstr} {sem : State → IRes} {s : State} (h : issues e i s = false) : runInstr e i sem s = s := by
  simp only [runInstr, h, Bool.not_false, if_true]

/-- Where none of its fault conditions holds, an instruction has its effect. -/
theorem unlessFault_none {s : State} {l : List (Nat × Nat)} {f : Unit → IRes} (h : l = []) : unlessFault s l f = f () := by
  subst h; rfl

end Sys2Proof.Machine
end

