-- ==== Sys2Proof/Laws/Keep/Base.lean ====
section
/-! SUPPORT. What almost every operation leaves alone: the queue of waiting commands, the local clock, the stored register words and the hosts' event masks. -/

namespace Sys2Proof.Machine

open Sys2Proof

/-- The queue, the clock, the stored register words and the event masks are the same in two states. -/
def Keeps (s t : State) : Prop := t.pending = s.pending ∧ t.clk = s.clk ∧ t.regs = s.regs ∧ t.evt.masks = s.evt.masks

theorem Keeps.refl (s : State) : Keeps s s := ⟨rfl, rfl, rfl, rfl⟩

theorem Keeps.trans {s t u : State} (h : Keeps s t) (k : Keeps t u) : Keeps s u :=
  ⟨k.1.trans h.1, k.2.1.trans h.2.1, k.2.2.1.trans h.2.2.1, k.2.2.2.trans h.2.2.2⟩

theorem fold_pending {α : Type} (f : State → α → State) (h : ∀ s a, (f s a).pending = s.pending) (l : List α) (s : State) :
    (l.foldl f s).pending = s.pending := by
  induction l generalizing s with
  | nil => rfl
  | cons a t ih => rw [List.foldl_cons, ih, h]

theorem fold_clk {α : Type} (f : State → α → State) (h : ∀ s a, (f s a).clk = s.clk) (l : List α) (s : State) :
    (l.foldl f s).clk = s.clk := by
  induction l generalizing s with
  | nil => rfl
  | cons a t ih => rw [List.foldl_cons, ih, h]

theorem fold_regs {α : Type} (f : State → α → State) (h : ∀ s a, (f s a).regs = s.regs) (l : List α) (s : State) :
    (l.foldl f s).regs = s.regs := by
  induction l generalizing s with
  | nil => rfl
  | cons a t ih => rw [List.foldl_cons, ih, h]

theorem fold_masks {α : Type} (f : State → α → State) (h : ∀ s a, (f s a).evt.masks = s.evt.masks) (l : List α) (s : State) :
    (l.foldl f s).evt.masks = s.evt.masks := by
  induction l generalizing s with
  | nil => rfl
  | cons a t ih => rw [List.foldl_cons, ih, h]

theorem fold_keeps {α : Type} (f : State → α → State) (h : ∀ s a, Keeps s (f s a)) (l : List α) (s : State) : Keeps s (l.foldl f s) := by
  induction l generalizing s with
  | nil => exact Keeps.refl s
  | cons a t ih => rw [List.foldl_cons]; exact (h s a).trans (ih _)

theorem fold1_pending {α β : Type} (f : State × β → α → State × β) (h : ∀ p a, (f p a).1.pending = p.1.pending) (l : List α) (p : State × β) :
    (l.foldl f p).1.pending = p.1.pending := by
  induction l generalizing p with
  | nil => rfl
  | cons a t ih => rw [List.foldl_cons, ih, h]

theorem fold1_clk {α β : Type} (f : State × β → α → State × β) (h : ∀ p a, (f p a).1.clk = p.1.clk) (l : List α) (p : State × β) :
    (l.foldl f p).1.clk = p.1.clk := by
  induction l generalizing p with
  | nil => rfl
  | cons a t ih => rw [List.foldl_cons, ih, h]

theorem fold1_regs {α β : Type} (f : State × β → α → State × β) (h : ∀ p a, (f p a).1.regs = p.1.regs) (l : List α) (p : State × β) :
    (l.foldl f p).1.regs = p.1.regs := by
  induction l generalizing p with
  | nil => rfl
  | cons a t ih => rw [List.foldl_cons, ih, h]

theorem fold1_masks {α β : Type} (f : State × β → α → State × β) (h : ∀ p a, (f p a).1.evt.masks = p.1.evt.masks) (l : List α) (p : State × β) :
    (l.foldl f p).1.evt.masks = p.1.evt.masks := by
  induction l generalizing p with
  | nil => rfl
  | cons a t ih => rw [List.foldl_cons, ih, h]

end Sys2Proof.Machine
end

