-- ==== Sys2Proof/Laws/Keep/Ops.lean ====
section
/-! SUPPORT. What the operations of `Machine/Ops.lean` leave alone. -/

namespace Sys2Proof.Machine

open Sys2Proof

theorem drawFree_keeps (s : State) : Keeps s (drawFree s).2 := by
  unfold drawFree
  try dsimp only
  (repeat' split) <;> simp [Keeps]
@[simp] theorem drawFree_pending (s : State) : (drawFree s).2.pending = s.pending := (drawFree_keeps s).1
@[simp] theorem drawFree_clk (s : State) : (drawFree s).2.clk = s.clk := (drawFree_keeps s).2.1
@[simp] theorem drawFree_regs (s : State) : (drawFree s).2.regs = s.regs := (drawFree_keeps s).2.2.1
@[simp] theorem drawFree_masks (s : State) : (drawFree s).2.evt.masks = s.evt.masks := (drawFree_keeps s).2.2.2

theorem noteOcc_keeps (a : Nat) (bits : Word) (s : State) : Keeps s (noteOcc a bits s) := by
  unfold noteOcc
  try dsimp only
  (repeat' split) <;> simp [Keeps]
@[simp] theorem noteOcc_pending (a : Nat) (bits : Word) (s : State) : (noteOcc a bits s).pending = s.pending := (noteOcc_keeps a bits s).1
@[simp] theorem noteOcc_clk (a : Nat) (bits : Word) (s : State) : (noteOcc a bits s).clk = s.clk := (noteOcc_keeps a bits s).2.1
@[simp] theorem noteOcc_regs (a : Nat) (bits : Word) (s : State) : (noteOcc a bits s).regs = s.regs := (noteOcc_keeps a bits s).2.2.1
@[simp] theorem noteOcc_masks (a : Nat) (bits : Word) (s : State) : (noteOcc a bits s).evt.masks = s.evt.masks := (noteOcc_keeps a bits s).2.2.2

theorem eventNotice_keeps (h : Nat) (s : State) : Keeps s (eventNotice h s) := by
  unfold eventNotice
  try dsimp only
  (repeat' split) <;> simp [Keeps]
@[simp] theorem eventNotice_pending (h : Nat) (s : State) : (eventNotice h s).pending = s.pending := (eventNotice_keeps h s).1
@[simp] theorem eventNotice_clk (h : Nat) (s : State) : (eventNotice h s).clk = s.clk := (eventNotice_keeps h s).2.1
@[simp] theorem eventNotice_regs (h : Nat) (s : State) : (eventNotice h s).regs = s.regs := (eventNotice_keeps h s).2.2.1
@[simp] theorem eventNotice_masks (h : Nat) (s : State) : (eventNotice h s).evt.masks = s.evt.masks := (eventNotice_keeps h s).2.2.2

theorem storeEntry_keeps (e : Entry) (h : Nat) (p : State × Due) : Keeps p.1 (storeEntry e h p).1 := by
  unfold storeEntry
  try dsimp only
  (repeat' split) <;> simp [Keeps]
@[simp] theorem storeEntry_pending (e : Entry) (h : Nat) (p : State × Due) : (storeEntry e h p).1.pending = p.1.pending := (storeEntry_keeps e h p).1
@[simp] theorem storeEntry_clk (e : Entry) (h : Nat) (p : State × Due) : (storeEntry e h p).1.clk = p.1.clk := (storeEntry_keeps e h p).2.1
@[simp] theorem storeEntry_regs (e : Entry) (h : Nat) (p : State × Due) : (storeEntry e h p).1.regs = p.1.regs := (storeEntry_keeps e h p).2.2.1
@[simp] theorem storeEntry_masks (e : Entry) (h : Nat) (p : State × Due) : (storeEntry e h p).1.evt.masks = p.1.evt.masks := (storeEntry_keeps e h p).2.2.2

theorem queueEntry_keeps (e : Entry) (pos : Nat) (p : State × Due) : Keeps p.1 (queueEntry e pos p).1 := by
  unfold queueEntry
  try dsimp only
  (repeat' split) <;> simp [Keeps]
@[simp] theorem queueEntry_pending (e : Entry) (pos : Nat) (p : State × Due) : (queueEntry e pos p).1.pending = p.1.pending := (queueEntry_keeps e pos p).1
@[simp] theorem queueEntry_clk (e : Entry) (pos : Nat) (p : State × Due) : (queueEntry e pos p).1.clk = p.1.clk := (queueEntry_keeps e pos p).2.1
@[simp] theorem queueEntry_regs (e : Entry) (pos : Nat) (p : State × Due) : (queueEntry e pos p).1.regs = p.1.regs := (queueEntry_keeps e pos p).2.2.1
@[simp] theorem queueEntry_masks (e : Entry) (pos : Nat) (p : State × Due) : (queueEntry e pos p).1.evt.masks = p.1.evt.masks := (queueEntry_keeps e pos p).2.2.2

theorem endFreeze_keeps (broken : Bool) (p : State × Due) : Keeps p.1 (endFreeze broken p).1 := by
  unfold endFreeze
  try dsimp only
  (repeat' split) <;> simp [Keeps]
@[simp] theorem endFreeze_pending (broken : Bool) (p : State × Due) : (endFreeze broken p).1.pending = p.1.pending := (endFreeze_keeps broken p).1
@[simp] theorem endFreeze_clk (broken : Bool) (p : State × Due) : (endFreeze broken p).1.clk = p.1.clk := (endFreeze_keeps broken p).2.1
@[simp] theorem endFreeze_regs (broken : Bool) (p : State × Due) : (endFreeze broken p).1.regs = p.1.regs := (endFreeze_keeps broken p).2.2.1
@[simp] theorem endFreeze_masks (broken : Bool) (p : State × Due) : (endFreeze broken p).1.evt.masks = p.1.evt.masks := (endFreeze_keeps broken p).2.2.2

theorem queueLog_keeps (e : LogIn) (s : State) : Keeps s (queueLog e s).1 := by
  unfold queueLog
  try dsimp only
  (repeat' split) <;> simp [Keeps]
@[simp] theorem queueLog_pending (e : LogIn) (s : State) : (queueLog e s).1.pending = s.pending := (queueLog_keeps e s).1
@[simp] theorem queueLog_clk (e : LogIn) (s : State) : (queueLog e s).1.clk = s.clk := (queueLog_keeps e s).2.1
@[simp] theorem queueLog_regs (e : LogIn) (s : State) : (queueLog e s).1.regs = s.regs := (queueLog_keeps e s).2.2.1
@[simp] theorem queueLog_masks (e : LogIn) (s : State) : (queueLog e s).1.evt.masks = s.evt.masks := (queueLog_keeps e s).2.2.2

theorem logIntake_keeps (src : Nat) (d : List Byte) (p : State × Due) : Keeps p.1 (logIntake src d p).1 := by
  unfold logIntake
  try dsimp only
  (repeat' split) <;> simp [Keeps]
@[simp] theorem logIntake_pending (src : Nat) (d : List Byte) (p : State × Due) : (logIntake src d p).1.pending = p.1.pending := (logIntake_keeps src d p).1
@[simp] theorem logIntake_clk (src : Nat) (d : List Byte) (p : State × Due) : (logIntake src d p).1.clk = p.1.clk := (logIntake_keeps src d p).2.1
@[simp] theorem logIntake_regs (src : Nat) (d : List Byte) (p : State × Due) : (logIntake src d p).1.regs = p.1.regs := (logIntake_keeps src d p).2.2.1
@[simp] theorem logIntake_masks (src : Nat) (d : List Byte) (p : State × Due) : (logIntake src d p).1.evt.masks = p.1.evt.masks := (logIntake_keeps src d p).2.2.2

theorem noteWake_keeps (bit : Nat) (s : State) : Keeps s (noteWake bit s) := by
  unfold noteWake
  try dsimp only
  (repeat' split) <;> simp [Keeps]
@[simp] theorem noteWake_pending (bit : Nat) (s : State) : (noteWake bit s).pending = s.pending := (noteWake_keeps bit s).1
@[simp] theorem noteWake_clk (bit : Nat) (s : State) : (noteWake bit s).clk = s.clk := (noteWake_keeps bit s).2.1
@[simp] theorem noteWake_regs (bit : Nat) (s : State) : (noteWake bit s).regs = s.regs := (noteWake_keeps bit s).2.2.1
@[simp] theorem noteWake_masks (bit : Nat) (s : State) : (noteWake bit s).evt.masks = s.evt.masks := (noteWake_keeps bit s).2.2.2

theorem hbAfresh_keeps (s : State) : Keeps s (hbAfresh s) := by
  unfold hbAfresh
  try dsimp only
  (repeat' split) <;> simp [Keeps]
@[simp] theorem hbAfresh_pending (s : State) : (hbAfresh s).pending = s.pending := (hbAfresh_keeps s).1
@[simp] theorem hbAfresh_clk (s : State) : (hbAfresh s).clk = s.clk := (hbAfresh_keeps s).2.1
@[simp] theorem hbAfresh_regs (s : State) : (hbAfresh s).regs = s.regs := (hbAfresh_keeps s).2.2.1
@[simp] theorem hbAfresh_masks (s : State) : (hbAfresh s).evt.masks = s.evt.masks := (hbAfresh_keeps s).2.2.2

theorem leaveIdleDue_keeps (bit : Nat) (p : State × Due) : Keeps p.1 (leaveIdleDue bit p).1 := by
  unfold leaveIdleDue
  try dsimp only
  (repeat' split) <;> simp [Keeps]
@[simp] theorem leaveIdleDue_pending (bit : Nat) (p : State × Due) : (leaveIdleDue bit p).1.pending = p.1.pending := (leaveIdleDue_keeps bit p).1
@[simp] theorem leaveIdleDue_clk (bit : Nat) (p : State × Due) : (leaveIdleDue bit p).1.clk = p.1.clk := (leaveIdleDue_keeps bit p).2.1
@[simp] theorem leaveIdleDue_regs (bit : Nat) (p : State × Due) : (leaveIdleDue bit p).1.regs = p.1.regs := (leaveIdleDue_keeps bit p).2.2.1
@[simp] theorem leaveIdleDue_masks (bit : Nat) (p : State × Due) : (leaveIdleDue bit p).1.evt.masks = p.1.evt.masks := (leaveIdleDue_keeps bit p).2.2.2

theorem abandonEntry_keeps (p : State × Due) : Keeps p.1 (abandonEntry p).1 := by
  unfold abandonEntry
  try dsimp only
  (repeat' split) <;> simp [Keeps]
@[simp] theorem abandonEntry_pending (p : State × Due) : (abandonEntry p).1.pending = p.1.pending := (abandonEntry_keeps p).1
@[simp] theorem abandonEntry_clk (p : State × Due) : (abandonEntry p).1.clk = p.1.clk := (abandonEntry_keeps p).2.1
@[simp] theorem abandonEntry_regs (p : State × Due) : (abandonEntry p).1.regs = p.1.regs := (abandonEntry_keeps p).2.2.1
@[simp] theorem abandonEntry_masks (p : State × Due) : (abandonEntry p).1.evt.masks = p.1.evt.masks := (abandonEntry_keeps p).2.2.2

theorem eventWake_keeps (src : Nat) (p : State × Due) : Keeps p.1 (eventWake src p).1 := by
  unfold eventWake
  try dsimp only
  (repeat' split) <;> simp [Keeps]
@[simp] theorem eventWake_pending (src : Nat) (p : State × Due) : (eventWake src p).1.pending = p.1.pending := (eventWake_keeps src p).1
@[simp] theorem eventWake_clk (src : Nat) (p : State × Due) : (eventWake src p).1.clk = p.1.clk := (eventWake_keeps src p).2.1
@[simp] theorem eventWake_regs (src : Nat) (p : State × Due) : (eventWake src p).1.regs = p.1.regs := (eventWake_keeps src p).2.2.1
@[simp] theorem eventWake_masks (src : Nat) (p : State × Due) : (eventWake src p).1.evt.masks = p.1.evt.masks := (eventWake_keeps src p).2.2.2

theorem raiseCore_keeps (src : Nat) (only : Option Nat) (d : List Byte) (s : State) : Keeps s (raiseCore src only d s).1 := by
  unfold raiseCore Keeps
  dsimp only
  rw [eventWake_pending, eventWake_clk, eventWake_regs, eventWake_masks]
  split <;> simp [fold1_pending, fold1_clk, fold1_regs, fold1_masks]
@[simp] theorem raiseCore_pending (src : Nat) (only : Option Nat) (d : List Byte) (s : State) : (raiseCore src only d s).1.pending = s.pending := (raiseCore_keeps src only d s).1
@[simp] theorem raiseCore_clk (src : Nat) (only : Option Nat) (d : List Byte) (s : State) : (raiseCore src only d s).1.clk = s.clk := (raiseCore_keeps src only d s).2.1
@[simp] theorem raiseCore_regs (src : Nat) (only : Option Nat) (d : List Byte) (s : State) : (raiseCore src only d s).1.regs = s.regs := (raiseCore_keeps src only d s).2.2.1
@[simp] theorem raiseCore_masks (src : Nat) (only : Option Nat) (d : List Byte) (s : State) : (raiseCore src only d s).1.evt.masks = s.evt.masks := (raiseCore_keeps src only d s).2.2.2

theorem raiseDue_keeps (n : Nat) (l : Due) (s : State) : Keeps s (raiseDue n l s) := by
  induction n generalizing l s with
  | zero => exact Keeps.refl s
  | succ n ih =>
    cases l with
    | nil => exact Keeps.refl s
    | cons x t => exact (raiseCore_keeps x.1 x.2.1 x.2.2 s).trans (ih _ _)
@[simp] theorem raiseDue_pending (n : Nat) (l : Due) (s : State) : (raiseDue n l s).pending = s.pending := (raiseDue_keeps n l s).1
@[simp] theorem raiseDue_clk (n : Nat) (l : Due) (s : State) : (raiseDue n l s).clk = s.clk := (raiseDue_keeps n l s).2.1
@[simp] theorem raiseDue_regs (n : Nat) (l : Due) (s : State) : (raiseDue n l s).regs = s.regs := (raiseDue_keeps n l s).2.2.1
@[simp] theorem raiseDue_masks (n : Nat) (l : Due) (s : State) : (raiseDue n l s).evt.masks = s.evt.masks := (raiseDue_keeps n l s).2.2.2

theorem raise_keeps (src : Nat) (d : List Byte) (s : State) : Keeps s (raise src d s) := by
  unfold raise
  try dsimp only
  (repeat' split) <;> simp [Keeps]
@[simp] theorem raise_pending (src : Nat) (d : List Byte) (s : State) : (raise src d s).pending = s.pending := (raise_keeps src d s).1
@[simp] theorem raise_clk (src : Nat) (d : List Byte) (s : State) : (raise src d s).clk = s.clk := (raise_keeps src d s).2.1
@[simp] theorem raise_regs (src : Nat) (d : List Byte) (s : State) : (raise src d s).regs = s.regs := (raise_keeps src d s).2.2.1
@[simp] theorem raise_masks (src : Nat) (d : List Byte) (s : State) : (raise src d s).evt.masks = s.evt.masks := (raise_keeps src d s).2.2.2

theorem raiseFor_keeps (h : Nat) (src : Nat) (d : List Byte) (s : State) : Keeps s (raiseFor h src d s) := by
  unfold raiseFor
  try dsimp only
  (repeat' split) <;> simp [Keeps]
@[simp] theorem raiseFor_pending (h : Nat) (src : Nat) (d : List Byte) (s : State) : (raiseFor h src d s).pending = s.pending := (raiseFor_keeps h src d s).1
@[simp] theorem raiseFor_clk (h : Nat) (src : Nat) (d : List Byte) (s : State) : (raiseFor h src d s).clk = s.clk := (raiseFor_keeps h src d s).2.1
@[simp] theorem raiseFor_regs (h : Nat) (src : Nat) (d : List Byte) (s : State) : (raiseFor h src d s).regs = s.regs := (raiseFor_keeps h src d s).2.2.1
@[simp] theorem raiseFor_masks (h : Nat) (src : Nat) (d : List Byte) (s : State) : (raiseFor h src d s).evt.masks = s.evt.masks := (raiseFor_keeps h src d s).2.2.2

theorem raiseSys_keeps (src : Nat) (s : State) : Keeps s (raiseSys src s) := by
  unfold raiseSys
  try dsimp only
  (repeat' split) <;> simp [Keeps]
@[simp] theorem raiseSys_pending (src : Nat) (s : State) : (raiseSys src s).pending = s.pending := (raiseSys_keeps src s).1
@[simp] theorem raiseSys_clk (src : Nat) (s : State) : (raiseSys src s).clk = s.clk := (raiseSys_keeps src s).2.1
@[simp] theorem raiseSys_regs (src : Nat) (s : State) : (raiseSys src s).regs = s.regs := (raiseSys_keeps src s).2.2.1
@[simp] theorem raiseSys_masks (src : Nat) (s : State) : (raiseSys src s).evt.masks = s.evt.masks := (raiseSys_keeps src s).2.2.2

theorem settle_keeps (p : State × Due) : Keeps p.1 (settle p) := by
  unfold settle
  try dsimp only
  (repeat' split) <;> simp [Keeps]
@[simp] theorem settle_pending (p : State × Due) : (settle p).pending = p.1.pending := (settle_keeps p).1
@[simp] theorem settle_clk (p : State × Due) : (settle p).clk = p.1.clk := (settle_keeps p).2.1
@[simp] theorem settle_regs (p : State × Due) : (settle p).regs = p.1.regs := (settle_keeps p).2.2.1
@[simp] theorem settle_masks (p : State × Due) : (settle p).evt.masks = p.1.evt.masks := (settle_keeps p).2.2.2

theorem leaveIdle_keeps (bit : Nat) (s : State) : Keeps s (leaveIdle bit s) := by
  unfold leaveIdle
  try dsimp only
  (repeat' split) <;> simp [Keeps]
@[simp] theorem leaveIdle_pending (bit : Nat) (s : State) : (leaveIdle bit s).pending = s.pending := (leaveIdle_keeps bit s).1
@[simp] theorem leaveIdle_clk (bit : Nat) (s : State) : (leaveIdle bit s).clk = s.clk := (leaveIdle_keeps bit s).2.1
@[simp] theorem leaveIdle_regs (bit : Nat) (s : State) : (leaveIdle bit s).regs = s.regs := (leaveIdle_keeps bit s).2.2.1
@[simp] theorem leaveIdle_masks (bit : Nat) (s : State) : (leaveIdle bit s).evt.masks = s.evt.masks := (leaveIdle_keeps bit s).2.2.2

theorem completeQueued_keeps (h : Fin 4) (seq : Nat) (result : List Byte) (s : State) : Keeps s (completeQueued h seq result s) := by
  unfold completeQueued
  try dsimp only
  (repeat' split) <;> simp [Keeps]
@[simp] theorem completeQueued_pending (h : Fin 4) (seq : Nat) (result : List Byte) (s : State) : (completeQueued h seq result s).pending = s.pending := (completeQueued_keeps h seq result s).1
@[simp] theorem completeQueued_clk (h : Fin 4) (seq : Nat) (result : List Byte) (s : State) : (completeQueued h seq result s).clk = s.clk := (completeQueued_keeps h seq result s).2.1
@[simp] theorem completeQueued_regs (h : Fin 4) (seq : Nat) (result : List Byte) (s : State) : (completeQueued h seq result s).regs = s.regs := (completeQueued_keeps h seq result s).2.2.1
@[simp] theorem completeQueued_masks (h : Fin 4) (seq : Nat) (result : List Byte) (s : State) : (completeQueued h seq result s).evt.masks = s.evt.masks := (completeQueued_keeps h seq result s).2.2.2

theorem noteOwner_keeps (n : Nat) (hw : Bool) (s : State) : Keeps s (noteOwner n hw s) := by
  unfold noteOwner
  try dsimp only
  (repeat' split) <;> simp [Keeps]
@[simp] theorem noteOwner_pending (n : Nat) (hw : Bool) (s : State) : (noteOwner n hw s).pending = s.pending := (noteOwner_keeps n hw s).1
@[simp] theorem noteOwner_clk (n : Nat) (hw : Bool) (s : State) : (noteOwner n hw s).clk = s.clk := (noteOwner_keeps n hw s).2.1
@[simp] theorem noteOwner_regs (n : Nat) (hw : Bool) (s : State) : (noteOwner n hw s).regs = s.regs := (noteOwner_keeps n hw s).2.2.1
@[simp] theorem noteOwner_masks (n : Nat) (hw : Bool) (s : State) : (noteOwner n hw s).evt.masks = s.evt.masks := (noteOwner_keeps n hw s).2.2.2

theorem compareDone_keeps (n : Nat) (ok : Bool) (hw : Bool) (s : State) : Keeps s (compareDone n ok hw s) := by
  unfold compareDone
  try dsimp only
  (repeat' split) <;> simp [Keeps]
@[simp] theorem compareDone_pending (n : Nat) (ok : Bool) (hw : Bool) (s : State) : (compareDone n ok hw s).pending = s.pending := (compareDone_keeps n ok hw s).1
@[simp] theorem compareDone_clk (n : Nat) (ok : Bool) (hw : Bool) (s : State) : (compareDone n ok hw s).clk = s.clk := (compareDone_keeps n ok hw s).2.1
@[simp] theorem compareDone_regs (n : Nat) (ok : Bool) (hw : Bool) (s : State) : (compareDone n ok hw s).regs = s.regs := (compareDone_keeps n ok hw s).2.2.1
@[simp] theorem compareDone_masks (n : Nat) (ok : Bool) (hw : Bool) (s : State) : (compareDone n ok hw s).evt.masks = s.evt.masks := (compareDone_keeps n ok hw s).2.2.2

theorem compareJob_keeps (n : Nat) (ok : Bool) (hw : Bool) (val : Nat) (s : State) : Keeps s (compareJob n ok hw val s) := by
  unfold compareJob
  try dsimp only
  (repeat' split) <;> simp [Keeps]
@[simp] theorem compareJob_pending (n : Nat) (ok : Bool) (hw : Bool) (val : Nat) (s : State) : (compareJob n ok hw val s).pending = s.pending := (compareJob_keeps n ok hw val s).1
@[simp] theorem compareJob_clk (n : Nat) (ok : Bool) (hw : Bool) (val : Nat) (s : State) : (compareJob n ok hw val s).clk = s.clk := (compareJob_keeps n ok hw val s).2.1
@[simp] theorem compareJob_regs (n : Nat) (ok : Bool) (hw : Bool) (val : Nat) (s : State) : (compareJob n ok hw val s).regs = s.regs := (compareJob_keeps n ok hw val s).2.2.1
@[simp] theorem compareJob_masks (n : Nat) (ok : Bool) (hw : Bool) (val : Nat) (s : State) : (compareJob n ok hw val s).evt.masks = s.evt.masks := (compareJob_keeps n ok hw val s).2.2.2

end Sys2Proof.Machine
end

