-- ==== Sys2Proof/Laws/Keep/ChainOps.lean ====
section
/-! SUPPORT. What the operations of `Machine/ChainOps.lean` leave alone. -/

namespace Sys2Proof.Machine

open Sys2Proof

theorem setPort_keeps (sd : Side) (f : ChPort → ChPort) (s : State) : Keeps s (setPort sd f s) := by
  unfold setPort
  try dsimp only
  (repeat' split) <;> simp [Keeps]
@[simp] theorem setPort_pending (sd : Side) (f : ChPort → ChPort) (s : State) : (setPort sd f s).pending = s.pending := (setPort_keeps sd f s).1
@[simp] theorem setPort_clk (sd : Side) (f : ChPort → ChPort) (s : State) : (setPort sd f s).clk = s.clk := (setPort_keeps sd f s).2.1
@[simp] theorem setPort_regs (sd : Side) (f : ChPort → ChPort) (s : State) : (setPort sd f s).regs = s.regs := (setPort_keeps sd f s).2.2.1
@[simp] theorem setPort_masks (sd : Side) (f : ChPort → ChPort) (s : State) : (setPort sd f s).evt.masks = s.evt.masks := (setPort_keeps sd f s).2.2.2

theorem enqueue_keeps (sd : Side) (f : Frame) (s : State) : Keeps s (enqueue sd f s) := by
  unfold enqueue
  try dsimp only
  (repeat' split) <;> simp [Keeps]
@[simp] theorem enqueue_pending (sd : Side) (f : Frame) (s : State) : (enqueue sd f s).pending = s.pending := (enqueue_keeps sd f s).1
@[simp] theorem enqueue_clk (sd : Side) (f : Frame) (s : State) : (enqueue sd f s).clk = s.clk := (enqueue_keeps sd f s).2.1
@[simp] theorem enqueue_regs (sd : Side) (f : Frame) (s : State) : (enqueue sd f s).regs = s.regs := (enqueue_keeps sd f s).2.2.1
@[simp] theorem enqueue_masks (sd : Side) (f : Frame) (s : State) : (enqueue sd f s).evt.masks = s.evt.masks := (enqueue_keeps sd f s).2.2.2

theorem enqueueAt_keeps (sd : Side) (inst : Int) (f : Frame) (s : State) : Keeps s (enqueueAt sd inst f s) := by
  unfold enqueueAt
  try dsimp only
  (repeat' split) <;> simp [Keeps]
@[simp] theorem enqueueAt_pending (sd : Side) (inst : Int) (f : Frame) (s : State) : (enqueueAt sd inst f s).pending = s.pending := (enqueueAt_keeps sd inst f s).1
@[simp] theorem enqueueAt_clk (sd : Side) (inst : Int) (f : Frame) (s : State) : (enqueueAt sd inst f s).clk = s.clk := (enqueueAt_keeps sd inst f s).2.1
@[simp] theorem enqueueAt_regs (sd : Side) (inst : Int) (f : Frame) (s : State) : (enqueueAt sd inst f s).regs = s.regs := (enqueueAt_keeps sd inst f s).2.2.1
@[simp] theorem enqueueAt_masks (sd : Side) (inst : Int) (f : Frame) (s : State) : (enqueueAt sd inst f s).evt.masks = s.evt.masks := (enqueueAt_keeps sd inst f s).2.2.2

theorem enqueueLink_keeps (sd : Side) (f : Frame) (s : State) : Keeps s (enqueueLink sd f s) := by
  unfold enqueueLink
  try dsimp only
  (repeat' split) <;> simp [Keeps]
@[simp] theorem enqueueLink_pending (sd : Side) (f : Frame) (s : State) : (enqueueLink sd f s).pending = s.pending := (enqueueLink_keeps sd f s).1
@[simp] theorem enqueueLink_clk (sd : Side) (f : Frame) (s : State) : (enqueueLink sd f s).clk = s.clk := (enqueueLink_keeps sd f s).2.1
@[simp] theorem enqueueLink_regs (sd : Side) (f : Frame) (s : State) : (enqueueLink sd f s).regs = s.regs := (enqueueLink_keeps sd f s).2.2.1
@[simp] theorem enqueueLink_masks (sd : Side) (f : Frame) (s : State) : (enqueueLink sd f s).evt.masks = s.evt.masks := (enqueueLink_keeps sd f s).2.2.2

theorem txPut_keeps (t : TxStream) (s : State) : Keeps s (txPut t s) := by
  unfold txPut
  try dsimp only
  (repeat' split) <;> simp [Keeps]
@[simp] theorem txPut_pending (t : TxStream) (s : State) : (txPut t s).pending = s.pending := (txPut_keeps t s).1
@[simp] theorem txPut_clk (t : TxStream) (s : State) : (txPut t s).clk = s.clk := (txPut_keeps t s).2.1
@[simp] theorem txPut_regs (t : TxStream) (s : State) : (txPut t s).regs = s.regs := (txPut_keeps t s).2.2.1
@[simp] theorem txPut_masks (t : TxStream) (s : State) : (txPut t s).evt.masks = s.evt.masks := (txPut_keeps t s).2.2.2

theorem dispatchFrame_keeps (t : TxStream) (f : Frame) (s : State) : Keeps s (dispatchFrame t f s).1 := by
  unfold dispatchFrame
  try dsimp only
  (repeat' split) <;> simp [Keeps]
@[simp] theorem dispatchFrame_pending (t : TxStream) (f : Frame) (s : State) : (dispatchFrame t f s).1.pending = s.pending := (dispatchFrame_keeps t f s).1
@[simp] theorem dispatchFrame_clk (t : TxStream) (f : Frame) (s : State) : (dispatchFrame t f s).1.clk = s.clk := (dispatchFrame_keeps t f s).2.1
@[simp] theorem dispatchFrame_regs (t : TxStream) (f : Frame) (s : State) : (dispatchFrame t f s).1.regs = s.regs := (dispatchFrame_keeps t f s).2.2.1
@[simp] theorem dispatchFrame_masks (t : TxStream) (f : Frame) (s : State) : (dispatchFrame t f s).1.evt.masks = s.evt.masks := (dispatchFrame_keeps t f s).2.2.2

theorem pump_keeps (n dest : Nat) (multi : Bool) (cls : Nat) (twin : Bool) (s : State) : Keeps s (pump n dest multi cls twin s) := by
  induction n generalizing s with
  | zero => exact Keeps.refl s
  | succ n ih =>
    unfold pump
    dsimp only
    split
    · split
      · rename_i f _
        have hd := dispatchFrame_keeps (txGet s dest multi cls twin) f s
        split
        · exact hd.trans ((txPut_keeps _ _).trans (ih _))
        · exact Keeps.refl s
      · exact Keeps.refl s
    · exact Keeps.refl s
@[simp] theorem pump_pending (n dest : Nat) (multi : Bool) (cls : Nat) (twin : Bool) (s : State) : (pump n dest multi cls twin s).pending = s.pending := (pump_keeps n dest multi cls twin s).1
@[simp] theorem pump_clk (n dest : Nat) (multi : Bool) (cls : Nat) (twin : Bool) (s : State) : (pump n dest multi cls twin s).clk = s.clk := (pump_keeps n dest multi cls twin s).2.1
@[simp] theorem pump_regs (n dest : Nat) (multi : Bool) (cls : Nat) (twin : Bool) (s : State) : (pump n dest multi cls twin s).regs = s.regs := (pump_keeps n dest multi cls twin s).2.2.1
@[simp] theorem pump_masks (n dest : Nat) (multi : Bool) (cls : Nat) (twin : Bool) (s : State) : (pump n dest multi cls twin s).evt.masks = s.evt.masks := (pump_keeps n dest multi cls twin s).2.2.2

theorem sendStream_keeps (twin : Bool) (f : Frame) (s : State) : Keeps s (sendStream twin f s) := by
  unfold sendStream
  try dsimp only
  (repeat' split) <;> simp [Keeps]
@[simp] theorem sendStream_pending (twin : Bool) (f : Frame) (s : State) : (sendStream twin f s).pending = s.pending := (sendStream_keeps twin f s).1
@[simp] theorem sendStream_clk (twin : Bool) (f : Frame) (s : State) : (sendStream twin f s).clk = s.clk := (sendStream_keeps twin f s).2.1
@[simp] theorem sendStream_regs (twin : Bool) (f : Frame) (s : State) : (sendStream twin f s).regs = s.regs := (sendStream_keeps twin f s).2.2.1
@[simp] theorem sendStream_masks (twin : Bool) (f : Frame) (s : State) : (sendStream twin f s).evt.masks = s.evt.masks := (sendStream_keeps twin f s).2.2.2

theorem sendAlarm_keeps (e : Entry) (s : State) : Keeps s (sendAlarm e s) := by
  unfold sendAlarm
  try dsimp only
  (repeat' split) <;> simp [Keeps]
@[simp] theorem sendAlarm_pending (e : Entry) (s : State) : (sendAlarm e s).pending = s.pending := (sendAlarm_keeps e s).1
@[simp] theorem sendAlarm_clk (e : Entry) (s : State) : (sendAlarm e s).clk = s.clk := (sendAlarm_keeps e s).2.1
@[simp] theorem sendAlarm_regs (e : Entry) (s : State) : (sendAlarm e s).regs = s.regs := (sendAlarm_keeps e s).2.2.1
@[simp] theorem sendAlarm_masks (e : Entry) (s : State) : (sendAlarm e s).evt.masks = s.evt.masks := (sendAlarm_keeps e s).2.2.2

theorem sendAck_keeps (dest : Nat) (entry : List Byte) (s : State) : Keeps s (sendAck dest entry s) := by
  unfold sendAck
  try dsimp only
  (repeat' split) <;> simp [Keeps]
@[simp] theorem sendAck_pending (dest : Nat) (entry : List Byte) (s : State) : (sendAck dest entry s).pending = s.pending := (sendAck_keeps dest entry s).1
@[simp] theorem sendAck_clk (dest : Nat) (entry : List Byte) (s : State) : (sendAck dest entry s).clk = s.clk := (sendAck_keeps dest entry s).2.1
@[simp] theorem sendAck_regs (dest : Nat) (entry : List Byte) (s : State) : (sendAck dest entry s).regs = s.regs := (sendAck_keeps dest entry s).2.2.1
@[simp] theorem sendAck_masks (dest : Nat) (entry : List Byte) (s : State) : (sendAck dest entry s).evt.masks = s.evt.masks := (sendAck_keeps dest entry s).2.2.2

theorem updateRing_keeps (s : State) : Keeps s (updateRing s) := by
  unfold updateRing
  try dsimp only
  (repeat' split) <;> simp [Keeps]
@[simp] theorem updateRing_pending (s : State) : (updateRing s).pending = s.pending := (updateRing_keeps s).1
@[simp] theorem updateRing_clk (s : State) : (updateRing s).clk = s.clk := (updateRing_keeps s).2.1
@[simp] theorem updateRing_regs (s : State) : (updateRing s).regs = s.regs := (updateRing_keeps s).2.2.1
@[simp] theorem updateRing_masks (s : State) : (updateRing s).evt.masks = s.evt.masks := (updateRing_keeps s).2.2.2

theorem noteHop_keeps (hop : Nat) (isDead : Bool) (s : State) : Keeps s (noteHop hop isDead s) := by
  unfold noteHop
  try dsimp only
  (repeat' split) <;> simp [Keeps]
@[simp] theorem noteHop_pending (hop : Nat) (isDead : Bool) (s : State) : (noteHop hop isDead s).pending = s.pending := (noteHop_keeps hop isDead s).1
@[simp] theorem noteHop_clk (hop : Nat) (isDead : Bool) (s : State) : (noteHop hop isDead s).clk = s.clk := (noteHop_keeps hop isDead s).2.1
@[simp] theorem noteHop_regs (hop : Nat) (isDead : Bool) (s : State) : (noteHop hop isDead s).regs = s.regs := (noteHop_keeps hop isDead s).2.2.1
@[simp] theorem noteHop_masks (hop : Nat) (isDead : Bool) (s : State) : (noteHop hop isDead s).evt.masks = s.evt.masks := (noteHop_keeps hop isDead s).2.2.2

theorem sendBreak_keeps (out : Side) (hop : Nat) (healed : Bool) (s : State) : Keeps s (sendBreak out hop healed s) := by
  unfold sendBreak
  try dsimp only
  (repeat' split) <;> simp [Keeps]
@[simp] theorem sendBreak_pending (out : Side) (hop : Nat) (healed : Bool) (s : State) : (sendBreak out hop healed s).pending = s.pending := (sendBreak_keeps out hop healed s).1
@[simp] theorem sendBreak_clk (out : Side) (hop : Nat) (healed : Bool) (s : State) : (sendBreak out hop healed s).clk = s.clk := (sendBreak_keeps out hop healed s).2.1
@[simp] theorem sendBreak_regs (out : Side) (hop : Nat) (healed : Bool) (s : State) : (sendBreak out hop healed s).regs = s.regs := (sendBreak_keeps out hop healed s).2.2.1
@[simp] theorem sendBreak_masks (out : Side) (hop : Nat) (healed : Bool) (s : State) : (sendBreak out hop healed s).evt.masks = s.evt.masks := (sendBreak_keeps out hop healed s).2.2.2

theorem sendLinkUp_keeps (sd : Side) (s : State) : Keeps s (sendLinkUp sd s) := by
  unfold sendLinkUp
  try dsimp only
  (repeat' split) <;> simp [Keeps]
@[simp] theorem sendLinkUp_pending (sd : Side) (s : State) : (sendLinkUp sd s).pending = s.pending := (sendLinkUp_keeps sd s).1
@[simp] theorem sendLinkUp_clk (sd : Side) (s : State) : (sendLinkUp sd s).clk = s.clk := (sendLinkUp_keeps sd s).2.1
@[simp] theorem sendLinkUp_regs (sd : Side) (s : State) : (sendLinkUp sd s).regs = s.regs := (sendLinkUp_keeps sd s).2.2.1
@[simp] theorem sendLinkUp_masks (sd : Side) (s : State) : (sendLinkUp sd s).evt.masks = s.evt.masks := (sendLinkUp_keeps sd s).2.2.2

theorem sendEnum_keeps (sd : Side) (next : Nat) (s : State) : Keeps s (sendEnum sd next s) := by
  unfold sendEnum
  try dsimp only
  (repeat' split) <;> simp [Keeps]
@[simp] theorem sendEnum_pending (sd : Side) (next : Nat) (s : State) : (sendEnum sd next s).pending = s.pending := (sendEnum_keeps sd next s).1
@[simp] theorem sendEnum_clk (sd : Side) (next : Nat) (s : State) : (sendEnum sd next s).clk = s.clk := (sendEnum_keeps sd next s).2.1
@[simp] theorem sendEnum_regs (sd : Side) (next : Nat) (s : State) : (sendEnum sd next s).regs = s.regs := (sendEnum_keeps sd next s).2.2.1
@[simp] theorem sendEnum_masks (sd : Side) (next : Nat) (s : State) : (sendEnum sd next s).evt.masks = s.evt.masks := (sendEnum_keeps sd next s).2.2.2

end Sys2Proof.Machine
end

