-- ==== Sys2Proof/Laws/Keep/HostOps.lean ====
section
/-! SUPPORT. What the operations of `Machine/HostOps.lean` leave alone. -/

namespace Sys2Proof.Machine

open Sys2Proof

theorem setBuf_keeps (p : HPort) (f : PortBuf → PortBuf) (s : State) : Keeps s (setBuf p f s) := by
  unfold setBuf
  try dsimp only
  (repeat' split) <;> simp [Keeps]
@[simp] theorem setBuf_pending (p : HPort) (f : PortBuf → PortBuf) (s : State) : (setBuf p f s).pending = s.pending := (setBuf_keeps p f s).1
@[simp] theorem setBuf_clk (p : HPort) (f : PortBuf → PortBuf) (s : State) : (setBuf p f s).clk = s.clk := (setBuf_keeps p f s).2.1
@[simp] theorem setBuf_regs (p : HPort) (f : PortBuf → PortBuf) (s : State) : (setBuf p f s).regs = s.regs := (setBuf_keeps p f s).2.2.1
@[simp] theorem setBuf_masks (p : HPort) (f : PortBuf → PortBuf) (s : State) : (setBuf p f s).evt.masks = s.evt.masks := (setBuf_keeps p f s).2.2.2

theorem countAuth_keeps (p : HPort) (r : Reply) (s : State) : Keeps s (countAuth p r s) := by
  unfold countAuth
  try dsimp only
  (repeat' split) <;> simp [Keeps]
@[simp] theorem countAuth_pending (p : HPort) (r : Reply) (s : State) : (countAuth p r s).pending = s.pending := (countAuth_keeps p r s).1
@[simp] theorem countAuth_clk (p : HPort) (r : Reply) (s : State) : (countAuth p r s).clk = s.clk := (countAuth_keeps p r s).2.1
@[simp] theorem countAuth_regs (p : HPort) (r : Reply) (s : State) : (countAuth p r s).regs = s.regs := (countAuth_keeps p r s).2.2.1
@[simp] theorem countAuth_masks (p : HPort) (r : Reply) (s : State) : (countAuth p r s).evt.masks = s.evt.masks := (countAuth_keeps p r s).2.2.2

theorem noteReleased_keeps (p : HPort) (r : Reply) (s : State) : Keeps s (noteReleased p r s) := by
  unfold noteReleased
  try dsimp only
  (repeat' split) <;> simp [Keeps]
@[simp] theorem noteReleased_pending (p : HPort) (r : Reply) (s : State) : (noteReleased p r s).pending = s.pending := (noteReleased_keeps p r s).1
@[simp] theorem noteReleased_clk (p : HPort) (r : Reply) (s : State) : (noteReleased p r s).clk = s.clk := (noteReleased_keeps p r s).2.1
@[simp] theorem noteReleased_regs (p : HPort) (r : Reply) (s : State) : (noteReleased p r s).regs = s.regs := (noteReleased_keeps p r s).2.2.1
@[simp] theorem noteReleased_masks (p : HPort) (r : Reply) (s : State) : (noteReleased p r s).evt.masks = s.evt.masks := (noteReleased_keeps p r s).2.2.2

theorem output_keeps (p : HPort) (fromSlot : Bool) (r : Reply) (s : State) : Keeps s (output p fromSlot r s) := by
  unfold output
  try dsimp only
  (repeat' split) <;> simp [Keeps]
@[simp] theorem output_pending (p : HPort) (fromSlot : Bool) (r : Reply) (s : State) : (output p fromSlot r s).pending = s.pending := (output_keeps p fromSlot r s).1
@[simp] theorem output_clk (p : HPort) (fromSlot : Bool) (r : Reply) (s : State) : (output p fromSlot r s).clk = s.clk := (output_keeps p fromSlot r s).2.1
@[simp] theorem output_regs (p : HPort) (fromSlot : Bool) (r : Reply) (s : State) : (output p fromSlot r s).regs = s.regs := (output_keeps p fromSlot r s).2.2.1
@[simp] theorem output_masks (p : HPort) (fromSlot : Bool) (r : Reply) (s : State) : (output p fromSlot r s).evt.masks = s.evt.masks := (output_keeps p fromSlot r s).2.2.2

theorem rejectLost_keeps (p : HPort) (r : Reply) (s : State) : Keeps s (rejectLost p r s) := by
  unfold rejectLost
  try dsimp only
  (repeat' split) <;> simp [Keeps]
@[simp] theorem rejectLost_pending (p : HPort) (r : Reply) (s : State) : (rejectLost p r s).pending = s.pending := (rejectLost_keeps p r s).1
@[simp] theorem rejectLost_clk (p : HPort) (r : Reply) (s : State) : (rejectLost p r s).clk = s.clk := (rejectLost_keeps p r s).2.1
@[simp] theorem rejectLost_regs (p : HPort) (r : Reply) (s : State) : (rejectLost p r s).regs = s.regs := (rejectLost_keeps p r s).2.2.1
@[simp] theorem rejectLost_masks (p : HPort) (r : Reply) (s : State) : (rejectLost p r s).evt.masks = s.evt.masks := (rejectLost_keeps p r s).2.2.2

theorem releaseStatus_keeps (p : HPort) (r : Reply) (c : Word) (s : State) : Keeps s (releaseStatus p r c s) := by
  unfold releaseStatus
  try dsimp only
  (repeat' split) <;> simp [Keeps]
@[simp] theorem releaseStatus_pending (p : HPort) (r : Reply) (c : Word) (s : State) : (releaseStatus p r c s).pending = s.pending := (releaseStatus_keeps p r c s).1
@[simp] theorem releaseStatus_clk (p : HPort) (r : Reply) (c : Word) (s : State) : (releaseStatus p r c s).clk = s.clk := (releaseStatus_keeps p r c s).2.1
@[simp] theorem releaseStatus_regs (p : HPort) (r : Reply) (c : Word) (s : State) : (releaseStatus p r c s).regs = s.regs := (releaseStatus_keeps p r c s).2.2.1
@[simp] theorem releaseStatus_masks (p : HPort) (r : Reply) (c : Word) (s : State) : (releaseStatus p r c s).evt.masks = s.evt.masks := (releaseStatus_keeps p r c s).2.2.2

theorem releaseSlot_keeps (p : HPort) (i : Nat) (sl : Slot) (r : Reply) (s : State) : Keeps s (releaseSlot p i sl r s) := by
  unfold releaseSlot
  try dsimp only
  (repeat' split) <;> simp [Keeps]
@[simp] theorem releaseSlot_pending (p : HPort) (i : Nat) (sl : Slot) (r : Reply) (s : State) : (releaseSlot p i sl r s).pending = s.pending := (releaseSlot_keeps p i sl r s).1
@[simp] theorem releaseSlot_clk (p : HPort) (i : Nat) (sl : Slot) (r : Reply) (s : State) : (releaseSlot p i sl r s).clk = s.clk := (releaseSlot_keeps p i sl r s).2.1
@[simp] theorem releaseSlot_regs (p : HPort) (i : Nat) (sl : Slot) (r : Reply) (s : State) : (releaseSlot p i sl r s).regs = s.regs := (releaseSlot_keeps p i sl r s).2.2.1
@[simp] theorem releaseSlot_masks (p : HPort) (i : Nat) (sl : Slot) (r : Reply) (s : State) : (releaseSlot p i sl r s).evt.masks = s.evt.masks := (releaseSlot_keeps p i sl r s).2.2.2

theorem releaseOne_keeps (p : HPort) (s t : State) (h : releaseOne p s = some t) : Keeps s t := by
  unfold releaseOne at h
  split at h
  · injection h with h; subst h; exact releaseStatus_keeps _ _ _ _
  · rw [Option.map_eq_some_iff] at h
    obtain ⟨x, -, rfl⟩ := h
    exact releaseSlot_keeps _ _ _ _ _

theorem releaseAll_keeps (n : Nat) (p : HPort) (s : State) : Keeps s (releaseAll n p s) := by
  induction n generalizing s with
  | zero => exact Keeps.refl s
  | succ n ih =>
    unfold releaseAll
    split
    · rename_i t h
      exact (releaseOne_keeps p s t h).trans (ih _)
    · exact Keeps.refl s
@[simp] theorem releaseAll_pending (n : Nat) (p : HPort) (s : State) : (releaseAll n p s).pending = s.pending := (releaseAll_keeps n p s).1
@[simp] theorem releaseAll_clk (n : Nat) (p : HPort) (s : State) : (releaseAll n p s).clk = s.clk := (releaseAll_keeps n p s).2.1
@[simp] theorem releaseAll_regs (n : Nat) (p : HPort) (s : State) : (releaseAll n p s).regs = s.regs := (releaseAll_keeps n p s).2.2.1
@[simp] theorem releaseAll_masks (n : Nat) (p : HPort) (s : State) : (releaseAll n p s).evt.masks = s.evt.masks := (releaseAll_keeps n p s).2.2.2

theorem release_keeps (p : HPort) (s : State) : Keeps s (release p s) := by
  unfold release
  try dsimp only
  (repeat' split) <;> simp [Keeps]
@[simp] theorem release_pending (p : HPort) (s : State) : (release p s).pending = s.pending := (release_keeps p s).1
@[simp] theorem release_clk (p : HPort) (s : State) : (release p s).clk = s.clk := (release_keeps p s).2.1
@[simp] theorem release_regs (p : HPort) (s : State) : (release p s).regs = s.regs := (release_keeps p s).2.2.1
@[simp] theorem release_masks (p : HPort) (s : State) : (release p s).evt.masks = s.evt.masks := (release_keeps p s).2.2.2

theorem toStatus_keeps (p : HPort) (r : Reply) (s : State) : Keeps s (toStatus p r s) := by
  unfold toStatus
  try dsimp only
  (repeat' split) <;> simp [Keeps]
@[simp] theorem toStatus_pending (p : HPort) (r : Reply) (s : State) : (toStatus p r s).pending = s.pending := (toStatus_keeps p r s).1
@[simp] theorem toStatus_clk (p : HPort) (r : Reply) (s : State) : (toStatus p r s).clk = s.clk := (toStatus_keeps p r s).2.1
@[simp] theorem toStatus_regs (p : HPort) (r : Reply) (s : State) : (toStatus p r s).regs = s.regs := (toStatus_keeps p r s).2.2.1
@[simp] theorem toStatus_masks (p : HPort) (r : Reply) (s : State) : (toStatus p r s).evt.masks = s.evt.masks := (toStatus_keeps p r s).2.2.2

theorem reject_keeps (p : HPort) (hdr : BitVec 16) (status : Nat) (s : State) : Keeps s (reject p hdr status s) := by
  unfold reject
  try dsimp only
  (repeat' split) <;> simp [Keeps]
@[simp] theorem reject_pending (p : HPort) (hdr : BitVec 16) (status : Nat) (s : State) : (reject p hdr status s).pending = s.pending := (reject_keeps p hdr status s).1
@[simp] theorem reject_clk (p : HPort) (hdr : BitVec 16) (status : Nat) (s : State) : (reject p hdr status s).clk = s.clk := (reject_keeps p hdr status s).2.1
@[simp] theorem reject_regs (p : HPort) (hdr : BitVec 16) (status : Nat) (s : State) : (reject p hdr status s).regs = s.regs := (reject_keeps p hdr status s).2.2.1
@[simp] theorem reject_masks (p : HPort) (hdr : BitVec 16) (status : Nat) (s : State) : (reject p hdr status s).evt.masks = s.evt.masks := (reject_keeps p hdr status s).2.2.2

theorem fillSlot_keeps (p : HPort) (i : Nat) (own : Bool) (r : Reply) (s : State) : Keeps s (fillSlot p i own r s) := by
  unfold fillSlot
  try dsimp only
  (repeat' split) <;> simp [Keeps]
@[simp] theorem fillSlot_pending (p : HPort) (i : Nat) (own : Bool) (r : Reply) (s : State) : (fillSlot p i own r s).pending = s.pending := (fillSlot_keeps p i own r s).1
@[simp] theorem fillSlot_clk (p : HPort) (i : Nat) (own : Bool) (r : Reply) (s : State) : (fillSlot p i own r s).clk = s.clk := (fillSlot_keeps p i own r s).2.1
@[simp] theorem fillSlot_regs (p : HPort) (i : Nat) (own : Bool) (r : Reply) (s : State) : (fillSlot p i own r s).regs = s.regs := (fillSlot_keeps p i own r s).2.2.1
@[simp] theorem fillSlot_masks (p : HPort) (i : Nat) (own : Bool) (r : Reply) (s : State) : (fillSlot p i own r s).evt.masks = s.evt.masks := (fillSlot_keeps p i own r s).2.2.2

theorem combine_keeps (p : HPort) (i : Nat) (s : State) : Keeps s (combine p i s) := by
  unfold combine
  try dsimp only
  (repeat' split) <;> simp [Keeps]
@[simp] theorem combine_pending (p : HPort) (i : Nat) (s : State) : (combine p i s).pending = s.pending := (combine_keeps p i s).1
@[simp] theorem combine_clk (p : HPort) (i : Nat) (s : State) : (combine p i s).clk = s.clk := (combine_keeps p i s).2.1
@[simp] theorem combine_regs (p : HPort) (i : Nat) (s : State) : (combine p i s).regs = s.regs := (combine_keeps p i s).2.2.1
@[simp] theorem combine_masks (p : HPort) (i : Nat) (s : State) : (combine p i s).evt.masks = s.evt.masks := (combine_keeps p i s).2.2.2

theorem combineIfComplete_keeps (p : HPort) (i : Nat) (s : State) : Keeps s (combineIfComplete p i s) := by
  unfold combineIfComplete
  try dsimp only
  (repeat' split) <;> simp [Keeps]
@[simp] theorem combineIfComplete_pending (p : HPort) (i : Nat) (s : State) : (combineIfComplete p i s).pending = s.pending := (combineIfComplete_keeps p i s).1
@[simp] theorem combineIfComplete_clk (p : HPort) (i : Nat) (s : State) : (combineIfComplete p i s).clk = s.clk := (combineIfComplete_keeps p i s).2.1
@[simp] theorem combineIfComplete_regs (p : HPort) (i : Nat) (s : State) : (combineIfComplete p i s).regs = s.regs := (combineIfComplete_keeps p i s).2.2.1
@[simp] theorem combineIfComplete_masks (p : HPort) (i : Nat) (s : State) : (combineIfComplete p i s).evt.masks = s.evt.masks := (combineIfComplete_keeps p i s).2.2.2

theorem lateReply_keeps (s : State) : Keeps s (lateReply s) := by
  unfold lateReply
  try dsimp only
  (repeat' split) <;> simp [Keeps]
@[simp] theorem lateReply_pending (s : State) : (lateReply s).pending = s.pending := (lateReply_keeps s).1
@[simp] theorem lateReply_clk (s : State) : (lateReply s).clk = s.clk := (lateReply_keeps s).2.1
@[simp] theorem lateReply_regs (s : State) : (lateReply s).regs = s.regs := (lateReply_keeps s).2.2.1
@[simp] theorem lateReply_masks (s : State) : (lateReply s).evt.masks = s.evt.masks := (lateReply_keeps s).2.2.2

theorem reportTo_keeps (p : HPort) (h : Nat) (seq : Nat) (pos : Nat) (status : Nat) (outside : Bool) (s : State) : Keeps s (reportTo p h seq pos status outside s) := by
  unfold reportTo
  try dsimp only
  (repeat' split) <;> simp [Keeps]
@[simp] theorem reportTo_pending (p : HPort) (h : Nat) (seq : Nat) (pos : Nat) (status : Nat) (outside : Bool) (s : State) : (reportTo p h seq pos status outside s).pending = s.pending := (reportTo_keeps p h seq pos status outside s).1
@[simp] theorem reportTo_clk (p : HPort) (h : Nat) (seq : Nat) (pos : Nat) (status : Nat) (outside : Bool) (s : State) : (reportTo p h seq pos status outside s).clk = s.clk := (reportTo_keeps p h seq pos status outside s).2.1
@[simp] theorem reportTo_regs (p : HPort) (h : Nat) (seq : Nat) (pos : Nat) (status : Nat) (outside : Bool) (s : State) : (reportTo p h seq pos status outside s).regs = s.regs := (reportTo_keeps p h seq pos status outside s).2.2.1
@[simp] theorem reportTo_masks (p : HPort) (h : Nat) (seq : Nat) (pos : Nat) (status : Nat) (outside : Bool) (s : State) : (reportTo p h seq pos status outside s).evt.masks = s.evt.masks := (reportTo_keeps p h seq pos status outside s).2.2.2

theorem replyTo_keeps (p : HPort) (rq : Req) (sync : Bool) (r : Reply) (s : State) : Keeps s (replyTo p rq sync r s) := by
  unfold replyTo
  try dsimp only
  (repeat' split) <;> simp [Keeps]
@[simp] theorem replyTo_pending (p : HPort) (rq : Req) (sync : Bool) (r : Reply) (s : State) : (replyTo p rq sync r s).pending = s.pending := (replyTo_keeps p rq sync r s).1
@[simp] theorem replyTo_clk (p : HPort) (rq : Req) (sync : Bool) (r : Reply) (s : State) : (replyTo p rq sync r s).clk = s.clk := (replyTo_keeps p rq sync r s).2.1
@[simp] theorem replyTo_regs (p : HPort) (rq : Req) (sync : Bool) (r : Reply) (s : State) : (replyTo p rq sync r s).regs = s.regs := (replyTo_keeps p rq sync r s).2.2.1
@[simp] theorem replyTo_masks (p : HPort) (rq : Req) (sync : Bool) (r : Reply) (s : State) : (replyTo p rq sync r s).evt.masks = s.evt.masks := (replyTo_keeps p rq sync r s).2.2.2

theorem Res.of_keeps (status : Nat) (s : State) : Keeps s (Res.of status s).st := by
  unfold Res.of
  try dsimp only
  (repeat' split) <;> simp [Keeps, Res.of]

theorem respond_keeps (rq : Req) (sync outside : Bool) (r : Res) : Keeps r.st (respond rq sync outside r) := by
  unfold respond
  dsimp only
  (repeat' split) <;> simp [Keeps]
@[simp] theorem respond_pending (rq : Req) (sync outside : Bool) (r : Res) : (respond rq sync outside r).pending = r.st.pending := (respond_keeps rq sync outside r).1
@[simp] theorem respond_clk (rq : Req) (sync outside : Bool) (r : Res) : (respond rq sync outside r).clk = r.st.clk := (respond_keeps rq sync outside r).2.1
@[simp] theorem respond_regs (rq : Req) (sync outside : Bool) (r : Res) : (respond rq sync outside r).regs = r.st.regs := (respond_keeps rq sync outside r).2.2.1
@[simp] theorem respond_masks (rq : Req) (sync outside : Bool) (r : Res) : (respond rq sync outside r).evt.masks = r.st.evt.masks := (respond_keeps rq sync outside r).2.2.2

theorem keepQueued_keeps (rq : Req) (s : State) : Keeps s (keepQueued rq s) := by
  unfold keepQueued
  try dsimp only
  (repeat' split) <;> simp [Keeps]
@[simp] theorem keepQueued_pending (rq : Req) (s : State) : (keepQueued rq s).pending = s.pending := (keepQueued_keeps rq s).1
@[simp] theorem keepQueued_clk (rq : Req) (s : State) : (keepQueued rq s).clk = s.clk := (keepQueued_keeps rq s).2.1
@[simp] theorem keepQueued_regs (rq : Req) (s : State) : (keepQueued rq s).regs = s.regs := (keepQueued_keeps rq s).2.2.1
@[simp] theorem keepQueued_masks (rq : Req) (s : State) : (keepQueued rq s).evt.masks = s.evt.masks := (keepQueued_keeps rq s).2.2.2

end Sys2Proof.Machine
end

