-- ==== Sys2Proof/Laws/Keep/Cmd.lean ====
section
/-! SUPPORT. What the operations of `Machine/Cmd.lean` leave alone. -/

namespace Sys2Proof.Machine

open Sys2Proof

theorem noteOrder_keeps (rq : Req) (os : List Obj) (s : State) : Keeps s (noteOrder rq os s) := by
  unfold noteOrder
  try dsimp only
  (repeat' split) <;> simp [Keeps]
@[simp] theorem noteOrder_pending (rq : Req) (os : List Obj) (s : State) : (noteOrder rq os s).pending = s.pending := (noteOrder_keeps rq os s).1
@[simp] theorem noteOrder_clk (rq : Req) (os : List Obj) (s : State) : (noteOrder rq os s).clk = s.clk := (noteOrder_keeps rq os s).2.1
@[simp] theorem noteOrder_regs (rq : Req) (os : List Obj) (s : State) : (noteOrder rq os s).regs = s.regs := (noteOrder_keeps rq os s).2.2.1
@[simp] theorem noteOrder_masks (rq : Req) (os : List Obj) (s : State) : (noteOrder rq os s).evt.masks = s.evt.masks := (noteOrder_keeps rq os s).2.2.2

theorem overruled_keeps (rq : Req) (s : State) : Keeps s (overruled rq s).st := by
  unfold overruled
  try dsimp only
  (repeat' split) <;> simp [Keeps, Res.of]
@[simp] theorem overruled_pending (rq : Req) (s : State) : (overruled rq s).st.pending = s.pending := (overruled_keeps rq s).1
@[simp] theorem overruled_clk (rq : Req) (s : State) : (overruled rq s).st.clk = s.clk := (overruled_keeps rq s).2.1
@[simp] theorem overruled_regs (rq : Req) (s : State) : (overruled rq s).st.regs = s.regs := (overruled_keeps rq s).2.2.1
@[simp] theorem overruled_masks (rq : Req) (s : State) : (overruled rq s).st.evt.masks = s.evt.masks := (overruled_keeps rq s).2.2.2

theorem runCmd_pending (opc : Nat) (rq : Req) (f : State → Res) (s : State) (h : (f s).st.pending = s.pending) :
    (runCmd opc rq f s).pending = s.pending := by
  unfold runCmd
  dsimp only
  (repeat' split) <;> simp [Res.of, h]

theorem runCmd_clk (opc : Nat) (rq : Req) (f : State → Res) (s : State) (h : (f s).st.clk = s.clk) :
    (runCmd opc rq f s).clk = s.clk := by
  unfold runCmd
  dsimp only
  (repeat' split) <;> simp [Res.of, h]

theorem runCmd_regs (opc : Nat) (rq : Req) (f : State → Res) (s : State) (h : (f s).st.regs = s.regs) :
    (runCmd opc rq f s).regs = s.regs := by
  unfold runCmd
  dsimp only
  (repeat' split) <;> simp [Res.of, h]

theorem runCmd_masks (opc : Nat) (rq : Req) (f : State → Res) (s : State) (h : (f s).st.evt.masks = s.evt.masks) :
    (runCmd opc rq f s).evt.masks = s.evt.masks := by
  unfold runCmd
  dsimp only
  (repeat' split) <;> simp [Res.of, h]

theorem runCmd_keeps (opc : Nat) (rq : Req) (f : State → Res) (s : State) (h : Keeps s (f s).st) : Keeps s (runCmd opc rq f s) :=
  ⟨runCmd_pending opc rq f s h.1, runCmd_clk opc rq f s h.2.1, runCmd_regs opc rq f s h.2.2.1, runCmd_masks opc rq f s h.2.2.2⟩

end Sys2Proof.Machine
end

