-- ==== Sys2Proof/Laws/Keep/HostPort.lean ====
section
/-! SUPPORT. What the operations of `Machine/HostPort.lean` leave alone. -/

namespace Sys2Proof.Machine

open Sys2Proof

theorem reportBad_keeps (p : HPort) (hdr : BitVec 16) (status : Nat) (s : State) : Keeps s (reportBad p hdr status s) := by
  unfold reportBad
  try dsimp only
  (repeat' split) <;> simp [Keeps]
@[simp] theorem reportBad_pending (p : HPort) (hdr : BitVec 16) (status : Nat) (s : State) : (reportBad p hdr status s).pending = s.pending := (reportBad_keeps p hdr status s).1
@[simp] theorem reportBad_clk (p : HPort) (hdr : BitVec 16) (status : Nat) (s : State) : (reportBad p hdr status s).clk = s.clk := (reportBad_keeps p hdr status s).2.1
@[simp] theorem reportBad_regs (p : HPort) (hdr : BitVec 16) (status : Nat) (s : State) : (reportBad p hdr status s).regs = s.regs := (reportBad_keeps p hdr status s).2.2.1
@[simp] theorem reportBad_masks (p : HPort) (hdr : BitVec 16) (status : Nat) (s : State) : (reportBad p hdr status s).evt.masks = s.evt.masks := (reportBad_keeps p hdr status s).2.2.2

theorem acceptTag_keeps (h : Nat) (s : State) : Keeps s (acceptTag h s) := by
  unfold acceptTag
  try dsimp only
  (repeat' split) <;> simp [Keeps]
@[simp] theorem acceptTag_pending (h : Nat) (s : State) : (acceptTag h s).pending = s.pending := (acceptTag_keeps h s).1
@[simp] theorem acceptTag_clk (h : Nat) (s : State) : (acceptTag h s).clk = s.clk := (acceptTag_keeps h s).2.1
@[simp] theorem acceptTag_regs (h : Nat) (s : State) : (acceptTag h s).regs = s.regs := (acceptTag_keeps h s).2.2.1
@[simp] theorem acceptTag_masks (h : Nat) (s : State) : (acceptTag h s).evt.masks = s.evt.masks := (acceptTag_keeps h s).2.2.2

theorem failTag_keeps (p : HPort) (k : Pkt) (s : State) : Keeps s (failTag p k s) := by
  unfold failTag
  try dsimp only
  (repeat' split) <;> simp [Keeps]
@[simp] theorem failTag_pending (p : HPort) (k : Pkt) (s : State) : (failTag p k s).pending = s.pending := (failTag_keeps p k s).1
@[simp] theorem failTag_clk (p : HPort) (k : Pkt) (s : State) : (failTag p k s).clk = s.clk := (failTag_keeps p k s).2.1
@[simp] theorem failTag_regs (p : HPort) (k : Pkt) (s : State) : (failTag p k s).regs = s.regs := (failTag_keeps p k s).2.2.1
@[simp] theorem failTag_masks (p : HPort) (k : Pkt) (s : State) : (failTag p k s).evt.masks = s.evt.masks := (failTag_keeps p k s).2.2.2

theorem tagStep_keeps (p : HPort) (k : Pkt) (s : State) : Keeps s (tagStep p k s).1 := by
  unfold tagStep
  try dsimp only
  (repeat' split) <;> simp [Keeps]
@[simp] theorem tagStep_pending (p : HPort) (k : Pkt) (s : State) : (tagStep p k s).1.pending = s.pending := (tagStep_keeps p k s).1
@[simp] theorem tagStep_clk (p : HPort) (k : Pkt) (s : State) : (tagStep p k s).1.clk = s.clk := (tagStep_keeps p k s).2.1
@[simp] theorem tagStep_regs (p : HPort) (k : Pkt) (s : State) : (tagStep p k s).1.regs = s.regs := (tagStep_keeps p k s).2.2.1
@[simp] theorem tagStep_masks (p : HPort) (k : Pkt) (s : State) : (tagStep p k s).1.evt.masks = s.evt.masks := (tagStep_keeps p k s).2.2.2

theorem rejectDuplicate_keeps (p : HPort) (k : Pkt) (s : State) : Keeps s (rejectDuplicate p k s) := by
  unfold rejectDuplicate
  try dsimp only
  (repeat' split) <;> simp [Keeps]
@[simp] theorem rejectDuplicate_pending (p : HPort) (k : Pkt) (s : State) : (rejectDuplicate p k s).pending = s.pending := (rejectDuplicate_keeps p k s).1
@[simp] theorem rejectDuplicate_clk (p : HPort) (k : Pkt) (s : State) : (rejectDuplicate p k s).clk = s.clk := (rejectDuplicate_keeps p k s).2.1
@[simp] theorem rejectDuplicate_regs (p : HPort) (k : Pkt) (s : State) : (rejectDuplicate p k s).regs = s.regs := (rejectDuplicate_keeps p k s).2.2.1
@[simp] theorem rejectDuplicate_masks (p : HPort) (k : Pkt) (s : State) : (rejectDuplicate p k s).evt.masks = s.evt.masks := (rejectDuplicate_keeps p k s).2.2.2

theorem duplicate_keeps (p : HPort) (k : Pkt) (s : State) : Keeps s (duplicate p k s) := by
  unfold duplicate
  try dsimp only
  (repeat' split) <;> simp [Keeps]
@[simp] theorem duplicate_pending (p : HPort) (k : Pkt) (s : State) : (duplicate p k s).pending = s.pending := (duplicate_keeps p k s).1
@[simp] theorem duplicate_clk (p : HPort) (k : Pkt) (s : State) : (duplicate p k s).clk = s.clk := (duplicate_keeps p k s).2.1
@[simp] theorem duplicate_regs (p : HPort) (k : Pkt) (s : State) : (duplicate p k s).regs = s.regs := (duplicate_keeps p k s).2.2.1
@[simp] theorem duplicate_masks (p : HPort) (k : Pkt) (s : State) : (duplicate p k s).evt.masks = s.evt.masks := (duplicate_keeps p k s).2.2.2

theorem admitCmd_keeps (p : HPort) (k : Pkt) (tagC : Option Nat) (s : State) : Keeps s (admitCmd p k tagC s) := by
  unfold admitCmd
  try dsimp only
  (repeat' split) <;> simp [Keeps]
@[simp] theorem admitCmd_pending (p : HPort) (k : Pkt) (tagC : Option Nat) (s : State) : (admitCmd p k tagC s).pending = s.pending := (admitCmd_keeps p k tagC s).1
@[simp] theorem admitCmd_clk (p : HPort) (k : Pkt) (tagC : Option Nat) (s : State) : (admitCmd p k tagC s).clk = s.clk := (admitCmd_keeps p k tagC s).2.1
@[simp] theorem admitCmd_regs (p : HPort) (k : Pkt) (tagC : Option Nat) (s : State) : (admitCmd p k tagC s).regs = s.regs := (admitCmd_keeps p k tagC s).2.2.1
@[simp] theorem admitCmd_masks (p : HPort) (k : Pkt) (tagC : Option Nat) (s : State) : (admitCmd p k tagC s).evt.masks = s.evt.masks := (admitCmd_keeps p k tagC s).2.2.2

theorem refuseCredit_keeps (p : HPort) (k : Pkt) (s : State) : Keeps s (refuseCredit p k s) := by
  unfold refuseCredit
  try dsimp only
  (repeat' split) <;> simp [Keeps]
@[simp] theorem refuseCredit_pending (p : HPort) (k : Pkt) (s : State) : (refuseCredit p k s).pending = s.pending := (refuseCredit_keeps p k s).1
@[simp] theorem refuseCredit_clk (p : HPort) (k : Pkt) (s : State) : (refuseCredit p k s).clk = s.clk := (refuseCredit_keeps p k s).2.1
@[simp] theorem refuseCredit_regs (p : HPort) (k : Pkt) (s : State) : (refuseCredit p k s).regs = s.regs := (refuseCredit_keeps p k s).2.2.1
@[simp] theorem refuseCredit_masks (p : HPort) (k : Pkt) (s : State) : (refuseCredit p k s).evt.masks = s.evt.masks := (refuseCredit_keeps p k s).2.2.2

theorem rejectTagged_keeps (p : HPort) (k : Pkt) (tagC : Option Nat) (status : Nat) (s : State) : Keeps s (rejectTagged p k tagC status s) := by
  unfold rejectTagged
  try dsimp only
  (repeat' split) <;> simp [Keeps]
@[simp] theorem rejectTagged_pending (p : HPort) (k : Pkt) (tagC : Option Nat) (status : Nat) (s : State) : (rejectTagged p k tagC status s).pending = s.pending := (rejectTagged_keeps p k tagC status s).1
@[simp] theorem rejectTagged_clk (p : HPort) (k : Pkt) (tagC : Option Nat) (status : Nat) (s : State) : (rejectTagged p k tagC status s).clk = s.clk := (rejectTagged_keeps p k tagC status s).2.1
@[simp] theorem rejectTagged_regs (p : HPort) (k : Pkt) (tagC : Option Nat) (status : Nat) (s : State) : (rejectTagged p k tagC status s).regs = s.regs := (rejectTagged_keeps p k tagC status s).2.2.1
@[simp] theorem rejectTagged_masks (p : HPort) (k : Pkt) (tagC : Option Nat) (status : Nat) (s : State) : (rejectTagged p k tagC status s).evt.masks = s.evt.masks := (rejectTagged_keeps p k tagC status s).2.2.2

theorem admitNew_keeps (p : HPort) (k : Pkt) (s : State) : Keeps s (admitNew p k s) := by
  unfold admitNew
  have h := tagStep_keeps p k s
  split
  · rename_i s1 e
    rw [e] at h
    exact h.trans (reject_keeps _ _ _ _)
  · rename_i s1 c e
    rw [e] at h
    refine h.trans ?_
    (repeat' split) <;> simp [Keeps]
@[simp] theorem admitNew_pending (p : HPort) (k : Pkt) (s : State) : (admitNew p k s).pending = s.pending := (admitNew_keeps p k s).1
@[simp] theorem admitNew_clk (p : HPort) (k : Pkt) (s : State) : (admitNew p k s).clk = s.clk := (admitNew_keeps p k s).2.1
@[simp] theorem admitNew_regs (p : HPort) (k : Pkt) (s : State) : (admitNew p k s).regs = s.regs := (admitNew_keeps p k s).2.2.1
@[simp] theorem admitNew_masks (p : HPort) (k : Pkt) (s : State) : (admitNew p k s).evt.masks = s.evt.masks := (admitNew_keeps p k s).2.2.2

theorem admission_keeps (p : HPort) (k : Pkt) (s : State) : Keeps s (admission p k s) := by
  unfold admission
  try dsimp only
  (repeat' split) <;> simp [Keeps]
@[simp] theorem admission_pending (p : HPort) (k : Pkt) (s : State) : (admission p k s).pending = s.pending := (admission_keeps p k s).1
@[simp] theorem admission_clk (p : HPort) (k : Pkt) (s : State) : (admission p k s).clk = s.clk := (admission_keeps p k s).2.1
@[simp] theorem admission_regs (p : HPort) (k : Pkt) (s : State) : (admission p k s).regs = s.regs := (admission_keeps p k s).2.2.1
@[simp] theorem admission_masks (p : HPort) (k : Pkt) (s : State) : (admission p k s).evt.masks = s.evt.masks := (admission_keeps p k s).2.2.2

theorem packetChecks_keeps (p : HPort) (k : Pkt) (lenOk : Bool) (s : State) : Keeps s (packetChecks p k lenOk s) := by
  unfold packetChecks
  try dsimp only
  (repeat' split) <;> simp [Keeps]
@[simp] theorem packetChecks_pending (p : HPort) (k : Pkt) (lenOk : Bool) (s : State) : (packetChecks p k lenOk s).pending = s.pending := (packetChecks_keeps p k lenOk s).1
@[simp] theorem packetChecks_clk (p : HPort) (k : Pkt) (lenOk : Bool) (s : State) : (packetChecks p k lenOk s).clk = s.clk := (packetChecks_keeps p k lenOk s).2.1
@[simp] theorem packetChecks_regs (p : HPort) (k : Pkt) (lenOk : Bool) (s : State) : (packetChecks p k lenOk s).regs = s.regs := (packetChecks_keeps p k lenOk s).2.2.1
@[simp] theorem packetChecks_masks (p : HPort) (k : Pkt) (lenOk : Bool) (s : State) : (packetChecks p k lenOk s).evt.masks = s.evt.masks := (packetChecks_keeps p k lenOk s).2.2.2

theorem runt_keeps (s : State) : Keeps s (runt s) := by
  unfold runt
  try dsimp only
  (repeat' split) <;> simp [Keeps]
@[simp] theorem runt_pending (s : State) : (runt s).pending = s.pending := (runt_keeps s).1
@[simp] theorem runt_clk (s : State) : (runt s).clk = s.clk := (runt_keeps s).2.1
@[simp] theorem runt_regs (s : State) : (runt s).regs = s.regs := (runt_keeps s).2.2.1
@[simp] theorem runt_masks (s : State) : (runt s).evt.masks = s.evt.masks := (runt_keeps s).2.2.2

theorem spiDelivered_keeps (s : State) : Keeps s (spiDelivered s) := by
  unfold spiDelivered
  try dsimp only
  (repeat' split) <;> simp [Keeps]
@[simp] theorem spiDelivered_pending (s : State) : (spiDelivered s).pending = s.pending := (spiDelivered_keeps s).1
@[simp] theorem spiDelivered_clk (s : State) : (spiDelivered s).clk = s.clk := (spiDelivered_keeps s).2.1
@[simp] theorem spiDelivered_regs (s : State) : (spiDelivered s).regs = s.regs := (spiDelivered_keeps s).2.2.1
@[simp] theorem spiDelivered_masks (s : State) : (spiDelivered s).evt.masks = s.evt.masks := (spiDelivered_keeps s).2.2.2

theorem spiPacket_keeps (l : List Byte) (s : State) : Keeps s (spiPacket l s) := by
  unfold spiPacket
  try dsimp only
  (repeat' split) <;> simp [Keeps]
@[simp] theorem spiPacket_pending (l : List Byte) (s : State) : (spiPacket l s).pending = s.pending := (spiPacket_keeps l s).1
@[simp] theorem spiPacket_clk (l : List Byte) (s : State) : (spiPacket l s).clk = s.clk := (spiPacket_keeps l s).2.1
@[simp] theorem spiPacket_regs (l : List Byte) (s : State) : (spiPacket l s).regs = s.regs := (spiPacket_keeps l s).2.2.1
@[simp] theorem spiPacket_masks (l : List Byte) (s : State) : (spiPacket l s).evt.masks = s.evt.masks := (spiPacket_keeps l s).2.2.2

theorem spiRead_keeps (n : Nat) (s : State) : Keeps s (spiRead n s) := by
  unfold spiRead
  try dsimp only
  (repeat' split) <;> simp [Keeps]
@[simp] theorem spiRead_pending (n : Nat) (s : State) : (spiRead n s).pending = s.pending := (spiRead_keeps n s).1
@[simp] theorem spiRead_clk (n : Nat) (s : State) : (spiRead n s).clk = s.clk := (spiRead_keeps n s).2.1
@[simp] theorem spiRead_regs (n : Nat) (s : State) : (spiRead n s).regs = s.regs := (spiRead_keeps n s).2.2.1
@[simp] theorem spiRead_masks (n : Nat) (s : State) : (spiRead n s).evt.masks = s.evt.masks := (spiRead_keeps n s).2.2.2

theorem execSpiTransaction_keeps (sdi : List Byte) (s : State) {t : State} (h : execSpiTransaction sdi s = .next t) : Keeps s t := by
  unfold execSpiTransaction at h
  try dsimp only at h
  (repeat' split at h) <;> (injection h with h; subst h; simp [Keeps])

theorem endUartFrame_keeps (s : State) : Keeps s (endUartFrame s) := by
  unfold endUartFrame
  try dsimp only
  (repeat' split) <;> simp [Keeps]
@[simp] theorem endUartFrame_pending (s : State) : (endUartFrame s).pending = s.pending := (endUartFrame_keeps s).1
@[simp] theorem endUartFrame_clk (s : State) : (endUartFrame s).clk = s.clk := (endUartFrame_keeps s).2.1
@[simp] theorem endUartFrame_regs (s : State) : (endUartFrame s).regs = s.regs := (endUartFrame_keeps s).2.2.1
@[simp] theorem endUartFrame_masks (s : State) : (endUartFrame s).evt.masks = s.evt.masks := (endUartFrame_keeps s).2.2.2

theorem takeChar_keeps (s : State) (c : Option Byte) : Keeps s (takeChar s c) := by
  unfold takeChar
  try dsimp only
  (repeat' split) <;> simp [Keeps]
@[simp] theorem takeChar_pending (s : State) (c : Option Byte) : (takeChar s c).pending = s.pending := (takeChar_keeps s c).1
@[simp] theorem takeChar_clk (s : State) (c : Option Byte) : (takeChar s c).clk = s.clk := (takeChar_keeps s c).2.1
@[simp] theorem takeChar_regs (s : State) (c : Option Byte) : (takeChar s c).regs = s.regs := (takeChar_keeps s c).2.2.1
@[simp] theorem takeChar_masks (s : State) (c : Option Byte) : (takeChar s c).evt.masks = s.evt.masks := (takeChar_keeps s c).2.2.2

theorem execUartFrame_keeps (rxd : List Bool) (s : State) {t : State} (h : execUartFrame rxd s = .next t) : Keeps s t := by
  unfold execUartFrame at h
  try dsimp only at h
  (repeat' split at h) <;> (injection h with h; subst h; simp [Keeps, fold_pending, fold_clk, fold_regs, fold_masks, fold1_pending, fold1_clk, fold1_regs, fold1_masks, apply_ite State.pending, apply_ite State.clk, apply_ite State.regs, apply_ite State.evt, apply_ite EvtSt.masks])

theorem execBreakStuck_keeps (s : State) {t : State} (h : execBreakStuck s = .next t) : Keeps s t := by
  unfold execBreakStuck at h
  try dsimp only at h
  (repeat' split at h) <;> (injection h with h; subst h; simp [Keeps])

theorem execBreakRelease_keeps (s : State) {t : State} (h : execBreakRelease s = .next t) : Keeps s t := by
  unfold execBreakRelease at h
  try dsimp only at h
  (repeat' split at h) <;> (injection h with h; subst h; simp [Keeps])

theorem execLockoutExpiry_keeps (h : Fin 4) (s : State) {t : State} (h : execLockoutExpiry h s = .next t) : Keeps s t := by
  unfold execLockoutExpiry at h
  try dsimp only at h
  (repeat' split at h) <;> (injection h with h; subst h; simp [Keeps])

theorem execCommandDispatchable_keeps (s : State) {t : State} (h : execCommandDispatchable s = .next t) : Keeps s t := by
  unfold execCommandDispatchable at h
  try dsimp only at h
  (repeat' split at h) <;> (injection h with h; subst h; simp [Keeps])

theorem execNoReply_keeps (p : HPort) (seq : BitVec 12) (s : State) {t : State} (h : execNoReply p seq s = .next t) : Keeps s t := by
  unfold execNoReply at h
  try dsimp only at h
  (repeat' split at h) <;> (injection h with h; subst h; simp [Keeps])

theorem execGroupReplyTimeout_keeps (p : HPort) (seq : BitVec 12) (s : State) {t : State} (h : execGroupReplyTimeout p seq s = .next t) : Keeps s t := by
  unfold execGroupReplyTimeout at h
  try dsimp only at h
  (repeat' split at h) <;> (injection h with h; subst h; simp [Keeps])

theorem execBaudChange_keeps (s : State) {t : State} (h : execBaudChange s = .next t) : Keeps s t := by
  unfold execBaudChange at h
  try dsimp only at h
  (repeat' split at h) <;> (injection h with h; subst h; simp [Keeps])

end Sys2Proof.Machine
end

