-- ==== Sys2Proof/Laws/Keep/ChainRx.lean ====
section
/-! SUPPORT. What the operations of `Machine/ChainRx.lean` leave alone. -/

namespace Sys2Proof.Machine

open Sys2Proof

theorem freeHold_keeps (i : TxItem) (s : State) : Keeps s (freeHold i s) := by
  unfold freeHold
  try dsimp only
  (repeat' split) <;> simp [Keeps]
@[simp] theorem freeHold_pending (i : TxItem) (s : State) : (freeHold i s).pending = s.pending := (freeHold_keeps i s).1
@[simp] theorem freeHold_clk (i : TxItem) (s : State) : (freeHold i s).clk = s.clk := (freeHold_keeps i s).2.1
@[simp] theorem freeHold_regs (i : TxItem) (s : State) : (freeHold i s).regs = s.regs := (freeHold_keeps i s).2.2.1
@[simp] theorem freeHold_masks (i : TxItem) (s : State) : (freeHold i s).evt.masks = s.evt.masks := (freeHold_keeps i s).2.2.2

theorem rxPut_keeps (r : RxStream) (s : State) : Keeps s (rxPut r s) := by
  unfold rxPut
  try dsimp only
  (repeat' split) <;> simp [Keeps]
@[simp] theorem rxPut_pending (r : RxStream) (s : State) : (rxPut r s).pending = s.pending := (rxPut_keeps r s).1
@[simp] theorem rxPut_clk (r : RxStream) (s : State) : (rxPut r s).clk = s.clk := (rxPut_keeps r s).2.1
@[simp] theorem rxPut_regs (r : RxStream) (s : State) : (rxPut r s).regs = s.regs := (rxPut_keeps r s).2.2.1
@[simp] theorem rxPut_masks (r : RxStream) (s : State) : (rxPut r s).evt.masks = s.evt.masks := (rxPut_keeps r s).2.2.2

theorem sendStreamAck_keeps (r : RxStream) (s : State) : Keeps s (sendStreamAck r s) := by
  unfold sendStreamAck
  try dsimp only
  (repeat' split) <;> simp [Keeps]
@[simp] theorem sendStreamAck_pending (r : RxStream) (s : State) : (sendStreamAck r s).pending = s.pending := (sendStreamAck_keeps r s).1
@[simp] theorem sendStreamAck_clk (r : RxStream) (s : State) : (sendStreamAck r s).clk = s.clk := (sendStreamAck_keeps r s).2.1
@[simp] theorem sendStreamAck_regs (r : RxStream) (s : State) : (sendStreamAck r s).regs = s.regs := (sendStreamAck_keeps r s).2.2.1
@[simp] theorem sendStreamAck_masks (r : RxStream) (s : State) : (sendStreamAck r s).evt.masks = s.evt.masks := (sendStreamAck_keeps r s).2.2.2

theorem ackLegEnd_keeps (f : Frame) (s : State) : Keeps s (ackLegEnd f s) := by
  unfold ackLegEnd
  try dsimp only
  (repeat' split) <;> simp [Keeps]
@[simp] theorem ackLegEnd_pending (f : Frame) (s : State) : (ackLegEnd f s).pending = s.pending := (ackLegEnd_keeps f s).1
@[simp] theorem ackLegEnd_clk (f : Frame) (s : State) : (ackLegEnd f s).clk = s.clk := (ackLegEnd_keeps f s).2.1
@[simp] theorem ackLegEnd_regs (f : Frame) (s : State) : (ackLegEnd f s).regs = s.regs := (ackLegEnd_keeps f s).2.2.1
@[simp] theorem ackLegEnd_masks (f : Frame) (s : State) : (ackLegEnd f s).evt.masks = s.evt.masks := (ackLegEnd_keeps f s).2.2.2

theorem multiDone_keeps (f : Frame) (s : State) : Keeps s (multiDone f s) := by
  unfold multiDone
  try dsimp only
  (repeat' split) <;> simp [Keeps]
@[simp] theorem multiDone_pending (f : Frame) (s : State) : (multiDone f s).pending = s.pending := (multiDone_keeps f s).1
@[simp] theorem multiDone_clk (f : Frame) (s : State) : (multiDone f s).clk = s.clk := (multiDone_keeps f s).2.1
@[simp] theorem multiDone_regs (f : Frame) (s : State) : (multiDone f s).regs = s.regs := (multiDone_keeps f s).2.2.1
@[simp] theorem multiDone_masks (f : Frame) (s : State) : (multiDone f s).evt.masks = s.evt.masks := (multiDone_keeps f s).2.2.2

theorem releaseFrames_keeps (dest : Nat) (multi : Bool) (cls : Nat) (twin : Bool) (test : Frame → Bool) (s : State) : Keeps s (releaseFrames dest multi cls twin test s) := by
  unfold releaseFrames
  try dsimp only
  (repeat' split) <;>
    first
    | (simp [Keeps, fold_pending, fold_clk, fold_regs, fold_masks, fold1_pending, fold1_clk, fold1_regs, fold1_masks, apply_ite State.pending, apply_ite State.clk, apply_ite State.regs, apply_ite State.evt, apply_ite EvtSt.masks]; done)
    | (refine Keeps.trans ?_ (fold_keeps _ (fun s a => ?_) _ _) <;> (try dsimp only) <;> (repeat' split) <;> simp [Keeps])
@[simp] theorem releaseFrames_pending (dest : Nat) (multi : Bool) (cls : Nat) (twin : Bool) (test : Frame → Bool) (s : State) : (releaseFrames dest multi cls twin test s).pending = s.pending := (releaseFrames_keeps dest multi cls twin test s).1
@[simp] theorem releaseFrames_clk (dest : Nat) (multi : Bool) (cls : Nat) (twin : Bool) (test : Frame → Bool) (s : State) : (releaseFrames dest multi cls twin test s).clk = s.clk := (releaseFrames_keeps dest multi cls twin test s).2.1
@[simp] theorem releaseFrames_regs (dest : Nat) (multi : Bool) (cls : Nat) (twin : Bool) (test : Frame → Bool) (s : State) : (releaseFrames dest multi cls twin test s).regs = s.regs := (releaseFrames_keeps dest multi cls twin test s).2.2.1
@[simp] theorem releaseFrames_masks (dest : Nat) (multi : Bool) (cls : Nat) (twin : Bool) (test : Frame → Bool) (s : State) : (releaseFrames dest multi cls twin test s).evt.masks = s.evt.masks := (releaseFrames_keeps dest multi cls twin test s).2.2.2

theorem sendAgain_keeps (t : TxStream) (f : Frame) (s : State) : Keeps s (sendAgain t f s) := by
  unfold sendAgain
  try dsimp only
  (repeat' split) <;> simp [Keeps]
@[simp] theorem sendAgain_pending (t : TxStream) (f : Frame) (s : State) : (sendAgain t f s).pending = s.pending := (sendAgain_keeps t f s).1
@[simp] theorem sendAgain_clk (t : TxStream) (f : Frame) (s : State) : (sendAgain t f s).clk = s.clk := (sendAgain_keeps t f s).2.1
@[simp] theorem sendAgain_regs (t : TxStream) (f : Frame) (s : State) : (sendAgain t f s).regs = s.regs := (sendAgain_keeps t f s).2.2.1
@[simp] theorem sendAgain_masks (t : TxStream) (f : Frame) (s : State) : (sendAgain t f s).evt.masks = s.evt.masks := (sendAgain_keeps t f s).2.2.2

theorem resendRound_keeps (t : TxStream) (s : State) : Keeps s (resendRound t s) := by
  unfold resendRound
  try dsimp only
  (repeat' split) <;>
    first
    | (simp [Keeps, fold_pending, fold_clk, fold_regs, fold_masks, fold1_pending, fold1_clk, fold1_regs, fold1_masks, apply_ite State.pending, apply_ite State.clk, apply_ite State.regs, apply_ite State.evt, apply_ite EvtSt.masks]; done)
    | (refine Keeps.trans ?_ (fold_keeps _ (fun s a => ?_) _ _) <;> (try dsimp only) <;> (repeat' split) <;> simp [Keeps])
@[simp] theorem resendRound_pending (t : TxStream) (s : State) : (resendRound t s).pending = s.pending := (resendRound_keeps t s).1
@[simp] theorem resendRound_clk (t : TxStream) (s : State) : (resendRound t s).clk = s.clk := (resendRound_keeps t s).2.1
@[simp] theorem resendRound_regs (t : TxStream) (s : State) : (resendRound t s).regs = s.regs := (resendRound_keeps t s).2.2.1
@[simp] theorem resendRound_masks (t : TxStream) (s : State) : (resendRound t s).evt.masks = s.evt.masks := (resendRound_keeps t s).2.2.2

theorem takeAckEntry_keeps (sd : Side) (from_ : Nat) (e : List Byte) (s : State) : Keeps s (takeAckEntry sd from_ e s) := by
  unfold takeAckEntry
  try dsimp only
  (repeat' split) <;> simp [Keeps]
@[simp] theorem takeAckEntry_pending (sd : Side) (from_ : Nat) (e : List Byte) (s : State) : (takeAckEntry sd from_ e s).pending = s.pending := (takeAckEntry_keeps sd from_ e s).1
@[simp] theorem takeAckEntry_clk (sd : Side) (from_ : Nat) (e : List Byte) (s : State) : (takeAckEntry sd from_ e s).clk = s.clk := (takeAckEntry_keeps sd from_ e s).2.1
@[simp] theorem takeAckEntry_regs (sd : Side) (from_ : Nat) (e : List Byte) (s : State) : (takeAckEntry sd from_ e s).regs = s.regs := (takeAckEntry_keeps sd from_ e s).2.2.1
@[simp] theorem takeAckEntry_masks (sd : Side) (from_ : Nat) (e : List Byte) (s : State) : (takeAckEntry sd from_ e s).evt.masks = s.evt.masks := (takeAckEntry_keeps sd from_ e s).2.2.2

theorem takeAcks_keeps (sd : Side) (from_ : Nat) (body : List Byte) (s : State) : Keeps s (takeAcks sd from_ body s) := by
  unfold takeAcks
  try dsimp only
  (repeat' split) <;>
    first
    | (simp [Keeps, fold_pending, fold_clk, fold_regs, fold_masks, fold1_pending, fold1_clk, fold1_regs, fold1_masks, apply_ite State.pending, apply_ite State.clk, apply_ite State.regs, apply_ite State.evt, apply_ite EvtSt.masks]; done)
    | (refine Keeps.trans ?_ (fold_keeps _ (fun s a => ?_) _ _) <;> (try dsimp only) <;> (repeat' split) <;> simp [Keeps])
@[simp] theorem takeAcks_pending (sd : Side) (from_ : Nat) (body : List Byte) (s : State) : (takeAcks sd from_ body s).pending = s.pending := (takeAcks_keeps sd from_ body s).1
@[simp] theorem takeAcks_clk (sd : Side) (from_ : Nat) (body : List Byte) (s : State) : (takeAcks sd from_ body s).clk = s.clk := (takeAcks_keeps sd from_ body s).2.1
@[simp] theorem takeAcks_regs (sd : Side) (from_ : Nat) (body : List Byte) (s : State) : (takeAcks sd from_ body s).regs = s.regs := (takeAcks_keeps sd from_ body s).2.2.1
@[simp] theorem takeAcks_masks (sd : Side) (from_ : Nat) (body : List Byte) (s : State) : (takeAcks sd from_ body s).evt.masks = s.evt.masks := (takeAcks_keeps sd from_ body s).2.2.2

theorem noTarget_keeps (f : Frame) (s : State) : Keeps s (noTarget f s) := by
  unfold noTarget
  try dsimp only
  (repeat' split) <;> simp [Keeps]
@[simp] theorem noTarget_pending (f : Frame) (s : State) : (noTarget f s).pending = s.pending := (noTarget_keeps f s).1
@[simp] theorem noTarget_clk (f : Frame) (s : State) : (noTarget f s).clk = s.clk := (noTarget_keeps f s).2.1
@[simp] theorem noTarget_regs (f : Frame) (s : State) : (noTarget f s).regs = s.regs := (noTarget_keeps f s).2.2.1
@[simp] theorem noTarget_masks (f : Frame) (s : State) : (noTarget f s).evt.masks = s.evt.masks := (noTarget_keeps f s).2.2.2

theorem returnUnheld_keeps (s : State) : Keeps s (returnUnheld s) := by
  unfold returnUnheld
  try dsimp only
  (repeat' split) <;>
    first
    | (simp [Keeps, fold_pending, fold_clk, fold_regs, fold_masks, fold1_pending, fold1_clk, fold1_regs, fold1_masks, apply_ite State.pending, apply_ite State.clk, apply_ite State.regs, apply_ite State.evt, apply_ite EvtSt.masks]; done)
    | (refine Keeps.trans ?_ (fold_keeps _ (fun s a => ?_) _ _) <;> (try dsimp only) <;> (repeat' split) <;> simp [Keeps])
@[simp] theorem returnUnheld_pending (s : State) : (returnUnheld s).pending = s.pending := (returnUnheld_keeps s).1
@[simp] theorem returnUnheld_clk (s : State) : (returnUnheld s).clk = s.clk := (returnUnheld_keeps s).2.1
@[simp] theorem returnUnheld_regs (s : State) : (returnUnheld s).regs = s.regs := (returnUnheld_keeps s).2.2.1
@[simp] theorem returnUnheld_masks (s : State) : (returnUnheld s).evt.masks = s.evt.masks := (returnUnheld_keeps s).2.2.2

theorem takeReturned_keeps (f : Frame) (s : State) : Keeps s (takeReturned f s) := by
  unfold takeReturned
  try dsimp only
  (repeat' split) <;> simp [Keeps]
@[simp] theorem takeReturned_pending (f : Frame) (s : State) : (takeReturned f s).pending = s.pending := (takeReturned_keeps f s).1
@[simp] theorem takeReturned_clk (f : Frame) (s : State) : (takeReturned f s).clk = s.clk := (takeReturned_keeps f s).2.1
@[simp] theorem takeReturned_regs (f : Frame) (s : State) : (takeReturned f s).regs = s.regs := (takeReturned_keeps f s).2.2.1
@[simp] theorem takeReturned_masks (f : Frame) (s : State) : (takeReturned f s).evt.masks = s.evt.masks := (takeReturned_keeps f s).2.2.2

theorem moveQueue_keeps (sd : Side) (deadLink : Bool) (s : State) : Keeps s (moveQueue sd deadLink s) := by
  unfold moveQueue
  dsimp only
  refine Keeps.trans ?_ (fold_keeps _ ?_ _ _)
  · simp [Keeps]
  · intro s a
    split <;> simp [Keeps]
@[simp] theorem moveQueue_pending (sd : Side) (deadLink : Bool) (s : State) : (moveQueue sd deadLink s).pending = s.pending := (moveQueue_keeps sd deadLink s).1
@[simp] theorem moveQueue_clk (sd : Side) (deadLink : Bool) (s : State) : (moveQueue sd deadLink s).clk = s.clk := (moveQueue_keeps sd deadLink s).2.1
@[simp] theorem moveQueue_regs (sd : Side) (deadLink : Bool) (s : State) : (moveQueue sd deadLink s).regs = s.regs := (moveQueue_keeps sd deadLink s).2.2.1
@[simp] theorem moveQueue_masks (sd : Side) (deadLink : Bool) (s : State) : (moveQueue sd deadLink s).evt.masks = s.evt.masks := (moveQueue_keeps sd deadLink s).2.2.2

theorem loseHop_keeps (sd : Side) (deadLink : Bool) (s : State) : Keeps s (loseHop sd deadLink s) := by
  unfold loseHop
  try dsimp only
  (repeat' split) <;> simp [Keeps]
@[simp] theorem loseHop_pending (sd : Side) (deadLink : Bool) (s : State) : (loseHop sd deadLink s).pending = s.pending := (loseHop_keeps sd deadLink s).1
@[simp] theorem loseHop_clk (sd : Side) (deadLink : Bool) (s : State) : (loseHop sd deadLink s).clk = s.clk := (loseHop_keeps sd deadLink s).2.1
@[simp] theorem loseHop_regs (sd : Side) (deadLink : Bool) (s : State) : (loseHop sd deadLink s).regs = s.regs := (loseHop_keeps sd deadLink s).2.2.1
@[simp] theorem loseHop_masks (sd : Side) (deadLink : Bool) (s : State) : (loseHop sd deadLink s).evt.masks = s.evt.masks := (loseHop_keeps sd deadLink s).2.2.2

theorem enterPortOff_keeps (sd : Side) (s : State) : Keeps s (enterPortOff sd s) := by
  unfold enterPortOff
  try dsimp only
  (repeat' split) <;> simp [Keeps]
@[simp] theorem enterPortOff_pending (sd : Side) (s : State) : (enterPortOff sd s).pending = s.pending := (enterPortOff_keeps sd s).1
@[simp] theorem enterPortOff_clk (sd : Side) (s : State) : (enterPortOff sd s).clk = s.clk := (enterPortOff_keeps sd s).2.1
@[simp] theorem enterPortOff_regs (sd : Side) (s : State) : (enterPortOff sd s).regs = s.regs := (enterPortOff_keeps sd s).2.2.1
@[simp] theorem enterPortOff_masks (sd : Side) (s : State) : (enterPortOff sd s).evt.masks = s.evt.masks := (enterPortOff_keeps sd s).2.2.2

theorem judgePort_keeps (sd : Side) (s : State) : Keeps s (judgePort sd s) := by
  unfold judgePort
  try dsimp only
  (repeat' split) <;> simp [Keeps]
@[simp] theorem judgePort_pending (sd : Side) (s : State) : (judgePort sd s).pending = s.pending := (judgePort_keeps sd s).1
@[simp] theorem judgePort_clk (sd : Side) (s : State) : (judgePort sd s).clk = s.clk := (judgePort_keeps sd s).2.1
@[simp] theorem judgePort_regs (sd : Side) (s : State) : (judgePort sd s).regs = s.regs := (judgePort_keeps sd s).2.2.1
@[simp] theorem judgePort_masks (sd : Side) (s : State) : (judgePort sd s).evt.masks = s.evt.masks := (judgePort_keeps sd s).2.2.2

theorem rxError_keeps (sd : Side) (count : ChPort → ChPort) (s : State) : Keeps s (rxError sd count s) := by
  unfold rxError
  try dsimp only
  (repeat' split) <;> simp [Keeps]
@[simp] theorem rxError_pending (sd : Side) (count : ChPort → ChPort) (s : State) : (rxError sd count s).pending = s.pending := (rxError_keeps sd count s).1
@[simp] theorem rxError_clk (sd : Side) (count : ChPort → ChPort) (s : State) : (rxError sd count s).clk = s.clk := (rxError_keeps sd count s).2.1
@[simp] theorem rxError_regs (sd : Side) (count : ChPort → ChPort) (s : State) : (rxError sd count s).regs = s.regs := (rxError_keeps sd count s).2.2.1
@[simp] theorem rxError_masks (sd : Side) (count : ChPort → ChPort) (s : State) : (rxError sd count s).evt.masks = s.evt.masks := (rxError_keeps sd count s).2.2.2

theorem peerCounts_keeps (sd : Side) (f : Frame) (s : State) : Keeps s (peerCounts sd f s) := by
  unfold peerCounts
  try dsimp only
  (repeat' split) <;>
    first
    | (simp [Keeps, fold_pending, fold_clk, fold_regs, fold_masks, fold1_pending, fold1_clk, fold1_regs, fold1_masks, apply_ite State.pending, apply_ite State.clk, apply_ite State.regs, apply_ite State.evt, apply_ite EvtSt.masks]; done)
    | (refine Keeps.trans ?_ (fold_keeps _ (fun s a => ?_) _ _) <;> (try dsimp only) <;> (repeat' split) <;> simp [Keeps])
@[simp] theorem peerCounts_pending (sd : Side) (f : Frame) (s : State) : (peerCounts sd f s).pending = s.pending := (peerCounts_keeps sd f s).1
@[simp] theorem peerCounts_clk (sd : Side) (f : Frame) (s : State) : (peerCounts sd f s).clk = s.clk := (peerCounts_keeps sd f s).2.1
@[simp] theorem peerCounts_regs (sd : Side) (f : Frame) (s : State) : (peerCounts sd f s).regs = s.regs := (peerCounts_keeps sd f s).2.2.1
@[simp] theorem peerCounts_masks (sd : Side) (f : Frame) (s : State) : (peerCounts sd f s).evt.masks = s.evt.masks := (peerCounts_keeps sd f s).2.2.2

theorem freeNow_keeps (sd : Side) (f : Frame) (s : State) : Keeps s (freeNow sd f s) := by
  unfold freeNow
  try dsimp only
  (repeat' split) <;> simp [Keeps]
@[simp] theorem freeNow_pending (sd : Side) (f : Frame) (s : State) : (freeNow sd f s).pending = s.pending := (freeNow_keeps sd f s).1
@[simp] theorem freeNow_clk (sd : Side) (f : Frame) (s : State) : (freeNow sd f s).clk = s.clk := (freeNow_keeps sd f s).2.1
@[simp] theorem freeNow_regs (sd : Side) (f : Frame) (s : State) : (freeNow sd f s).regs = s.regs := (freeNow_keeps sd f s).2.2.1
@[simp] theorem freeNow_masks (sd : Side) (f : Frame) (s : State) : (freeNow sd f s).evt.masks = s.evt.masks := (freeNow_keeps sd f s).2.2.2

theorem lineDone_keeps (sd : Side) (s : State) : Keeps s (lineDone sd s) := by
  unfold lineDone
  try dsimp only
  (repeat' split) <;> simp [Keeps]
@[simp] theorem lineDone_pending (sd : Side) (s : State) : (lineDone sd s).pending = s.pending := (lineDone_keeps sd s).1
@[simp] theorem lineDone_clk (sd : Side) (s : State) : (lineDone sd s).clk = s.clk := (lineDone_keeps sd s).2.1
@[simp] theorem lineDone_regs (sd : Side) (s : State) : (lineDone sd s).regs = s.regs := (lineDone_keeps sd s).2.2.1
@[simp] theorem lineDone_masks (sd : Side) (s : State) : (lineDone sd s).evt.masks = s.evt.masks := (lineDone_keeps sd s).2.2.2

theorem linesDone_keeps (s : State) : Keeps s (linesDone s) := by
  unfold linesDone
  try dsimp only
  (repeat' split) <;> simp [Keeps]
@[simp] theorem linesDone_pending (s : State) : (linesDone s).pending = s.pending := (linesDone_keeps s).1
@[simp] theorem linesDone_clk (s : State) : (linesDone s).clk = s.clk := (linesDone_keeps s).2.1
@[simp] theorem linesDone_regs (s : State) : (linesDone s).regs = s.regs := (linesDone_keeps s).2.2.1
@[simp] theorem linesDone_masks (s : State) : (linesDone s).evt.masks = s.evt.masks := (linesDone_keeps s).2.2.2

theorem hopIn_keeps (sd : Side) (f : Frame) (lq : LineQ) (s : State) : Keeps s (hopIn sd f lq s).1 := by
  unfold hopIn
  try dsimp only
  (repeat' split) <;> simp [Keeps]
@[simp] theorem hopIn_pending (sd : Side) (f : Frame) (lq : LineQ) (s : State) : (hopIn sd f lq s).1.pending = s.pending := (hopIn_keeps sd f lq s).1
@[simp] theorem hopIn_clk (sd : Side) (f : Frame) (lq : LineQ) (s : State) : (hopIn sd f lq s).1.clk = s.clk := (hopIn_keeps sd f lq s).2.1
@[simp] theorem hopIn_regs (sd : Side) (f : Frame) (lq : LineQ) (s : State) : (hopIn sd f lq s).1.regs = s.regs := (hopIn_keeps sd f lq s).2.2.1
@[simp] theorem hopIn_masks (sd : Side) (f : Frame) (lq : LineQ) (s : State) : (hopIn sd f lq s).1.evt.masks = s.evt.masks := (hopIn_keeps sd f lq s).2.2.2

theorem acceptStream_keeps (sd : Side) (leg : Bool) (f : Frame) (s : State) : Keeps s (acceptStream sd leg f s).1 := by
  unfold acceptStream
  try dsimp only
  (repeat' split) <;> simp [Keeps]
@[simp] theorem acceptStream_pending (sd : Side) (leg : Bool) (f : Frame) (s : State) : (acceptStream sd leg f s).1.pending = s.pending := (acceptStream_keeps sd leg f s).1
@[simp] theorem acceptStream_clk (sd : Side) (leg : Bool) (f : Frame) (s : State) : (acceptStream sd leg f s).1.clk = s.clk := (acceptStream_keeps sd leg f s).2.1
@[simp] theorem acceptStream_regs (sd : Side) (leg : Bool) (f : Frame) (s : State) : (acceptStream sd leg f s).1.regs = s.regs := (acceptStream_keeps sd leg f s).2.2.1
@[simp] theorem acceptStream_masks (sd : Side) (leg : Bool) (f : Frame) (s : State) : (acceptStream sd leg f s).1.evt.masks = s.evt.masks := (acceptStream_keeps sd leg f s).2.2.2

theorem queueTransit_keeps (out : Side) (came : Side) (inst : Option Int) (f : Frame) (s : State) : Keeps s (queueTransit out came inst f s) := by
  unfold queueTransit
  try dsimp only
  (repeat' split) <;> simp [Keeps]
@[simp] theorem queueTransit_pending (out : Side) (came : Side) (inst : Option Int) (f : Frame) (s : State) : (queueTransit out came inst f s).pending = s.pending := (queueTransit_keeps out came inst f s).1
@[simp] theorem queueTransit_clk (out : Side) (came : Side) (inst : Option Int) (f : Frame) (s : State) : (queueTransit out came inst f s).clk = s.clk := (queueTransit_keeps out came inst f s).2.1
@[simp] theorem queueTransit_regs (out : Side) (came : Side) (inst : Option Int) (f : Frame) (s : State) : (queueTransit out came inst f s).regs = s.regs := (queueTransit_keeps out came inst f s).2.2.1
@[simp] theorem queueTransit_masks (out : Side) (came : Side) (inst : Option Int) (f : Frame) (s : State) : (queueTransit out came inst f s).evt.masks = s.evt.masks := (queueTransit_keeps out came inst f s).2.2.2

theorem cutCopy_keeps (out : Side) (f : Frame) (n : Nat) (s : State) : Keeps s (cutCopy out f n s) := by
  unfold cutCopy
  try dsimp only
  (repeat' split) <;> simp [Keeps]
@[simp] theorem cutCopy_pending (out : Side) (f : Frame) (n : Nat) (s : State) : (cutCopy out f n s).pending = s.pending := (cutCopy_keeps out f n s).1
@[simp] theorem cutCopy_clk (out : Side) (f : Frame) (n : Nat) (s : State) : (cutCopy out f n s).clk = s.clk := (cutCopy_keeps out f n s).2.1
@[simp] theorem cutCopy_regs (out : Side) (f : Frame) (n : Nat) (s : State) : (cutCopy out f n s).regs = s.regs := (cutCopy_keeps out f n s).2.2.1
@[simp] theorem cutCopy_masks (out : Side) (f : Frame) (n : Nat) (s : State) : (cutCopy out f n s).evt.masks = s.evt.masks := (cutCopy_keeps out f n s).2.2.2

theorem cutWhole_keeps (out : Side) (came : Side) (f : Frame) (s : State) : Keeps s (cutWhole out came f s) := by
  unfold cutWhole
  try dsimp only
  (repeat' split) <;> simp [Keeps]
@[simp] theorem cutWhole_pending (out : Side) (came : Side) (f : Frame) (s : State) : (cutWhole out came f s).pending = s.pending := (cutWhole_keeps out came f s).1
@[simp] theorem cutWhole_clk (out : Side) (came : Side) (f : Frame) (s : State) : (cutWhole out came f s).clk = s.clk := (cutWhole_keeps out came f s).2.1
@[simp] theorem cutWhole_regs (out : Side) (came : Side) (f : Frame) (s : State) : (cutWhole out came f s).regs = s.regs := (cutWhole_keeps out came f s).2.2.1
@[simp] theorem cutWhole_masks (out : Side) (came : Side) (f : Frame) (s : State) : (cutWhole out came f s).evt.masks = s.evt.masks := (cutWhole_keeps out came f s).2.2.2

theorem forwardAs_keeps (came : Side) (f : Frame) (cut : Frame) (inst : Option Int) (s : State) : Keeps s (forwardAs came f cut inst s).1 := by
  unfold forwardAs
  try dsimp only
  (repeat' split) <;> simp [Keeps]
@[simp] theorem forwardAs_pending (came : Side) (f : Frame) (cut : Frame) (inst : Option Int) (s : State) : (forwardAs came f cut inst s).1.pending = s.pending := (forwardAs_keeps came f cut inst s).1
@[simp] theorem forwardAs_clk (came : Side) (f : Frame) (cut : Frame) (inst : Option Int) (s : State) : (forwardAs came f cut inst s).1.clk = s.clk := (forwardAs_keeps came f cut inst s).2.1
@[simp] theorem forwardAs_regs (came : Side) (f : Frame) (cut : Frame) (inst : Option Int) (s : State) : (forwardAs came f cut inst s).1.regs = s.regs := (forwardAs_keeps came f cut inst s).2.2.1
@[simp] theorem forwardAs_masks (came : Side) (f : Frame) (cut : Frame) (inst : Option Int) (s : State) : (forwardAs came f cut inst s).1.evt.masks = s.evt.masks := (forwardAs_keeps came f cut inst s).2.2.2

theorem forward_keeps (came : Side) (f : Frame) (s : State) : Keeps s (forward came f s).1 := by
  unfold forward
  try dsimp only
  (repeat' split) <;> simp [Keeps]
@[simp] theorem forward_pending (came : Side) (f : Frame) (s : State) : (forward came f s).1.pending = s.pending := (forward_keeps came f s).1
@[simp] theorem forward_clk (came : Side) (f : Frame) (s : State) : (forward came f s).1.clk = s.clk := (forward_keeps came f s).2.1
@[simp] theorem forward_regs (came : Side) (f : Frame) (s : State) : (forward came f s).1.regs = s.regs := (forward_keeps came f s).2.2.1
@[simp] theorem forward_masks (came : Side) (f : Frame) (s : State) : (forward came f s).1.evt.masks = s.evt.masks := (forward_keeps came f s).2.2.2

end Sys2Proof.Machine
end

