-- ==== Sys2Proof/Laws/Keep/VermOps.lean ====
section
/-! SUPPORT. What the operations of `Machine/VermOps.lean` leave alone. -/

namespace Sys2Proof.Machine

open Sys2Proof

theorem updAlv_keeps (ch : Nat) (f : Alv → Alv) (s : State) : Keeps s (updAlv ch f s) := by
  unfold updAlv
  try dsimp only
  (repeat' split) <;> simp [Keeps]
@[simp] theorem updAlv_pending (ch : Nat) (f : Alv → Alv) (s : State) : (updAlv ch f s).pending = s.pending := (updAlv_keeps ch f s).1
@[simp] theorem updAlv_clk (ch : Nat) (f : Alv → Alv) (s : State) : (updAlv ch f s).clk = s.clk := (updAlv_keeps ch f s).2.1
@[simp] theorem updAlv_regs (ch : Nat) (f : Alv → Alv) (s : State) : (updAlv ch f s).regs = s.regs := (updAlv_keeps ch f s).2.2.1
@[simp] theorem updAlv_masks (ch : Nat) (f : Alv → Alv) (s : State) : (updAlv ch f s).evt.masks = s.evt.masks := (updAlv_keeps ch f s).2.2.2

theorem aliveCheck_keeps (ch : Nat) (a : Nat) (data : List Byte) (crc : Byte) (s : State) : Keeps s (aliveCheck ch a data crc s).1 := by
  unfold aliveCheck
  try dsimp only
  (repeat' split) <;> simp [Keeps]
@[simp] theorem aliveCheck_pending (ch : Nat) (a : Nat) (data : List Byte) (crc : Byte) (s : State) : (aliveCheck ch a data crc s).1.pending = s.pending := (aliveCheck_keeps ch a data crc s).1
@[simp] theorem aliveCheck_clk (ch : Nat) (a : Nat) (data : List Byte) (crc : Byte) (s : State) : (aliveCheck ch a data crc s).1.clk = s.clk := (aliveCheck_keeps ch a data crc s).2.1
@[simp] theorem aliveCheck_regs (ch : Nat) (a : Nat) (data : List Byte) (crc : Byte) (s : State) : (aliveCheck ch a data crc s).1.regs = s.regs := (aliveCheck_keeps ch a data crc s).2.2.1
@[simp] theorem aliveCheck_masks (ch : Nat) (a : Nat) (data : List Byte) (crc : Byte) (s : State) : (aliveCheck ch a data crc s).1.evt.masks = s.evt.masks := (aliveCheck_keeps ch a data crc s).2.2.2

theorem protect_keeps (ch : Nat) (data : List Byte) (s : State) : Keeps s (protect ch data s).2 := by
  unfold protect
  try dsimp only
  (repeat' split) <;> simp [Keeps]
@[simp] theorem protect_pending (ch : Nat) (data : List Byte) (s : State) : (protect ch data s).2.pending = s.pending := (protect_keeps ch data s).1
@[simp] theorem protect_clk (ch : Nat) (data : List Byte) (s : State) : (protect ch data s).2.clk = s.clk := (protect_keeps ch data s).2.1
@[simp] theorem protect_regs (ch : Nat) (data : List Byte) (s : State) : (protect ch data s).2.regs = s.regs := (protect_keeps ch data s).2.2.1
@[simp] theorem protect_masks (ch : Nat) (data : List Byte) (s : State) : (protect ch data s).2.evt.masks = s.evt.masks := (protect_keeps ch data s).2.2.2

theorem sendOnDie_keeps (ch : Nat) (data : List Byte) (s : State) : Keeps s (sendOnDie ch data s) := by
  unfold sendOnDie
  try dsimp only
  (repeat' split) <;> simp [Keeps]
@[simp] theorem sendOnDie_pending (ch : Nat) (data : List Byte) (s : State) : (sendOnDie ch data s).pending = s.pending := (sendOnDie_keeps ch data s).1
@[simp] theorem sendOnDie_clk (ch : Nat) (data : List Byte) (s : State) : (sendOnDie ch data s).clk = s.clk := (sendOnDie_keeps ch data s).2.1
@[simp] theorem sendOnDie_regs (ch : Nat) (data : List Byte) (s : State) : (sendOnDie ch data s).regs = s.regs := (sendOnDie_keeps ch data s).2.2.1
@[simp] theorem sendOnDie_masks (ch : Nat) (data : List Byte) (s : State) : (sendOnDie ch data s).evt.masks = s.evt.masks := (sendOnDie_keeps ch data s).2.2.2

theorem updOut_keeps (o : Nat) (f : OutS → OutS) (s : State) : Keeps s (updOut o f s) := by
  unfold updOut
  try dsimp only
  (repeat' split) <;> simp [Keeps]
@[simp] theorem updOut_pending (o : Nat) (f : OutS → OutS) (s : State) : (updOut o f s).pending = s.pending := (updOut_keeps o f s).1
@[simp] theorem updOut_clk (o : Nat) (f : OutS → OutS) (s : State) : (updOut o f s).clk = s.clk := (updOut_keeps o f s).2.1
@[simp] theorem updOut_regs (o : Nat) (f : OutS → OutS) (s : State) : (updOut o f s).regs = s.regs := (updOut_keeps o f s).2.2.1
@[simp] theorem updOut_masks (o : Nat) (f : OutS → OutS) (s : State) : (updOut o f s).evt.masks = s.evt.masks := (updOut_keeps o f s).2.2.2

theorem turnOff_keeps (o : Nat) (dst : OutSt) (s : State) : Keeps s (turnOff o dst s) := by
  unfold turnOff
  try dsimp only
  (repeat' split) <;> simp [Keeps]
@[simp] theorem turnOff_pending (o : Nat) (dst : OutSt) (s : State) : (turnOff o dst s).pending = s.pending := (turnOff_keeps o dst s).1
@[simp] theorem turnOff_clk (o : Nat) (dst : OutSt) (s : State) : (turnOff o dst s).clk = s.clk := (turnOff_keeps o dst s).2.1
@[simp] theorem turnOff_regs (o : Nat) (dst : OutSt) (s : State) : (turnOff o dst s).regs = s.regs := (turnOff_keeps o dst s).2.2.1
@[simp] theorem turnOff_masks (o : Nat) (dst : OutSt) (s : State) : (turnOff o dst s).evt.masks = s.evt.masks := (turnOff_keeps o dst s).2.2.2

theorem allOff_keeps (s : State) : Keeps s (allOff s) := by
  unfold allOff
  try dsimp only
  (repeat' split) <;>
    first
    | (simp [Keeps, fold_pending, fold_clk, fold_regs, fold_masks, fold1_pending, fold1_clk, fold1_regs, fold1_masks, apply_ite State.pending, apply_ite State.clk, apply_ite State.regs, apply_ite State.evt, apply_ite EvtSt.masks]; done)
    | (refine Keeps.trans ?_ (fold_keeps _ (fun s a => ?_) _ _) <;> (try dsimp only) <;> (repeat' split) <;> simp [Keeps])
@[simp] theorem allOff_pending (s : State) : (allOff s).pending = s.pending := (allOff_keeps s).1
@[simp] theorem allOff_clk (s : State) : (allOff s).clk = s.clk := (allOff_keeps s).2.1
@[simp] theorem allOff_regs (s : State) : (allOff s).regs = s.regs := (allOff_keeps s).2.2.1
@[simp] theorem allOff_masks (s : State) : (allOff s).evt.masks = s.evt.masks := (allOff_keeps s).2.2.2

theorem enforceStop_keeps (s : State) : Keeps s (enforceStop s) := by
  unfold enforceStop
  try dsimp only
  (repeat' split) <;> simp [Keeps]
@[simp] theorem enforceStop_pending (s : State) : (enforceStop s).pending = s.pending := (enforceStop_keeps s).1
@[simp] theorem enforceStop_clk (s : State) : (enforceStop s).clk = s.clk := (enforceStop_keeps s).2.1
@[simp] theorem enforceStop_regs (s : State) : (enforceStop s).regs = s.regs := (enforceStop_keeps s).2.2.1
@[simp] theorem enforceStop_masks (s : State) : (enforceStop s).evt.masks = s.evt.masks := (enforceStop_keeps s).2.2.2

theorem stepResult_keeps (k : Nat) (r : Nat) (s : State) : Keeps s (stepResult k r s) := by
  unfold stepResult
  try dsimp only
  (repeat' split) <;> simp [Keeps]
@[simp] theorem stepResult_pending (k : Nat) (r : Nat) (s : State) : (stepResult k r s).pending = s.pending := (stepResult_keeps k r s).1
@[simp] theorem stepResult_clk (k : Nat) (r : Nat) (s : State) : (stepResult k r s).clk = s.clk := (stepResult_keeps k r s).2.1
@[simp] theorem stepResult_regs (k : Nat) (r : Nat) (s : State) : (stepResult k r s).regs = s.regs := (stepResult_keeps k r s).2.2.1
@[simp] theorem stepResult_masks (k : Nat) (r : Nat) (s : State) : (stepResult k r s).evt.masks = s.evt.masks := (stepResult_keeps k r s).2.2.2

theorem passFail_keeps (k : Nat) (ok : Bool) (s : State) : Keeps s (passFail k ok s) := by
  unfold passFail
  try dsimp only
  (repeat' split) <;> simp [Keeps]
@[simp] theorem passFail_pending (k : Nat) (ok : Bool) (s : State) : (passFail k ok s).pending = s.pending := (passFail_keeps k ok s).1
@[simp] theorem passFail_clk (k : Nat) (ok : Bool) (s : State) : (passFail k ok s).clk = s.clk := (passFail_keeps k ok s).2.1
@[simp] theorem passFail_regs (k : Nat) (ok : Bool) (s : State) : (passFail k ok s).regs = s.regs := (passFail_keeps k ok s).2.2.1
@[simp] theorem passFail_masks (k : Nat) (ok : Bool) (s : State) : (passFail k ok s).evt.masks = s.evt.masks := (passFail_keeps k ok s).2.2.2

theorem reportFailed_keeps (steps : List Nat) (s : State) : Keeps s (reportFailed steps s) := by
  unfold reportFailed
  try dsimp only
  (repeat' split) <;>
    first
    | (simp [Keeps, fold_pending, fold_clk, fold_regs, fold_masks, fold1_pending, fold1_clk, fold1_regs, fold1_masks, apply_ite State.pending, apply_ite State.clk, apply_ite State.regs, apply_ite State.evt, apply_ite EvtSt.masks]; done)
    | (refine Keeps.trans ?_ (fold_keeps _ (fun s a => ?_) _ _) <;> (try dsimp only) <;> (repeat' split) <;> simp [Keeps])
@[simp] theorem reportFailed_pending (steps : List Nat) (s : State) : (reportFailed steps s).pending = s.pending := (reportFailed_keeps steps s).1
@[simp] theorem reportFailed_clk (steps : List Nat) (s : State) : (reportFailed steps s).clk = s.clk := (reportFailed_keeps steps s).2.1
@[simp] theorem reportFailed_regs (steps : List Nat) (s : State) : (reportFailed steps s).regs = s.regs := (reportFailed_keeps steps s).2.2.1
@[simp] theorem reportFailed_masks (steps : List Nat) (s : State) : (reportFailed steps s).evt.masks = s.evt.masks := (reportFailed_keeps steps s).2.2.2

theorem endPulseTest_keeps (s : State) : Keeps s (endPulseTest s) := by
  unfold endPulseTest
  try dsimp only
  (repeat' split) <;> simp [Keeps]
@[simp] theorem endPulseTest_pending (s : State) : (endPulseTest s).pending = s.pending := (endPulseTest_keeps s).1
@[simp] theorem endPulseTest_clk (s : State) : (endPulseTest s).clk = s.clk := (endPulseTest_keeps s).2.1
@[simp] theorem endPulseTest_regs (s : State) : (endPulseTest s).regs = s.regs := (endPulseTest_keeps s).2.2.1
@[simp] theorem endPulseTest_masks (s : State) : (endPulseTest s).evt.masks = s.evt.masks := (endPulseTest_keeps s).2.2.2

theorem classA_keeps (bit : Nat) (s : State) : Keeps s (classA bit s) := by
  unfold classA
  try dsimp only
  (repeat' split) <;> simp [Keeps]
@[simp] theorem classA_pending (bit : Nat) (s : State) : (classA bit s).pending = s.pending := (classA_keeps bit s).1
@[simp] theorem classA_clk (bit : Nat) (s : State) : (classA bit s).clk = s.clk := (classA_keeps bit s).2.1
@[simp] theorem classA_regs (bit : Nat) (s : State) : (classA bit s).regs = s.regs := (classA_keeps bit s).2.2.1
@[simp] theorem classA_masks (bit : Nat) (s : State) : (classA bit s).evt.masks = s.evt.masks := (classA_keeps bit s).2.2.2

theorem holdTimers_keeps (s : State) : Keeps s (holdTimers s) := by
  unfold holdTimers
  try dsimp only
  (repeat' split) <;> simp [Keeps]
@[simp] theorem holdTimers_pending (s : State) : (holdTimers s).pending = s.pending := (holdTimers_keeps s).1
@[simp] theorem holdTimers_clk (s : State) : (holdTimers s).clk = s.clk := (holdTimers_keeps s).2.1
@[simp] theorem holdTimers_regs (s : State) : (holdTimers s).regs = s.regs := (holdTimers_keeps s).2.2.1
@[simp] theorem holdTimers_masks (s : State) : (holdTimers s).evt.masks = s.evt.masks := (holdTimers_keeps s).2.2.2

theorem runTimers_keeps (s : State) : Keeps s (runTimers s) := by
  unfold runTimers
  try dsimp only
  (repeat' split) <;> simp [Keeps]
@[simp] theorem runTimers_pending (s : State) : (runTimers s).pending = s.pending := (runTimers_keeps s).1
@[simp] theorem runTimers_clk (s : State) : (runTimers s).clk = s.clk := (runTimers_keeps s).2.1
@[simp] theorem runTimers_regs (s : State) : (runTimers s).regs = s.regs := (runTimers_keeps s).2.2.1
@[simp] theorem runTimers_masks (s : State) : (runTimers s).evt.masks = s.evt.masks := (runTimers_keeps s).2.2.2

theorem classB_keeps (c : Nat) (present : Bool) (s : State) : Keeps s (classB c present s) := by
  unfold classB
  try dsimp only
  (repeat' split) <;> simp [Keeps]
@[simp] theorem classB_pending (c : Nat) (present : Bool) (s : State) : (classB c present s).pending = s.pending := (classB_keeps c present s).1
@[simp] theorem classB_clk (c : Nat) (present : Bool) (s : State) : (classB c present s).clk = s.clk := (classB_keeps c present s).2.1
@[simp] theorem classB_regs (c : Nat) (present : Bool) (s : State) : (classB c present s).regs = s.regs := (classB_keeps c present s).2.2.1
@[simp] theorem classB_masks (c : Nat) (present : Bool) (s : State) : (classB c present s).evt.masks = s.evt.masks := (classB_keeps c present s).2.2.2

theorem setCond_keeps (i : Nat) (holds : Bool) (s : State) : Keeps s (setCond i holds s) := by
  unfold setCond
  try dsimp only
  (repeat' split) <;> simp [Keeps]
@[simp] theorem setCond_pending (i : Nat) (holds : Bool) (s : State) : (setCond i holds s).pending = s.pending := (setCond_keeps i holds s).1
@[simp] theorem setCond_clk (i : Nat) (holds : Bool) (s : State) : (setCond i holds s).clk = s.clk := (setCond_keeps i holds s).2.1
@[simp] theorem setCond_regs (i : Nat) (holds : Bool) (s : State) : (setCond i holds s).regs = s.regs := (setCond_keeps i holds s).2.2.1
@[simp] theorem setCond_masks (i : Nat) (holds : Bool) (s : State) : (setCond i holds s).evt.masks = s.evt.masks := (setCond_keeps i holds s).2.2.2

theorem noteInput_keeps (k : Nat) (ty : Nat) (old : InpS) (new : InpS) (s : State) : Keeps s (noteInput k ty old new s) := by
  unfold noteInput
  try dsimp only
  (repeat' split) <;> simp [Keeps]
@[simp] theorem noteInput_pending (k : Nat) (ty : Nat) (old : InpS) (new : InpS) (s : State) : (noteInput k ty old new s).pending = s.pending := (noteInput_keeps k ty old new s).1
@[simp] theorem noteInput_clk (k : Nat) (ty : Nat) (old : InpS) (new : InpS) (s : State) : (noteInput k ty old new s).clk = s.clk := (noteInput_keeps k ty old new s).2.1
@[simp] theorem noteInput_regs (k : Nat) (ty : Nat) (old : InpS) (new : InpS) (s : State) : (noteInput k ty old new s).regs = s.regs := (noteInput_keeps k ty old new s).2.2.1
@[simp] theorem noteInput_masks (k : Nat) (ty : Nat) (old : InpS) (new : InpS) (s : State) : (noteInput k ty old new s).evt.masks = s.evt.masks := (noteInput_keeps k ty old new s).2.2.2

theorem evalTwoHand_keeps (s : State) : Keeps s (evalTwoHand s) := by
  unfold evalTwoHand
  try dsimp only
  (repeat' split) <;> simp [Keeps]
@[simp] theorem evalTwoHand_pending (s : State) : (evalTwoHand s).pending = s.pending := (evalTwoHand_keeps s).1
@[simp] theorem evalTwoHand_clk (s : State) : (evalTwoHand s).clk = s.clk := (evalTwoHand_keeps s).2.1
@[simp] theorem evalTwoHand_regs (s : State) : (evalTwoHand s).regs = s.regs := (evalTwoHand_keeps s).2.2.1
@[simp] theorem evalTwoHand_masks (s : State) : (evalTwoHand s).evt.masks = s.evt.masks := (evalTwoHand_keeps s).2.2.2

end Sys2Proof.Machine
end

