-- ==== Sys2Proof/Laws/Keep/ChainLink.lean ====
section
/-! SUPPORT. What the operations of `Machine/ChainLink.lean` leave alone. -/

namespace Sys2Proof.Machine

open Sys2Proof

theorem judgeConfig_keeps (s : State) : Keeps s (judgeConfig s) := by
  unfold judgeConfig
  try dsimp only
  (repeat' split) <;> simp [Keeps]
@[simp] theorem judgeConfig_pending (s : State) : (judgeConfig s).pending = s.pending := (judgeConfig_keeps s).1
@[simp] theorem judgeConfig_clk (s : State) : (judgeConfig s).clk = s.clk := (judgeConfig_keeps s).2.1
@[simp] theorem judgeConfig_regs (s : State) : (judgeConfig s).regs = s.regs := (judgeConfig_keeps s).2.2.1
@[simp] theorem judgeConfig_masks (s : State) : (judgeConfig s).evt.masks = s.evt.masks := (judgeConfig_keeps s).2.2.2

theorem dropStreams_keeps (s : State) : Keeps s (dropStreams s) := by
  unfold dropStreams
  try dsimp only
  (repeat' split) <;> simp [Keeps]
@[simp] theorem dropStreams_pending (s : State) : (dropStreams s).pending = s.pending := (dropStreams_keeps s).1
@[simp] theorem dropStreams_clk (s : State) : (dropStreams s).clk = s.clk := (dropStreams_keeps s).2.1
@[simp] theorem dropStreams_regs (s : State) : (dropStreams s).regs = s.regs := (dropStreams_keeps s).2.2.1
@[simp] theorem dropStreams_masks (s : State) : (dropStreams s).evt.masks = s.evt.masks := (dropStreams_keeps s).2.2.2

theorem passEnum_keeps (s : State) : Keeps s (passEnum s) := by
  unfold passEnum
  try dsimp only
  (repeat' split) <;> simp [Keeps]
@[simp] theorem passEnum_pending (s : State) : (passEnum s).pending = s.pending := (passEnum_keeps s).1
@[simp] theorem passEnum_clk (s : State) : (passEnum s).clk = s.clk := (passEnum_keeps s).2.1
@[simp] theorem passEnum_regs (s : State) : (passEnum s).regs = s.regs := (passEnum_keeps s).2.2.1
@[simp] theorem passEnum_masks (s : State) : (passEnum s).evt.masks = s.evt.masks := (passEnum_keeps s).2.2.2

theorem sendEnumEnd_keeps (count : Nat) (flags : Nat) (s : State) : Keeps s (sendEnumEnd count flags s) := by
  unfold sendEnumEnd
  try dsimp only
  (repeat' split) <;> simp [Keeps]
@[simp] theorem sendEnumEnd_pending (count : Nat) (flags : Nat) (s : State) : (sendEnumEnd count flags s).pending = s.pending := (sendEnumEnd_keeps count flags s).1
@[simp] theorem sendEnumEnd_clk (count : Nat) (flags : Nat) (s : State) : (sendEnumEnd count flags s).clk = s.clk := (sendEnumEnd_keeps count flags s).2.1
@[simp] theorem sendEnumEnd_regs (count : Nat) (flags : Nat) (s : State) : (sendEnumEnd count flags s).regs = s.regs := (sendEnumEnd_keeps count flags s).2.2.1
@[simp] theorem sendEnumEnd_masks (count : Nat) (flags : Nat) (s : State) : (sendEnumEnd count flags s).evt.masks = s.evt.masks := (sendEnumEnd_keeps count flags s).2.2.2

theorem takePosition_keeps (k : Nat) (s : State) : Keeps s (takePosition k s) := by
  unfold takePosition
  try dsimp only
  (repeat' split) <;> simp [Keeps]
@[simp] theorem takePosition_pending (k : Nat) (s : State) : (takePosition k s).pending = s.pending := (takePosition_keeps k s).1
@[simp] theorem takePosition_clk (k : Nat) (s : State) : (takePosition k s).clk = s.clk := (takePosition_keeps k s).2.1
@[simp] theorem takePosition_regs (k : Nat) (s : State) : (takePosition k s).regs = s.regs := (takePosition_keeps k s).2.2.1
@[simp] theorem takePosition_masks (k : Nat) (s : State) : (takePosition k s).evt.masks = s.evt.masks := (takePosition_keeps k s).2.2.2

theorem enumAttempt_keeps (s : State) : Keeps s (enumAttempt s) := by
  unfold enumAttempt
  try dsimp only
  (repeat' split) <;> simp [Keeps]
@[simp] theorem enumAttempt_pending (s : State) : (enumAttempt s).pending = s.pending := (enumAttempt_keeps s).1
@[simp] theorem enumAttempt_clk (s : State) : (enumAttempt s).clk = s.clk := (enumAttempt_keeps s).2.1
@[simp] theorem enumAttempt_regs (s : State) : (enumAttempt s).regs = s.regs := (enumAttempt_keeps s).2.2.1
@[simp] theorem enumAttempt_masks (s : State) : (enumAttempt s).evt.masks = s.evt.masks := (enumAttempt_keeps s).2.2.2

theorem enumFinish_keeps (n : Nat) (flags : Nat) (s : State) : Keeps s (enumFinish n flags s) := by
  unfold enumFinish
  try dsimp only
  (repeat' split) <;> simp [Keeps]
@[simp] theorem enumFinish_pending (n : Nat) (flags : Nat) (s : State) : (enumFinish n flags s).pending = s.pending := (enumFinish_keeps n flags s).1
@[simp] theorem enumFinish_clk (n : Nat) (flags : Nat) (s : State) : (enumFinish n flags s).clk = s.clk := (enumFinish_keeps n flags s).2.1
@[simp] theorem enumFinish_regs (n : Nat) (flags : Nat) (s : State) : (enumFinish n flags s).regs = s.regs := (enumFinish_keeps n flags s).2.2.1
@[simp] theorem enumFinish_masks (n : Nat) (flags : Nat) (s : State) : (enumFinish n flags s).evt.masks = s.evt.masks := (enumFinish_keeps n flags s).2.2.2

theorem foundHere_keeps (s : State) : Keeps s (foundHere s) := by
  unfold foundHere
  try dsimp only
  (repeat' split) <;> simp [Keeps]
@[simp] theorem foundHere_pending (s : State) : (foundHere s).pending = s.pending := (foundHere_keeps s).1
@[simp] theorem foundHere_clk (s : State) : (foundHere s).clk = s.clk := (foundHere_keeps s).2.1
@[simp] theorem foundHere_regs (s : State) : (foundHere s).regs = s.regs := (foundHere_keeps s).2.2.1
@[simp] theorem foundHere_masks (s : State) : (foundHere s).evt.masks = s.evt.masks := (foundHere_keeps s).2.2.2

theorem enumStep_keeps (next : Nat) (s : State) : Keeps s (enumStep next s) := by
  unfold enumStep
  try dsimp only
  (repeat' split) <;> simp [Keeps]
@[simp] theorem enumStep_pending (next : Nat) (s : State) : (enumStep next s).pending = s.pending := (enumStep_keeps next s).1
@[simp] theorem enumStep_clk (next : Nat) (s : State) : (enumStep next s).clk = s.clk := (enumStep_keeps next s).2.1
@[simp] theorem enumStep_regs (next : Nat) (s : State) : (enumStep next s).regs = s.regs := (enumStep_keeps next s).2.2.1
@[simp] theorem enumStep_masks (next : Nat) (s : State) : (enumStep next s).evt.masks = s.evt.masks := (enumStep_keeps next s).2.2.2

theorem takeEnum_keeps (sd : Side) (f : Frame) (s : State) : Keeps s (takeEnum sd f s) := by
  unfold takeEnum
  try dsimp only
  (repeat' split) <;> simp [Keeps]
@[simp] theorem takeEnum_pending (sd : Side) (f : Frame) (s : State) : (takeEnum sd f s).pending = s.pending := (takeEnum_keeps sd f s).1
@[simp] theorem takeEnum_clk (sd : Side) (f : Frame) (s : State) : (takeEnum sd f s).clk = s.clk := (takeEnum_keeps sd f s).2.1
@[simp] theorem takeEnum_regs (sd : Side) (f : Frame) (s : State) : (takeEnum sd f s).regs = s.regs := (takeEnum_keeps sd f s).2.2.1
@[simp] theorem takeEnum_masks (sd : Side) (f : Frame) (s : State) : (takeEnum sd f s).evt.masks = s.evt.masks := (takeEnum_keeps sd f s).2.2.2

theorem takeEnumEnd_keeps (f : Frame) (s : State) : Keeps s (takeEnumEnd f s) := by
  unfold takeEnumEnd
  try dsimp only
  (repeat' split) <;> simp [Keeps]
@[simp] theorem takeEnumEnd_pending (f : Frame) (s : State) : (takeEnumEnd f s).pending = s.pending := (takeEnumEnd_keeps f s).1
@[simp] theorem takeEnumEnd_clk (f : Frame) (s : State) : (takeEnumEnd f s).clk = s.clk := (takeEnumEnd_keeps f s).2.1
@[simp] theorem takeEnumEnd_regs (f : Frame) (s : State) : (takeEnumEnd f s).regs = s.regs := (takeEnumEnd_keeps f s).2.2.1
@[simp] theorem takeEnumEnd_masks (f : Frame) (s : State) : (takeEnumEnd f s).evt.masks = s.evt.masks := (takeEnumEnd_keeps f s).2.2.2

theorem passEnumEnd_keeps (f : Frame) (s : State) : Keeps s (passEnumEnd f s) := by
  unfold passEnumEnd
  try dsimp only
  (repeat' split) <;> simp [Keeps]
@[simp] theorem passEnumEnd_pending (f : Frame) (s : State) : (passEnumEnd f s).pending = s.pending := (passEnumEnd_keeps f s).1
@[simp] theorem passEnumEnd_clk (f : Frame) (s : State) : (passEnumEnd f s).clk = s.clk := (passEnumEnd_keeps f s).2.1
@[simp] theorem passEnumEnd_regs (f : Frame) (s : State) : (passEnumEnd f s).regs = s.regs := (passEnumEnd_keeps f s).2.2.1
@[simp] theorem passEnumEnd_masks (f : Frame) (s : State) : (passEnumEnd f s).evt.masks = s.evt.masks := (passEnumEnd_keeps f s).2.2.2

theorem takeEnumDone_keeps (f : Frame) (s : State) : Keeps s (takeEnumDone f s) := by
  unfold takeEnumDone
  try dsimp only
  (repeat' split) <;> simp [Keeps]
@[simp] theorem takeEnumDone_pending (f : Frame) (s : State) : (takeEnumDone f s).pending = s.pending := (takeEnumDone_keeps f s).1
@[simp] theorem takeEnumDone_clk (f : Frame) (s : State) : (takeEnumDone f s).clk = s.clk := (takeEnumDone_keeps f s).2.1
@[simp] theorem takeEnumDone_regs (f : Frame) (s : State) : (takeEnumDone f s).regs = s.regs := (takeEnumDone_keeps f s).2.2.1
@[simp] theorem takeEnumDone_masks (f : Frame) (s : State) : (takeEnumDone f s).evt.masks = s.evt.masks := (takeEnumDone_keeps f s).2.2.2

theorem linkComplete_keeps (sd : Side) (s : State) : Keeps s (linkComplete sd s) := by
  unfold linkComplete
  try dsimp only
  (repeat' split) <;> simp [Keeps]
@[simp] theorem linkComplete_pending (sd : Side) (s : State) : (linkComplete sd s).pending = s.pending := (linkComplete_keeps sd s).1
@[simp] theorem linkComplete_clk (sd : Side) (s : State) : (linkComplete sd s).clk = s.clk := (linkComplete_keeps sd s).2.1
@[simp] theorem linkComplete_regs (sd : Side) (s : State) : (linkComplete sd s).regs = s.regs := (linkComplete_keeps sd s).2.2.1
@[simp] theorem linkComplete_masks (sd : Side) (s : State) : (linkComplete sd s).evt.masks = s.evt.masks := (linkComplete_keeps sd s).2.2.2

theorem takeLinkUp_keeps (sd : Side) (f : Frame) (s : State) : Keeps s (takeLinkUp sd f s) := by
  unfold takeLinkUp
  try dsimp only
  (repeat' split) <;> simp [Keeps]
@[simp] theorem takeLinkUp_pending (sd : Side) (f : Frame) (s : State) : (takeLinkUp sd f s).pending = s.pending := (takeLinkUp_keeps sd f s).1
@[simp] theorem takeLinkUp_clk (sd : Side) (f : Frame) (s : State) : (takeLinkUp sd f s).clk = s.clk := (takeLinkUp_keeps sd f s).2.1
@[simp] theorem takeLinkUp_regs (sd : Side) (f : Frame) (s : State) : (takeLinkUp sd f s).regs = s.regs := (takeLinkUp_keeps sd f s).2.2.1
@[simp] theorem takeLinkUp_masks (sd : Side) (f : Frame) (s : State) : (takeLinkUp sd f s).evt.masks = s.evt.masks := (takeLinkUp_keeps sd f s).2.2.2

theorem takeBreak_keeps (f : Frame) (s : State) : Keeps s (takeBreak f s) := by
  unfold takeBreak
  try dsimp only
  (repeat' split) <;> simp [Keeps]
@[simp] theorem takeBreak_pending (f : Frame) (s : State) : (takeBreak f s).pending = s.pending := (takeBreak_keeps f s).1
@[simp] theorem takeBreak_clk (f : Frame) (s : State) : (takeBreak f s).clk = s.clk := (takeBreak_keeps f s).2.1
@[simp] theorem takeBreak_regs (f : Frame) (s : State) : (takeBreak f s).regs = s.regs := (takeBreak_keeps f s).2.2.1
@[simp] theorem takeBreak_masks (f : Frame) (s : State) : (takeBreak f s).evt.masks = s.evt.masks := (takeBreak_keeps f s).2.2.2

theorem takeLink_keeps (sd : Side) (f : Frame) (s : State) : Keeps s (takeLink sd f s) := by
  unfold takeLink
  try dsimp only
  (repeat' split) <;> simp [Keeps]
@[simp] theorem takeLink_pending (sd : Side) (f : Frame) (s : State) : (takeLink sd f s).pending = s.pending := (takeLink_keeps sd f s).1
@[simp] theorem takeLink_clk (sd : Side) (f : Frame) (s : State) : (takeLink sd f s).clk = s.clk := (takeLink_keeps sd f s).2.1
@[simp] theorem takeLink_regs (sd : Side) (f : Frame) (s : State) : (takeLink sd f s).regs = s.regs := (takeLink_keeps sd f s).2.2.1
@[simp] theorem takeLink_masks (sd : Side) (f : Frame) (s : State) : (takeLink sd f s).evt.masks = s.evt.masks := (takeLink_keeps sd f s).2.2.2

end Sys2Proof.Machine
end

