-- ==== Sys2Proof/Laws/Keep/ChainDeliver.lean ====
section
/-! SUPPORT. What the operations of `Machine/ChainDeliver.lean` leave alone. -/

namespace Sys2Proof.Machine

open Sys2Proof

theorem takeCommand_keeps (f : Frame) (s : State) : Keeps s (takeCommand f s) := by
  unfold takeCommand
  try dsimp only
  (repeat' split) <;> simp [Keeps]
@[simp] theorem takeCommand_pending (f : Frame) (s : State) : (takeCommand f s).pending = s.pending := (takeCommand_keeps f s).1
@[simp] theorem takeCommand_clk (f : Frame) (s : State) : (takeCommand f s).clk = s.clk := (takeCommand_keeps f s).2.1
@[simp] theorem takeCommand_regs (f : Frame) (s : State) : (takeCommand f s).regs = s.regs := (takeCommand_keeps f s).2.2.1
@[simp] theorem takeCommand_masks (f : Frame) (s : State) : (takeCommand f s).evt.masks = s.evt.masks := (takeCommand_keeps f s).2.2.2

theorem takeResponse_keeps (f : Frame) (s : State) : Keeps s (takeResponse f s) := by
  unfold takeResponse
  try dsimp only
  (repeat' split) <;> simp [Keeps]
@[simp] theorem takeResponse_pending (f : Frame) (s : State) : (takeResponse f s).pending = s.pending := (takeResponse_keeps f s).1
@[simp] theorem takeResponse_clk (f : Frame) (s : State) : (takeResponse f s).clk = s.clk := (takeResponse_keeps f s).2.1
@[simp] theorem takeResponse_regs (f : Frame) (s : State) : (takeResponse f s).regs = s.regs := (takeResponse_keeps f s).2.2.1
@[simp] theorem takeResponse_masks (f : Frame) (s : State) : (takeResponse f s).evt.masks = s.evt.masks := (takeResponse_keeps f s).2.2.2

theorem takeEntry_keeps (s : State) (e : Entry) : Keeps s (takeEntry s e) := by
  unfold takeEntry
  try dsimp only
  (repeat' split) <;>
    first
    | (simp [Keeps, fold_pending, fold_clk, fold_regs, fold_masks, fold1_pending, fold1_clk, fold1_regs, fold1_masks, apply_ite State.pending, apply_ite State.clk, apply_ite State.regs, apply_ite State.evt, apply_ite EvtSt.masks]; done)
    | (refine Keeps.trans ?_ (fold_keeps _ (fun s a => ?_) _ _) <;> (try dsimp only) <;> (repeat' split) <;> simp [Keeps])
@[simp] theorem takeEntry_pending (s : State) (e : Entry) : (takeEntry s e).pending = s.pending := (takeEntry_keeps s e).1
@[simp] theorem takeEntry_clk (s : State) (e : Entry) : (takeEntry s e).clk = s.clk := (takeEntry_keeps s e).2.1
@[simp] theorem takeEntry_regs (s : State) (e : Entry) : (takeEntry s e).regs = s.regs := (takeEntry_keeps s e).2.2.1
@[simp] theorem takeEntry_masks (s : State) (e : Entry) : (takeEntry s e).evt.masks = s.evt.masks := (takeEntry_keeps s e).2.2.2

theorem takeEvents_keeps (f : Frame) (s : State) : Keeps s (takeEvents f s) := by
  unfold takeEvents
  try dsimp only
  (repeat' split) <;>
    first
    | (simp [Keeps, fold_pending, fold_clk, fold_regs, fold_masks, fold1_pending, fold1_clk, fold1_regs, fold1_masks, apply_ite State.pending, apply_ite State.clk, apply_ite State.regs, apply_ite State.evt, apply_ite EvtSt.masks]; done)
    | (refine Keeps.trans ?_ (fold_keeps _ (fun s a => ?_) _ _) <;> (try dsimp only) <;> (repeat' split) <;> simp [Keeps])
@[simp] theorem takeEvents_pending (f : Frame) (s : State) : (takeEvents f s).pending = s.pending := (takeEvents_keeps f s).1
@[simp] theorem takeEvents_clk (f : Frame) (s : State) : (takeEvents f s).clk = s.clk := (takeEvents_keeps f s).2.1
@[simp] theorem takeEvents_regs (f : Frame) (s : State) : (takeEvents f s).regs = s.regs := (takeEvents_keeps f s).2.2.1
@[simp] theorem takeEvents_masks (f : Frame) (s : State) : (takeEvents f s).evt.masks = s.evt.masks := (takeEvents_keeps f s).2.2.2

theorem deliverItem_keeps (host : Nat) (payload : List Byte) (s : State) : Keeps s (deliverItem host payload s) := by
  unfold deliverItem
  try dsimp only
  (repeat' split) <;> simp [Keeps]
@[simp] theorem deliverItem_pending (host : Nat) (payload : List Byte) (s : State) : (deliverItem host payload s).pending = s.pending := (deliverItem_keeps host payload s).1
@[simp] theorem deliverItem_clk (host : Nat) (payload : List Byte) (s : State) : (deliverItem host payload s).clk = s.clk := (deliverItem_keeps host payload s).2.1
@[simp] theorem deliverItem_regs (host : Nat) (payload : List Byte) (s : State) : (deliverItem host payload s).regs = s.regs := (deliverItem_keeps host payload s).2.2.1
@[simp] theorem deliverItem_masks (host : Nat) (payload : List Byte) (s : State) : (deliverItem host payload s).evt.masks = s.evt.masks := (deliverItem_keeps host payload s).2.2.2

theorem takeMetro_keeps (f : Frame) (s : State) : Keeps s (takeMetro f s) := by
  unfold takeMetro
  try dsimp only
  (repeat' split) <;> simp [Keeps]
@[simp] theorem takeMetro_pending (f : Frame) (s : State) : (takeMetro f s).pending = s.pending := (takeMetro_keeps f s).1
@[simp] theorem takeMetro_clk (f : Frame) (s : State) : (takeMetro f s).clk = s.clk := (takeMetro_keeps f s).2.1
@[simp] theorem takeMetro_regs (f : Frame) (s : State) : (takeMetro f s).regs = s.regs := (takeMetro_keeps f s).2.2.1
@[simp] theorem takeMetro_masks (f : Frame) (s : State) : (takeMetro f s).evt.masks = s.evt.masks := (takeMetro_keeps f s).2.2.2

theorem takeData_keeps (f : Frame) (s : State) : Keeps s (takeData f s) := by
  unfold takeData
  try dsimp only
  (repeat' split) <;> simp [Keeps]
@[simp] theorem takeData_pending (f : Frame) (s : State) : (takeData f s).pending = s.pending := (takeData_keeps f s).1
@[simp] theorem takeData_clk (f : Frame) (s : State) : (takeData f s).clk = s.clk := (takeData_keeps f s).2.1
@[simp] theorem takeData_regs (f : Frame) (s : State) : (takeData f s).regs = s.regs := (takeData_keeps f s).2.2.1
@[simp] theorem takeData_masks (f : Frame) (s : State) : (takeData f s).evt.masks = s.evt.masks := (takeData_keeps f s).2.2.2

theorem updPeer_keeps (j : Nat) (f : PeerS → PeerS) (s : State) : Keeps s (updPeer j f s) := by
  unfold updPeer
  try dsimp only
  (repeat' split) <;> simp [Keeps]
@[simp] theorem updPeer_pending (j : Nat) (f : PeerS → PeerS) (s : State) : (updPeer j f s).pending = s.pending := (updPeer_keeps j f s).1
@[simp] theorem updPeer_clk (j : Nat) (f : PeerS → PeerS) (s : State) : (updPeer j f s).clk = s.clk := (updPeer_keeps j f s).2.1
@[simp] theorem updPeer_regs (j : Nat) (f : PeerS → PeerS) (s : State) : (updPeer j f s).regs = s.regs := (updPeer_keeps j f s).2.2.1
@[simp] theorem updPeer_masks (j : Nat) (f : PeerS → PeerS) (s : State) : (updPeer j f s).evt.masks = s.evt.masks := (updPeer_keeps j f s).2.2.2

theorem applyShare_keeps (j : Nat) (merge : Bool) (d : List Byte) (s : State) : Keeps s (applyShare j merge d s) := by
  unfold applyShare
  try dsimp only
  (repeat' split) <;> simp [Keeps]
@[simp] theorem applyShare_pending (j : Nat) (merge : Bool) (d : List Byte) (s : State) : (applyShare j merge d s).pending = s.pending := (applyShare_keeps j merge d s).1
@[simp] theorem applyShare_clk (j : Nat) (merge : Bool) (d : List Byte) (s : State) : (applyShare j merge d s).clk = s.clk := (applyShare_keeps j merge d s).2.1
@[simp] theorem applyShare_regs (j : Nat) (merge : Bool) (d : List Byte) (s : State) : (applyShare j merge d s).regs = s.regs := (applyShare_keeps j merge d s).2.2.1
@[simp] theorem applyShare_masks (j : Nat) (merge : Bool) (d : List Byte) (s : State) : (applyShare j merge d s).evt.masks = s.evt.masks := (applyShare_keeps j merge d s).2.2.2

theorem applyByte0_keeps (j : Nat) (b : BitVec 8) (proves : Bool) (s : State) : Keeps s (applyByte0 j b proves s) := by
  unfold applyByte0
  try dsimp only
  (repeat' split) <;> simp [Keeps]
@[simp] theorem applyByte0_pending (j : Nat) (b : BitVec 8) (proves : Bool) (s : State) : (applyByte0 j b proves s).pending = s.pending := (applyByte0_keeps j b proves s).1
@[simp] theorem applyByte0_clk (j : Nat) (b : BitVec 8) (proves : Bool) (s : State) : (applyByte0 j b proves s).clk = s.clk := (applyByte0_keeps j b proves s).2.1
@[simp] theorem applyByte0_regs (j : Nat) (b : BitVec 8) (proves : Bool) (s : State) : (applyByte0 j b proves s).regs = s.regs := (applyByte0_keeps j b proves s).2.2.1
@[simp] theorem applyByte0_masks (j : Nat) (b : BitVec 8) (proves : Bool) (s : State) : (applyByte0 j b proves s).evt.masks = s.evt.masks := (applyByte0_keeps j b proves s).2.2.2

theorem applyCurrent_keeps (j : Nat) (d : List Byte) (s : State) : Keeps s (applyCurrent j d s) := by
  unfold applyCurrent
  try dsimp only
  (repeat' split) <;> simp [Keeps]
@[simp] theorem applyCurrent_pending (j : Nat) (d : List Byte) (s : State) : (applyCurrent j d s).pending = s.pending := (applyCurrent_keeps j d s).1
@[simp] theorem applyCurrent_clk (j : Nat) (d : List Byte) (s : State) : (applyCurrent j d s).clk = s.clk := (applyCurrent_keeps j d s).2.1
@[simp] theorem applyCurrent_regs (j : Nat) (d : List Byte) (s : State) : (applyCurrent j d s).regs = s.regs := (applyCurrent_keeps j d s).2.2.1
@[simp] theorem applyCurrent_masks (j : Nat) (d : List Byte) (s : State) : (applyCurrent j d s).evt.masks = s.evt.masks := (applyCurrent_keeps j d s).2.2.2

theorem applyAll_keeps (j : Nat) (proves : Bool) (d : List Byte) (s : State) : Keeps s (applyAll j proves d s) := by
  unfold applyAll
  try dsimp only
  (repeat' split) <;> simp [Keeps]
@[simp] theorem applyAll_pending (j : Nat) (proves : Bool) (d : List Byte) (s : State) : (applyAll j proves d s).pending = s.pending := (applyAll_keeps j proves d s).1
@[simp] theorem applyAll_clk (j : Nat) (proves : Bool) (d : List Byte) (s : State) : (applyAll j proves d s).clk = s.clk := (applyAll_keeps j proves d s).2.1
@[simp] theorem applyAll_regs (j : Nat) (proves : Bool) (d : List Byte) (s : State) : (applyAll j proves d s).regs = s.regs := (applyAll_keeps j proves d s).2.2.1
@[simp] theorem applyAll_masks (j : Nat) (proves : Bool) (d : List Byte) (s : State) : (applyAll j proves d s).evt.masks = s.evt.masks := (applyAll_keeps j proves d s).2.2.2

theorem applySafer_keeps (j : Nat) (d : List Byte) (s : State) : Keeps s (applySafer j d s) := by
  unfold applySafer
  try dsimp only
  (repeat' split) <;> simp [Keeps]
@[simp] theorem applySafer_pending (j : Nat) (d : List Byte) (s : State) : (applySafer j d s).pending = s.pending := (applySafer_keeps j d s).1
@[simp] theorem applySafer_clk (j : Nat) (d : List Byte) (s : State) : (applySafer j d s).clk = s.clk := (applySafer_keeps j d s).2.1
@[simp] theorem applySafer_regs (j : Nat) (d : List Byte) (s : State) : (applySafer j d s).regs = s.regs := (applySafer_keeps j d s).2.2.1
@[simp] theorem applySafer_masks (j : Nat) (d : List Byte) (s : State) : (applySafer j d s).evt.masks = s.evt.masks := (applySafer_keeps j d s).2.2.2

theorem twinDiffers_keeps (j : Nat) (d1 : List Byte) (d2 : List Byte) (s : State) : Keeps s (twinDiffers j d1 d2 s) := by
  unfold twinDiffers
  try dsimp only
  (repeat' split) <;> simp [Keeps]
@[simp] theorem twinDiffers_pending (j : Nat) (d1 : List Byte) (d2 : List Byte) (s : State) : (twinDiffers j d1 d2 s).pending = s.pending := (twinDiffers_keeps j d1 d2 s).1
@[simp] theorem twinDiffers_clk (j : Nat) (d1 : List Byte) (d2 : List Byte) (s : State) : (twinDiffers j d1 d2 s).clk = s.clk := (twinDiffers_keeps j d1 d2 s).2.1
@[simp] theorem twinDiffers_regs (j : Nat) (d1 : List Byte) (d2 : List Byte) (s : State) : (twinDiffers j d1 d2 s).regs = s.regs := (twinDiffers_keeps j d1 d2 s).2.2.1
@[simp] theorem twinDiffers_masks (j : Nat) (d1 : List Byte) (d2 : List Byte) (s : State) : (twinDiffers j d1 d2 s).evt.masks = s.evt.masks := (twinDiffers_keeps j d1 d2 s).2.2.2

theorem discardCopy_keeps (s : State) : Keeps s (discardCopy s) := by
  unfold discardCopy
  try dsimp only
  (repeat' split) <;> simp [Keeps]
@[simp] theorem discardCopy_pending (s : State) : (discardCopy s).pending = s.pending := (discardCopy_keeps s).1
@[simp] theorem discardCopy_clk (s : State) : (discardCopy s).clk = s.clk := (discardCopy_keeps s).2.1
@[simp] theorem discardCopy_regs (s : State) : (discardCopy s).regs = s.regs := (discardCopy_keeps s).2.2.1
@[simp] theorem discardCopy_masks (s : State) : (discardCopy s).evt.masks = s.evt.masks := (discardCopy_keeps s).2.2.2

theorem takeSafety_keeps (f : Frame) (s : State) : Keeps s (takeSafety f s) := by
  unfold takeSafety
  try dsimp only
  (repeat' split) <;> simp [Keeps]
@[simp] theorem takeSafety_pending (f : Frame) (s : State) : (takeSafety f s).pending = s.pending := (takeSafety_keeps f s).1
@[simp] theorem takeSafety_clk (f : Frame) (s : State) : (takeSafety f s).clk = s.clk := (takeSafety_keeps f s).2.1
@[simp] theorem takeSafety_regs (f : Frame) (s : State) : (takeSafety f s).regs = s.regs := (takeSafety_keeps f s).2.2.1
@[simp] theorem takeSafety_masks (f : Frame) (s : State) : (takeSafety f s).evt.masks = s.evt.masks := (takeSafety_keeps f s).2.2.2

theorem twinMissed_keeps (j : Nat) (s : State) : Keeps s (twinMissed j s) := by
  unfold twinMissed
  try dsimp only
  (repeat' split) <;> simp [Keeps]
@[simp] theorem twinMissed_pending (j : Nat) (s : State) : (twinMissed j s).pending = s.pending := (twinMissed_keeps j s).1
@[simp] theorem twinMissed_clk (j : Nat) (s : State) : (twinMissed j s).clk = s.clk := (twinMissed_keeps j s).2.1
@[simp] theorem twinMissed_regs (j : Nat) (s : State) : (twinMissed j s).regs = s.regs := (twinMissed_keeps j s).2.2.1
@[simp] theorem twinMissed_masks (j : Nat) (s : State) : (twinMissed j s).evt.masks = s.evt.masks := (twinMissed_keeps j s).2.2.2

theorem deliverKind_keeps (f : Frame) (s : State) : Keeps s (deliverKind f s) := by
  unfold deliverKind
  try dsimp only
  (repeat' split) <;> simp [Keeps]
@[simp] theorem deliverKind_pending (f : Frame) (s : State) : (deliverKind f s).pending = s.pending := (deliverKind_keeps f s).1
@[simp] theorem deliverKind_clk (f : Frame) (s : State) : (deliverKind f s).clk = s.clk := (deliverKind_keeps f s).2.1
@[simp] theorem deliverKind_regs (f : Frame) (s : State) : (deliverKind f s).regs = s.regs := (deliverKind_keeps f s).2.2.1
@[simp] theorem deliverKind_masks (f : Frame) (s : State) : (deliverKind f s).evt.masks = s.evt.masks := (deliverKind_keeps f s).2.2.2

theorem takeIn_keeps (sd : Side) (leg : Bool) (f : Frame) (s : State) : Keeps s (takeIn sd leg f s) := by
  unfold takeIn
  try dsimp only
  (repeat' split) <;> simp [Keeps]
@[simp] theorem takeIn_pending (sd : Side) (leg : Bool) (f : Frame) (s : State) : (takeIn sd leg f s).pending = s.pending := (takeIn_keeps sd leg f s).1
@[simp] theorem takeIn_clk (sd : Side) (leg : Bool) (f : Frame) (s : State) : (takeIn sd leg f s).clk = s.clk := (takeIn_keeps sd leg f s).2.1
@[simp] theorem takeIn_regs (sd : Side) (leg : Bool) (f : Frame) (s : State) : (takeIn sd leg f s).regs = s.regs := (takeIn_keeps sd leg f s).2.2.1
@[simp] theorem takeIn_masks (sd : Side) (leg : Bool) (f : Frame) (s : State) : (takeIn sd leg f s).evt.masks = s.evt.masks := (takeIn_keeps sd leg f s).2.2.2

theorem judgeSingle_keeps (s : State) : Keeps s (judgeSingle s) := by
  unfold judgeSingle
  try dsimp only
  (repeat' split) <;> simp [Keeps]
@[simp] theorem judgeSingle_pending (s : State) : (judgeSingle s).pending = s.pending := (judgeSingle_keeps s).1
@[simp] theorem judgeSingle_clk (s : State) : (judgeSingle s).clk = s.clk := (judgeSingle_keeps s).2.1
@[simp] theorem judgeSingle_regs (s : State) : (judgeSingle s).regs = s.regs := (judgeSingle_keeps s).2.2.1
@[simp] theorem judgeSingle_masks (s : State) : (judgeSingle s).evt.masks = s.evt.masks := (judgeSingle_keeps s).2.2.2

theorem route_keeps (sd : Side) (f : Frame) (s : State) : Keeps s (route sd f s) := by
  unfold route
  try dsimp only
  (repeat' split) <;> simp [Keeps]
@[simp] theorem route_pending (sd : Side) (f : Frame) (s : State) : (route sd f s).pending = s.pending := (route_keeps sd f s).1
@[simp] theorem route_clk (sd : Side) (f : Frame) (s : State) : (route sd f s).clk = s.clk := (route_keeps sd f s).2.1
@[simp] theorem route_regs (sd : Side) (f : Frame) (s : State) : (route sd f s).regs = s.regs := (route_keeps sd f s).2.2.1
@[simp] theorem route_masks (sd : Side) (f : Frame) (s : State) : (route sd f s).evt.masks = s.evt.masks := (route_keeps sd f s).2.2.2

theorem receive_keeps (sd : Side) (f : Frame) (lq : LineQ) (s : State) : Keeps s (receive sd f lq s) := by
  unfold receive
  try dsimp only
  (repeat' split) <;> simp [Keeps]
@[simp] theorem receive_pending (sd : Side) (f : Frame) (lq : LineQ) (s : State) : (receive sd f lq s).pending = s.pending := (receive_keeps sd f lq s).1
@[simp] theorem receive_clk (sd : Side) (f : Frame) (lq : LineQ) (s : State) : (receive sd f lq s).clk = s.clk := (receive_keeps sd f lq s).2.1
@[simp] theorem receive_regs (sd : Side) (f : Frame) (lq : LineQ) (s : State) : (receive sd f lq s).regs = s.regs := (receive_keeps sd f lq s).2.2.1
@[simp] theorem receive_masks (sd : Side) (f : Frame) (lq : LineQ) (s : State) : (receive sd f lq s).evt.masks = s.evt.masks := (receive_keeps sd f lq s).2.2.2

end Sys2Proof.Machine
end

