-- ==== Sys2Proof/Laws/Keep/CellOps.lean ====
section
/-! SUPPORT. What the operations of `Machine/CellOps.lean` leave alone. -/

namespace Sys2Proof.Machine

open Sys2Proof

theorem setRate_keeps (code : Nat) (s : State) : (setRate code s).pending = s.pending ∧ (setRate code s).clk = s.clk ∧ (setRate code s).evt.masks = s.evt.masks := by
  unfold setRate
  try dsimp only
  (repeat' split) <;> simp
@[simp] theorem setRate_pending (code : Nat) (s : State) : (setRate code s).pending = s.pending := (setRate_keeps code s).1
@[simp] theorem setRate_clk (code : Nat) (s : State) : (setRate code s).clk = s.clk := (setRate_keeps code s).2.1
@[simp] theorem setRate_masks (code : Nat) (s : State) : (setRate code s).evt.masks = s.evt.masks := (setRate_keeps code s).2.2

theorem sendItem_keeps (host : Nat) (payload : List Byte) (s : State) : Keeps s (sendItem host payload s) := by
  unfold sendItem
  try dsimp only
  (repeat' split) <;> simp [Keeps]
@[simp] theorem sendItem_pending (host : Nat) (payload : List Byte) (s : State) : (sendItem host payload s).pending = s.pending := (sendItem_keeps host payload s).1
@[simp] theorem sendItem_clk (host : Nat) (payload : List Byte) (s : State) : (sendItem host payload s).clk = s.clk := (sendItem_keeps host payload s).2.1
@[simp] theorem sendItem_regs (host : Nat) (payload : List Byte) (s : State) : (sendItem host payload s).regs = s.regs := (sendItem_keeps host payload s).2.2.1
@[simp] theorem sendItem_masks (host : Nat) (payload : List Byte) (s : State) : (sendItem host payload s).evt.masks = s.evt.masks := (sendItem_keeps host payload s).2.2.2

theorem flushStream_keeps (x : StreamSt) (s : State) : Keeps s (flushStream x s).2 := by
  unfold flushStream
  try dsimp only
  (repeat' split) <;> simp [Keeps]
@[simp] theorem flushStream_pending (x : StreamSt) (s : State) : (flushStream x s).2.pending = s.pending := (flushStream_keeps x s).1
@[simp] theorem flushStream_clk (x : StreamSt) (s : State) : (flushStream x s).2.clk = s.clk := (flushStream_keeps x s).2.1
@[simp] theorem flushStream_regs (x : StreamSt) (s : State) : (flushStream x s).2.regs = s.regs := (flushStream_keeps x s).2.2.1
@[simp] theorem flushStream_masks (x : StreamSt) (s : State) : (flushStream x s).2.evt.masks = s.evt.masks := (flushStream_keeps x s).2.2.2

theorem pushEntry_keeps (x : StreamSt) (e : List Byte) (s : State) : Keeps s (pushEntry x e s).2 := by
  unfold pushEntry
  try dsimp only
  (repeat' split) <;> simp [Keeps]
@[simp] theorem pushEntry_pending (x : StreamSt) (e : List Byte) (s : State) : (pushEntry x e s).2.pending = s.pending := (pushEntry_keeps x e s).1
@[simp] theorem pushEntry_clk (x : StreamSt) (e : List Byte) (s : State) : (pushEntry x e s).2.clk = s.clk := (pushEntry_keeps x e s).2.1
@[simp] theorem pushEntry_regs (x : StreamSt) (e : List Byte) (s : State) : (pushEntry x e s).2.regs = s.regs := (pushEntry_keeps x e s).2.2.1
@[simp] theorem pushEntry_masks (x : StreamSt) (e : List Byte) (s : State) : (pushEntry x e s).2.evt.masks = s.evt.masks := (pushEntry_keeps x e s).2.2.2

theorem streamEntry_keeps (code : Nat) (e : Nat → List Byte) (s : State) : Keeps s (streamEntry code e s) := by
  unfold streamEntry
  try dsimp only
  (repeat' split) <;> simp [Keeps]
@[simp] theorem streamEntry_pending (code : Nat) (e : Nat → List Byte) (s : State) : (streamEntry code e s).pending = s.pending := (streamEntry_keeps code e s).1
@[simp] theorem streamEntry_clk (code : Nat) (e : Nat → List Byte) (s : State) : (streamEntry code e s).clk = s.clk := (streamEntry_keeps code e s).2.1
@[simp] theorem streamEntry_regs (code : Nat) (e : Nat → List Byte) (s : State) : (streamEntry code e s).regs = s.regs := (streamEntry_keeps code e s).2.2.1
@[simp] theorem streamEntry_masks (code : Nat) (e : Nat → List Byte) (s : State) : (streamEntry code e s).evt.masks = s.evt.masks := (streamEntry_keeps code e s).2.2.2

theorem ringEntry_keeps (cfg : Word) (size : Nat) (inst : Nat) (e : Nat → List Byte) (r : RingSt) (s : State) : Keeps s (ringEntry cfg size inst e r s).2.1 := by
  unfold ringEntry
  try dsimp only
  (repeat' split) <;> simp [Keeps]
@[simp] theorem ringEntry_pending (cfg : Word) (size : Nat) (inst : Nat) (e : Nat → List Byte) (r : RingSt) (s : State) : (ringEntry cfg size inst e r s).2.1.pending = s.pending := (ringEntry_keeps cfg size inst e r s).1
@[simp] theorem ringEntry_clk (cfg : Word) (size : Nat) (inst : Nat) (e : Nat → List Byte) (r : RingSt) (s : State) : (ringEntry cfg size inst e r s).2.1.clk = s.clk := (ringEntry_keeps cfg size inst e r s).2.1
@[simp] theorem ringEntry_regs (cfg : Word) (size : Nat) (inst : Nat) (e : Nat → List Byte) (r : RingSt) (s : State) : (ringEntry cfg size inst e r s).2.1.regs = s.regs := (ringEntry_keeps cfg size inst e r s).2.2.1
@[simp] theorem ringEntry_masks (cfg : Word) (size : Nat) (inst : Nat) (e : Nat → List Byte) (r : RingSt) (s : State) : (ringEntry cfg size inst e r s).2.1.evt.masks = s.evt.masks := (ringEntry_keeps cfg size inst e r s).2.2.2

theorem startOw_keeps (s : State) : Keeps s (startOw s) := by
  unfold startOw
  try dsimp only
  (repeat' split) <;> simp [Keeps]
@[simp] theorem startOw_pending (s : State) : (startOw s).pending = s.pending := (startOw_keeps s).1
@[simp] theorem startOw_clk (s : State) : (startOw s).clk = s.clk := (startOw_keeps s).2.1
@[simp] theorem startOw_regs (s : State) : (startOw s).regs = s.regs := (startOw_keeps s).2.2.1
@[simp] theorem startOw_masks (s : State) : (startOw s).evt.masks = s.evt.masks := (startOw_keeps s).2.2.2

theorem startDeferredOw_keeps (s : State) : Keeps s (startDeferredOw s) := by
  unfold startDeferredOw
  try dsimp only
  (repeat' split) <;> simp [Keeps]
@[simp] theorem startDeferredOw_pending (s : State) : (startDeferredOw s).pending = s.pending := (startDeferredOw_keeps s).1
@[simp] theorem startDeferredOw_clk (s : State) : (startDeferredOw s).clk = s.clk := (startDeferredOw_keeps s).2.1
@[simp] theorem startDeferredOw_regs (s : State) : (startDeferredOw s).regs = s.regs := (startDeferredOw_keeps s).2.2.1
@[simp] theorem startDeferredOw_masks (s : State) : (startDeferredOw s).evt.masks = s.evt.masks := (startDeferredOw_keeps s).2.2.2

theorem owResult_keeps (fails : Bool) (p : Nat) (s : State) : Keeps s (owResult fails p s) := by
  unfold owResult
  try dsimp only
  (repeat' split) <;> simp [Keeps]
@[simp] theorem owResult_pending (fails : Bool) (p : Nat) (s : State) : (owResult fails p s).pending = s.pending := (owResult_keeps fails p s).1
@[simp] theorem owResult_clk (fails : Bool) (p : Nat) (s : State) : (owResult fails p s).clk = s.clk := (owResult_keeps fails p s).2.1
@[simp] theorem owResult_regs (fails : Bool) (p : Nat) (s : State) : (owResult fails p s).regs = s.regs := (owResult_keeps fails p s).2.2.1
@[simp] theorem owResult_masks (fails : Bool) (p : Nat) (s : State) : (owResult fails p s).evt.masks = s.evt.masks := (owResult_keeps fails p s).2.2.2

theorem owDeclare_keeps (o : Owt) (s : State) : Keeps s (owDeclare o s) := by
  unfold owDeclare
  try dsimp only
  (repeat' split) <;>
    first
    | (simp [Keeps, fold_pending, fold_clk, fold_regs, fold_masks, fold1_pending, fold1_clk, fold1_regs, fold1_masks, apply_ite State.pending, apply_ite State.clk, apply_ite State.regs, apply_ite State.evt, apply_ite EvtSt.masks]; done)
    | (refine Keeps.trans ?_ (fold_keeps _ (fun s a => ?_) _ _) <;> (try dsimp only) <;> (repeat' split) <;> simp [Keeps])
@[simp] theorem owDeclare_pending (o : Owt) (s : State) : (owDeclare o s).pending = s.pending := (owDeclare_keeps o s).1
@[simp] theorem owDeclare_clk (o : Owt) (s : State) : (owDeclare o s).clk = s.clk := (owDeclare_keeps o s).2.1
@[simp] theorem owDeclare_regs (o : Owt) (s : State) : (owDeclare o s).regs = s.regs := (owDeclare_keeps o s).2.2.1
@[simp] theorem owDeclare_masks (o : Owt) (s : State) : (owDeclare o s).evt.masks = s.evt.masks := (owDeclare_keeps o s).2.2.2

theorem owSample_keeps (vals : List Int) (flags : List Nat) (s : State) : Keeps s (owSample vals flags s) := by
  unfold owSample
  try dsimp only
  (repeat' split) <;> simp [Keeps]
@[simp] theorem owSample_pending (vals : List Int) (flags : List Nat) (s : State) : (owSample vals flags s).pending = s.pending := (owSample_keeps vals flags s).1
@[simp] theorem owSample_clk (vals : List Int) (flags : List Nat) (s : State) : (owSample vals flags s).clk = s.clk := (owSample_keeps vals flags s).2.1
@[simp] theorem owSample_regs (vals : List Int) (flags : List Nat) (s : State) : (owSample vals flags s).regs = s.regs := (owSample_keeps vals flags s).2.2.1
@[simp] theorem owSample_masks (vals : List Int) (flags : List Nat) (s : State) : (owSample vals flags s).evt.masks = s.evt.masks := (owSample_keeps vals flags s).2.2.2

theorem noteC4_keeps (s : State) : Keeps s (noteC4 s) := by
  unfold noteC4
  try dsimp only
  (repeat' split) <;> simp [Keeps]
@[simp] theorem noteC4_pending (s : State) : (noteC4 s).pending = s.pending := (noteC4_keeps s).1
@[simp] theorem noteC4_clk (s : State) : (noteC4 s).clk = s.clk := (noteC4_keeps s).2.1
@[simp] theorem noteC4_regs (s : State) : (noteC4 s).regs = s.regs := (noteC4_keeps s).2.2.1
@[simp] theorem noteC4_masks (s : State) : (noteC4 s).evt.masks = s.evt.masks := (noteC4_keeps s).2.2.2

theorem noteHeld_keeps (s : State) : Keeps s (noteHeld s) := by
  unfold noteHeld
  try dsimp only
  (repeat' split) <;>
    first
    | (simp [Keeps, fold_pending, fold_clk, fold_regs, fold_masks, fold1_pending, fold1_clk, fold1_regs, fold1_masks, apply_ite State.pending, apply_ite State.clk, apply_ite State.regs, apply_ite State.evt, apply_ite EvtSt.masks]; done)
    | (refine Keeps.trans ?_ (fold_keeps _ (fun s a => ?_) _ _) <;> (try dsimp only) <;> (repeat' split) <;> simp [Keeps])
@[simp] theorem noteHeld_pending (s : State) : (noteHeld s).pending = s.pending := (noteHeld_keeps s).1
@[simp] theorem noteHeld_clk (s : State) : (noteHeld s).clk = s.clk := (noteHeld_keeps s).2.1
@[simp] theorem noteHeld_regs (s : State) : (noteHeld s).regs = s.regs := (noteHeld_keeps s).2.2.1
@[simp] theorem noteHeld_masks (s : State) : (noteHeld s).evt.masks = s.evt.masks := (noteHeld_keeps s).2.2.2

end Sys2Proof.Machine
end

