-- ==== Sys2Proof/Laws/Keep/BalOps.lean ====
section
/-! SUPPORT. What the operations of `Machine/BalOps.lean` leave alone. -/

namespace Sys2Proof.Machine

open Sys2Proof

theorem settleAcc_keeps (s : State) : Keeps s (settleAcc s) := by
  unfold settleAcc
  try dsimp only
  (repeat' split) <;> simp [Keeps]
@[simp] theorem settleAcc_pending (s : State) : (settleAcc s).pending = s.pending := (settleAcc_keeps s).1
@[simp] theorem settleAcc_clk (s : State) : (settleAcc s).clk = s.clk := (settleAcc_keeps s).2.1
@[simp] theorem settleAcc_regs (s : State) : (settleAcc s).regs = s.regs := (settleAcc_keeps s).2.2.1
@[simp] theorem settleAcc_masks (s : State) : (settleAcc s).evt.masks = s.evt.masks := (settleAcc_keeps s).2.2.2

theorem cutPulses_keeps (mask : BitVec 16) (s : State) : Keeps s (cutPulses mask s) := by
  unfold cutPulses
  try dsimp only
  (repeat' split) <;> simp [Keeps]
@[simp] theorem cutPulses_pending (mask : BitVec 16) (s : State) : (cutPulses mask s).pending = s.pending := (cutPulses_keeps mask s).1
@[simp] theorem cutPulses_clk (mask : BitVec 16) (s : State) : (cutPulses mask s).clk = s.clk := (cutPulses_keeps mask s).2.1
@[simp] theorem cutPulses_regs (mask : BitVec 16) (s : State) : (cutPulses mask s).regs = s.regs := (cutPulses_keeps mask s).2.2.1
@[simp] theorem cutPulses_masks (mask : BitVec 16) (s : State) : (cutPulses mask s).evt.masks = s.evt.masks := (cutPulses_keeps mask s).2.2.2

theorem markSinks_keeps (s : State) : Keeps s (markSinks s) := by
  unfold markSinks
  try dsimp only
  (repeat' split) <;> simp [Keeps]
@[simp] theorem markSinks_pending (s : State) : (markSinks s).pending = s.pending := (markSinks_keeps s).1
@[simp] theorem markSinks_clk (s : State) : (markSinks s).clk = s.clk := (markSinks_keeps s).2.1
@[simp] theorem markSinks_regs (s : State) : (markSinks s).regs = s.regs := (markSinks_keeps s).2.2.1
@[simp] theorem markSinks_masks (s : State) : (markSinks s).evt.masks = s.evt.masks := (markSinks_keeps s).2.2.2

theorem turnOnStim_keeps (x : Stim) (s : State) : Keeps s (turnOnStim x s) := by
  unfold turnOnStim
  try dsimp only
  (repeat' split) <;>
    first
    | (simp [Keeps, fold_pending, fold_clk, fold_regs, fold_masks, fold1_pending, fold1_clk, fold1_regs, fold1_masks, apply_ite State.pending, apply_ite State.clk, apply_ite State.regs, apply_ite State.evt, apply_ite EvtSt.masks]; done)
    | (refine Keeps.trans ?_ (fold_keeps _ (fun s a => ?_) _ _) <;> (try dsimp only) <;> (repeat' split) <;> simp [Keeps])
@[simp] theorem turnOnStim_pending (x : Stim) (s : State) : (turnOnStim x s).pending = s.pending := (turnOnStim_keeps x s).1
@[simp] theorem turnOnStim_clk (x : Stim) (s : State) : (turnOnStim x s).clk = s.clk := (turnOnStim_keeps x s).2.1
@[simp] theorem turnOnStim_regs (x : Stim) (s : State) : (turnOnStim x s).regs = s.regs := (turnOnStim_keeps x s).2.2.1
@[simp] theorem turnOnStim_masks (x : Stim) (s : State) : (turnOnStim x s).evt.masks = s.evt.masks := (turnOnStim_keeps x s).2.2.2

theorem endStim_keeps (mask : BitVec 16) (cause : Nat) (s : State) : Keeps s (endStim mask cause s) := by
  unfold endStim
  try dsimp only
  (repeat' split) <;> simp [Keeps]
@[simp] theorem endStim_pending (mask : BitVec 16) (cause : Nat) (s : State) : (endStim mask cause s).pending = s.pending := (endStim_keeps mask cause s).1
@[simp] theorem endStim_clk (mask : BitVec 16) (cause : Nat) (s : State) : (endStim mask cause s).clk = s.clk := (endStim_keeps mask cause s).2.1
@[simp] theorem endStim_regs (mask : BitVec 16) (cause : Nat) (s : State) : (endStim mask cause s).regs = s.regs := (endStim_keeps mask cause s).2.2.1
@[simp] theorem endStim_masks (mask : BitVec 16) (cause : Nat) (s : State) : (endStim mask cause s).evt.masks = s.evt.masks := (endStim_keeps mask cause s).2.2.2

theorem noteStop_keeps (cause : Nat) (s : State) : Keeps s (noteStop cause s) := by
  unfold noteStop
  try dsimp only
  (repeat' split) <;> simp [Keeps]
@[simp] theorem noteStop_pending (cause : Nat) (s : State) : (noteStop cause s).pending = s.pending := (noteStop_keeps cause s).1
@[simp] theorem noteStop_clk (cause : Nat) (s : State) : (noteStop cause s).clk = s.clk := (noteStop_keeps cause s).2.1
@[simp] theorem noteStop_regs (cause : Nat) (s : State) : (noteStop cause s).regs = s.regs := (noteStop_keeps cause s).2.2.1
@[simp] theorem noteStop_masks (cause : Nat) (s : State) : (noteStop cause s).evt.masks = s.evt.masks := (noteStop_keeps cause s).2.2.2

theorem clearOn_keeps (mask : BitVec 16) (s : State) : Keeps s (clearOn mask s) := by
  unfold clearOn
  try dsimp only
  (repeat' split) <;> simp [Keeps]
@[simp] theorem clearOn_pending (mask : BitVec 16) (s : State) : (clearOn mask s).pending = s.pending := (clearOn_keeps mask s).1
@[simp] theorem clearOn_clk (mask : BitVec 16) (s : State) : (clearOn mask s).clk = s.clk := (clearOn_keeps mask s).2.1
@[simp] theorem clearOn_regs (mask : BitVec 16) (s : State) : (clearOn mask s).regs = s.regs := (clearOn_keeps mask s).2.2.1
@[simp] theorem clearOn_masks (mask : BitVec 16) (s : State) : (clearOn mask s).evt.masks = s.evt.masks := (clearOn_keeps mask s).2.2.2

theorem clearBal_keeps (mask : BitVec 16) (cause : Nat) (s : State) : Keeps s (clearBal mask cause s) := by
  unfold clearBal
  try dsimp only
  (repeat' split) <;> simp [Keeps]
@[simp] theorem clearBal_pending (mask : BitVec 16) (cause : Nat) (s : State) : (clearBal mask cause s).pending = s.pending := (clearBal_keeps mask cause s).1
@[simp] theorem clearBal_clk (mask : BitVec 16) (cause : Nat) (s : State) : (clearBal mask cause s).clk = s.clk := (clearBal_keeps mask cause s).2.1
@[simp] theorem clearBal_regs (mask : BitVec 16) (cause : Nat) (s : State) : (clearBal mask cause s).regs = s.regs := (clearBal_keeps mask cause s).2.2.1
@[simp] theorem clearBal_masks (mask : BitVec 16) (cause : Nat) (s : State) : (clearBal mask cause s).evt.masks = s.evt.masks := (clearBal_keeps mask cause s).2.2.2

theorem setDiag_keeps (k : Nat) (d : Diag) (s : State) : Keeps s (setDiag k d s) := by
  unfold setDiag
  try dsimp only
  (repeat' split) <;> simp [Keeps]
@[simp] theorem setDiag_pending (k : Nat) (d : Diag) (s : State) : (setDiag k d s).pending = s.pending := (setDiag_keeps k d s).1
@[simp] theorem setDiag_clk (k : Nat) (d : Diag) (s : State) : (setDiag k d s).clk = s.clk := (setDiag_keeps k d s).2.1
@[simp] theorem setDiag_regs (k : Nat) (d : Diag) (s : State) : (setDiag k d s).regs = s.regs := (setDiag_keeps k d s).2.2.1
@[simp] theorem setDiag_masks (k : Nat) (d : Diag) (s : State) : (setDiag k d s).evt.masks = s.evt.masks := (setDiag_keeps k d s).2.2.2

theorem judgeOk_keeps (k : Nat) (s : State) : Keeps s (judgeOk k s) := by
  unfold judgeOk
  try dsimp only
  (repeat' split) <;> simp [Keeps]
@[simp] theorem judgeOk_pending (k : Nat) (s : State) : (judgeOk k s).pending = s.pending := (judgeOk_keeps k s).1
@[simp] theorem judgeOk_clk (k : Nat) (s : State) : (judgeOk k s).clk = s.clk := (judgeOk_keeps k s).2.1
@[simp] theorem judgeOk_regs (k : Nat) (s : State) : (judgeOk k s).regs = s.regs := (judgeOk_keeps k s).2.2.1
@[simp] theorem judgeOk_masks (k : Nat) (s : State) : (judgeOk k s).evt.masks = s.evt.masks := (judgeOk_keeps k s).2.2.2

theorem failOpen_keeps (k : Nat) (s : State) : Keeps s (failOpen k s) := by
  unfold failOpen
  try dsimp only
  (repeat' split) <;> simp [Keeps]
@[simp] theorem failOpen_pending (k : Nat) (s : State) : (failOpen k s).pending = s.pending := (failOpen_keeps k s).1
@[simp] theorem failOpen_clk (k : Nat) (s : State) : (failOpen k s).clk = s.clk := (failOpen_keeps k s).2.1
@[simp] theorem failOpen_regs (k : Nat) (s : State) : (failOpen k s).regs = s.regs := (failOpen_keeps k s).2.2.1
@[simp] theorem failOpen_masks (k : Nat) (s : State) : (failOpen k s).evt.masks = s.evt.masks := (failOpen_keeps k s).2.2.2

theorem passTest_keeps (k : Nat) (s : State) : Keeps s (passTest k s) := by
  unfold passTest
  try dsimp only
  (repeat' split) <;> simp [Keeps]
@[simp] theorem passTest_pending (k : Nat) (s : State) : (passTest k s).pending = s.pending := (passTest_keeps k s).1
@[simp] theorem passTest_clk (k : Nat) (s : State) : (passTest k s).clk = s.clk := (passTest_keeps k s).2.1
@[simp] theorem passTest_regs (k : Nat) (s : State) : (passTest k s).regs = s.regs := (passTest_keeps k s).2.2.1
@[simp] theorem passTest_masks (k : Nat) (s : State) : (passTest k s).evt.masks = s.evt.masks := (passTest_keeps k s).2.2.2

theorem untestAll_keeps (s : State) : Keeps s (untestAll s) := by
  unfold untestAll
  try dsimp only
  (repeat' split) <;> simp [Keeps]
@[simp] theorem untestAll_pending (s : State) : (untestAll s).pending = s.pending := (untestAll_keeps s).1
@[simp] theorem untestAll_clk (s : State) : (untestAll s).clk = s.clk := (untestAll_keeps s).2.1
@[simp] theorem untestAll_regs (s : State) : (untestAll s).regs = s.regs := (untestAll_keeps s).2.2.1
@[simp] theorem untestAll_masks (s : State) : (untestAll s).evt.masks = s.evt.masks := (untestAll_keeps s).2.2.2

end Sys2Proof.Machine
end

