-- ==== Sys2Proof/Laws/Keep/IndigoOps.lean ====
section
/-! SUPPORT. What the operations of `Machine/IndigoOps.lean` leave alone. -/

namespace Sys2Proof.Machine

open Sys2Proof

theorem setEng_keeps (e : Engine) (f : Eng → Eng) (s : State) : Keeps s (setEng e f s) := by
  unfold setEng
  try dsimp only
  (repeat' split) <;> simp [Keeps]
@[simp] theorem setEng_pending (e : Engine) (f : Eng → Eng) (s : State) : (setEng e f s).pending = s.pending := (setEng_keeps e f s).1
@[simp] theorem setEng_clk (e : Engine) (f : Eng → Eng) (s : State) : (setEng e f s).clk = s.clk := (setEng_keeps e f s).2.1
@[simp] theorem setEng_regs (e : Engine) (f : Eng → Eng) (s : State) : (setEng e f s).regs = s.regs := (setEng_keeps e f s).2.2.1
@[simp] theorem setEng_masks (e : Engine) (f : Eng → Eng) (s : State) : (setEng e f s).evt.masks = s.evt.masks := (setEng_keeps e f s).2.2.2

theorem padWrite_keeps (a : Nat) (l : List Byte) (s : State) : Keeps s (padWrite a l s) := by
  unfold padWrite
  try dsimp only
  (repeat' split) <;> simp [Keeps]
@[simp] theorem padWrite_pending (a : Nat) (l : List Byte) (s : State) : (padWrite a l s).pending = s.pending := (padWrite_keeps a l s).1
@[simp] theorem padWrite_clk (a : Nat) (l : List Byte) (s : State) : (padWrite a l s).clk = s.clk := (padWrite_keeps a l s).2.1
@[simp] theorem padWrite_regs (a : Nat) (l : List Byte) (s : State) : (padWrite a l s).regs = s.regs := (padWrite_keeps a l s).2.2.1
@[simp] theorem padWrite_masks (a : Nat) (l : List Byte) (s : State) : (padWrite a l s).evt.masks = s.evt.masks := (padWrite_keeps a l s).2.2.2

theorem noteCorrected_keeps (corr : List Nat) (runs : List (Nat × Nat)) (s : State) : Keeps s (noteCorrected corr runs s) := by
  unfold noteCorrected
  try dsimp only
  (repeat' split) <;>
    first
    | (simp [Keeps, fold_pending, fold_clk, fold_regs, fold_masks, fold1_pending, fold1_clk, fold1_regs, fold1_masks, apply_ite State.pending, apply_ite State.clk, apply_ite State.regs, apply_ite State.evt, apply_ite EvtSt.masks]; done)
    | (refine Keeps.trans ?_ (fold_keeps _ (fun s a => ?_) _ _) <;> (try dsimp only) <;> (repeat' split) <;> simp [Keeps])
@[simp] theorem noteCorrected_pending (corr : List Nat) (runs : List (Nat × Nat)) (s : State) : (noteCorrected corr runs s).pending = s.pending := (noteCorrected_keeps corr runs s).1
@[simp] theorem noteCorrected_clk (corr : List Nat) (runs : List (Nat × Nat)) (s : State) : (noteCorrected corr runs s).clk = s.clk := (noteCorrected_keeps corr runs s).2.1
@[simp] theorem noteCorrected_regs (corr : List Nat) (runs : List (Nat × Nat)) (s : State) : (noteCorrected corr runs s).regs = s.regs := (noteCorrected_keeps corr runs s).2.2.1
@[simp] theorem noteCorrected_masks (corr : List Nat) (runs : List (Nat × Nat)) (s : State) : (noteCorrected corr runs s).evt.masks = s.evt.masks := (noteCorrected_keeps corr runs s).2.2.2

theorem hostEcc_keeps (ecc : Ecc) (lo : Nat) (n : Nat) (s : State) : Keeps s (hostEcc ecc lo n s) := by
  unfold hostEcc
  try dsimp only
  (repeat' split) <;>
    first
    | (simp [Keeps, fold_pending, fold_clk, fold_regs, fold_masks, fold1_pending, fold1_clk, fold1_regs, fold1_masks, apply_ite State.pending, apply_ite State.clk, apply_ite State.regs, apply_ite State.evt, apply_ite EvtSt.masks]; done)
    | (refine Keeps.trans ?_ (fold_keeps _ (fun s a => ?_) _ _) <;> (try dsimp only) <;> (repeat' split) <;> simp [Keeps])
@[simp] theorem hostEcc_pending (ecc : Ecc) (lo : Nat) (n : Nat) (s : State) : (hostEcc ecc lo n s).pending = s.pending := (hostEcc_keeps ecc lo n s).1
@[simp] theorem hostEcc_clk (ecc : Ecc) (lo : Nat) (n : Nat) (s : State) : (hostEcc ecc lo n s).clk = s.clk := (hostEcc_keeps ecc lo n s).2.1
@[simp] theorem hostEcc_regs (ecc : Ecc) (lo : Nat) (n : Nat) (s : State) : (hostEcc ecc lo n s).regs = s.regs := (hostEcc_keeps ecc lo n s).2.2.1
@[simp] theorem hostEcc_masks (ecc : Ecc) (lo : Nat) (n : Nat) (s : State) : (hostEcc ecc lo n s).evt.masks = s.evt.masks := (hostEcc_keeps ecc lo n s).2.2.2

theorem saveContext_keeps (e : Engine) (cause : Nat) (s : State) : Keeps s (saveContext e cause s) := by
  unfold saveContext
  try dsimp only
  (repeat' split) <;> simp [Keeps]
@[simp] theorem saveContext_pending (e : Engine) (cause : Nat) (s : State) : (saveContext e cause s).pending = s.pending := (saveContext_keeps e cause s).1
@[simp] theorem saveContext_clk (e : Engine) (cause : Nat) (s : State) : (saveContext e cause s).clk = s.clk := (saveContext_keeps e cause s).2.1
@[simp] theorem saveContext_regs (e : Engine) (cause : Nat) (s : State) : (saveContext e cause s).regs = s.regs := (saveContext_keeps e cause s).2.2.1
@[simp] theorem saveContext_masks (e : Engine) (cause : Nat) (s : State) : (saveContext e cause s).evt.masks = s.evt.masks := (saveContext_keeps e cause s).2.2.2

theorem endKernel_keeps (e : Engine) (t : Term) (s : State) : Keeps s (endKernel e t s) := by
  unfold endKernel
  try dsimp only
  (repeat' split) <;> simp [Keeps]
@[simp] theorem endKernel_pending (e : Engine) (t : Term) (s : State) : (endKernel e t s).pending = s.pending := (endKernel_keeps e t s).1
@[simp] theorem endKernel_clk (e : Engine) (t : Term) (s : State) : (endKernel e t s).clk = s.clk := (endKernel_keeps e t s).2.1
@[simp] theorem endKernel_regs (e : Engine) (t : Term) (s : State) : (endKernel e t s).regs = s.regs := (endKernel_keeps e t s).2.2.1
@[simp] theorem endKernel_masks (e : Engine) (t : Term) (s : State) : (endKernel e t s).evt.masks = s.evt.masks := (endKernel_keeps e t s).2.2.2

theorem takeFault_keeps (e : Engine) (code : Nat) (idx : Nat) (detail : Nat) (s : State) : Keeps s (takeFault e code idx detail s) := by
  unfold takeFault
  try dsimp only
  (repeat' split) <;> simp [Keeps]
@[simp] theorem takeFault_pending (e : Engine) (code : Nat) (idx : Nat) (detail : Nat) (s : State) : (takeFault e code idx detail s).pending = s.pending := (takeFault_keeps e code idx detail s).1
@[simp] theorem takeFault_clk (e : Engine) (code : Nat) (idx : Nat) (detail : Nat) (s : State) : (takeFault e code idx detail s).clk = s.clk := (takeFault_keeps e code idx detail s).2.1
@[simp] theorem takeFault_regs (e : Engine) (code : Nat) (idx : Nat) (detail : Nat) (s : State) : (takeFault e code idx detail s).regs = s.regs := (takeFault_keeps e code idx detail s).2.2.1
@[simp] theorem takeFault_masks (e : Engine) (code : Nat) (idx : Nat) (detail : Nat) (s : State) : (takeFault e code idx detail s).evt.masks = s.evt.masks := (takeFault_keeps e code idx detail s).2.2.2

theorem takeEnd_keeps (e : Engine) (result : Word) (s : State) : Keeps s (takeEnd e result s) := by
  unfold takeEnd
  try dsimp only
  (repeat' split) <;> simp [Keeps]
@[simp] theorem takeEnd_pending (e : Engine) (result : Word) (s : State) : (takeEnd e result s).pending = s.pending := (takeEnd_keeps e result s).1
@[simp] theorem takeEnd_clk (e : Engine) (result : Word) (s : State) : (takeEnd e result s).clk = s.clk := (takeEnd_keeps e result s).2.1
@[simp] theorem takeEnd_regs (e : Engine) (result : Word) (s : State) : (takeEnd e result s).regs = s.regs := (takeEnd_keeps e result s).2.2.1
@[simp] theorem takeEnd_masks (e : Engine) (result : Word) (s : State) : (takeEnd e result s).evt.masks = s.evt.masks := (takeEnd_keeps e result s).2.2.2

theorem takeStop_keeps (e : Engine) (s : State) : Keeps s (takeStop e s) := by
  unfold takeStop
  try dsimp only
  (repeat' split) <;> simp [Keeps]
@[simp] theorem takeStop_pending (e : Engine) (s : State) : (takeStop e s).pending = s.pending := (takeStop_keeps e s).1
@[simp] theorem takeStop_clk (e : Engine) (s : State) : (takeStop e s).clk = s.clk := (takeStop_keeps e s).2.1
@[simp] theorem takeStop_regs (e : Engine) (s : State) : (takeStop e s).regs = s.regs := (takeStop_keeps e s).2.2.1
@[simp] theorem takeStop_masks (e : Engine) (s : State) : (takeStop e s).evt.masks = s.evt.masks := (takeStop_keeps e s).2.2.2

theorem takeSuspend_keeps (e : Engine) (cause : Nat) (s : State) : Keeps s (takeSuspend e cause s) := by
  unfold takeSuspend
  try dsimp only
  (repeat' split) <;> simp [Keeps]
@[simp] theorem takeSuspend_pending (e : Engine) (cause : Nat) (s : State) : (takeSuspend e cause s).pending = s.pending := (takeSuspend_keeps e cause s).1
@[simp] theorem takeSuspend_clk (e : Engine) (cause : Nat) (s : State) : (takeSuspend e cause s).clk = s.clk := (takeSuspend_keeps e cause s).2.1
@[simp] theorem takeSuspend_regs (e : Engine) (cause : Nat) (s : State) : (takeSuspend e cause s).regs = s.regs := (takeSuspend_keeps e cause s).2.2.1
@[simp] theorem takeSuspend_masks (e : Engine) (cause : Nat) (s : State) : (takeSuspend e cause s).evt.masks = s.evt.masks := (takeSuspend_keeps e cause s).2.2.2

theorem emptyInbound_keeps (e : Engine) (s : State) : Keeps s (emptyInbound e s) := by
  unfold emptyInbound
  try dsimp only
  (repeat' split) <;> simp [Keeps]
@[simp] theorem emptyInbound_pending (e : Engine) (s : State) : (emptyInbound e s).pending = s.pending := (emptyInbound_keeps e s).1
@[simp] theorem emptyInbound_clk (e : Engine) (s : State) : (emptyInbound e s).clk = s.clk := (emptyInbound_keeps e s).2.1
@[simp] theorem emptyInbound_regs (e : Engine) (s : State) : (emptyInbound e s).regs = s.regs := (emptyInbound_keeps e s).2.2.1
@[simp] theorem emptyInbound_masks (e : Engine) (s : State) : (emptyInbound e s).evt.masks = s.evt.masks := (emptyInbound_keeps e s).2.2.2

theorem beginLaunch_keeps (e : Engine) (slot : Nat) (args : List Word) (s : State) : Keeps s (beginLaunch e slot args s) := by
  unfold beginLaunch
  try dsimp only
  (repeat' split) <;> simp [Keeps]
@[simp] theorem beginLaunch_pending (e : Engine) (slot : Nat) (args : List Word) (s : State) : (beginLaunch e slot args s).pending = s.pending := (beginLaunch_keeps e slot args s).1
@[simp] theorem beginLaunch_clk (e : Engine) (slot : Nat) (args : List Word) (s : State) : (beginLaunch e slot args s).clk = s.clk := (beginLaunch_keeps e slot args s).2.1
@[simp] theorem beginLaunch_regs (e : Engine) (slot : Nat) (args : List Word) (s : State) : (beginLaunch e slot args s).regs = s.regs := (beginLaunch_keeps e slot args s).2.2.1
@[simp] theorem beginLaunch_masks (e : Engine) (slot : Nat) (args : List Word) (s : State) : (beginLaunch e slot args s).evt.masks = s.evt.masks := (beginLaunch_keeps e slot args s).2.2.2

theorem startEngine_keeps (e : Engine) (s : State) : Keeps s (startEngine e s) := by
  unfold startEngine
  try dsimp only
  (repeat' split) <;> simp [Keeps]
@[simp] theorem startEngine_pending (e : Engine) (s : State) : (startEngine e s).pending = s.pending := (startEngine_keeps e s).1
@[simp] theorem startEngine_clk (e : Engine) (s : State) : (startEngine e s).clk = s.clk := (startEngine_keeps e s).2.1
@[simp] theorem startEngine_regs (e : Engine) (s : State) : (startEngine e s).regs = s.regs := (startEngine_keeps e s).2.2.1
@[simp] theorem startEngine_masks (e : Engine) (s : State) : (startEngine e s).evt.masks = s.evt.masks := (startEngine_keeps e s).2.2.2

end Sys2Proof.Machine
end

