-- ==== Sys2Proof/Laws/Keep/SweepOps.lean ====
section
/-! SUPPORT. What the operations of `Machine/SweepOps.lean` leave alone. -/

namespace Sys2Proof.Machine

open Sys2Proof

theorem initBlock_keeps (s : State) : Keeps s (initBlock s) := by
  unfold initBlock
  try dsimp only
  (repeat' split) <;> simp [Keeps]
@[simp] theorem initBlock_pending (s : State) : (initBlock s).pending = s.pending := (initBlock_keeps s).1
@[simp] theorem initBlock_clk (s : State) : (initBlock s).clk = s.clk := (initBlock_keeps s).2.1
@[simp] theorem initBlock_regs (s : State) : (initBlock s).regs = s.regs := (initBlock_keeps s).2.2.1
@[simp] theorem initBlock_masks (s : State) : (initBlock s).evt.masks = s.evt.masks := (initBlock_keeps s).2.2.2

theorem storePass_keeps (s : State) : Keeps s (storePass s) := by
  unfold storePass
  exact fold_keeps _ (fun s c => by (try dsimp only); (repeat' split) <;> simp [Keeps]) _ _
@[simp] theorem storePass_pending (s : State) : (storePass s).pending = s.pending := (storePass_keeps s).1
@[simp] theorem storePass_clk (s : State) : (storePass s).clk = s.clk := (storePass_keeps s).2.1
@[simp] theorem storePass_regs (s : State) : (storePass s).regs = s.regs := (storePass_keeps s).2.2.1
@[simp] theorem storePass_masks (s : State) : (storePass s).evt.masks = s.evt.masks := (storePass_keeps s).2.2.2

theorem fitEntry_keeps (s : State) (cell : Nat) (params : List Nat) (iters : Nat) (status : Nat) : Keeps s (fitEntry s cell params iters status) := by
  unfold fitEntry
  try dsimp only
  (repeat' split) <;> simp [Keeps]
@[simp] theorem fitEntry_pending (s : State) (cell : Nat) (params : List Nat) (iters : Nat) (status : Nat) : (fitEntry s cell params iters status).pending = s.pending := (fitEntry_keeps s cell params iters status).1
@[simp] theorem fitEntry_clk (s : State) (cell : Nat) (params : List Nat) (iters : Nat) (status : Nat) : (fitEntry s cell params iters status).clk = s.clk := (fitEntry_keeps s cell params iters status).2.1
@[simp] theorem fitEntry_regs (s : State) (cell : Nat) (params : List Nat) (iters : Nat) (status : Nat) : (fitEntry s cell params iters status).regs = s.regs := (fitEntry_keeps s cell params iters status).2.2.1
@[simp] theorem fitEntry_masks (s : State) (cell : Nat) (params : List Nat) (iters : Nat) (status : Nat) : (fitEntry s cell params iters status).evt.masks = s.evt.masks := (fitEntry_keeps s cell params iters status).2.2.2

theorem unfitted_keeps (cell : Nat) (status : Nat) (s : State) : Keeps s (unfitted cell status s) := by
  unfold unfitted
  try dsimp only
  (repeat' split) <;> simp [Keeps]
@[simp] theorem unfitted_pending (cell : Nat) (status : Nat) (s : State) : (unfitted cell status s).pending = s.pending := (unfitted_keeps cell status s).1
@[simp] theorem unfitted_clk (cell : Nat) (status : Nat) (s : State) : (unfitted cell status s).clk = s.clk := (unfitted_keeps cell status s).2.1
@[simp] theorem unfitted_regs (cell : Nat) (status : Nat) (s : State) : (unfitted cell status s).regs = s.regs := (unfitted_keeps cell status s).2.2.1
@[simp] theorem unfitted_masks (cell : Nat) (status : Nat) (s : State) : (unfitted cell status s).evt.masks = s.evt.masks := (unfitted_keeps cell status s).2.2.2

theorem fitCell_keeps (cell : Nat) (s : State) : Keeps s (fitCell cell s) := by
  unfold fitCell
  try dsimp only
  (repeat' split) <;> simp [Keeps]
@[simp] theorem fitCell_pending (cell : Nat) (s : State) : (fitCell cell s).pending = s.pending := (fitCell_keeps cell s).1
@[simp] theorem fitCell_clk (cell : Nat) (s : State) : (fitCell cell s).clk = s.clk := (fitCell_keeps cell s).2.1
@[simp] theorem fitCell_regs (cell : Nat) (s : State) : (fitCell cell s).regs = s.regs := (fitCell_keeps cell s).2.2.1
@[simp] theorem fitCell_masks (cell : Nat) (s : State) : (fitCell cell s).evt.masks = s.evt.masks := (fitCell_keeps cell s).2.2.2

theorem writeHeader_keeps (s : State) : Keeps s (writeHeader s) := by
  unfold writeHeader
  try dsimp only
  (repeat' split) <;> simp [Keeps]
@[simp] theorem writeHeader_pending (s : State) : (writeHeader s).pending = s.pending := (writeHeader_keeps s).1
@[simp] theorem writeHeader_clk (s : State) : (writeHeader s).clk = s.clk := (writeHeader_keeps s).2.1
@[simp] theorem writeHeader_regs (s : State) : (writeHeader s).regs = s.regs := (writeHeader_keeps s).2.2.1
@[simp] theorem writeHeader_masks (s : State) : (writeHeader s).evt.masks = s.evt.masks := (writeHeader_keeps s).2.2.2

theorem finishSweep_keeps (s : State) : Keeps s (finishSweep s) := by
  unfold finishSweep
  try dsimp only
  (repeat' split) <;> simp [Keeps]
@[simp] theorem finishSweep_pending (s : State) : (finishSweep s).pending = s.pending := (finishSweep_keeps s).1
@[simp] theorem finishSweep_clk (s : State) : (finishSweep s).clk = s.clk := (finishSweep_keeps s).2.1
@[simp] theorem finishSweep_regs (s : State) : (finishSweep s).regs = s.regs := (finishSweep_keeps s).2.2.1
@[simp] theorem finishSweep_masks (s : State) : (finishSweep s).evt.masks = s.evt.masks := (finishSweep_keeps s).2.2.2

theorem skipUnfit_keeps (n : Nat) (s : State) : Keeps s (skipUnfit n s) := by
  induction n generalizing s with
  | zero => exact Keeps.refl s
  | succ n ih =>
    unfold skipUnfit
    dsimp only
    (repeat' split) <;> first | exact Keeps.refl s | (simp [Keeps]; done) | exact Keeps.trans (by simp [Keeps]) (ih _)
@[simp] theorem skipUnfit_pending (n : Nat) (s : State) : (skipUnfit n s).pending = s.pending := (skipUnfit_keeps n s).1
@[simp] theorem skipUnfit_clk (n : Nat) (s : State) : (skipUnfit n s).clk = s.clk := (skipUnfit_keeps n s).2.1
@[simp] theorem skipUnfit_regs (n : Nat) (s : State) : (skipUnfit n s).regs = s.regs := (skipUnfit_keeps n s).2.2.1
@[simp] theorem skipUnfit_masks (n : Nat) (s : State) : (skipUnfit n s).evt.masks = s.evt.masks := (skipUnfit_keeps n s).2.2.2

theorem abandonFit_keeps (n : Nat) (s : State) : Keeps s (abandonFit n s) := by
  induction n generalizing s with
  | zero => exact Keeps.refl s
  | succ n ih =>
    unfold abandonFit
    dsimp only
    (repeat' split) <;> first | exact Keeps.refl s | (simp [Keeps]; done) | exact Keeps.trans (by simp [Keeps]) (ih _)
@[simp] theorem abandonFit_pending (n : Nat) (s : State) : (abandonFit n s).pending = s.pending := (abandonFit_keeps n s).1
@[simp] theorem abandonFit_clk (n : Nat) (s : State) : (abandonFit n s).clk = s.clk := (abandonFit_keeps n s).2.1
@[simp] theorem abandonFit_regs (n : Nat) (s : State) : (abandonFit n s).regs = s.regs := (abandonFit_keeps n s).2.2.1
@[simp] theorem abandonFit_masks (n : Nat) (s : State) : (abandonFit n s).evt.masks = s.evt.masks := (abandonFit_keeps n s).2.2.2

theorem endDemod_keeps (s : State) : Keeps s (endDemod s) := by
  unfold endDemod
  try dsimp only
  (repeat' split) <;> simp [Keeps]
@[simp] theorem endDemod_pending (s : State) : (endDemod s).pending = s.pending := (endDemod_keeps s).1
@[simp] theorem endDemod_clk (s : State) : (endDemod s).clk = s.clk := (endDemod_keeps s).2.1
@[simp] theorem endDemod_regs (s : State) : (endDemod s).regs = s.regs := (endDemod_keeps s).2.2.1
@[simp] theorem endDemod_masks (s : State) : (endDemod s).evt.masks = s.evt.masks := (endDemod_keeps s).2.2.2

theorem closePoints_keeps (cause : Nat) (s : State) : Keeps s (closePoints cause s) := by
  unfold closePoints
  try dsimp only
  (repeat' split) <;> simp [Keeps]
@[simp] theorem closePoints_pending (cause : Nat) (s : State) : (closePoints cause s).pending = s.pending := (closePoints_keeps cause s).1
@[simp] theorem closePoints_clk (cause : Nat) (s : State) : (closePoints cause s).clk = s.clk := (closePoints_keeps cause s).2.1
@[simp] theorem closePoints_regs (cause : Nat) (s : State) : (closePoints cause s).regs = s.regs := (closePoints_keeps cause s).2.2.1
@[simp] theorem closePoints_masks (cause : Nat) (s : State) : (closePoints cause s).evt.masks = s.evt.masks := (closePoints_keeps cause s).2.2.2

theorem endSweepStim_keeps (s : State) : Keeps s (endSweepStim s) := by
  unfold endSweepStim
  try dsimp only
  (repeat' split) <;> simp [Keeps]
@[simp] theorem endSweepStim_pending (s : State) : (endSweepStim s).pending = s.pending := (endSweepStim_keeps s).1
@[simp] theorem endSweepStim_clk (s : State) : (endSweepStim s).clk = s.clk := (endSweepStim_keeps s).2.1
@[simp] theorem endSweepStim_regs (s : State) : (endSweepStim s).regs = s.regs := (endSweepStim_keeps s).2.2.1
@[simp] theorem endSweepStim_masks (s : State) : (endSweepStim s).evt.masks = s.evt.masks := (endSweepStim_keeps s).2.2.2

theorem reportSweep_keeps (cause : Nat) (s : State) : Keeps s (reportSweep cause s) := by
  unfold reportSweep
  try dsimp only
  (repeat' split) <;> simp [Keeps]
@[simp] theorem reportSweep_pending (cause : Nat) (s : State) : (reportSweep cause s).pending = s.pending := (reportSweep_keeps cause s).1
@[simp] theorem reportSweep_clk (cause : Nat) (s : State) : (reportSweep cause s).clk = s.clk := (reportSweep_keeps cause s).2.1
@[simp] theorem reportSweep_regs (cause : Nat) (s : State) : (reportSweep cause s).regs = s.regs := (reportSweep_keeps cause s).2.2.1
@[simp] theorem reportSweep_masks (cause : Nat) (s : State) : (reportSweep cause s).evt.masks = s.evt.masks := (reportSweep_keeps cause s).2.2.2

theorem endSweep_keeps (cause : Nat) (s : State) : Keeps s (endSweep cause s) := by
  unfold endSweep
  try dsimp only
  (repeat' split) <;> simp [Keeps]
@[simp] theorem endSweep_pending (cause : Nat) (s : State) : (endSweep cause s).pending = s.pending := (endSweep_keeps cause s).1
@[simp] theorem endSweep_clk (cause : Nat) (s : State) : (endSweep cause s).clk = s.clk := (endSweep_keeps cause s).2.1
@[simp] theorem endSweep_regs (cause : Nat) (s : State) : (endSweep cause s).regs = s.regs := (endSweep_keeps cause s).2.2.1
@[simp] theorem endSweep_masks (cause : Nat) (s : State) : (endSweep cause s).evt.masks = s.evt.masks := (endSweep_keeps cause s).2.2.2

theorem startPass_keeps (p : Nat × Bool) (s : State) : Keeps s (startPass p s) := by
  unfold startPass
  try dsimp only
  (repeat' split) <;> simp [Keeps]
@[simp] theorem startPass_pending (p : Nat × Bool) (s : State) : (startPass p s).pending = s.pending := (startPass_keeps p s).1
@[simp] theorem startPass_clk (p : Nat × Bool) (s : State) : (startPass p s).clk = s.clk := (startPass_keeps p s).2.1
@[simp] theorem startPass_regs (p : Nat × Bool) (s : State) : (startPass p s).regs = s.regs := (startPass_keeps p s).2.2.1
@[simp] theorem startPass_masks (p : Nat × Bool) (s : State) : (startPass p s).evt.masks = s.evt.masks := (startPass_keeps p s).2.2.2

theorem sweepSample_keeps (s : State) : Keeps s (sweepSample s) := by
  unfold sweepSample
  try dsimp only
  (repeat' split) <;> simp [Keeps]
@[simp] theorem sweepSample_pending (s : State) : (sweepSample s).pending = s.pending := (sweepSample_keeps s).1
@[simp] theorem sweepSample_clk (s : State) : (sweepSample s).clk = s.clk := (sweepSample_keeps s).2.1
@[simp] theorem sweepSample_regs (s : State) : (sweepSample s).regs = s.regs := (sweepSample_keeps s).2.2.1
@[simp] theorem sweepSample_masks (s : State) : (sweepSample s).evt.masks = s.evt.masks := (sweepSample_keeps s).2.2.2

theorem trackStep_keeps (s : State) : Keeps s (trackStep s) := by
  unfold trackStep
  try dsimp only
  (repeat' split) <;> simp [Keeps]
@[simp] theorem trackStep_pending (s : State) : (trackStep s).pending = s.pending := (trackStep_keeps s).1
@[simp] theorem trackStep_clk (s : State) : (trackStep s).clk = s.clk := (trackStep_keeps s).2.1
@[simp] theorem trackStep_regs (s : State) : (trackStep s).regs = s.regs := (trackStep_keeps s).2.2.1
@[simp] theorem trackStep_masks (s : State) : (trackStep s).evt.masks = s.evt.masks := (trackStep_keeps s).2.2.2

theorem runStateService_keeps (s : State) : Keeps s (runStateService s) := by
  unfold runStateService
  try dsimp only
  (repeat' split) <;> simp [Keeps]
@[simp] theorem runStateService_pending (s : State) : (runStateService s).pending = s.pending := (runStateService_keeps s).1
@[simp] theorem runStateService_clk (s : State) : (runStateService s).clk = s.clk := (runStateService_keeps s).2.1
@[simp] theorem runStateService_regs (s : State) : (runStateService s).regs = s.regs := (runStateService_keeps s).2.2.1
@[simp] theorem runStateService_masks (s : State) : (runStateService s).evt.masks = s.evt.masks := (runStateService_keeps s).2.2.2

theorem endLibrary_keeps (s : State) : Keeps s (endLibrary s) := by
  unfold endLibrary
  try dsimp only
  (repeat' split) <;> simp [Keeps]
@[simp] theorem endLibrary_pending (s : State) : (endLibrary s).pending = s.pending := (endLibrary_keeps s).1
@[simp] theorem endLibrary_clk (s : State) : (endLibrary s).clk = s.clk := (endLibrary_keeps s).2.1
@[simp] theorem endLibrary_regs (s : State) : (endLibrary s).regs = s.regs := (endLibrary_keeps s).2.2.1
@[simp] theorem endLibrary_masks (s : State) : (endLibrary s).evt.masks = s.evt.masks := (endLibrary_keeps s).2.2.2

theorem stateService_keeps (s : State) : Keeps s (stateService s) := by
  unfold stateService
  try dsimp only
  (repeat' split) <;> simp [Keeps]
@[simp] theorem stateService_pending (s : State) : (stateService s).pending = s.pending := (stateService_keeps s).1
@[simp] theorem stateService_clk (s : State) : (stateService s).clk = s.clk := (stateService_keeps s).2.1
@[simp] theorem stateService_regs (s : State) : (stateService s).regs = s.regs := (stateService_keeps s).2.2.1
@[simp] theorem stateService_masks (s : State) : (stateService s).evt.masks = s.evt.masks := (stateService_keeps s).2.2.2

theorem modelFit_keeps (s : State) : Keeps s (modelFit s) := by
  unfold modelFit
  try dsimp only
  (repeat' split) <;> simp [Keeps]
@[simp] theorem modelFit_pending (s : State) : (modelFit s).pending = s.pending := (modelFit_keeps s).1
@[simp] theorem modelFit_clk (s : State) : (modelFit s).clk = s.clk := (modelFit_keeps s).2.1
@[simp] theorem modelFit_regs (s : State) : (modelFit s).regs = s.regs := (modelFit_keeps s).2.2.1
@[simp] theorem modelFit_masks (s : State) : (modelFit s).evt.masks = s.evt.masks := (modelFit_keeps s).2.2.2

theorem runLibrary_keeps (e : Engine) (s : State) : Keeps s (runLibrary e s) := by
  unfold runLibrary
  try dsimp only
  (repeat' split) <;> simp [Keeps]
@[simp] theorem runLibrary_pending (e : Engine) (s : State) : (runLibrary e s).pending = s.pending := (runLibrary_keeps e s).1
@[simp] theorem runLibrary_clk (e : Engine) (s : State) : (runLibrary e s).clk = s.clk := (runLibrary_keeps e s).2.1
@[simp] theorem runLibrary_regs (e : Engine) (s : State) : (runLibrary e s).regs = s.regs := (runLibrary_keeps e s).2.2.1
@[simp] theorem runLibrary_masks (e : Engine) (s : State) : (runLibrary e s).evt.masks = s.evt.masks := (runLibrary_keeps e s).2.2.2

end Sys2Proof.Machine
end

