-- ==== Sys2Proof/Laws/Keep/Balance.lean ====
section
/-! SUPPORT. What the operations of `Machine/Balance.lean` leave alone. -/

namespace Sys2Proof.Machine

open Sys2Proof

theorem cmdBalSet_keeps (rq : Req) (mask : BitVec 16) (onTime : BitVec 16) (s : State) : Keeps s (cmdBalSet rq mask onTime s).st := by
  unfold cmdBalSet
  try dsimp only
  (repeat' split) <;> simp [Keeps, Res.of]
@[simp] theorem cmdBalSet_pending (rq : Req) (mask : BitVec 16) (onTime : BitVec 16) (s : State) : (cmdBalSet rq mask onTime s).st.pending = s.pending := (cmdBalSet_keeps rq mask onTime s).1
@[simp] theorem cmdBalSet_clk (rq : Req) (mask : BitVec 16) (onTime : BitVec 16) (s : State) : (cmdBalSet rq mask onTime s).st.clk = s.clk := (cmdBalSet_keeps rq mask onTime s).2.1
@[simp] theorem cmdBalSet_regs (rq : Req) (mask : BitVec 16) (onTime : BitVec 16) (s : State) : (cmdBalSet rq mask onTime s).st.regs = s.regs := (cmdBalSet_keeps rq mask onTime s).2.2.1
@[simp] theorem cmdBalSet_masks (rq : Req) (mask : BitVec 16) (onTime : BitVec 16) (s : State) : (cmdBalSet rq mask onTime s).st.evt.masks = s.evt.masks := (cmdBalSet_keeps rq mask onTime s).2.2.2

theorem execBalSet_keeps (rq : Req) (mask : BitVec 16) (onTime : BitVec 16) (s : State) {t : State} (h : execBalSet rq mask onTime s = .next t) : Keeps s t := by
  unfold execBalSet at h
  try dsimp only at h
  (repeat' split at h) <;> (injection h with h; subst h; simp [Keeps, runCmd_pending, runCmd_clk, runCmd_regs, runCmd_masks])

theorem cmdBalStop_keeps (rq : Req) (mask : BitVec 16) (s : State) : Keeps s (cmdBalStop rq mask s).st := by
  unfold cmdBalStop
  try dsimp only
  (repeat' split) <;> simp [Keeps, Res.of]
@[simp] theorem cmdBalStop_pending (rq : Req) (mask : BitVec 16) (s : State) : (cmdBalStop rq mask s).st.pending = s.pending := (cmdBalStop_keeps rq mask s).1
@[simp] theorem cmdBalStop_clk (rq : Req) (mask : BitVec 16) (s : State) : (cmdBalStop rq mask s).st.clk = s.clk := (cmdBalStop_keeps rq mask s).2.1
@[simp] theorem cmdBalStop_regs (rq : Req) (mask : BitVec 16) (s : State) : (cmdBalStop rq mask s).st.regs = s.regs := (cmdBalStop_keeps rq mask s).2.2.1
@[simp] theorem cmdBalStop_masks (rq : Req) (mask : BitVec 16) (s : State) : (cmdBalStop rq mask s).st.evt.masks = s.evt.masks := (cmdBalStop_keeps rq mask s).2.2.2

theorem execBalStop_keeps (rq : Req) (mask : BitVec 16) (s : State) {t : State} (h : execBalStop rq mask s = .next t) : Keeps s t := by
  unfold execBalStop at h
  try dsimp only at h
  (repeat' split at h) <;> (injection h with h; subst h; simp [Keeps, runCmd_pending, runCmd_clk, runCmd_regs, runCmd_masks])

theorem cmdStimSet_keeps (rq : Req) (mask : BitVec 16) (wave : Byte) (dur : Byte) (freq : Word) (bias : BitVec 16) (amp : BitVec 16) (s : State) : Keeps s (cmdStimSet rq mask wave dur freq bias amp s).st := by
  unfold cmdStimSet
  try dsimp only
  (repeat' split) <;> simp [Keeps, Res.of]
@[simp] theorem cmdStimSet_pending (rq : Req) (mask : BitVec 16) (wave : Byte) (dur : Byte) (freq : Word) (bias : BitVec 16) (amp : BitVec 16) (s : State) : (cmdStimSet rq mask wave dur freq bias amp s).st.pending = s.pending := (cmdStimSet_keeps rq mask wave dur freq bias amp s).1
@[simp] theorem cmdStimSet_clk (rq : Req) (mask : BitVec 16) (wave : Byte) (dur : Byte) (freq : Word) (bias : BitVec 16) (amp : BitVec 16) (s : State) : (cmdStimSet rq mask wave dur freq bias amp s).st.clk = s.clk := (cmdStimSet_keeps rq mask wave dur freq bias amp s).2.1
@[simp] theorem cmdStimSet_regs (rq : Req) (mask : BitVec 16) (wave : Byte) (dur : Byte) (freq : Word) (bias : BitVec 16) (amp : BitVec 16) (s : State) : (cmdStimSet rq mask wave dur freq bias amp s).st.regs = s.regs := (cmdStimSet_keeps rq mask wave dur freq bias amp s).2.2.1
@[simp] theorem cmdStimSet_masks (rq : Req) (mask : BitVec 16) (wave : Byte) (dur : Byte) (freq : Word) (bias : BitVec 16) (amp : BitVec 16) (s : State) : (cmdStimSet rq mask wave dur freq bias amp s).st.evt.masks = s.evt.masks := (cmdStimSet_keeps rq mask wave dur freq bias amp s).2.2.2

theorem execStimSet_keeps (rq : Req) (mask : BitVec 16) (wave : Byte) (dur : Byte) (freq : Word) (bias : BitVec 16) (amp : BitVec 16) (s : State) {t : State} (h : execStimSet rq mask wave dur freq bias amp s = .next t) : Keeps s t := by
  unfold execStimSet at h
  try dsimp only at h
  (repeat' split at h) <;> (injection h with h; subst h; simp [Keeps, runCmd_pending, runCmd_clk, runCmd_regs, runCmd_masks])

theorem execStimStart_keeps (s : State) {t : State} (h : execStimStart s = .next t) : Keeps s t := by
  unfold execStimStart at h
  try dsimp only at h
  (repeat' split at h) <;> (injection h with h; subst h; simp [Keeps])

theorem execStimEnd_keeps (s : State) {t : State} (h : execStimEnd s = .next t) : Keeps s t := by
  unfold execStimEnd at h
  try dsimp only at h
  (repeat' split at h) <;> (injection h with h; subst h; simp [Keeps])

theorem execBalTimeout_keeps (s : State) {t : State} (h : execBalTimeout s = .next t) : Keeps s t := by
  unfold execBalTimeout at h
  try dsimp only at h
  (repeat' split at h) <;> (injection h with h; subst h; simp [Keeps])

theorem clearDiag_keeps (mask : BitVec 16) (s : State) : Keeps s (clearDiag mask s) := by
  unfold clearDiag
  try dsimp only
  (repeat' split) <;>
    first
    | (simp [Keeps, fold_pending, fold_clk, fold_regs, fold_masks, fold1_pending, fold1_clk, fold1_regs, fold1_masks, apply_ite State.pending, apply_ite State.clk, apply_ite State.regs, apply_ite State.evt, apply_ite EvtSt.masks]; done)
    | (refine Keeps.trans ?_ (fold_keeps _ (fun s a => ?_) _ _) <;> (try dsimp only) <;> (repeat' split) <;> simp [Keeps])
@[simp] theorem clearDiag_pending (mask : BitVec 16) (s : State) : (clearDiag mask s).pending = s.pending := (clearDiag_keeps mask s).1
@[simp] theorem clearDiag_clk (mask : BitVec 16) (s : State) : (clearDiag mask s).clk = s.clk := (clearDiag_keeps mask s).2.1
@[simp] theorem clearDiag_regs (mask : BitVec 16) (s : State) : (clearDiag mask s).regs = s.regs := (clearDiag_keeps mask s).2.2.1
@[simp] theorem clearDiag_masks (mask : BitVec 16) (s : State) : (clearDiag mask s).evt.masks = s.evt.masks := (clearDiag_keeps mask s).2.2.2

theorem execBalDiagClr_keeps (mask : BitVec 16) (s : State) {t : State} (h : execBalDiagClr mask s = .next t) : Keeps s t := by
  unfold execBalDiagClr at h
  try dsimp only at h
  (repeat' split at h) <;> (injection h with h; subst h; simp [Keeps])

theorem execDiagAgeExpiry_keeps (ch : Fin 16) (s : State) {t : State} (h : execDiagAgeExpiry ch s = .next t) : Keeps s t := by
  unfold execDiagAgeExpiry at h
  try dsimp only at h
  (repeat' split at h) <;> (injection h with h; subst h; simp [Keeps])

theorem loadTest_keeps (startUV : List Int) (endUV : List Int) (k : Nat) (s : State) : Keeps s (loadTest startUV endUV k s) := by
  unfold loadTest
  try dsimp only
  (repeat' split) <;> simp [Keeps]
@[simp] theorem loadTest_pending (startUV : List Int) (endUV : List Int) (k : Nat) (s : State) : (loadTest startUV endUV k s).pending = s.pending := (loadTest_keeps startUV endUV k s).1
@[simp] theorem loadTest_clk (startUV : List Int) (endUV : List Int) (k : Nat) (s : State) : (loadTest startUV endUV k s).clk = s.clk := (loadTest_keeps startUV endUV k s).2.1
@[simp] theorem loadTest_regs (startUV : List Int) (endUV : List Int) (k : Nat) (s : State) : (loadTest startUV endUV k s).regs = s.regs := (loadTest_keeps startUV endUV k s).2.2.1
@[simp] theorem loadTest_masks (startUV : List Int) (endUV : List Int) (k : Nat) (s : State) : (loadTest startUV endUV k s).evt.masks = s.evt.masks := (loadTest_keeps startUV endUV k s).2.2.2

theorem openTest_keeps (mA : Nat) (k : Nat) (s : State) : Keeps s (openTest mA k s) := by
  unfold openTest
  try dsimp only
  (repeat' split) <;> simp [Keeps]
@[simp] theorem openTest_pending (mA : Nat) (k : Nat) (s : State) : (openTest mA k s).pending = s.pending := (openTest_keeps mA k s).1
@[simp] theorem openTest_clk (mA : Nat) (k : Nat) (s : State) : (openTest mA k s).clk = s.clk := (openTest_keeps mA k s).2.1
@[simp] theorem openTest_regs (mA : Nat) (k : Nat) (s : State) : (openTest mA k s).regs = s.regs := (openTest_keeps mA k s).2.2.1
@[simp] theorem openTest_masks (mA : Nat) (k : Nat) (s : State) : (openTest mA k s).evt.masks = s.evt.masks := (openTest_keeps mA k s).2.2.2

theorem gateTest_keeps (onMV : Int) (offMV : Int) (k : Nat) (s : State) : Keeps s (gateTest onMV offMV k s) := by
  unfold gateTest
  try dsimp only
  (repeat' split) <;> simp [Keeps]
@[simp] theorem gateTest_pending (onMV : Int) (offMV : Int) (k : Nat) (s : State) : (gateTest onMV offMV k s).pending = s.pending := (gateTest_keeps onMV offMV k s).1
@[simp] theorem gateTest_clk (onMV : Int) (offMV : Int) (k : Nat) (s : State) : (gateTest onMV offMV k s).clk = s.clk := (gateTest_keeps onMV offMV k s).2.1
@[simp] theorem gateTest_regs (onMV : Int) (offMV : Int) (k : Nat) (s : State) : (gateTest onMV offMV k s).regs = s.regs := (gateTest_keeps onMV offMV k s).2.2.1
@[simp] theorem gateTest_masks (onMV : Int) (offMV : Int) (k : Nat) (s : State) : (gateTest onMV offMV k s).evt.masks = s.evt.masks := (gateTest_keeps onMV offMV k s).2.2.2

theorem execLoadCheck_keeps (startUV : List Int) (endUV : List Int) (gateOnMV : List Int) (gateOffMV : List Int) (s : State) {t : State} (h : execLoadCheck startUV endUV gateOnMV gateOffMV s = .next t) : Keeps s t := by
  unfold execLoadCheck at h
  try dsimp only at h
  (repeat' split at h) <;> (injection h with h; subst h; simp [Keeps, fold_pending, fold_clk, fold_regs, fold_masks, fold1_pending, fold1_clk, fold1_regs, fold1_masks, apply_ite State.pending, apply_ite State.clk, apply_ite State.regs, apply_ite State.evt, apply_ite EvtSt.masks])

theorem cutLimited_keeps (m : BalMeas) (s : State) : Keeps s (cutLimited m s) := by
  unfold cutLimited
  try dsimp only
  (repeat' split) <;> simp [Keeps]
@[simp] theorem cutLimited_pending (m : BalMeas) (s : State) : (cutLimited m s).pending = s.pending := (cutLimited_keeps m s).1
@[simp] theorem cutLimited_clk (m : BalMeas) (s : State) : (cutLimited m s).clk = s.clk := (cutLimited_keeps m s).2.1
@[simp] theorem cutLimited_regs (m : BalMeas) (s : State) : (cutLimited m s).regs = s.regs := (cutLimited_keeps m s).2.2.1
@[simp] theorem cutLimited_masks (m : BalMeas) (s : State) : (cutLimited m s).evt.masks = s.evt.masks := (cutLimited_keeps m s).2.2.2

theorem internalTests_keeps (m : BalMeas) (k : Nat) (s : State) : Keeps s (internalTests m k s) := by
  unfold internalTests
  try dsimp only
  (repeat' split) <;> simp [Keeps]
@[simp] theorem internalTests_pending (m : BalMeas) (k : Nat) (s : State) : (internalTests m k s).pending = s.pending := (internalTests_keeps m k s).1
@[simp] theorem internalTests_clk (m : BalMeas) (k : Nat) (s : State) : (internalTests m k s).clk = s.clk := (internalTests_keeps m k s).2.1
@[simp] theorem internalTests_regs (m : BalMeas) (k : Nat) (s : State) : (internalTests m k s).regs = s.regs := (internalTests_keeps m k s).2.2.1
@[simp] theorem internalTests_masks (m : BalMeas) (k : Nat) (s : State) : (internalTests m k s).evt.masks = s.evt.masks := (internalTests_keeps m k s).2.2.2

theorem shortTest_keeps (m : BalMeas) (k : Nat) (s : State) : Keeps s (shortTest m k s) := by
  unfold shortTest
  try dsimp only
  (repeat' split) <;> simp [Keeps]
@[simp] theorem shortTest_pending (m : BalMeas) (k : Nat) (s : State) : (shortTest m k s).pending = s.pending := (shortTest_keeps m k s).1
@[simp] theorem shortTest_clk (m : BalMeas) (k : Nat) (s : State) : (shortTest m k s).clk = s.clk := (shortTest_keeps m k s).2.1
@[simp] theorem shortTest_regs (m : BalMeas) (k : Nat) (s : State) : (shortTest m k s).regs = s.regs := (shortTest_keeps m k s).2.2.1
@[simp] theorem shortTest_masks (m : BalMeas) (k : Nat) (s : State) : (shortTest m k s).evt.masks = s.evt.masks := (shortTest_keeps m k s).2.2.2

theorem pulseTest_keeps (m : BalMeas) (s : State) (k : Nat) : Keeps s (pulseTest m s k) := by
  unfold pulseTest
  try dsimp only
  (repeat' split) <;> simp [Keeps]
@[simp] theorem pulseTest_pending (m : BalMeas) (s : State) (k : Nat) : (pulseTest m s k).pending = s.pending := (pulseTest_keeps m s k).1
@[simp] theorem pulseTest_clk (m : BalMeas) (s : State) (k : Nat) : (pulseTest m s k).clk = s.clk := (pulseTest_keeps m s k).2.1
@[simp] theorem pulseTest_regs (m : BalMeas) (s : State) (k : Nat) : (pulseTest m s k).regs = s.regs := (pulseTest_keeps m s k).2.2.1
@[simp] theorem pulseTest_masks (m : BalMeas) (s : State) (k : Nat) : (pulseTest m s k).evt.masks = s.evt.masks := (pulseTest_keeps m s k).2.2.2

theorem noteClip_keeps (m : BalMeas) (s : State) : Keeps s (noteClip m s) := by
  unfold noteClip
  try dsimp only
  (repeat' split) <;> simp [Keeps]
@[simp] theorem noteClip_pending (m : BalMeas) (s : State) : (noteClip m s).pending = s.pending := (noteClip_keeps m s).1
@[simp] theorem noteClip_clk (m : BalMeas) (s : State) : (noteClip m s).clk = s.clk := (noteClip_keeps m s).2.1
@[simp] theorem noteClip_regs (m : BalMeas) (s : State) : (noteClip m s).regs = s.regs := (noteClip_keeps m s).2.2.1
@[simp] theorem noteClip_masks (m : BalMeas) (s : State) : (noteClip m s).evt.masks = s.evt.masks := (noteClip_keeps m s).2.2.2

theorem endPeriod_keeps (m : BalMeas) (s : State) : Keeps s (endPeriod m s) := by
  unfold endPeriod
  try dsimp only
  (repeat' split) <;>
    first
    | (simp [Keeps, fold_pending, fold_clk, fold_regs, fold_masks, fold1_pending, fold1_clk, fold1_regs, fold1_masks, apply_ite State.pending, apply_ite State.clk, apply_ite State.regs, apply_ite State.evt, apply_ite EvtSt.masks]; done)
    | (refine Keeps.trans ?_ (fold_keeps _ (fun s a => ?_) _ _) <;> (try dsimp only) <;> (repeat' split) <;> simp [Keeps])
@[simp] theorem endPeriod_pending (m : BalMeas) (s : State) : (endPeriod m s).pending = s.pending := (endPeriod_keeps m s).1
@[simp] theorem endPeriod_clk (m : BalMeas) (s : State) : (endPeriod m s).clk = s.clk := (endPeriod_keeps m s).2.1
@[simp] theorem endPeriod_regs (m : BalMeas) (s : State) : (endPeriod m s).regs = s.regs := (endPeriod_keeps m s).2.2.1
@[simp] theorem endPeriod_masks (m : BalMeas) (s : State) : (endPeriod m s).evt.masks = s.evt.masks := (endPeriod_keeps m s).2.2.2

theorem beginPeriod_keeps (s : State) : Keeps s (beginPeriod s) := by
  unfold beginPeriod
  try dsimp only
  (repeat' split) <;> simp [Keeps]
@[simp] theorem beginPeriod_pending (s : State) : (beginPeriod s).pending = s.pending := (beginPeriod_keeps s).1
@[simp] theorem beginPeriod_clk (s : State) : (beginPeriod s).clk = s.clk := (beginPeriod_keeps s).2.1
@[simp] theorem beginPeriod_regs (s : State) : (beginPeriod s).regs = s.regs := (beginPeriod_keeps s).2.2.1
@[simp] theorem beginPeriod_masks (s : State) : (beginPeriod s).evt.masks = s.evt.masks := (beginPeriod_keeps s).2.2.2

theorem execBalPeriod_keeps (meas : BalMeas) (s : State) {t : State} (h : execBalPeriod meas s = .next t) : Keeps s t := by
  unfold execBalPeriod at h
  try dsimp only at h
  (repeat' split at h) <;> (injection h with h; subst h; simp [Keeps])

end Sys2Proof.Machine
end

