-- ==== Sys2Proof/Laws/Keep/WatchEv.lean ====
section
/-! SUPPORT. What the operations of `Machine/WatchEv.lean` leave alone. -/

namespace Sys2Proof.Machine

open Sys2Proof

theorem dropGas_keeps (n : Nat) (s : State) : Keeps s (dropGas n s) := by
  unfold dropGas
  try dsimp only
  (repeat' split) <;> simp [Keeps]
@[simp] theorem dropGas_pending (n : Nat) (s : State) : (dropGas n s).pending = s.pending := (dropGas_keeps n s).1
@[simp] theorem dropGas_clk (n : Nat) (s : State) : (dropGas n s).clk = s.clk := (dropGas_keeps n s).2.1
@[simp] theorem dropGas_regs (n : Nat) (s : State) : (dropGas n s).regs = s.regs := (dropGas_keeps n s).2.2.1
@[simp] theorem dropGas_masks (n : Nat) (s : State) : (dropGas n s).evt.masks = s.evt.masks := (dropGas_keeps n s).2.2.2

theorem dropPressure_keeps (n : Nat) (s : State) : Keeps s (dropPressure n s) := by
  unfold dropPressure
  try dsimp only
  (repeat' split) <;> simp [Keeps]
@[simp] theorem dropPressure_pending (n : Nat) (s : State) : (dropPressure n s).pending = s.pending := (dropPressure_keeps n s).1
@[simp] theorem dropPressure_clk (n : Nat) (s : State) : (dropPressure n s).clk = s.clk := (dropPressure_keeps n s).2.1
@[simp] theorem dropPressure_regs (n : Nat) (s : State) : (dropPressure n s).regs = s.regs := (dropPressure_keeps n s).2.2.1
@[simp] theorem dropPressure_masks (n : Nat) (s : State) : (dropPressure n s).evt.masks = s.evt.masks := (dropPressure_keeps n s).2.2.2

theorem takeGas_keeps (n : Nat) (v : Nat) (s : State) : Keeps s (takeGas n v s) := by
  unfold takeGas
  try dsimp only
  (repeat' split) <;> simp [Keeps]
@[simp] theorem takeGas_pending (n : Nat) (v : Nat) (s : State) : (takeGas n v s).pending = s.pending := (takeGas_keeps n v s).1
@[simp] theorem takeGas_clk (n : Nat) (v : Nat) (s : State) : (takeGas n v s).clk = s.clk := (takeGas_keeps n v s).2.1
@[simp] theorem takeGas_regs (n : Nat) (v : Nat) (s : State) : (takeGas n v s).regs = s.regs := (takeGas_keeps n v s).2.2.1
@[simp] theorem takeGas_masks (n : Nat) (v : Nat) (s : State) : (takeGas n v s).evt.masks = s.evt.masks := (takeGas_keeps n v s).2.2.2

theorem judgeRate_keeps (n : Nat) (step : Nat) (r : Rat) (s : State) : Keeps s (judgeRate n step r s) := by
  unfold judgeRate
  try dsimp only
  (repeat' split) <;> simp [Keeps]
@[simp] theorem judgeRate_pending (n : Nat) (step : Nat) (r : Rat) (s : State) : (judgeRate n step r s).pending = s.pending := (judgeRate_keeps n step r s).1
@[simp] theorem judgeRate_clk (n : Nat) (step : Nat) (r : Rat) (s : State) : (judgeRate n step r s).clk = s.clk := (judgeRate_keeps n step r s).2.1
@[simp] theorem judgeRate_regs (n : Nat) (step : Nat) (r : Rat) (s : State) : (judgeRate n step r s).regs = s.regs := (judgeRate_keeps n step r s).2.2.1
@[simp] theorem judgeRate_masks (n : Nat) (step : Nat) (r : Rat) (s : State) : (judgeRate n step r s).evt.masks = s.evt.masks := (judgeRate_keeps n step r s).2.2.2

theorem setSecs_keeps (n : Nat) (l : List (Nat × Int × Nat)) (s : State) : Keeps s (setSecs n l s) := by
  unfold setSecs
  try dsimp only
  (repeat' split) <;> simp [Keeps]
@[simp] theorem setSecs_pending (n : Nat) (l : List (Nat × Int × Nat)) (s : State) : (setSecs n l s).pending = s.pending := (setSecs_keeps n l s).1
@[simp] theorem setSecs_clk (n : Nat) (l : List (Nat × Int × Nat)) (s : State) : (setSecs n l s).clk = s.clk := (setSecs_keeps n l s).2.1
@[simp] theorem setSecs_regs (n : Nat) (l : List (Nat × Int × Nat)) (s : State) : (setSecs n l s).regs = s.regs := (setSecs_keeps n l s).2.2.1
@[simp] theorem setSecs_masks (n : Nat) (l : List (Nat × Int × Nat)) (s : State) : (setSecs n l s).evt.masks = s.evt.masks := (setSecs_keeps n l s).2.2.2

theorem rollSecond_keeps (n : Nat) (s : State) : Keeps s (rollSecond n s) := by
  unfold rollSecond
  try dsimp only
  (repeat' split) <;> simp [Keeps]
@[simp] theorem rollSecond_pending (n : Nat) (s : State) : (rollSecond n s).pending = s.pending := (rollSecond_keeps n s).1
@[simp] theorem rollSecond_clk (n : Nat) (s : State) : (rollSecond n s).clk = s.clk := (rollSecond_keeps n s).2.1
@[simp] theorem rollSecond_regs (n : Nat) (s : State) : (rollSecond n s).regs = s.regs := (rollSecond_keeps n s).2.2.1
@[simp] theorem rollSecond_masks (n : Nat) (s : State) : (rollSecond n s).evt.masks = s.evt.masks := (rollSecond_keeps n s).2.2.2

theorem takePressure_keeps (n : Nat) (code : Nat) (s : State) : Keeps s (takePressure n code s) := by
  unfold takePressure
  try dsimp only
  (repeat' split) <;> simp [Keeps]
@[simp] theorem takePressure_pending (n : Nat) (code : Nat) (s : State) : (takePressure n code s).pending = s.pending := (takePressure_keeps n code s).1
@[simp] theorem takePressure_clk (n : Nat) (code : Nat) (s : State) : (takePressure n code s).clk = s.clk := (takePressure_keeps n code s).2.1
@[simp] theorem takePressure_regs (n : Nat) (code : Nat) (s : State) : (takePressure n code s).regs = s.regs := (takePressure_keeps n code s).2.2.1
@[simp] theorem takePressure_masks (n : Nat) (code : Nat) (s : State) : (takePressure n code s).evt.masks = s.evt.masks := (takePressure_keeps n code s).2.2.2

theorem takeSatellite_keeps (n : Nat) (d : List Byte) (s : State) : Keeps s (takeSatellite n d s) := by
  unfold takeSatellite
  try dsimp only
  (repeat' split) <;> simp [Keeps]
@[simp] theorem takeSatellite_pending (n : Nat) (d : List Byte) (s : State) : (takeSatellite n d s).pending = s.pending := (takeSatellite_keeps n d s).1
@[simp] theorem takeSatellite_clk (n : Nat) (d : List Byte) (s : State) : (takeSatellite n d s).clk = s.clk := (takeSatellite_keeps n d s).2.1
@[simp] theorem takeSatellite_regs (n : Nat) (d : List Byte) (s : State) : (takeSatellite n d s).regs = s.regs := (takeSatellite_keeps n d s).2.2.1
@[simp] theorem takeSatellite_masks (n : Nat) (d : List Byte) (s : State) : (takeSatellite n d s).evt.masks = s.evt.masks := (takeSatellite_keeps n d s).2.2.2

theorem takeRatio_keeps (k : Nat) (rho : Rat) (s : State) : Keeps s (takeRatio k rho s) := by
  unfold takeRatio
  try dsimp only
  (repeat' split) <;> simp [Keeps]
@[simp] theorem takeRatio_pending (k : Nat) (rho : Rat) (s : State) : (takeRatio k rho s).pending = s.pending := (takeRatio_keeps k rho s).1
@[simp] theorem takeRatio_clk (k : Nat) (rho : Rat) (s : State) : (takeRatio k rho s).clk = s.clk := (takeRatio_keeps k rho s).2.1
@[simp] theorem takeRatio_regs (k : Nat) (rho : Rat) (s : State) : (takeRatio k rho s).regs = s.regs := (takeRatio_keeps k rho s).2.2.1
@[simp] theorem takeRatio_masks (k : Nat) (rho : Rat) (s : State) : (takeRatio k rho s).evt.masks = s.evt.masks := (takeRatio_keeps k rho s).2.2.2

theorem takeImpedance_keeps (d : List Byte) (s : State) : Keeps s (takeImpedance d s) := by
  unfold takeImpedance
  try dsimp only
  (repeat' split) <;>
    first
    | (simp [Keeps, fold_pending, fold_clk, fold_regs, fold_masks, fold1_pending, fold1_clk, fold1_regs, fold1_masks, apply_ite State.pending, apply_ite State.clk, apply_ite State.regs, apply_ite State.evt, apply_ite EvtSt.masks]; done)
    | (refine Keeps.trans ?_ (fold_keeps _ (fun s a => ?_) _ _) <;> (try dsimp only) <;> (repeat' split) <;> simp [Keeps])
@[simp] theorem takeImpedance_pending (d : List Byte) (s : State) : (takeImpedance d s).pending = s.pending := (takeImpedance_keeps d s).1
@[simp] theorem takeImpedance_clk (d : List Byte) (s : State) : (takeImpedance d s).clk = s.clk := (takeImpedance_keeps d s).2.1
@[simp] theorem takeImpedance_regs (d : List Byte) (s : State) : (takeImpedance d s).regs = s.regs := (takeImpedance_keeps d s).2.2.1
@[simp] theorem takeImpedance_masks (d : List Byte) (s : State) : (takeImpedance d s).evt.masks = s.evt.masks := (takeImpedance_keeps d s).2.2.2

end Sys2Proof.Machine
end

