-- ==== Sys2Proof/Laws/Keep/Vermilion2.lean ====
section
/-! SUPPORT. What the operations of `Machine/Vermilion2.lean` leave alone. -/

namespace Sys2Proof.Machine

open Sys2Proof

theorem sendSafety_keeps (j : Nat) (data : List Byte) (s : State) : Keeps s (sendSafety j data s) := by
  unfold sendSafety
  try dsimp only
  (repeat' split) <;> simp [Keeps]
@[simp] theorem sendSafety_pending (j : Nat) (data : List Byte) (s : State) : (sendSafety j data s).pending = s.pending := (sendSafety_keeps j data s).1
@[simp] theorem sendSafety_clk (j : Nat) (data : List Byte) (s : State) : (sendSafety j data s).clk = s.clk := (sendSafety_keeps j data s).2.1
@[simp] theorem sendSafety_regs (j : Nat) (data : List Byte) (s : State) : (sendSafety j data s).regs = s.regs := (sendSafety_keeps j data s).2.2.1
@[simp] theorem sendSafety_masks (j : Nat) (data : List Byte) (s : State) : (sendSafety j data s).evt.masks = s.evt.masks := (sendSafety_keeps j data s).2.2.2

theorem execStateFrameSend_keeps (s : State) {t : State} (h : execStateFrameSend s = .next t) : Keeps s t := by
  unfold execStateFrameSend at h
  try dsimp only at h
  (repeat' split at h) <;> (injection h with h; subst h; simp [Keeps, fold_pending, fold_clk, fold_regs, fold_masks, fold1_pending, fold1_clk, fold1_regs, fold1_masks, apply_ite State.pending, apply_ite State.clk, apply_ite State.regs, apply_ite State.evt, apply_ite EvtSt.masks])

theorem execPeerLost_keeps (peer : Fin 24) (s : State) {t : State} (h : execPeerLost peer s = .next t) : Keeps s t := by
  unfold execPeerLost at h
  try dsimp only at h
  (repeat' split at h) <;> (injection h with h; subst h; simp [Keeps])

theorem execAliveTimeout_keeps (ch : Fin 8) (s : State) {t : State} (h : execAliveTimeout ch s = .next t) : Keeps s t := by
  unfold execAliveTimeout at h
  try dsimp only at h
  (repeat' split at h) <;> (injection h with h; subst h; simp [Keeps])

theorem onDie_keeps (ch : Nat) (d : List Byte) (s : State) : Keeps s (onDie ch d s) := by
  unfold onDie
  try dsimp only
  (repeat' split) <;> simp [Keeps]
@[simp] theorem onDie_pending (ch : Nat) (d : List Byte) (s : State) : (onDie ch d s).pending = s.pending := (onDie_keeps ch d s).1
@[simp] theorem onDie_clk (ch : Nat) (d : List Byte) (s : State) : (onDie ch d s).clk = s.clk := (onDie_keeps ch d s).2.1
@[simp] theorem onDie_regs (ch : Nat) (d : List Byte) (s : State) : (onDie ch d s).regs = s.regs := (onDie_keeps ch d s).2.2.1
@[simp] theorem onDie_masks (ch : Nat) (d : List Byte) (s : State) : (onDie ch d s).evt.masks = s.evt.masks := (onDie_keeps ch d s).2.2.2

theorem execSafetyMessage_keeps (ch : Fin 8) (alive : Byte) (bytes : List Byte) (crc : Byte) (s : State) {t : State} (h : execSafetyMessage ch alive bytes crc s = .next t) : Keeps s t := by
  unfold execSafetyMessage at h
  try dsimp only at h
  (repeat' split at h) <;> (injection h with h; subst h; simp [Keeps])

theorem execHardLimitTimer_keeps (s : State) {t : State} (h : execHardLimitTimer s = .next t) : Keeps s t := by
  unfold execHardLimitTimer at h
  try dsimp only at h
  (repeat' split at h) <;> (injection h with h; subst h; simp [Keeps])

theorem execClassBEscalate_keeps (cause : Fin 11) (s : State) {t : State} (h : execClassBEscalate cause s = .next t) : Keeps s t := by
  unfold execClassBEscalate at h
  try dsimp only at h
  (repeat' split at h) <;> (injection h with h; subst h; simp [Keeps])

theorem execClassBTimerSave_keeps (s : State) {t : State} (h : execClassBTimerSave s = .next t) : Keeps s t := by
  unfold execClassBTimerSave at h
  try dsimp only at h
  (repeat' split at h) <;> (injection h with h; subst h; simp [Keeps])

theorem execClassBTimerReset_keeps (cause : Fin 11) (s : State) {t : State} (h : execClassBTimerReset cause s = .next t) : Keeps s t := by
  unfold execClassBTimerReset at h
  try dsimp only at h
  (repeat' split at h) <;> (injection h with h; subst h; simp [Keeps])

theorem execTwinCauseEnd_keeps (s : State) {t : State} (h : execTwinCauseEnd s = .next t) : Keeps s t := by
  unfold execTwinCauseEnd at h
  try dsimp only at h
  (repeat' split at h) <;> (injection h with h; subst h; simp [Keeps])

theorem execResetArmExpiry_keeps (s : State) {t : State} (h : execResetArmExpiry s = .next t) : Keeps s t := by
  unfold execResetArmExpiry at h
  try dsimp only at h
  (repeat' split at h) <;> (injection h with h; subst h; simp [Keeps])

theorem resetFails_keeps (c : Nat) (s : State) : Keeps s (resetFails c s) := by
  unfold resetFails
  try dsimp only
  (repeat' split) <;> simp [Keeps]
@[simp] theorem resetFails_pending (c : Nat) (s : State) : (resetFails c s).pending = s.pending := (resetFails_keeps c s).1
@[simp] theorem resetFails_clk (c : Nat) (s : State) : (resetFails c s).clk = s.clk := (resetFails_keeps c s).2.1
@[simp] theorem resetFails_regs (c : Nat) (s : State) : (resetFails c s).regs = s.regs := (resetFails_keeps c s).2.2.1
@[simp] theorem resetFails_masks (c : Nat) (s : State) : (resetFails c s).evt.masks = s.evt.masks := (resetFails_keeps c s).2.2.2

theorem resetSucceeds_keeps (s : State) : Keeps s (resetSucceeds s) := by
  unfold resetSucceeds
  try dsimp only
  (repeat' split) <;> simp [Keeps]
@[simp] theorem resetSucceeds_pending (s : State) : (resetSucceeds s).pending = s.pending := (resetSucceeds_keeps s).1
@[simp] theorem resetSucceeds_clk (s : State) : (resetSucceeds s).clk = s.clk := (resetSucceeds_keeps s).2.1
@[simp] theorem resetSucceeds_regs (s : State) : (resetSucceeds s).regs = s.regs := (resetSucceeds_keeps s).2.2.1
@[simp] theorem resetSucceeds_masks (s : State) : (resetSucceeds s).evt.masks = s.evt.masks := (resetSucceeds_keeps s).2.2.2

theorem execResetPulse_keeps (highMs : Nat) (s : State) {t : State} (h : execResetPulse highMs s = .next t) : Keeps s t := by
  unfold execResetPulse at h
  try dsimp only at h
  (repeat' split at h) <;> (injection h with h; subst h; simp [Keeps])

end Sys2Proof.Machine
end

