-- ==== Sys2Proof/Laws/Keep/Cell.lean ====
section
/-! SUPPORT. What the operations of `Machine/Cell.lean` leave alone. -/

namespace Sys2Proof.Machine

open Sys2Proof

theorem noteRange_keeps (ovr : BitVec 16) (und : BitVec 16) (s : State) : Keeps s (noteRange ovr und s) := by
  unfold noteRange
  try dsimp only
  (repeat' split) <;>
    first
    | (simp [Keeps, fold_pending, fold_clk, fold_regs, fold_masks, fold1_pending, fold1_clk, fold1_regs, fold1_masks, apply_ite State.pending, apply_ite State.clk, apply_ite State.regs, apply_ite State.evt, apply_ite EvtSt.masks]; done)
    | (refine Keeps.trans ?_ (fold_keeps _ (fun s a => ?_) _ _) <;> (try dsimp only) <;> (repeat' split) <;> simp [Keeps])
@[simp] theorem noteRange_pending (ovr : BitVec 16) (und : BitVec 16) (s : State) : (noteRange ovr und s).pending = s.pending := (noteRange_keeps ovr und s).1
@[simp] theorem noteRange_clk (ovr : BitVec 16) (und : BitVec 16) (s : State) : (noteRange ovr und s).clk = s.clk := (noteRange_keeps ovr und s).2.1
@[simp] theorem noteRange_regs (ovr : BitVec 16) (und : BitVec 16) (s : State) : (noteRange ovr und s).regs = s.regs := (noteRange_keeps ovr und s).2.2.1
@[simp] theorem noteRange_masks (ovr : BitVec 16) (und : BitVec 16) (s : State) : (noteRange ovr und s).evt.masks = s.evt.masks := (noteRange_keeps ovr und s).2.2.2

theorem noteFlagged_keeps (s : State) : Keeps s (noteFlagged s) := by
  unfold noteFlagged
  try dsimp only
  (repeat' split) <;> simp [Keeps]
@[simp] theorem noteFlagged_pending (s : State) : (noteFlagged s).pending = s.pending := (noteFlagged_keeps s).1
@[simp] theorem noteFlagged_clk (s : State) : (noteFlagged s).clk = s.clk := (noteFlagged_keeps s).2.1
@[simp] theorem noteFlagged_regs (s : State) : (noteFlagged s).regs = s.regs := (noteFlagged_keeps s).2.2.1
@[simp] theorem noteFlagged_masks (s : State) : (noteFlagged s).evt.masks = s.evt.masks := (noteFlagged_keeps s).2.2.2

theorem ringCell_keeps (s : State) : Keeps s (ringCell s) := by
  unfold ringCell
  try dsimp only
  (repeat' split) <;> simp [Keeps]
@[simp] theorem ringCell_pending (s : State) : (ringCell s).pending = s.pending := (ringCell_keeps s).1
@[simp] theorem ringCell_clk (s : State) : (ringCell s).clk = s.clk := (ringCell_keeps s).2.1
@[simp] theorem ringCell_regs (s : State) : (ringCell s).regs = s.regs := (ringCell_keeps s).2.2.1
@[simp] theorem ringCell_masks (s : State) : (ringCell s).evt.masks = s.evt.masks := (ringCell_keeps s).2.2.2

theorem execCellSample_keeps (ins : List CellIn) (s : State) {t : State} (h : execCellSample ins s = .next t) : Keeps s t := by
  unfold execCellSample at h
  try dsimp only at h
  (repeat' split at h) <;> (injection h with h; subst h; simp [Keeps])

theorem classCell_keeps (s : State) (k : Nat) : Keeps s (classCell s k) := by
  unfold classCell
  try dsimp only
  (repeat' split) <;> simp [Keeps]
@[simp] theorem classCell_pending (s : State) (k : Nat) : (classCell s k).pending = s.pending := (classCell_keeps s k).1
@[simp] theorem classCell_clk (s : State) (k : Nat) : (classCell s k).clk = s.clk := (classCell_keeps s k).2.1
@[simp] theorem classCell_regs (s : State) (k : Nat) : (classCell s k).regs = s.regs := (classCell_keeps s k).2.2.1
@[simp] theorem classCell_masks (s : State) (k : Nat) : (classCell s k).evt.masks = s.evt.masks := (classCell_keeps s k).2.2.2

theorem startProofOw_keeps (s : State) : Keeps s (startProofOw s) := by
  unfold startProofOw
  try dsimp only
  (repeat' split) <;> simp [Keeps]
@[simp] theorem startProofOw_pending (s : State) : (startProofOw s).pending = s.pending := (startProofOw_keeps s).1
@[simp] theorem startProofOw_clk (s : State) : (startProofOw s).clk = s.clk := (startProofOw_keeps s).2.1
@[simp] theorem startProofOw_regs (s : State) : (startProofOw s).regs = s.regs := (startProofOw_keeps s).2.2.1
@[simp] theorem startProofOw_masks (s : State) : (startProofOw s).evt.masks = s.evt.masks := (startProofOw_keeps s).2.2.2

theorem endProofOw_keeps (s : State) : Keeps s (endProofOw s) := by
  unfold endProofOw
  try dsimp only
  (repeat' split) <;> simp [Keeps]
@[simp] theorem endProofOw_pending (s : State) : (endProofOw s).pending = s.pending := (endProofOw_keeps s).1
@[simp] theorem endProofOw_clk (s : State) : (endProofOw s).clk = s.clk := (endProofOw_keeps s).2.1
@[simp] theorem endProofOw_regs (s : State) : (endProofOw s).regs = s.regs := (endProofOw_keeps s).2.2.1
@[simp] theorem endProofOw_masks (s : State) : (endProofOw s).evt.masks = s.evt.masks := (endProofOw_keeps s).2.2.2

theorem execLimitSample_keeps (ins : List CellIn) (s : State) {t : State} (h : execLimitSample ins s = .next t) : Keeps s t := by
  unfold execLimitSample at h
  try dsimp only at h
  (repeat' split at h) <;> (injection h with h; subst h; simp [Keeps, fold_pending, fold_clk, fold_regs, fold_masks, fold1_pending, fold1_clk, fold1_regs, fold1_masks, apply_ite State.pending, apply_ite State.clk, apply_ite State.regs, apply_ite State.evt, apply_ite EvtSt.masks])

theorem execLimitReport_keeps (s : State) {t : State} (h : execLimitReport s = .next t) : Keeps s t := by
  unfold execLimitReport at h
  try dsimp only at h
  (repeat' split at h) <;> (injection h with h; subst h; simp [Keeps])

theorem usedChanged_keeps (old : Nat) (new : Nat) (s : State) : Keeps s (usedChanged old new s) := by
  unfold usedChanged
  try dsimp only
  (repeat' split) <;> simp [Keeps]
@[simp] theorem usedChanged_pending (old : Nat) (new : Nat) (s : State) : (usedChanged old new s).pending = s.pending := (usedChanged_keeps old new s).1
@[simp] theorem usedChanged_clk (old : Nat) (new : Nat) (s : State) : (usedChanged old new s).clk = s.clk := (usedChanged_keeps old new s).2.1
@[simp] theorem usedChanged_regs (old : Nat) (new : Nat) (s : State) : (usedChanged old new s).regs = s.regs := (usedChanged_keeps old new s).2.2.1
@[simp] theorem usedChanged_masks (old : Nat) (new : Nat) (s : State) : (usedChanged old new s).evt.masks = s.evt.masks := (usedChanged_keeps old new s).2.2.2

theorem execClampTrip_keeps (pin : Fin 17) (s : State) {t : State} (h : execClampTrip pin s = .next t) : Keeps s t := by
  unfold execClampTrip at h
  try dsimp only at h
  (repeat' split at h) <;> (injection h with h; subst h; simp [Keeps])

theorem execClampRelease_keeps (pin : Fin 17) (s : State) {t : State} (h : execClampRelease pin s = .next t) : Keeps s t := by
  unfold execClampRelease at h
  try dsimp only at h
  (repeat' split at h) <;> (injection h with h; subst h; simp [Keeps])

theorem execModulatorStuck_keeps (m : Fin 17) (s : State) {t : State} (h : execModulatorStuck m s = .next t) : Keeps s t := by
  unfold execModulatorStuck at h
  try dsimp only at h
  (repeat' split at h) <;> (injection h with h; subst h; simp [Keeps])

theorem execSumCheck_keeps (s : State) {t : State} (h : execSumCheck s = .next t) : Keeps s t := by
  unfold execSumCheck at h
  try dsimp only at h
  (repeat' split at h) <;> (injection h with h; subst h; simp [Keeps, fold_pending, fold_clk, fold_regs, fold_masks, fold1_pending, fold1_clk, fold1_regs, fold1_masks, apply_ite State.pending, apply_ite State.clk, apply_ite State.regs, apply_ite State.evt, apply_ite EvtSt.masks])

theorem raiseCurrent_keeps (old : BitVec 8) (v : Int) (f : Nat) (s : State) : Keeps s (raiseCurrent old v f s) := by
  unfold raiseCurrent
  try dsimp only
  (repeat' split) <;> simp [Keeps]
@[simp] theorem raiseCurrent_pending (old : BitVec 8) (v : Int) (f : Nat) (s : State) : (raiseCurrent old v f s).pending = s.pending := (raiseCurrent_keeps old v f s).1
@[simp] theorem raiseCurrent_clk (old : BitVec 8) (v : Int) (f : Nat) (s : State) : (raiseCurrent old v f s).clk = s.clk := (raiseCurrent_keeps old v f s).2.1
@[simp] theorem raiseCurrent_regs (old : BitVec 8) (v : Int) (f : Nat) (s : State) : (raiseCurrent old v f s).regs = s.regs := (raiseCurrent_keeps old v f s).2.2.1
@[simp] theorem raiseCurrent_masks (old : BitVec 8) (v : Int) (f : Nat) (s : State) : (raiseCurrent old v f s).evt.masks = s.evt.masks := (raiseCurrent_keeps old v f s).2.2.2

theorem markCurrent_keeps (prev : Option (Int × BitVec 8)) (v : Int) (f : Nat) (s : State) : Keeps s (markCurrent prev v f s) := by
  unfold markCurrent
  try dsimp only
  (repeat' split) <;> simp [Keeps]
@[simp] theorem markCurrent_pending (prev : Option (Int × BitVec 8)) (v : Int) (f : Nat) (s : State) : (markCurrent prev v f s).pending = s.pending := (markCurrent_keeps prev v f s).1
@[simp] theorem markCurrent_clk (prev : Option (Int × BitVec 8)) (v : Int) (f : Nat) (s : State) : (markCurrent prev v f s).clk = s.clk := (markCurrent_keeps prev v f s).2.1
@[simp] theorem markCurrent_regs (prev : Option (Int × BitVec 8)) (v : Int) (f : Nat) (s : State) : (markCurrent prev v f s).regs = s.regs := (markCurrent_keeps prev v f s).2.2.1
@[simp] theorem markCurrent_masks (prev : Option (Int × BitVec 8)) (v : Int) (f : Nat) (s : State) : (markCurrent prev v f s).evt.masks = s.evt.masks := (markCurrent_keeps prev v f s).2.2.2

theorem execCurrentSample_keeps (shuntNV : Int) (s : State) {t : State} (h : execCurrentSample shuntNV s = .next t) : Keeps s t := by
  unfold execCurrentSample at h
  try dsimp only at h
  (repeat' split at h) <;> (injection h with h; subst h; simp [Keeps])

theorem execRemoteStale_keeps (s : State) {t : State} (h : execRemoteStale s = .next t) : Keeps s t := by
  unfold execRemoteStale at h
  try dsimp only at h
  (repeat' split at h) <;> (injection h with h; subst h; simp [Keeps])

theorem execCurrentReport_keeps (s : State) {t : State} (h : execCurrentReport s = .next t) : Keeps s t := by
  unfold execCurrentReport at h
  try dsimp only at h
  (repeat' split at h) <;> (injection h with h; subst h; simp [Keeps])

theorem cmdCellRead_keeps (s : State) : Keeps s (cmdCellRead s).st := by
  unfold cmdCellRead
  try dsimp only
  (repeat' split) <;> simp [Keeps, Res.of]
@[simp] theorem cmdCellRead_pending (s : State) : (cmdCellRead s).st.pending = s.pending := (cmdCellRead_keeps s).1
@[simp] theorem cmdCellRead_clk (s : State) : (cmdCellRead s).st.clk = s.clk := (cmdCellRead_keeps s).2.1
@[simp] theorem cmdCellRead_regs (s : State) : (cmdCellRead s).st.regs = s.regs := (cmdCellRead_keeps s).2.2.1
@[simp] theorem cmdCellRead_masks (s : State) : (cmdCellRead s).st.evt.masks = s.evt.masks := (cmdCellRead_keeps s).2.2.2

theorem execCellRead_keeps (rq : Req) (s : State) {t : State} (h : execCellRead rq s = .next t) : Keeps s t := by
  unfold execCellRead at h
  try dsimp only at h
  (repeat' split at h) <;> (injection h with h; subst h; simp [Keeps, runCmd_pending, runCmd_clk, runCmd_regs, runCmd_masks])

theorem cmdAuxRead_keeps (s : State) : Keeps s (cmdAuxRead s).st := by
  unfold cmdAuxRead
  try dsimp only
  (repeat' split) <;> simp [Keeps, Res.of]
@[simp] theorem cmdAuxRead_pending (s : State) : (cmdAuxRead s).st.pending = s.pending := (cmdAuxRead_keeps s).1
@[simp] theorem cmdAuxRead_clk (s : State) : (cmdAuxRead s).st.clk = s.clk := (cmdAuxRead_keeps s).2.1
@[simp] theorem cmdAuxRead_regs (s : State) : (cmdAuxRead s).st.regs = s.regs := (cmdAuxRead_keeps s).2.2.1
@[simp] theorem cmdAuxRead_masks (s : State) : (cmdAuxRead s).st.evt.masks = s.evt.masks := (cmdAuxRead_keeps s).2.2.2

theorem execAuxRead_keeps (rq : Req) (s : State) {t : State} (h : execAuxRead rq s = .next t) : Keeps s t := by
  unfold execAuxRead at h
  try dsimp only at h
  (repeat' split at h) <;> (injection h with h; subst h; simp [Keeps, runCmd_pending, runCmd_clk, runCmd_regs, runCmd_masks])

theorem cmdCurrentRead_keeps (s : State) : Keeps s (cmdCurrentRead s).st := by
  unfold cmdCurrentRead
  try dsimp only
  (repeat' split) <;> simp [Keeps, Res.of]
@[simp] theorem cmdCurrentRead_pending (s : State) : (cmdCurrentRead s).st.pending = s.pending := (cmdCurrentRead_keeps s).1
@[simp] theorem cmdCurrentRead_clk (s : State) : (cmdCurrentRead s).st.clk = s.clk := (cmdCurrentRead_keeps s).2.1
@[simp] theorem cmdCurrentRead_regs (s : State) : (cmdCurrentRead s).st.regs = s.regs := (cmdCurrentRead_keeps s).2.2.1
@[simp] theorem cmdCurrentRead_masks (s : State) : (cmdCurrentRead s).st.evt.masks = s.evt.masks := (cmdCurrentRead_keeps s).2.2.2

theorem execCurrentRead_keeps (rq : Req) (s : State) {t : State} (h : execCurrentRead rq s = .next t) : Keeps s t := by
  unfold execCurrentRead at h
  try dsimp only at h
  (repeat' split at h) <;> (injection h with h; subst h; simp [Keeps, runCmd_pending, runCmd_clk, runCmd_regs, runCmd_masks])

theorem latchCells_keeps (s : State) : Keeps s (latchCells s) := by
  unfold latchCells
  try dsimp only
  (repeat' split) <;> simp [Keeps]
@[simp] theorem latchCells_pending (s : State) : (latchCells s).pending = s.pending := (latchCells_keeps s).1
@[simp] theorem latchCells_clk (s : State) : (latchCells s).clk = s.clk := (latchCells_keeps s).2.1
@[simp] theorem latchCells_regs (s : State) : (latchCells s).regs = s.regs := (latchCells_keeps s).2.2.1
@[simp] theorem latchCells_masks (s : State) : (latchCells s).evt.masks = s.evt.masks := (latchCells_keeps s).2.2.2

theorem execCellDataLatch_keeps (s : State) {t : State} (h : execCellDataLatch s = .next t) : Keeps s t := by
  unfold execCellDataLatch at h
  try dsimp only at h
  (repeat' split at h) <;> (injection h with h; subst h; simp [Keeps])

theorem latchAux_keeps (s : State) : Keeps s (latchAux s) := by
  unfold latchAux
  try dsimp only
  (repeat' split) <;> simp [Keeps]
@[simp] theorem latchAux_pending (s : State) : (latchAux s).pending = s.pending := (latchAux_keeps s).1
@[simp] theorem latchAux_clk (s : State) : (latchAux s).clk = s.clk := (latchAux_keeps s).2.1
@[simp] theorem latchAux_regs (s : State) : (latchAux s).regs = s.regs := (latchAux_keeps s).2.2.1
@[simp] theorem latchAux_masks (s : State) : (latchAux s).evt.masks = s.evt.masks := (latchAux_keeps s).2.2.2

theorem execAuxDataLatch_keeps (s : State) {t : State} (h : execAuxDataLatch s = .next t) : Keeps s t := by
  unfold execAuxDataLatch at h
  try dsimp only at h
  (repeat' split at h) <;> (injection h with h; subst h; simp [Keeps])

theorem latchCurrent_keeps (s : State) : Keeps s (latchCurrent s) := by
  unfold latchCurrent
  try dsimp only
  (repeat' split) <;> simp [Keeps]
@[simp] theorem latchCurrent_pending (s : State) : (latchCurrent s).pending = s.pending := (latchCurrent_keeps s).1
@[simp] theorem latchCurrent_clk (s : State) : (latchCurrent s).clk = s.clk := (latchCurrent_keeps s).2.1
@[simp] theorem latchCurrent_regs (s : State) : (latchCurrent s).regs = s.regs := (latchCurrent_keeps s).2.2.1
@[simp] theorem latchCurrent_masks (s : State) : (latchCurrent s).evt.masks = s.evt.masks := (latchCurrent_keeps s).2.2.2

theorem execIsnsDataLatch_keeps (s : State) {t : State} (h : execIsnsDataLatch s = .next t) : Keeps s t := by
  unfold execIsnsDataLatch at h
  try dsimp only at h
  (repeat' split at h) <;> (injection h with h; subst h; simp [Keeps])

theorem writeRp_keeps (aux : Bool) (v : Nat) (s : State) : Keeps s (writeRp aux v s) := by
  unfold writeRp
  try dsimp only
  (repeat' split) <;> simp [Keeps]
@[simp] theorem writeRp_pending (aux : Bool) (v : Nat) (s : State) : (writeRp aux v s).pending = s.pending := (writeRp_keeps aux v s).1
@[simp] theorem writeRp_clk (aux : Bool) (v : Nat) (s : State) : (writeRp aux v s).clk = s.clk := (writeRp_keeps aux v s).2.1
@[simp] theorem writeRp_regs (aux : Bool) (v : Nat) (s : State) : (writeRp aux v s).regs = s.regs := (writeRp_keeps aux v s).2.2.1
@[simp] theorem writeRp_masks (aux : Bool) (v : Nat) (s : State) : (writeRp aux v s).evt.masks = s.evt.masks := (writeRp_keeps aux v s).2.2.2

theorem execRpWrite_keeps (aux : Bool) (value : BitVec 10) (s : State) {t : State} (h : execRpWrite aux value s = .next t) : Keeps s t := by
  unfold execRpWrite at h
  try dsimp only at h
  (repeat' split at h) <;> (injection h with h; subst h; simp [Keeps])

theorem cmdStreamOpen_keeps (rq : Req) (stream : Byte) (rate : Byte) (slots : Byte) (s : State) : (cmdStreamOpen rq stream rate slots s).st.pending = s.pending ∧ (cmdStreamOpen rq stream rate slots s).st.clk = s.clk ∧ (cmdStreamOpen rq stream rate slots s).st.evt.masks = s.evt.masks := by
  unfold cmdStreamOpen
  try dsimp only
  (repeat' split) <;> simp [Res.of]
@[simp] theorem cmdStreamOpen_pending (rq : Req) (stream : Byte) (rate : Byte) (slots : Byte) (s : State) : (cmdStreamOpen rq stream rate slots s).st.pending = s.pending := (cmdStreamOpen_keeps rq stream rate slots s).1
@[simp] theorem cmdStreamOpen_clk (rq : Req) (stream : Byte) (rate : Byte) (slots : Byte) (s : State) : (cmdStreamOpen rq stream rate slots s).st.clk = s.clk := (cmdStreamOpen_keeps rq stream rate slots s).2.1
@[simp] theorem cmdStreamOpen_masks (rq : Req) (stream : Byte) (rate : Byte) (slots : Byte) (s : State) : (cmdStreamOpen rq stream rate slots s).st.evt.masks = s.evt.masks := (cmdStreamOpen_keeps rq stream rate slots s).2.2

theorem execStreamOpen_keeps (rq : Req) (stream : Byte) (rate : Byte) (slots : Byte) (s : State) {t : State} (h : execStreamOpen rq stream rate slots s = .next t) : t.pending = s.pending ∧ t.clk = s.clk ∧ t.evt.masks = s.evt.masks := by
  unfold execStreamOpen at h
  try dsimp only at h
  (repeat' split at h) <;> (injection h with h; subst h; simp [runCmd_pending, runCmd_clk, runCmd_masks])

theorem closeStream_keeps (c : Nat) (s : State) : Keeps s (closeStream c s) := by
  unfold closeStream
  try dsimp only
  (repeat' split) <;> simp [Keeps]
@[simp] theorem closeStream_pending (c : Nat) (s : State) : (closeStream c s).pending = s.pending := (closeStream_keeps c s).1
@[simp] theorem closeStream_clk (c : Nat) (s : State) : (closeStream c s).clk = s.clk := (closeStream_keeps c s).2.1
@[simp] theorem closeStream_regs (c : Nat) (s : State) : (closeStream c s).regs = s.regs := (closeStream_keeps c s).2.2.1
@[simp] theorem closeStream_masks (c : Nat) (s : State) : (closeStream c s).evt.masks = s.evt.masks := (closeStream_keeps c s).2.2.2

theorem cmdStreamClose_keeps (stream : Byte) (s : State) : Keeps s (cmdStreamClose stream s).st := by
  unfold cmdStreamClose
  try dsimp only
  (repeat' split) <;> simp [Keeps, Res.of]
@[simp] theorem cmdStreamClose_pending (stream : Byte) (s : State) : (cmdStreamClose stream s).st.pending = s.pending := (cmdStreamClose_keeps stream s).1
@[simp] theorem cmdStreamClose_clk (stream : Byte) (s : State) : (cmdStreamClose stream s).st.clk = s.clk := (cmdStreamClose_keeps stream s).2.1
@[simp] theorem cmdStreamClose_regs (stream : Byte) (s : State) : (cmdStreamClose stream s).st.regs = s.regs := (cmdStreamClose_keeps stream s).2.2.1
@[simp] theorem cmdStreamClose_masks (stream : Byte) (s : State) : (cmdStreamClose stream s).st.evt.masks = s.evt.masks := (cmdStreamClose_keeps stream s).2.2.2

theorem execStreamClose_keeps (rq : Req) (stream : Byte) (s : State) {t : State} (h : execStreamClose rq stream s = .next t) : Keeps s t := by
  unfold execStreamClose at h
  try dsimp only at h
  (repeat' split at h) <;> (injection h with h; subst h; simp [Keeps, runCmd_pending, runCmd_clk, runCmd_regs, runCmd_masks])

theorem execHostStreamFlush_keeps (stream : Byte) (s : State) {t : State} (h : execHostStreamFlush stream s = .next t) : Keeps s t := by
  unfold execHostStreamFlush at h
  try dsimp only at h
  (repeat' split at h) <;> (injection h with h; subst h; simp [Keeps])

theorem execOwStart_keeps (s : State) {t : State} (h : execOwStart s = .next t) : Keeps s t := by
  unfold execOwStart at h
  try dsimp only at h
  (repeat' split at h) <;> (injection h with h; subst h; simp [Keeps])

theorem execOwPeriodic_keeps (s : State) {t : State} (h : execOwPeriodic s = .next t) : Keeps s t := by
  unfold execOwPeriodic at h
  try dsimp only at h
  (repeat' split at h) <;> (injection h with h; subst h; simp [Keeps])

end Sys2Proof.Machine
end

