-- ==== Sys2Proof/Laws/Keep/Sweep.lean ====
section
/-! SUPPORT. What the operations of `Machine/Sweep.lean` leave alone. -/

namespace Sys2Proof.Machine

open Sys2Proof

theorem cmdSweepStart_keeps (rq : Req) (sec : BitVec 48) (ns : Word) (mask : BitVec 16) (amp : Byte) (imax : Byte) (imin : Byte) (step : Byte) (s : State) : Keeps s (cmdSweepStart rq sec ns mask amp imax imin step s).st := by
  unfold cmdSweepStart
  try dsimp only
  (repeat' split) <;> simp [Keeps, Res.of]
@[simp] theorem cmdSweepStart_pending (rq : Req) (sec : BitVec 48) (ns : Word) (mask : BitVec 16) (amp : Byte) (imax : Byte) (imin : Byte) (step : Byte) (s : State) : (cmdSweepStart rq sec ns mask amp imax imin step s).st.pending = s.pending := (cmdSweepStart_keeps rq sec ns mask amp imax imin step s).1
@[simp] theorem cmdSweepStart_clk (rq : Req) (sec : BitVec 48) (ns : Word) (mask : BitVec 16) (amp : Byte) (imax : Byte) (imin : Byte) (step : Byte) (s : State) : (cmdSweepStart rq sec ns mask amp imax imin step s).st.clk = s.clk := (cmdSweepStart_keeps rq sec ns mask amp imax imin step s).2.1
@[simp] theorem cmdSweepStart_regs (rq : Req) (sec : BitVec 48) (ns : Word) (mask : BitVec 16) (amp : Byte) (imax : Byte) (imin : Byte) (step : Byte) (s : State) : (cmdSweepStart rq sec ns mask amp imax imin step s).st.regs = s.regs := (cmdSweepStart_keeps rq sec ns mask amp imax imin step s).2.2.1
@[simp] theorem cmdSweepStart_masks (rq : Req) (sec : BitVec 48) (ns : Word) (mask : BitVec 16) (amp : Byte) (imax : Byte) (imin : Byte) (step : Byte) (s : State) : (cmdSweepStart rq sec ns mask amp imax imin step s).st.evt.masks = s.evt.masks := (cmdSweepStart_keeps rq sec ns mask amp imax imin step s).2.2.2

theorem execSweepStart_keeps (rq : Req) (sec : BitVec 48) (ns : Word) (mask : BitVec 16) (amp : Byte) (imax : Byte) (imin : Byte) (step : Byte) (s : State) {t : State} (h : execSweepStart rq sec ns mask amp imax imin step s = .next t) : Keeps s t := by
  unfold execSweepStart at h
  try dsimp only at h
  (repeat' split at h) <;> (injection h with h; subst h; simp [Keeps, runCmd_pending, runCmd_clk, runCmd_regs, runCmd_masks])

theorem beginSweep_keeps (s : State) : Keeps s (beginSweep s) := by
  unfold beginSweep
  try dsimp only
  (repeat' split) <;> simp [Keeps]
@[simp] theorem beginSweep_pending (s : State) : (beginSweep s).pending = s.pending := (beginSweep_keeps s).1
@[simp] theorem beginSweep_clk (s : State) : (beginSweep s).clk = s.clk := (beginSweep_keeps s).2.1
@[simp] theorem beginSweep_regs (s : State) : (beginSweep s).regs = s.regs := (beginSweep_keeps s).2.2.1
@[simp] theorem beginSweep_masks (s : State) : (beginSweep s).evt.masks = s.evt.masks := (beginSweep_keeps s).2.2.2

theorem demodFault_keeps (f : Nat × Nat) (s : State) : Keeps s (demodFault f s) := by
  unfold demodFault
  try dsimp only
  (repeat' split) <;> simp [Keeps]
@[simp] theorem demodFault_pending (f : Nat × Nat) (s : State) : (demodFault f s).pending = s.pending := (demodFault_keeps f s).1
@[simp] theorem demodFault_clk (f : Nat × Nat) (s : State) : (demodFault f s).clk = s.clk := (demodFault_keeps f s).2.1
@[simp] theorem demodFault_regs (f : Nat × Nat) (s : State) : (demodFault f s).regs = s.regs := (demodFault_keeps f s).2.2.1
@[simp] theorem demodFault_masks (f : Nat × Nat) (s : State) : (demodFault f s).evt.masks = s.evt.masks := (demodFault_keeps f s).2.2.2

theorem endPass_keeps (next : State → State) (s : State) (h : Keeps s (next s)) : Keeps s (endPass next s) := by
  unfold endPass
  split
  · exact demodFault_keeps _ _
  · exact h

theorem execSweepPass_keeps (s : State) {t : State} (h : execSweepPass s = .next t) : Keeps s t := by
  unfold execSweepPass at h
  (repeat' split at h) <;> (injection h with h; subst h)
  · simp [Keeps]
  · simp [Keeps]
  · exact endPass_keeps _ _ (by simp [Keeps])
  · exact Keeps.refl s
  · exact Keeps.refl s

theorem execSweepEnd_keeps (s : State) {t : State} (h : execSweepEnd s = .next t) : Keeps s t := by
  unfold execSweepEnd at h
  (repeat' split at h) <;> (injection h with h; subst h)
  · exact endPass_keeps _ _ (by simp [Keeps])
  · exact Keeps.refl s

theorem execModelFitLaunch_keeps (s : State) {t : State} (h : execModelFitLaunch s = .next t) : Keeps s t := by
  unfold execModelFitLaunch at h
  try dsimp only at h
  (repeat' split at h) <;> (injection h with h; subst h; simp [Keeps])

theorem execImpedanceReport_keeps (s : State) {t : State} (h : execImpedanceReport s = .next t) : Keeps s t := by
  unfold execImpedanceReport at h
  try dsimp only at h
  (repeat' split at h) <;> (injection h with h; subst h; simp [Keeps])

end Sys2Proof.Machine
end

