-- ==== Sys2Proof/Laws/Keep/UmberOps.lean ====
section
/-! SUPPORT. What the operations of `Machine/UmberOps.lean` leave alone. -/

namespace Sys2Proof.Machine

open Sys2Proof

theorem raiseUmb_keeps (src : Nat) (h : Nat) (s : State) : Keeps s (raiseUmb src h s) := by
  unfold raiseUmb
  try dsimp only
  (repeat' split) <;> simp [Keeps]
@[simp] theorem raiseUmb_pending (src : Nat) (h : Nat) (s : State) : (raiseUmb src h s).pending = s.pending := (raiseUmb_keeps src h s).1
@[simp] theorem raiseUmb_clk (src : Nat) (h : Nat) (s : State) : (raiseUmb src h s).clk = s.clk := (raiseUmb_keeps src h s).2.1
@[simp] theorem raiseUmb_regs (src : Nat) (h : Nat) (s : State) : (raiseUmb src h s).regs = s.regs := (raiseUmb_keeps src h s).2.2.1
@[simp] theorem raiseUmb_masks (src : Nat) (h : Nat) (s : State) : (raiseUmb src h s).evt.masks = s.evt.masks := (raiseUmb_keeps src h s).2.2.2

theorem umbSave_keeps (s : State) : Keeps s (umbSave s) := by
  unfold umbSave
  try dsimp only
  (repeat' split) <;> simp [Keeps]
@[simp] theorem umbSave_pending (s : State) : (umbSave s).pending = s.pending := (umbSave_keeps s).1
@[simp] theorem umbSave_clk (s : State) : (umbSave s).clk = s.clk := (umbSave_keeps s).2.1
@[simp] theorem umbSave_regs (s : State) : (umbSave s).regs = s.regs := (umbSave_keeps s).2.2.1
@[simp] theorem umbSave_masks (s : State) : (umbSave s).evt.masks = s.evt.masks := (umbSave_keeps s).2.2.2

theorem storeRec_keeps (r : URec) (s : State) : Keeps s (storeRec r s) := by
  unfold storeRec
  try dsimp only
  (repeat' split) <;> simp [Keeps]
@[simp] theorem storeRec_pending (r : URec) (s : State) : (storeRec r s).pending = s.pending := (storeRec_keeps r s).1
@[simp] theorem storeRec_clk (r : URec) (s : State) : (storeRec r s).clk = s.clk := (storeRec_keeps r s).2.1
@[simp] theorem storeRec_regs (r : URec) (s : State) : (storeRec r s).regs = s.regs := (storeRec_keeps r s).2.2.1
@[simp] theorem storeRec_masks (r : URec) (s : State) : (storeRec r s).evt.masks = s.evt.masks := (storeRec_keeps r s).2.2.2

theorem closeInterval_keeps (extra : Nat) (sec : Nat) (ns : Nat) (s : State) : Keeps s (closeInterval extra sec ns s) := by
  unfold closeInterval
  try dsimp only
  (repeat' split) <;> simp [Keeps]
@[simp] theorem closeInterval_pending (extra : Nat) (sec : Nat) (ns : Nat) (s : State) : (closeInterval extra sec ns s).pending = s.pending := (closeInterval_keeps extra sec ns s).1
@[simp] theorem closeInterval_clk (extra : Nat) (sec : Nat) (ns : Nat) (s : State) : (closeInterval extra sec ns s).clk = s.clk := (closeInterval_keeps extra sec ns s).2.1
@[simp] theorem closeInterval_regs (extra : Nat) (sec : Nat) (ns : Nat) (s : State) : (closeInterval extra sec ns s).regs = s.regs := (closeInterval_keeps extra sec ns s).2.2.1
@[simp] theorem closeInterval_masks (extra : Nat) (sec : Nat) (ns : Nat) (s : State) : (closeInterval extra sec ns s).evt.masks = s.evt.masks := (closeInterval_keeps extra sec ns s).2.2.2

theorem openInterval_keeps (s : State) : Keeps s (openInterval s) := by
  unfold openInterval
  try dsimp only
  (repeat' split) <;> simp [Keeps]
@[simp] theorem openInterval_pending (s : State) : (openInterval s).pending = s.pending := (openInterval_keeps s).1
@[simp] theorem openInterval_clk (s : State) : (openInterval s).clk = s.clk := (openInterval_keeps s).2.1
@[simp] theorem openInterval_regs (s : State) : (openInterval s).regs = s.regs := (openInterval_keeps s).2.2.1
@[simp] theorem openInterval_masks (s : State) : (openInterval s).evt.masks = s.evt.masks := (openInterval_keeps s).2.2.2

theorem closeNow_keeps (extra : Nat) (s : State) : Keeps s (closeNow extra s) := by
  unfold closeNow
  try dsimp only
  (repeat' split) <;> simp [Keeps]
@[simp] theorem closeNow_pending (extra : Nat) (s : State) : (closeNow extra s).pending = s.pending := (closeNow_keeps extra s).1
@[simp] theorem closeNow_clk (extra : Nat) (s : State) : (closeNow extra s).clk = s.clk := (closeNow_keeps extra s).2.1
@[simp] theorem closeNow_regs (extra : Nat) (s : State) : (closeNow extra s).regs = s.regs := (closeNow_keeps extra s).2.2.1
@[simp] theorem closeNow_masks (extra : Nat) (s : State) : (closeNow extra s).evt.masks = s.evt.masks := (closeNow_keeps extra s).2.2.2

theorem auditChange_keeps (change : Nat) (s : State) : Keeps s (auditChange change s) := by
  unfold auditChange
  try dsimp only
  (repeat' split) <;> simp [Keeps]
@[simp] theorem auditChange_pending (change : Nat) (s : State) : (auditChange change s).pending = s.pending := (auditChange_keeps change s).1
@[simp] theorem auditChange_clk (change : Nat) (s : State) : (auditChange change s).clk = s.clk := (auditChange_keeps change s).2.1
@[simp] theorem auditChange_regs (change : Nat) (s : State) : (auditChange change s).regs = s.regs := (auditChange_keeps change s).2.2.1
@[simp] theorem auditChange_masks (change : Nat) (s : State) : (auditChange change s).evt.masks = s.evt.masks := (auditChange_keeps change s).2.2.2

theorem passIntervals_keeps (first n : Nat) (s : State) : Keeps s (passIntervals first n s) := by
  unfold passIntervals
  refine Keeps.trans (t := { s with umber.seq := (s.umber.seq + (n - 4096)) % 2 ^ 32 }) ⟨rfl, rfl, rfl, rfl⟩ (fold_keeps _ (fun s a => ?_) _ _)
  exact storeRec_keeps _ s
@[simp] theorem passIntervals_pending (first n : Nat) (s : State) : (passIntervals first n s).pending = s.pending := (passIntervals_keeps first n s).1
@[simp] theorem passIntervals_clk (first n : Nat) (s : State) : (passIntervals first n s).clk = s.clk := (passIntervals_keeps first n s).2.1
@[simp] theorem passIntervals_regs (first n : Nat) (s : State) : (passIntervals first n s).regs = s.regs := (passIntervals_keeps first n s).2.2.1
@[simp] theorem passIntervals_masks (first n : Nat) (s : State) : (passIntervals first n s).evt.masks = s.evt.masks := (passIntervals_keeps first n s).2.2.2

theorem stepForward_keeps (t : Nat) (s : State) : Keeps s (stepForward t s) := by
  unfold stepForward
  try dsimp only
  (repeat' split) <;> simp [Keeps]
@[simp] theorem stepForward_pending (t : Nat) (s : State) : (stepForward t s).pending = s.pending := (stepForward_keeps t s).1
@[simp] theorem stepForward_clk (t : Nat) (s : State) : (stepForward t s).clk = s.clk := (stepForward_keeps t s).2.1
@[simp] theorem stepForward_regs (t : Nat) (s : State) : (stepForward t s).regs = s.regs := (stepForward_keeps t s).2.2.1
@[simp] theorem stepForward_masks (t : Nat) (s : State) : (stepForward t s).evt.masks = s.evt.masks := (stepForward_keeps t s).2.2.2

theorem stepBackward_keeps (t : Nat) (s : State) : Keeps s (stepBackward t s) := by
  unfold stepBackward
  try dsimp only
  (repeat' split) <;> simp [Keeps]
@[simp] theorem stepBackward_pending (t : Nat) (s : State) : (stepBackward t s).pending = s.pending := (stepBackward_keeps t s).1
@[simp] theorem stepBackward_clk (t : Nat) (s : State) : (stepBackward t s).clk = s.clk := (stepBackward_keeps t s).2.1
@[simp] theorem stepBackward_regs (t : Nat) (s : State) : (stepBackward t s).regs = s.regs := (stepBackward_keeps t s).2.2.1
@[simp] theorem stepBackward_masks (t : Nat) (s : State) : (stepBackward t s).evt.masks = s.evt.masks := (stepBackward_keeps t s).2.2.2

theorem umberLabel_keeps (s : State) : Keeps s (umberLabel s) := by
  unfold umberLabel
  try dsimp only
  (repeat' split) <;> simp [Keeps]
@[simp] theorem umberLabel_pending (s : State) : (umberLabel s).pending = s.pending := (umberLabel_keeps s).1
@[simp] theorem umberLabel_clk (s : State) : (umberLabel s).clk = s.clk := (umberLabel_keeps s).2.1
@[simp] theorem umberLabel_regs (s : State) : (umberLabel s).regs = s.regs := (umberLabel_keeps s).2.2.1
@[simp] theorem umberLabel_masks (s : State) : (umberLabel s).evt.masks = s.evt.masks := (umberLabel_keeps s).2.2.2

theorem discardInward_keeps (s : State) : Keeps s (discardInward s) := by
  unfold discardInward
  try dsimp only
  (repeat' split) <;> simp [Keeps]
@[simp] theorem discardInward_pending (s : State) : (discardInward s).pending = s.pending := (discardInward_keeps s).1
@[simp] theorem discardInward_clk (s : State) : (discardInward s).clk = s.clk := (discardInward_keeps s).2.1
@[simp] theorem discardInward_regs (s : State) : (discardInward s).regs = s.regs := (discardInward_keeps s).2.2.1
@[simp] theorem discardInward_masks (s : State) : (discardInward s).evt.masks = s.evt.masks := (discardInward_keeps s).2.2.2

theorem umberFault_keeps (s : State) : Keeps s (umberFault s) := by
  unfold umberFault
  try dsimp only
  (repeat' split) <;> simp [Keeps]
@[simp] theorem umberFault_pending (s : State) : (umberFault s).pending = s.pending := (umberFault_keeps s).1
@[simp] theorem umberFault_clk (s : State) : (umberFault s).clk = s.clk := (umberFault_keeps s).2.1
@[simp] theorem umberFault_regs (s : State) : (umberFault s).regs = s.regs := (umberFault_keeps s).2.2.1
@[simp] theorem umberFault_masks (s : State) : (umberFault s).evt.masks = s.evt.masks := (umberFault_keeps s).2.2.2

theorem dropImage_keeps (s : State) : Keeps s (dropImage s) := by
  unfold dropImage
  try dsimp only
  (repeat' split) <;> simp [Keeps]
@[simp] theorem dropImage_pending (s : State) : (dropImage s).pending = s.pending := (dropImage_keeps s).1
@[simp] theorem dropImage_clk (s : State) : (dropImage s).clk = s.clk := (dropImage_keeps s).2.1
@[simp] theorem dropImage_regs (s : State) : (dropImage s).regs = s.regs := (dropImage_keeps s).2.2.1
@[simp] theorem dropImage_masks (s : State) : (dropImage s).evt.masks = s.evt.masks := (dropImage_keeps s).2.2.2

end Sys2Proof.Machine
end

