-- ==== Sys2Proof/Laws/Keep/TimeOps.lean ====
section
/-! SUPPORT. What the operations of `Machine/TimeOps.lean` leave alone. -/

namespace Sys2Proof.Machine

open Sys2Proof

theorem noteOffset_keeps (off : Int) (s : State) : Keeps s (noteOffset off s) := by
  unfold noteOffset
  try dsimp only
  (repeat' split) <;> simp [Keeps]
@[simp] theorem noteOffset_pending (off : Int) (s : State) : (noteOffset off s).pending = s.pending := (noteOffset_keeps off s).1
@[simp] theorem noteOffset_clk (off : Int) (s : State) : (noteOffset off s).clk = s.clk := (noteOffset_keeps off s).2.1
@[simp] theorem noteOffset_regs (off : Int) (s : State) : (noteOffset off s).regs = s.regs := (noteOffset_keeps off s).2.2.1
@[simp] theorem noteOffset_masks (off : Int) (s : State) : (noteOffset off s).evt.masks = s.evt.masks := (noteOffset_keeps off s).2.2.2

theorem setCounter_keeps (t : Int) (s : State) : Keeps s (setCounter t s) := by
  unfold setCounter
  try dsimp only
  (repeat' split) <;> simp [Keeps]
@[simp] theorem setCounter_pending (t : Int) (s : State) : (setCounter t s).pending = s.pending := (setCounter_keeps t s).1
@[simp] theorem setCounter_clk (t : Int) (s : State) : (setCounter t s).clk = s.clk := (setCounter_keeps t s).2.1
@[simp] theorem setCounter_regs (t : Int) (s : State) : (setCounter t s).regs = s.regs := (setCounter_keeps t s).2.2.1
@[simp] theorem setCounter_masks (t : Int) (s : State) : (setCounter t s).evt.masks = s.evt.masks := (setCounter_keeps t s).2.2.2

theorem stepTicks_keeps (s : State) : Keeps s (stepTicks s) := by
  unfold stepTicks
  try dsimp only
  (repeat' split) <;> simp [Keeps]
@[simp] theorem stepTicks_pending (s : State) : (stepTicks s).pending = s.pending := (stepTicks_keeps s).1
@[simp] theorem stepTicks_clk (s : State) : (stepTicks s).clk = s.clk := (stepTicks_keeps s).2.1
@[simp] theorem stepTicks_regs (s : State) : (stepTicks s).regs = s.regs := (stepTicks_keeps s).2.2.1
@[simp] theorem stepTicks_masks (s : State) : (stepTicks s).evt.masks = s.evt.masks := (stepTicks_keeps s).2.2.2

theorem stepped_keeps (s : State) : Keeps s (stepped s) := by
  unfold stepped
  try dsimp only
  (repeat' split) <;> simp [Keeps]
@[simp] theorem stepped_pending (s : State) : (stepped s).pending = s.pending := (stepped_keeps s).1
@[simp] theorem stepped_clk (s : State) : (stepped s).clk = s.clk := (stepped_keeps s).2.1
@[simp] theorem stepped_regs (s : State) : (stepped s).regs = s.regs := (stepped_keeps s).2.2.1
@[simp] theorem stepped_masks (s : State) : (stepped s).evt.masks = s.evt.masks := (stepped_keeps s).2.2.2

theorem stepBy_keeps (off : Int) (s : State) : Keeps s (stepBy off s) := by
  unfold stepBy
  try dsimp only
  (repeat' split) <;> simp [Keeps]
@[simp] theorem stepBy_pending (off : Int) (s : State) : (stepBy off s).pending = s.pending := (stepBy_keeps off s).1
@[simp] theorem stepBy_clk (off : Int) (s : State) : (stepBy off s).clk = s.clk := (stepBy_keeps off s).2.1
@[simp] theorem stepBy_regs (off : Int) (s : State) : (stepBy off s).regs = s.regs := (stepBy_keeps off s).2.2.1
@[simp] theorem stepBy_masks (off : Int) (s : State) : (stepBy off s).evt.masks = s.evt.masks := (stepBy_keeps off s).2.2.2

theorem slewBy_keeps (off : Int) (s : State) : Keeps s (slewBy off s) := by
  unfold slewBy
  try dsimp only
  (repeat' split) <;> simp [Keeps]
@[simp] theorem slewBy_pending (off : Int) (s : State) : (slewBy off s).pending = s.pending := (slewBy_keeps off s).1
@[simp] theorem slewBy_clk (off : Int) (s : State) : (slewBy off s).clk = s.clk := (slewBy_keeps off s).2.1
@[simp] theorem slewBy_regs (off : Int) (s : State) : (slewBy off s).regs = s.regs := (slewBy_keeps off s).2.2.1
@[simp] theorem slewBy_masks (off : Int) (s : State) : (slewBy off s).evt.masks = s.evt.masks := (slewBy_keeps off s).2.2.2

theorem setTimeSt_keeps (st : TimeState) (s : State) : Keeps s (setTimeSt st s) := by
  unfold setTimeSt
  try dsimp only
  (repeat' split) <;> simp [Keeps]
@[simp] theorem setTimeSt_pending (st : TimeState) (s : State) : (setTimeSt st s).pending = s.pending := (setTimeSt_keeps st s).1
@[simp] theorem setTimeSt_clk (st : TimeState) (s : State) : (setTimeSt st s).clk = s.clk := (setTimeSt_keeps st s).2.1
@[simp] theorem setTimeSt_regs (st : TimeState) (s : State) : (setTimeSt st s).regs = s.regs := (setTimeSt_keeps st s).2.2.1
@[simp] theorem setTimeSt_masks (st : TimeState) (s : State) : (setTimeSt st s).evt.masks = s.evt.masks := (setTimeSt_keeps st s).2.2.2

theorem judgeOffset_keeps (inner : Int) (outer : Int) (n : Nat) (off : Int) (s : State) : Keeps s (judgeOffset inner outer n off s) := by
  unfold judgeOffset
  try dsimp only
  (repeat' split) <;> simp [Keeps]
@[simp] theorem judgeOffset_pending (inner : Int) (outer : Int) (n : Nat) (off : Int) (s : State) : (judgeOffset inner outer n off s).pending = s.pending := (judgeOffset_keeps inner outer n off s).1
@[simp] theorem judgeOffset_clk (inner : Int) (outer : Int) (n : Nat) (off : Int) (s : State) : (judgeOffset inner outer n off s).clk = s.clk := (judgeOffset_keeps inner outer n off s).2.1
@[simp] theorem judgeOffset_regs (inner : Int) (outer : Int) (n : Nat) (off : Int) (s : State) : (judgeOffset inner outer n off s).regs = s.regs := (judgeOffset_keeps inner outer n off s).2.2.1
@[simp] theorem judgeOffset_masks (inner : Int) (outer : Int) (n : Nat) (off : Int) (s : State) : (judgeOffset inner outer n off s).evt.masks = s.evt.masks := (judgeOffset_keeps inner outer n off s).2.2.2

theorem correct_keeps (force : Bool) (enter : TimeState) (off : Int) (s : State) : Keeps s (correct force enter off s) := by
  unfold correct
  try dsimp only
  (repeat' split) <;> simp [Keeps]
@[simp] theorem correct_pending (force : Bool) (enter : TimeState) (off : Int) (s : State) : (correct force enter off s).pending = s.pending := (correct_keeps force enter off s).1
@[simp] theorem correct_clk (force : Bool) (enter : TimeState) (off : Int) (s : State) : (correct force enter off s).clk = s.clk := (correct_keeps force enter off s).2.1
@[simp] theorem correct_regs (force : Bool) (enter : TimeState) (off : Int) (s : State) : (correct force enter off s).regs = s.regs := (correct_keeps force enter off s).2.2.1
@[simp] theorem correct_masks (force : Bool) (enter : TimeState) (off : Int) (s : State) : (correct force enter off s).evt.masks = s.evt.masks := (correct_keeps force enter off s).2.2.2

theorem setHop_keeps (sd : Side) (f : Hop → Hop) (s : State) : Keeps s (setHop sd f s) := by
  unfold setHop
  try dsimp only
  (repeat' split) <;> simp [Keeps]
@[simp] theorem setHop_pending (sd : Side) (f : Hop → Hop) (s : State) : (setHop sd f s).pending = s.pending := (setHop_keeps sd f s).1
@[simp] theorem setHop_clk (sd : Side) (f : Hop → Hop) (s : State) : (setHop sd f s).clk = s.clk := (setHop_keeps sd f s).2.1
@[simp] theorem setHop_regs (sd : Side) (f : Hop → Hop) (s : State) : (setHop sd f s).regs = s.regs := (setHop_keeps sd f s).2.2.1
@[simp] theorem setHop_masks (sd : Side) (f : Hop → Hop) (s : State) : (setHop sd f s).evt.masks = s.evt.masks := (setHop_keeps sd f s).2.2.2

theorem discardResult_keeps (sd : Side) (s : State) : Keeps s (discardResult sd s) := by
  unfold discardResult
  try dsimp only
  (repeat' split) <;> simp [Keeps]
@[simp] theorem discardResult_pending (sd : Side) (s : State) : (discardResult sd s).pending = s.pending := (discardResult_keeps sd s).1
@[simp] theorem discardResult_clk (sd : Side) (s : State) : (discardResult sd s).clk = s.clk := (discardResult_keeps sd s).2.1
@[simp] theorem discardResult_regs (sd : Side) (s : State) : (discardResult sd s).regs = s.regs := (discardResult_keeps sd s).2.2.1
@[simp] theorem discardResult_masks (sd : Side) (s : State) : (discardResult sd s).evt.masks = s.evt.masks := (discardResult_keeps sd s).2.2.2

theorem validResult_keeps (sd : Side) (d : Nat) (s : State) : Keeps s (validResult sd d s) := by
  unfold validResult
  try dsimp only
  (repeat' split) <;> simp [Keeps]
@[simp] theorem validResult_pending (sd : Side) (d : Nat) (s : State) : (validResult sd d s).pending = s.pending := (validResult_keeps sd d s).1
@[simp] theorem validResult_clk (sd : Side) (d : Nat) (s : State) : (validResult sd d s).clk = s.clk := (validResult_keeps sd d s).2.1
@[simp] theorem validResult_regs (sd : Side) (d : Nat) (s : State) : (validResult sd d s).regs = s.regs := (validResult_keeps sd d s).2.2.1
@[simp] theorem validResult_masks (sd : Side) (d : Nat) (s : State) : (validResult sd d s).evt.masks = s.evt.masks := (validResult_keeps sd d s).2.2.2

theorem stampBeacon_keeps (sd : Side) (frac : Nat) (i : TxItem) (s : State) : Keeps s (stampBeacon sd frac i s).2 := by
  unfold stampBeacon
  try dsimp only
  (repeat' split) <;> simp [Keeps]
@[simp] theorem stampBeacon_pending (sd : Side) (frac : Nat) (i : TxItem) (s : State) : (stampBeacon sd frac i s).2.pending = s.pending := (stampBeacon_keeps sd frac i s).1
@[simp] theorem stampBeacon_clk (sd : Side) (frac : Nat) (i : TxItem) (s : State) : (stampBeacon sd frac i s).2.clk = s.clk := (stampBeacon_keeps sd frac i s).2.1
@[simp] theorem stampBeacon_regs (sd : Side) (frac : Nat) (i : TxItem) (s : State) : (stampBeacon sd frac i s).2.regs = s.regs := (stampBeacon_keeps sd frac i s).2.2.1
@[simp] theorem stampBeacon_masks (sd : Side) (frac : Nat) (i : TxItem) (s : State) : (stampBeacon sd frac i s).2.evt.masks = s.evt.masks := (stampBeacon_keeps sd frac i s).2.2.2

end Sys2Proof.Machine
end

