-- ==== Sys2Proof/Laws/Keep/Chain.lean ====
section
/-! SUPPORT. What the operations of `Machine/Chain.lean` leave alone. -/

namespace Sys2Proof.Machine

open Sys2Proof

theorem startFrame_keeps (sd : Side) (frac : Nat) (i : TxItem) (s : State) : Keeps s (startFrame sd frac i s) := by
  unfold startFrame
  try dsimp only
  (repeat' split) <;> simp [Keeps]
@[simp] theorem startFrame_pending (sd : Side) (frac : Nat) (i : TxItem) (s : State) : (startFrame sd frac i s).pending = s.pending := (startFrame_keeps sd frac i s).1
@[simp] theorem startFrame_clk (sd : Side) (frac : Nat) (i : TxItem) (s : State) : (startFrame sd frac i s).clk = s.clk := (startFrame_keeps sd frac i s).2.1
@[simp] theorem startFrame_regs (sd : Side) (frac : Nat) (i : TxItem) (s : State) : (startFrame sd frac i s).regs = s.regs := (startFrame_keeps sd frac i s).2.2.1
@[simp] theorem startFrame_masks (sd : Side) (frac : Nat) (i : TxItem) (s : State) : (startFrame sd frac i s).evt.masks = s.evt.masks := (startFrame_keeps sd frac i s).2.2.2

theorem execFrameTransmit_keeps (sd : Side) (frac : Nat) (s0 : State) {t : State} (h : execFrameTransmit sd frac s0 = .next t) : Keeps s0 t := by
  unfold execFrameTransmit at h
  try dsimp only at h
  (repeat' split at h) <;> (injection h with h; subst h; simp [Keeps])

theorem sendBack_keeps (sd : Side) (i : TxItem) (s : State) : Keeps s (sendBack sd i s) := by
  unfold sendBack
  try dsimp only
  (repeat' split) <;> simp [Keeps]
@[simp] theorem sendBack_pending (sd : Side) (i : TxItem) (s : State) : (sendBack sd i s).pending = s.pending := (sendBack_keeps sd i s).1
@[simp] theorem sendBack_clk (sd : Side) (i : TxItem) (s : State) : (sendBack sd i s).clk = s.clk := (sendBack_keeps sd i s).2.1
@[simp] theorem sendBack_regs (sd : Side) (i : TxItem) (s : State) : (sendBack sd i s).regs = s.regs := (sendBack_keeps sd i s).2.2.1
@[simp] theorem sendBack_masks (sd : Side) (i : TxItem) (s : State) : (sendBack sd i s).evt.masks = s.evt.masks := (sendBack_keeps sd i s).2.2.2

theorem execCollision_keeps (sd : Side) (s : State) {t : State} (h : execCollision sd s = .next t) : Keeps s t := by
  unfold execCollision at h
  try dsimp only at h
  (repeat' split at h) <;> (injection h with h; subst h; simp [Keeps])

theorem execTransitFrame_keeps (sd : Side) (f : Frame) (lq : LineQ) (s : State) {t : State} (h : execTransitFrame sd f lq s = .next t) : Keeps s t := by
  unfold execTransitFrame at h
  try dsimp only at h
  (repeat' split at h) <;> (injection h with h; subst h; simp [Keeps])

theorem execHopTimeout_keeps (sd : Side) (s : State) {t : State} (h : execHopTimeout sd s = .next t) : Keeps s t := by
  unfold execHopTimeout at h
  try dsimp only at h
  (repeat' split at h) <;> (injection h with h; subst h; simp [Keeps])

theorem execCreditFrame_keeps (sd : Side) (f : Frame) (lq : LineQ) (s : State) {t : State} (h : execCreditFrame sd f lq s = .next t) : Keeps s t := by
  unfold execCreditFrame at h
  try dsimp only at h
  (repeat' split at h) <;> (injection h with h; subst h; simp [Keeps])

theorem execCreditFrameSend_keeps (sd : Side) (s : State) {t : State} (h : execCreditFrameSend sd s = .next t) : Keeps s t := by
  unfold execCreditFrameSend at h
  try dsimp only at h
  (repeat' split at h) <;> (injection h with h; subst h; simp [Keeps])

theorem execLinkUp_keeps (sd : Side) (f : Frame) (lq : LineQ) (s : State) {t : State} (h : execLinkUp sd f lq s = .next t) : Keeps s t := by
  unfold execLinkUp at h
  try dsimp only at h
  (repeat' split at h) <;> (injection h with h; subst h; simp [Keeps])

theorem execLinkUpResend_keeps (sd : Side) (s : State) {t : State} (h : execLinkUpResend sd s = .next t) : Keeps s t := by
  unfold execLinkUpResend at h
  try dsimp only at h
  (repeat' split at h) <;> (injection h with h; subst h; simp [Keeps])

theorem execLinkDead_keeps (sd : Side) (s : State) {t : State} (h : execLinkDead sd s = .next t) : Keeps s t := by
  unfold execLinkDead at h
  try dsimp only at h
  (repeat' split at h) <;> (injection h with h; subst h; simp [Keeps])

theorem execBreakHealed_keeps (sd : Side) (s : State) {t : State} (h : execBreakHealed sd s = .next t) : Keeps s t := by
  unfold execBreakHealed at h
  try dsimp only at h
  (repeat' split at h) <;> (injection h with h; subst h; simp [Keeps])

theorem execBreakFrame_keeps (sd : Side) (f : Frame) (lq : LineQ) (s : State) {t : State} (h : execBreakFrame sd f lq s = .next t) : Keeps s t := by
  unfold execBreakFrame at h
  try dsimp only at h
  (repeat' split at h) <;> (injection h with h; subst h; simp [Keeps])

theorem clrPort_keeps (sd : Side) (s : State) : Keeps s (clrPort sd s) := by
  unfold clrPort
  try dsimp only
  (repeat' split) <;> simp [Keeps]
@[simp] theorem clrPort_pending (sd : Side) (s : State) : (clrPort sd s).pending = s.pending := (clrPort_keeps sd s).1
@[simp] theorem clrPort_clk (sd : Side) (s : State) : (clrPort sd s).clk = s.clk := (clrPort_keeps sd s).2.1
@[simp] theorem clrPort_regs (sd : Side) (s : State) : (clrPort sd s).regs = s.regs := (clrPort_keeps sd s).2.2.1
@[simp] theorem clrPort_masks (sd : Side) (s : State) : (clrPort sd s).evt.masks = s.evt.masks := (clrPort_keeps sd s).2.2.2

theorem execPortClr_keeps (north : Bool) (south : Bool) (s : State) {t : State} (h : execPortClr north south s = .next t) : Keeps s t := by
  unfold execPortClr at h
  try dsimp only at h
  (repeat' split at h) <;> (injection h with h; subst h; simp [Keeps])

theorem execOffCntExpiry_keeps (sd : Side) (s : State) {t : State} (h : execOffCntExpiry sd s = .next t) : Keeps s t := by
  unfold execOffCntExpiry at h
  try dsimp only at h
  (repeat' split at h) <;> (injection h with h; subst h; simp [Keeps])

theorem execEnumFrame_keeps (sd : Side) (f : Frame) (lq : LineQ) (s : State) {t : State} (h : execEnumFrame sd f lq s = .next t) : Keeps s t := by
  unfold execEnumFrame at h
  try dsimp only at h
  (repeat' split at h) <;> (injection h with h; subst h; simp [Keeps])

theorem execEnumTopTimeout_keeps (s : State) {t : State} (h : execEnumTopTimeout s = .next t) : Keeps s t := by
  unfold execEnumTopTimeout at h
  try dsimp only at h
  (repeat' split at h) <;> (injection h with h; subst h; simp [Keeps])

theorem execEnumEnd_keeps (sd : Side) (f : Frame) (lq : LineQ) (s : State) {t : State} (h : execEnumEnd sd f lq s = .next t) : Keeps s t := by
  unfold execEnumEnd at h
  try dsimp only at h
  (repeat' split at h) <;> (injection h with h; subst h; simp [Keeps])

theorem execEnumRetry_keeps (s : State) {t : State} (h : execEnumRetry s = .next t) : Keeps s t := by
  unfold execEnumRetry at h
  try dsimp only at h
  (repeat' split at h) <;> (injection h with h; subst h; simp [Keeps])

theorem execEnumDone_keeps (sd : Side) (f : Frame) (lq : LineQ) (s : State) {t : State} (h : execEnumDone sd f lq s = .next t) : Keeps s t := by
  unfold execEnumDone at h
  try dsimp only at h
  (repeat' split at h) <;> (injection h with h; subst h; simp [Keeps])

theorem execAck_keeps (sd : Side) (f : Frame) (lq : LineQ) (s : State) {t : State} (h : execAck sd f lq s = .next t) : Keeps s t := by
  unfold execAck at h
  try dsimp only at h
  (repeat' split at h) <;> (injection h with h; subst h; simp [Keeps])

theorem execAckTimer_keeps (orig : Nat) (multi : Bool) (cls : Nat) (twin : Bool) (s : State) {t : State} (h : execAckTimer orig multi cls twin s = .next t) : Keeps s t := by
  unfold execAckTimer at h
  try dsimp only at h
  (repeat' split at h) <;> (injection h with h; subst h; simp [Keeps])

theorem execNakRepeat_keeps (orig : Nat) (multi : Bool) (cls : Nat) (twin : Bool) (s : State) {t : State} (h : execNakRepeat orig multi cls twin s = .next t) : Keeps s t := by
  unfold execNakRepeat at h
  try dsimp only at h
  (repeat' split at h) <;> (injection h with h; subst h; simp [Keeps])

theorem execRetransmit_keeps (dest : Nat) (multi : Bool) (cls : Nat) (twin : Bool) (s : State) {t : State} (h : execRetransmit dest multi cls twin s = .next t) : Keeps s t := by
  unfold execRetransmit at h
  try dsimp only at h
  (repeat' split at h) <;> (injection h with h; subst h; simp [Keeps])

theorem execVoidFrame_keeps (sd : Side) (f : Frame) (lq : LineQ) (s : State) {t : State} (h : execVoidFrame sd f lq s = .next t) : Keeps s t := by
  unfold execVoidFrame at h
  try dsimp only at h
  (repeat' split at h) <;> (injection h with h; subst h; simp [Keeps])

theorem resendHeld_keeps (sd : Side) (h : Held) (s : State) : Keeps s (resendHeld sd h s) := by
  unfold resendHeld
  try dsimp only
  (repeat' split) <;> simp [Keeps]
@[simp] theorem resendHeld_pending (sd : Side) (h : Held) (s : State) : (resendHeld sd h s).pending = s.pending := (resendHeld_keeps sd h s).1
@[simp] theorem resendHeld_clk (sd : Side) (h : Held) (s : State) : (resendHeld sd h s).clk = s.clk := (resendHeld_keeps sd h s).2.1
@[simp] theorem resendHeld_regs (sd : Side) (h : Held) (s : State) : (resendHeld sd h s).regs = s.regs := (resendHeld_keeps sd h s).2.2.1
@[simp] theorem resendHeld_masks (sd : Side) (h : Held) (s : State) : (resendHeld sd h s).evt.masks = s.evt.masks := (resendHeld_keeps sd h s).2.2.2

theorem execAlarmResend_keeps (sd : Side) (s : State) {t : State} (h : execAlarmResend sd s = .next t) : Keeps s t := by
  unfold execAlarmResend at h
  try dsimp only at h
  (repeat' split at h) <;> (injection h with h; subst h; simp [Keeps, fold_pending, fold_clk, fold_regs, fold_masks, fold1_pending, fold1_clk, fold1_regs, fold1_masks, apply_ite State.pending, apply_ite State.clk, apply_ite State.regs, apply_ite State.evt, apply_ite EvtSt.masks])

end Sys2Proof.Machine
end

