-- ==== Sys2Proof/Laws/Keep/Chain2.lean ====
section
/-! SUPPORT. What the operations of `Machine/Chain2.lean` leave alone. -/

namespace Sys2Proof.Machine

open Sys2Proof

theorem execCommandFrame_keeps (sd : Side) (f : Frame) (lq : LineQ) (s : State) {t : State} (h : execCommandFrame sd f lq s = .next t) : Keeps s t := by
  unfold execCommandFrame at h
  try dsimp only at h
  (repeat' split at h) <;> (injection h with h; subst h; simp [Keeps])

theorem execResponseFrame_keeps (sd : Side) (f : Frame) (lq : LineQ) (s : State) {t : State} (h : execResponseFrame sd f lq s = .next t) : Keeps s t := by
  unfold execResponseFrame at h
  try dsimp only at h
  (repeat' split at h) <;> (injection h with h; subst h; simp [Keeps])

theorem execEventFrame_keeps (sd : Side) (f : Frame) (lq : LineQ) (s : State) {t : State} (h : execEventFrame sd f lq s = .next t) : Keeps s t := by
  unfold execEventFrame at h
  try dsimp only at h
  (repeat' split at h) <;> (injection h with h; subst h; simp [Keeps])

theorem execEventFrameSend_keeps (dest : Nat) (s : State) {t : State} (h : execEventFrameSend dest s = .next t) : Keeps s t := by
  unfold execEventFrameSend at h
  try dsimp only at h
  (repeat' split at h) <;> (injection h with h; subst h; simp [Keeps])

theorem execSafetyFrame_keeps (sd : Side) (f : Frame) (lq : LineQ) (s : State) {t : State} (h : execSafetyFrame sd f lq s = .next t) : Keeps s t := by
  unfold execSafetyFrame at h
  try dsimp only at h
  (repeat' split at h) <;> (injection h with h; subst h; simp [Keeps])

theorem execTwinWindow_keeps (peer : Fin 24) (s : State) {t : State} (h : execTwinWindow peer s = .next t) : Keeps s t := by
  unfold execTwinWindow at h
  try dsimp only at h
  (repeat' split at h) <;> (injection h with h; subst h; simp [Keeps])

theorem execMetro_keeps (sd : Side) (f : Frame) (lq : LineQ) (s : State) {t : State} (h : execMetro sd f lq s = .next t) : Keeps s t := by
  unfold execMetro at h
  try dsimp only at h
  (repeat' split at h) <;> (injection h with h; subst h; simp [Keeps])

theorem execDataFrame_keeps (sd : Side) (f : Frame) (lq : LineQ) (s : State) {t : State} (h : execDataFrame sd f lq s = .next t) : Keeps s t := by
  unfold execDataFrame at h
  try dsimp only at h
  (repeat' split at h) <;> (injection h with h; subst h; simp [Keeps])

theorem hbDecide_keeps (st : HbIn) (s : State) : Keeps s (hbDecide st s) := by
  unfold hbDecide
  try dsimp only
  (repeat' split) <;> simp [Keeps]
@[simp] theorem hbDecide_pending (st : HbIn) (s : State) : (hbDecide st s).pending = s.pending := (hbDecide_keeps st s).1
@[simp] theorem hbDecide_clk (st : HbIn) (s : State) : (hbDecide st s).clk = s.clk := (hbDecide_keeps st s).2.1
@[simp] theorem hbDecide_regs (st : HbIn) (s : State) : (hbDecide st s).regs = s.regs := (hbDecide_keeps st s).2.2.1
@[simp] theorem hbDecide_masks (st : HbIn) (s : State) : (hbDecide st s).evt.masks = s.evt.masks := (hbDecide_keeps st s).2.2.2

theorem hbWord_keeps (p : Nat) (c : Nat) (parity : Bool) (s : State) : Keeps s (hbWord p c parity s) := by
  unfold hbWord
  try dsimp only
  (repeat' split) <;> simp [Keeps]
@[simp] theorem hbWord_pending (p : Nat) (c : Nat) (parity : Bool) (s : State) : (hbWord p c parity s).pending = s.pending := (hbWord_keeps p c parity s).1
@[simp] theorem hbWord_clk (p : Nat) (c : Nat) (parity : Bool) (s : State) : (hbWord p c parity s).clk = s.clk := (hbWord_keeps p c parity s).2.1
@[simp] theorem hbWord_regs (p : Nat) (c : Nat) (parity : Bool) (s : State) : (hbWord p c parity s).regs = s.regs := (hbWord_keeps p c parity s).2.2.1
@[simp] theorem hbWord_masks (p : Nat) (c : Nat) (parity : Bool) (s : State) : (hbWord p c parity s).evt.masks = s.evt.masks := (hbWord_keeps p c parity s).2.2.2

theorem hbPeriod_keeps (highNs : Nat) (lengthNs : Nat) (s : State) : Keeps s (hbPeriod highNs lengthNs s) := by
  unfold hbPeriod
  try dsimp only
  (repeat' split) <;> simp [Keeps]
@[simp] theorem hbPeriod_pending (highNs : Nat) (lengthNs : Nat) (s : State) : (hbPeriod highNs lengthNs s).pending = s.pending := (hbPeriod_keeps highNs lengthNs s).1
@[simp] theorem hbPeriod_clk (highNs : Nat) (lengthNs : Nat) (s : State) : (hbPeriod highNs lengthNs s).clk = s.clk := (hbPeriod_keeps highNs lengthNs s).2.1
@[simp] theorem hbPeriod_regs (highNs : Nat) (lengthNs : Nat) (s : State) : (hbPeriod highNs lengthNs s).regs = s.regs := (hbPeriod_keeps highNs lengthNs s).2.2.1
@[simp] theorem hbPeriod_masks (highNs : Nat) (lengthNs : Nat) (s : State) : (hbPeriod highNs lengthNs s).evt.masks = s.evt.masks := (hbPeriod_keeps highNs lengthNs s).2.2.2

theorem execHbInDecode_keeps (pat : HbPat) (s : State) {t : State} (h : execHbInDecode pat s = .next t) : Keeps s t := by
  unfold execHbInDecode at h
  try dsimp only at h
  (repeat' split at h) <;> (injection h with h; subst h; simp [Keeps])

end Sys2Proof.Machine
end

