-- ==== Sys2Proof/Laws/Keep/Check.lean ====
section
/-! SUPPORT. What the operations of `Machine/Check.lean` leave alone. -/

namespace Sys2Proof.Machine

open Sys2Proof

theorem updChk_keeps (n : Nat) (f : ChkU → ChkU) (s : State) : Keeps s (updChk n f s) := by
  unfold updChk
  try dsimp only
  (repeat' split) <;> simp [Keeps]
@[simp] theorem updChk_pending (n : Nat) (f : ChkU → ChkU) (s : State) : (updChk n f s).pending = s.pending := (updChk_keeps n f s).1
@[simp] theorem updChk_clk (n : Nat) (f : ChkU → ChkU) (s : State) : (updChk n f s).clk = s.clk := (updChk_keeps n f s).2.1
@[simp] theorem updChk_regs (n : Nat) (f : ChkU → ChkU) (s : State) : (updChk n f s).regs = s.regs := (updChk_keeps n f s).2.2.1
@[simp] theorem updChk_masks (n : Nat) (f : ChkU → ChkU) (s : State) : (updChk n f s).evt.masks = s.evt.masks := (updChk_keeps n f s).2.2.2

theorem decideChk_keeps (n : Nat) (s : State) : Keeps s (decideChk n s) := by
  unfold decideChk
  try dsimp only
  (repeat' split) <;> simp [Keeps]
@[simp] theorem decideChk_pending (n : Nat) (s : State) : (decideChk n s).pending = s.pending := (decideChk_keeps n s).1
@[simp] theorem decideChk_clk (n : Nat) (s : State) : (decideChk n s).clk = s.clk := (decideChk_keeps n s).2.1
@[simp] theorem decideChk_regs (n : Nat) (s : State) : (decideChk n s).regs = s.regs := (decideChk_keeps n s).2.2.1
@[simp] theorem decideChk_masks (n : Nat) (s : State) : (decideChk n s).evt.masks = s.evt.masks := (decideChk_keeps n s).2.2.2

theorem endChk_keeps (n : Nat) (s : State) : Keeps s (endChk n s) := by
  unfold endChk
  try dsimp only
  (repeat' split) <;> simp [Keeps]
@[simp] theorem endChk_pending (n : Nat) (s : State) : (endChk n s).pending = s.pending := (endChk_keeps n s).1
@[simp] theorem endChk_clk (n : Nat) (s : State) : (endChk n s).clk = s.clk := (endChk_keeps n s).2.1
@[simp] theorem endChk_regs (n : Nat) (s : State) : (endChk n s).regs = s.regs := (endChk_keeps n s).2.2.1
@[simp] theorem endChk_masks (n : Nat) (s : State) : (endChk n s).evt.masks = s.evt.masks := (endChk_keeps n s).2.2.2

theorem execStart_keeps (n : Fin 4) (s : State) {t : State} (h : execStart n s = .next t) : Keeps s t := by
  unfold execStart at h
  try dsimp only at h
  (repeat' split at h) <;> (injection h with h; subst h; simp [Keeps])

theorem execChkEnd_keeps (n : Fin 4) (s : State) {t : State} (h : execChkEnd n s = .next t) : Keeps s t := by
  unfold execChkEnd at h
  try dsimp only at h
  (repeat' split at h) <;> (injection h with h; subst h; simp [Keeps])

theorem execChkJobEnd_keeps (n : Fin 4) (s : State) {t : State} (h : execChkJobEnd n s = .next t) : Keeps s t := by
  unfold execChkJobEnd at h
  try dsimp only at h
  (repeat' split at h) <;> (injection h with h; subst h; simp [Keeps])

theorem execAbort_keeps (n : Fin 4) (s : State) {t : State} (h : execAbort n s = .next t) : Keeps s t := by
  unfold execAbort at h
  try dsimp only at h
  (repeat' split at h) <;> (injection h with h; subst h; simp [Keeps])

theorem execSuspend_keeps (n : Fin 4) (s : State) {t : State} (h : execSuspend n s = .next t) : Keeps s t := by
  unfold execSuspend at h
  try dsimp only at h
  (repeat' split at h) <;> (injection h with h; subst h; simp [Keeps])

theorem execResume_keeps (n : Fin 4) (s : State) {t : State} (h : execResume n s = .next t) : Keeps s t := by
  unfold execResume at h
  try dsimp only at h
  (repeat' split at h) <;> (injection h with h; subst h; simp [Keeps])

theorem execData_keeps (n : Fin 4) (w : Word) (s : State) {t : State} (h : execData n w s = .next t) : Keeps s t := by
  unfold execData at h
  try dsimp only at h
  (repeat' split at h) <;> (injection h with h; subst h; simp [Keeps, fold_pending, fold_clk, fold_regs, fold_masks, fold1_pending, fold1_clk, fold1_regs, fold1_masks, apply_ite State.pending, apply_ite State.clk, apply_ite State.regs, apply_ite State.evt, apply_ite EvtSt.masks])

theorem execExp_keeps (n : Fin 4) (w : Word) (s : State) {t : State} (h : execExp n w s = .next t) : Keeps s t := by
  unfold execExp at h
  try dsimp only at h
  (repeat' split at h) <;> (injection h with h; subst h; simp [Keeps])

theorem writeCtx0_keeps (n : Nat) (w : Word) (s : State) : Keeps s (writeCtx0 n w s) := by
  unfold writeCtx0
  try dsimp only
  (repeat' split) <;> simp [Keeps]
@[simp] theorem writeCtx0_pending (n : Nat) (w : Word) (s : State) : (writeCtx0 n w s).pending = s.pending := (writeCtx0_keeps n w s).1
@[simp] theorem writeCtx0_clk (n : Nat) (w : Word) (s : State) : (writeCtx0 n w s).clk = s.clk := (writeCtx0_keeps n w s).2.1
@[simp] theorem writeCtx0_regs (n : Nat) (w : Word) (s : State) : (writeCtx0 n w s).regs = s.regs := (writeCtx0_keeps n w s).2.2.1
@[simp] theorem writeCtx0_masks (n : Nat) (w : Word) (s : State) : (writeCtx0 n w s).evt.masks = s.evt.masks := (writeCtx0_keeps n w s).2.2.2

theorem execContextRestore_keeps (n : Fin 4) (ctx1 : Word) (s : State) {t : State} (h : execContextRestore n ctx1 s = .next t) : Keeps s t := by
  unfold execContextRestore at h
  try dsimp only at h
  (repeat' split at h) <;> (injection h with h; subst h; simp [Keeps, fold_pending, fold_clk, fold_regs, fold_masks, fold1_pending, fold1_clk, fold1_regs, fold1_masks, apply_ite State.pending, apply_ite State.clk, apply_ite State.regs, apply_ite State.evt, apply_ite EvtSt.masks])

theorem execChkAlvResync_keeps (mask : Word) (s : State) {t : State} (h : execChkAlvResync mask s = .next t) : Keeps s t := by
  unfold execChkAlvResync at h
  try dsimp only at h
  (repeat' split at h) <;> (injection h with h; subst h; simp [Keeps])

theorem chkFail_keeps (n : Nat) (s : State) : Keeps s (chkFail n s) := by
  unfold chkFail
  try dsimp only
  (repeat' split) <;> simp [Keeps]
@[simp] theorem chkFail_pending (n : Nat) (s : State) : (chkFail n s).pending = s.pending := (chkFail_keeps n s).1
@[simp] theorem chkFail_clk (n : Nat) (s : State) : (chkFail n s).clk = s.clk := (chkFail_keeps n s).2.1
@[simp] theorem chkFail_regs (n : Nat) (s : State) : (chkFail n s).regs = s.regs := (chkFail_keeps n s).2.2.1
@[simp] theorem chkFail_masks (n : Nat) (s : State) : (chkFail n s).evt.masks = s.evt.masks := (chkFail_keeps n s).2.2.2

theorem knownAnswer_keeps (ok : List Bool) (s : State) : Keeps s (knownAnswer ok s) := by
  unfold knownAnswer
  try dsimp only
  (repeat' split) <;>
    first
    | (simp [Keeps, fold_pending, fold_clk, fold_regs, fold_masks, fold1_pending, fold1_clk, fold1_regs, fold1_masks, apply_ite State.pending, apply_ite State.clk, apply_ite State.regs, apply_ite State.evt, apply_ite EvtSt.masks]; done)
    | (refine Keeps.trans ?_ (fold_keeps _ (fun s a => ?_) _ _) <;> (try dsimp only) <;> (repeat' split) <;> simp [Keeps])
@[simp] theorem knownAnswer_pending (ok : List Bool) (s : State) : (knownAnswer ok s).pending = s.pending := (knownAnswer_keeps ok s).1
@[simp] theorem knownAnswer_clk (ok : List Bool) (s : State) : (knownAnswer ok s).clk = s.clk := (knownAnswer_keeps ok s).2.1
@[simp] theorem knownAnswer_regs (ok : List Bool) (s : State) : (knownAnswer ok s).regs = s.regs := (knownAnswer_keeps ok s).2.2.1
@[simp] theorem knownAnswer_masks (ok : List Bool) (s : State) : (knownAnswer ok s).evt.masks = s.evt.masks := (knownAnswer_keeps ok s).2.2.2

end Sys2Proof.Machine
end

