-- ==== Sys2Proof/Laws/Keep/Log.lean ====
section
/-! SUPPORT. What the operations of `Machine/Log.lean` leave alone. -/

namespace Sys2Proof.Machine

open Sys2Proof

theorem dropRecord_keeps (s : State) : Keeps s (dropRecord s) := by
  unfold dropRecord
  try dsimp only
  (repeat' split) <;> simp [Keeps]
@[simp] theorem dropRecord_pending (s : State) : (dropRecord s).pending = s.pending := (dropRecord_keeps s).1
@[simp] theorem dropRecord_clk (s : State) : (dropRecord s).clk = s.clk := (dropRecord_keeps s).2.1
@[simp] theorem dropRecord_regs (s : State) : (dropRecord s).regs = s.regs := (dropRecord_keeps s).2.2.1
@[simp] theorem dropRecord_masks (s : State) : (dropRecord s).evt.masks = s.evt.masks := (dropRecord_keeps s).2.2.2

theorem dropCounted_keeps (s : State) : Keeps s (dropCounted s) := by
  unfold dropCounted
  try dsimp only
  (repeat' split) <;> simp [Keeps]
@[simp] theorem dropCounted_pending (s : State) : (dropCounted s).pending = s.pending := (dropCounted_keeps s).1
@[simp] theorem dropCounted_clk (s : State) : (dropCounted s).clk = s.clk := (dropCounted_keeps s).2.1
@[simp] theorem dropCounted_regs (s : State) : (dropCounted s).regs = s.regs := (dropCounted_keeps s).2.2.1
@[simp] theorem dropCounted_masks (s : State) : (dropCounted s).evt.masks = s.evt.masks := (dropCounted_keeps s).2.2.2

theorem noteWritten_keeps (slot : Nat) (e : LogIn) (r : Rec) (s : State) : Keeps s (noteWritten slot e r s) := by
  unfold noteWritten
  try dsimp only
  (repeat' split) <;> simp [Keeps]
@[simp] theorem noteWritten_pending (slot : Nat) (e : LogIn) (r : Rec) (s : State) : (noteWritten slot e r s).pending = s.pending := (noteWritten_keeps slot e r s).1
@[simp] theorem noteWritten_clk (slot : Nat) (e : LogIn) (r : Rec) (s : State) : (noteWritten slot e r s).clk = s.clk := (noteWritten_keeps slot e r s).2.1
@[simp] theorem noteWritten_regs (slot : Nat) (e : LogIn) (r : Rec) (s : State) : (noteWritten slot e r s).regs = s.regs := (noteWritten_keeps slot e r s).2.2.1
@[simp] theorem noteWritten_masks (slot : Nat) (e : LogIn) (r : Rec) (s : State) : (noteWritten slot e r s).evt.masks = s.evt.masks := (noteWritten_keeps slot e r s).2.2.2

theorem lastWords_keeps (e : LogIn) (ok : Bool) (s : State) : Keeps s (lastWords e ok s) := by
  unfold lastWords
  try dsimp only
  (repeat' split) <;> simp [Keeps]
@[simp] theorem lastWords_pending (e : LogIn) (ok : Bool) (s : State) : (lastWords e ok s).pending = s.pending := (lastWords_keeps e ok s).1
@[simp] theorem lastWords_clk (e : LogIn) (ok : Bool) (s : State) : (lastWords e ok s).clk = s.clk := (lastWords_keeps e ok s).2.1
@[simp] theorem lastWords_regs (e : LogIn) (ok : Bool) (s : State) : (lastWords e ok s).regs = s.regs := (lastWords_keeps e ok s).2.2.1
@[simp] theorem lastWords_masks (e : LogIn) (ok : Bool) (s : State) : (lastWords e ok s).evt.masks = s.evt.masks := (lastWords_keeps e ok s).2.2.2

theorem latchDead_keeps (cause : Nat) (e : Option LogIn) (s : State) : Keeps s (latchDead cause e s) := by
  unfold latchDead
  try dsimp only
  (repeat' split) <;>
    first
    | (simp [Keeps, fold_pending, fold_clk, fold_regs, fold_masks, fold1_pending, fold1_clk, fold1_regs, fold1_masks, apply_ite State.pending, apply_ite State.clk, apply_ite State.regs, apply_ite State.evt, apply_ite EvtSt.masks]; done)
    | (refine Keeps.trans ?_ (fold_keeps _ (fun s a => ?_) _ _) <;> (try dsimp only) <;> (repeat' split) <;> simp [Keeps])
@[simp] theorem latchDead_pending (cause : Nat) (e : Option LogIn) (s : State) : (latchDead cause e s).pending = s.pending := (latchDead_keeps cause e s).1
@[simp] theorem latchDead_clk (cause : Nat) (e : Option LogIn) (s : State) : (latchDead cause e s).clk = s.clk := (latchDead_keeps cause e s).2.1
@[simp] theorem latchDead_regs (cause : Nat) (e : Option LogIn) (s : State) : (latchDead cause e s).regs = s.regs := (latchDead_keeps cause e s).2.2.1
@[simp] theorem latchDead_masks (cause : Nat) (e : Option LogIn) (s : State) : (latchDead cause e s).evt.masks = s.evt.masks := (latchDead_keeps cause e s).2.2.2

theorem judgeWrite_keeps (slot : Nat) (v : Bool) (s : State) : Keeps s (judgeWrite slot v s) := by
  unfold judgeWrite
  try dsimp only
  (repeat' split) <;> simp [Keeps]
@[simp] theorem judgeWrite_pending (slot : Nat) (v : Bool) (s : State) : (judgeWrite slot v s).pending = s.pending := (judgeWrite_keeps slot v s).1
@[simp] theorem judgeWrite_clk (slot : Nat) (v : Bool) (s : State) : (judgeWrite slot v s).clk = s.clk := (judgeWrite_keeps slot v s).2.1
@[simp] theorem judgeWrite_regs (slot : Nat) (v : Bool) (s : State) : (judgeWrite slot v s).regs = s.regs := (judgeWrite_keeps slot v s).2.2.1
@[simp] theorem judgeWrite_masks (slot : Nat) (v : Bool) (s : State) : (judgeWrite slot v s).evt.masks = s.evt.masks := (judgeWrite_keeps slot v s).2.2.2

theorem retireSlot_keeps (slot : Nat) (s : State) : Keeps s (retireSlot slot s) := by
  unfold retireSlot
  try dsimp only
  (repeat' split) <;> simp [Keeps]
@[simp] theorem retireSlot_pending (slot : Nat) (s : State) : (retireSlot slot s).pending = s.pending := (retireSlot_keeps slot s).1
@[simp] theorem retireSlot_clk (slot : Nat) (s : State) : (retireSlot slot s).clk = s.clk := (retireSlot_keeps slot s).2.1
@[simp] theorem retireSlot_regs (slot : Nat) (s : State) : (retireSlot slot s).regs = s.regs := (retireSlot_keeps slot s).2.2.1
@[simp] theorem retireSlot_masks (slot : Nat) (s : State) : (retireSlot slot s).evt.masks = s.evt.masks := (retireSlot_keeps slot s).2.2.2

theorem writeTo_keeps (n : Nat) (e : LogIn) (v : List Bool) (s : State) : Keeps s (writeTo n e v s) := by
  induction n generalizing v s with
  | zero => simp [writeTo, Keeps]
  | succ n ih =>
    unfold writeTo
    dsimp only
    (repeat' split) <;> first | (simp [Keeps]; done) | exact Keeps.trans (by simp [Keeps]) (ih _ _)
@[simp] theorem writeTo_pending (n : Nat) (e : LogIn) (v : List Bool) (s : State) : (writeTo n e v s).pending = s.pending := (writeTo_keeps n e v s).1
@[simp] theorem writeTo_clk (n : Nat) (e : LogIn) (v : List Bool) (s : State) : (writeTo n e v s).clk = s.clk := (writeTo_keeps n e v s).2.1
@[simp] theorem writeTo_regs (n : Nat) (e : LogIn) (v : List Bool) (s : State) : (writeTo n e v s).regs = s.regs := (writeTo_keeps n e v s).2.2.1
@[simp] theorem writeTo_masks (n : Nat) (e : LogIn) (v : List Bool) (s : State) : (writeTo n e v s).evt.masks = s.evt.masks := (writeTo_keeps n e v s).2.2.2

theorem addRepeat_keeps (c : RepCand) (n : Nat) (s : State) : Keeps s (addRepeat c n s) := by
  unfold addRepeat
  try dsimp only
  (repeat' split) <;> simp [Keeps]
@[simp] theorem addRepeat_pending (c : RepCand) (n : Nat) (s : State) : (addRepeat c n s).pending = s.pending := (addRepeat_keeps c n s).1
@[simp] theorem addRepeat_clk (c : RepCand) (n : Nat) (s : State) : (addRepeat c n s).clk = s.clk := (addRepeat_keeps c n s).2.1
@[simp] theorem addRepeat_regs (c : RepCand) (n : Nat) (s : State) : (addRepeat c n s).regs = s.regs := (addRepeat_keeps c n s).2.2.1
@[simp] theorem addRepeat_masks (c : RepCand) (n : Nat) (s : State) : (addRepeat c n s).evt.masks = s.evt.masks := (addRepeat_keeps c n s).2.2.2

theorem writeEntry_keeps (e : LogIn) (verify : List Bool) (s : State) : Keeps s (writeEntry e verify s) := by
  unfold writeEntry
  try dsimp only
  (repeat' split) <;> simp [Keeps]
@[simp] theorem writeEntry_pending (e : LogIn) (verify : List Bool) (s : State) : (writeEntry e verify s).pending = s.pending := (writeEntry_keeps e verify s).1
@[simp] theorem writeEntry_clk (e : LogIn) (verify : List Bool) (s : State) : (writeEntry e verify s).clk = s.clk := (writeEntry_keeps e verify s).2.1
@[simp] theorem writeEntry_regs (e : LogIn) (verify : List Bool) (s : State) : (writeEntry e verify s).regs = s.regs := (writeEntry_keeps e verify s).2.2.1
@[simp] theorem writeEntry_masks (e : LogIn) (verify : List Bool) (s : State) : (writeEntry e verify s).evt.masks = s.evt.masks := (writeEntry_keeps e verify s).2.2.2

theorem waitingEntry_keeps (s : State) (e : LogIn) (t : State) (h : waitingEntry s = some (e, t)) : Keeps s t := by
  unfold waitingEntry at h
  (repeat' split at h) <;> first | (cases h; done) | (injection h with h; injection h with _ h; subst h; simp [Keeps])

theorem execLogWrite_keeps (verify : List Bool) (s : State) {t : State} (h : execLogWrite verify s = .next t) : Keeps s t := by
  unfold execLogWrite at h
  split at h
  · injection h with h; subst h; exact Keeps.refl s
  · split at h
    · rename_i e u hw
      injection h with h; subst h
      exact (waitingEntry_keeps s e u hw).trans (by simp [Keeps])
    · injection h with h; subst h; exact Keeps.refl s

theorem execLogMemoryTimeout_keeps (s : State) {t : State} (h : execLogMemoryTimeout s = .next t) : Keeps s t := by
  unfold execLogMemoryTimeout at h
  split at h
  · rename_i e u hw
    injection h with h; subst h
    exact (waitingEntry_keeps s e u hw).trans (by simp [Keeps])
  · injection h with h; subst h; simp [Keeps]

theorem execShadowUpdate_keeps (src : Byte) (s : State) {t : State} (h : execShadowUpdate src s = .next t) : Keeps s t := by
  unfold execShadowUpdate at h
  try dsimp only at h
  (repeat' split at h) <;> (injection h with h; subst h; simp [Keeps])

theorem execLogRateRefill_keeps (s : State) {t : State} (h : execLogRateRefill s = .next t) : Keeps s t := by
  unfold execLogRateRefill at h
  try dsimp only at h
  (repeat' split at h) <;> (injection h with h; subst h; simp [Keeps])

theorem execFreezeEnd_keeps (s : State) {t : State} (h : execFreezeEnd s = .next t) : Keeps s t := by
  unfold execFreezeEnd at h
  try dsimp only at h
  (repeat' split at h) <;> (injection h with h; subst h; simp [Keeps])

theorem execOperatingMinute_keeps (s : State) {t : State} (h : execOperatingMinute s = .next t) : Keeps s t := by
  unfold execOperatingMinute at h
  try dsimp only at h
  (repeat' split at h) <;> (injection h with h; subst h; simp [Keeps])

theorem noteReads_keeps (l : List Byte) (s : State) : Keeps s (noteReads l s) := by
  unfold noteReads
  try dsimp only
  (repeat' split) <;>
    first
    | (simp [Keeps, fold_pending, fold_clk, fold_regs, fold_masks, fold1_pending, fold1_clk, fold1_regs, fold1_masks, apply_ite State.pending, apply_ite State.clk, apply_ite State.regs, apply_ite State.evt, apply_ite EvtSt.masks]; done)
    | (refine Keeps.trans ?_ (fold_keeps _ (fun s a => ?_) _ _) <;> (try dsimp only) <;> (repeat' split) <;> simp [Keeps])
@[simp] theorem noteReads_pending (l : List Byte) (s : State) : (noteReads l s).pending = s.pending := (noteReads_keeps l s).1
@[simp] theorem noteReads_clk (l : List Byte) (s : State) : (noteReads l s).clk = s.clk := (noteReads_keeps l s).2.1
@[simp] theorem noteReads_regs (l : List Byte) (s : State) : (noteReads l s).regs = s.regs := (noteReads_keeps l s).2.2.1
@[simp] theorem noteReads_masks (l : List Byte) (s : State) : (noteReads l s).evt.masks = s.evt.masks := (noteReads_keeps l s).2.2.2

theorem cmdLogRead_keeps (rq : Req) (cursor : BitVec 16) (count : Byte) (s : State) : Keeps s (cmdLogRead rq cursor count s).st := by
  unfold cmdLogRead
  try dsimp only
  (repeat' split) <;> simp [Keeps, Res.of]
@[simp] theorem cmdLogRead_pending (rq : Req) (cursor : BitVec 16) (count : Byte) (s : State) : (cmdLogRead rq cursor count s).st.pending = s.pending := (cmdLogRead_keeps rq cursor count s).1
@[simp] theorem cmdLogRead_clk (rq : Req) (cursor : BitVec 16) (count : Byte) (s : State) : (cmdLogRead rq cursor count s).st.clk = s.clk := (cmdLogRead_keeps rq cursor count s).2.1
@[simp] theorem cmdLogRead_regs (rq : Req) (cursor : BitVec 16) (count : Byte) (s : State) : (cmdLogRead rq cursor count s).st.regs = s.regs := (cmdLogRead_keeps rq cursor count s).2.2.1
@[simp] theorem cmdLogRead_masks (rq : Req) (cursor : BitVec 16) (count : Byte) (s : State) : (cmdLogRead rq cursor count s).st.evt.masks = s.evt.masks := (cmdLogRead_keeps rq cursor count s).2.2.2

theorem execLogRead_keeps (rq : Req) (cursor : BitVec 16) (count : Byte) (s : State) {t : State} (h : execLogRead rq cursor count s = .next t) : Keeps s t := by
  unfold execLogRead at h
  try dsimp only at h
  (repeat' split at h) <;> (injection h with h; subst h; simp [Keeps, runCmd_pending, runCmd_clk, runCmd_regs, runCmd_masks])

theorem cmdLogFreeze_keeps (seconds : Byte) (s : State) : Keeps s (cmdLogFreeze seconds s).st := by
  unfold cmdLogFreeze
  try dsimp only
  (repeat' split) <;> simp [Keeps, Res.of]
@[simp] theorem cmdLogFreeze_pending (seconds : Byte) (s : State) : (cmdLogFreeze seconds s).st.pending = s.pending := (cmdLogFreeze_keeps seconds s).1
@[simp] theorem cmdLogFreeze_clk (seconds : Byte) (s : State) : (cmdLogFreeze seconds s).st.clk = s.clk := (cmdLogFreeze_keeps seconds s).2.1
@[simp] theorem cmdLogFreeze_regs (seconds : Byte) (s : State) : (cmdLogFreeze seconds s).st.regs = s.regs := (cmdLogFreeze_keeps seconds s).2.2.1
@[simp] theorem cmdLogFreeze_masks (seconds : Byte) (s : State) : (cmdLogFreeze seconds s).st.evt.masks = s.evt.masks := (cmdLogFreeze_keeps seconds s).2.2.2

theorem execLogFreeze_keeps (rq : Req) (seconds : Byte) (s : State) {t : State} (h : execLogFreeze rq seconds s = .next t) : Keeps s t := by
  unfold execLogFreeze at h
  try dsimp only at h
  (repeat' split at h) <;> (injection h with h; subst h; simp [Keeps, runCmd_pending, runCmd_clk, runCmd_regs, runCmd_masks])

theorem execLogCursorSet_keeps (code : BitVec 16) (s : State) {t : State} (h : execLogCursorSet code s = .next t) : Keeps s t := by
  unfold execLogCursorSet at h
  try dsimp only at h
  (repeat' split at h) <;> (injection h with h; subst h; simp [Keeps])

theorem logWindow_keeps (s : State) : Keeps s (logWindow s) := by
  unfold logWindow
  try dsimp only
  (repeat' split) <;> simp [Keeps]
@[simp] theorem logWindow_pending (s : State) : (logWindow s).pending = s.pending := (logWindow_keeps s).1
@[simp] theorem logWindow_clk (s : State) : (logWindow s).clk = s.clk := (logWindow_keeps s).2.1
@[simp] theorem logWindow_regs (s : State) : (logWindow s).regs = s.regs := (logWindow_keeps s).2.2.1
@[simp] theorem logWindow_masks (s : State) : (logWindow s).evt.masks = s.evt.masks := (logWindow_keeps s).2.2.2

theorem execLogWinRead_keeps (s : State) {t : State} (h : execLogWinRead s = .next t) : Keeps s t := by
  unfold execLogWinRead at h
  try dsimp only at h
  (repeat' split at h) <;> (injection h with h; subst h; simp [Keeps])

theorem findDamaged_keeps (l : List Nat) (s : State) : Keeps s (findDamaged l s) := by
  unfold findDamaged
  try dsimp only
  (repeat' split) <;>
    first
    | (simp [Keeps, fold_pending, fold_clk, fold_regs, fold_masks, fold1_pending, fold1_clk, fold1_regs, fold1_masks, apply_ite State.pending, apply_ite State.clk, apply_ite State.regs, apply_ite State.evt, apply_ite EvtSt.masks]; done)
    | (refine Keeps.trans ?_ (fold_keeps _ (fun s a => ?_) _ _) <;> (try dsimp only) <;> (repeat' split) <;> simp [Keeps])
@[simp] theorem findDamaged_pending (l : List Nat) (s : State) : (findDamaged l s).pending = s.pending := (findDamaged_keeps l s).1
@[simp] theorem findDamaged_clk (l : List Nat) (s : State) : (findDamaged l s).clk = s.clk := (findDamaged_keeps l s).2.1
@[simp] theorem findDamaged_regs (l : List Nat) (s : State) : (findDamaged l s).regs = s.regs := (findDamaged_keeps l s).2.2.1
@[simp] theorem findDamaged_masks (l : List Nat) (s : State) : (findDamaged l s).evt.masks = s.evt.masks := (findDamaged_keeps l s).2.2.2

end Sys2Proof.Machine
end

