-- ==== Sys2Proof/Laws/Keep/IndigoExec.lean ====
section
/-! SUPPORT. What the operations of `Machine/IndigoExec.lean` leave alone. -/

namespace Sys2Proof.Machine

open Sys2Proof

theorem setScalar_keeps (e : Engine) (i : Nat) (v : Word) (s : State) : Keeps s (setScalar e i v s) := by
  unfold setScalar
  try dsimp only
  (repeat' split) <;> simp [Keeps]
@[simp] theorem setScalar_pending (e : Engine) (i : Nat) (v : Word) (s : State) : (setScalar e i v s).pending = s.pending := (setScalar_keeps e i v s).1
@[simp] theorem setScalar_clk (e : Engine) (i : Nat) (v : Word) (s : State) : (setScalar e i v s).clk = s.clk := (setScalar_keeps e i v s).2.1
@[simp] theorem setScalar_regs (e : Engine) (i : Nat) (v : Word) (s : State) : (setScalar e i v s).regs = s.regs := (setScalar_keeps e i v s).2.2.1
@[simp] theorem setScalar_masks (e : Engine) (i : Nat) (v : Word) (s : State) : (setScalar e i v s).evt.masks = s.evt.masks := (setScalar_keeps e i v s).2.2.2

theorem addFlags_keeps (e : Engine) (f : Flags) (s : State) : Keeps s (addFlags e f s) := by
  unfold addFlags
  try dsimp only
  (repeat' split) <;> simp [Keeps]
@[simp] theorem addFlags_pending (e : Engine) (f : Flags) (s : State) : (addFlags e f s).pending = s.pending := (addFlags_keeps e f s).1
@[simp] theorem addFlags_clk (e : Engine) (f : Flags) (s : State) : (addFlags e f s).clk = s.clk := (addFlags_keeps e f s).2.1
@[simp] theorem addFlags_regs (e : Engine) (f : Flags) (s : State) : (addFlags e f s).regs = s.regs := (addFlags_keeps e f s).2.2.1
@[simp] theorem addFlags_masks (e : Engine) (f : Flags) (s : State) : (addFlags e f s).evt.masks = s.evt.masks := (addFlags_keeps e f s).2.2.2

/-- The state an instruction's effect leaves keeps what every operation keeps. -/
def IKeeps (s : State) : IRes → Prop
  | .fault t _ _ => Keeps s t
  | .stall => True
  | .done t _ _ => Keeps s t

@[simp] theorem IKeeps_fault (s t : State) (c d : Nat) : IKeeps s (.fault t c d) = Keeps s t := rfl
@[simp] theorem IKeeps_stall (s : State) : IKeeps s .stall = True := rfl
@[simp] theorem IKeeps_done (s t : State) (c : Nat) (j : Option Nat) : IKeeps s (.done t c j) = Keeps s t := rfl
@[simp] theorem Keeps_self (s : State) : Keeps s s := Keeps.refl s

@[simp] theorem unlessFault_keeps (s : State) (l : List (Nat × Nat)) (f : Unit → IRes) (h : IKeeps s (f ())) : IKeeps s (unlessFault s l f) := by
  unfold unlessFault
  split
  · exact Keeps.refl s
  · exact h

theorem advance_keeps (e : Engine) (jump : Option Nat) (cost : Nat) (s : State) : Keeps s (advance e jump cost s) := by
  unfold advance
  try dsimp only
  (repeat' split) <;> simp [Keeps]
@[simp] theorem advance_pending (e : Engine) (jump : Option Nat) (cost : Nat) (s : State) : (advance e jump cost s).pending = s.pending := (advance_keeps e jump cost s).1
@[simp] theorem advance_clk (e : Engine) (jump : Option Nat) (cost : Nat) (s : State) : (advance e jump cost s).clk = s.clk := (advance_keeps e jump cost s).2.1
@[simp] theorem advance_regs (e : Engine) (jump : Option Nat) (cost : Nat) (s : State) : (advance e jump cost s).regs = s.regs := (advance_keeps e jump cost s).2.2.1
@[simp] theorem advance_masks (e : Engine) (jump : Option Nat) (cost : Nat) (s : State) : (advance e jump cost s).evt.masks = s.evt.masks := (advance_keeps e jump cost s).2.2.2

theorem runInstr_keeps (e : Engine) (i : IInstr) (sem : State → IRes) (s : State) (h : ∀ s, IKeeps s (sem s)) : Keeps s (runInstr e i sem s) := by
  have k := h s
  unfold runInstr
  dsimp only
  split
  · exact Keeps.refl s
  · split <;> rename_i heq <;> rw [heq] at k
    · exact k.trans (by simp [Keeps])
    · split <;> simp [Keeps]
    · split
      · simp [Keeps]
      · exact Keeps.trans (t := _) k (by simp [Keeps])

end Sys2Proof.Machine
end

