-- ==== Sys2Proof/Laws/Keep/IndigoCtl.lean ====
section
/-! SUPPORT. What the operations of `Machine/IndigoCtl.lean` leave alone. -/

namespace Sys2Proof.Machine

open Sys2Proof

theorem copyDone_keeps (e : Engine) (s : State) : Keeps s (copyDone e s) := by
  unfold copyDone
  try dsimp only
  (repeat' split) <;> simp [Keeps]
@[simp] theorem copyDone_pending (e : Engine) (s : State) : (copyDone e s).pending = s.pending := (copyDone_keeps e s).1
@[simp] theorem copyDone_clk (e : Engine) (s : State) : (copyDone e s).clk = s.clk := (copyDone_keeps e s).2.1
@[simp] theorem copyDone_regs (e : Engine) (s : State) : (copyDone e s).regs = s.regs := (copyDone_keeps e s).2.2.1
@[simp] theorem copyDone_masks (e : Engine) (s : State) : (copyDone e s).evt.masks = s.evt.masks := (copyDone_keeps e s).2.2.2

theorem launch_keeps (e : Engine) (slot : Nat) (args : List Word) (s : State) : Keeps s (launch e slot args s) := by
  unfold launch
  try dsimp only
  (repeat' split) <;> simp [Keeps]
@[simp] theorem launch_pending (e : Engine) (slot : Nat) (args : List Word) (s : State) : (launch e slot args s).pending = s.pending := (launch_keeps e slot args s).1
@[simp] theorem launch_clk (e : Engine) (slot : Nat) (args : List Word) (s : State) : (launch e slot args s).clk = s.clk := (launch_keeps e slot args s).2.1
@[simp] theorem launch_regs (e : Engine) (slot : Nat) (args : List Word) (s : State) : (launch e slot args s).regs = s.regs := (launch_keeps e slot args s).2.2.1
@[simp] theorem launch_masks (e : Engine) (slot : Nat) (args : List Word) (s : State) : (launch e slot args s).evt.masks = s.evt.masks := (launch_keeps e slot args s).2.2.2

theorem settleCopy_keeps (e : Engine) (s : State) : Keeps s (settleCopy e s) := by
  unfold settleCopy
  try dsimp only
  (repeat' split) <;> simp [Keeps]
@[simp] theorem settleCopy_pending (e : Engine) (s : State) : (settleCopy e s).pending = s.pending := (settleCopy_keeps e s).1
@[simp] theorem settleCopy_clk (e : Engine) (s : State) : (settleCopy e s).clk = s.clk := (settleCopy_keeps e s).2.1
@[simp] theorem settleCopy_regs (e : Engine) (s : State) : (settleCopy e s).regs = s.regs := (settleCopy_keeps e s).2.2.1
@[simp] theorem settleCopy_masks (e : Engine) (s : State) : (settleCopy e s).evt.masks = s.evt.masks := (settleCopy_keeps e s).2.2.2

theorem settleCopies_keeps (s : State) : Keeps s (settleCopies s) := by
  unfold settleCopies
  try dsimp only
  (repeat' split) <;> simp [Keeps]
@[simp] theorem settleCopies_pending (s : State) : (settleCopies s).pending = s.pending := (settleCopies_keeps s).1
@[simp] theorem settleCopies_clk (s : State) : (settleCopies s).clk = s.clk := (settleCopies_keeps s).2.1
@[simp] theorem settleCopies_regs (s : State) : (settleCopies s).regs = s.regs := (settleCopies_keeps s).2.2.1
@[simp] theorem settleCopies_masks (s : State) : (settleCopies s).evt.masks = s.evt.masks := (settleCopies_keeps s).2.2.2

theorem resumeKernel_keeps (e : Engine) (s : State) : Keeps s (resumeKernel e s) := by
  unfold resumeKernel
  try dsimp only
  (repeat' split) <;> simp [Keeps]
@[simp] theorem resumeKernel_pending (e : Engine) (s : State) : (resumeKernel e s).pending = s.pending := (resumeKernel_keeps e s).1
@[simp] theorem resumeKernel_clk (e : Engine) (s : State) : (resumeKernel e s).clk = s.clk := (resumeKernel_keeps e s).2.1
@[simp] theorem resumeKernel_regs (e : Engine) (s : State) : (resumeKernel e s).regs = s.regs := (resumeKernel_keeps e s).2.2.1
@[simp] theorem resumeKernel_masks (e : Engine) (s : State) : (resumeKernel e s).evt.masks = s.evt.masks := (resumeKernel_keeps e s).2.2.2

theorem launchDeferred_keeps (d : Defer) (s : State) : Keeps s (launchDeferred d s) := by
  unfold launchDeferred
  try dsimp only
  (repeat' split) <;> simp [Keeps]
@[simp] theorem launchDeferred_pending (d : Defer) (s : State) : (launchDeferred d s).pending = s.pending := (launchDeferred_keeps d s).1
@[simp] theorem launchDeferred_clk (d : Defer) (s : State) : (launchDeferred d s).clk = s.clk := (launchDeferred_keeps d s).2.1
@[simp] theorem launchDeferred_regs (d : Defer) (s : State) : (launchDeferred d s).regs = s.regs := (launchDeferred_keeps d s).2.2.1
@[simp] theorem launchDeferred_masks (d : Defer) (s : State) : (launchDeferred d s).evt.masks = s.evt.masks := (launchDeferred_keeps d s).2.2.2

theorem endSelfTest_keeps (s : State) : Keeps s (endSelfTest s) := by
  unfold endSelfTest
  try dsimp only
  (repeat' split) <;>
    first
    | (simp [Keeps, fold_pending, fold_clk, fold_regs, fold_masks, fold1_pending, fold1_clk, fold1_regs, fold1_masks, apply_ite State.pending, apply_ite State.clk, apply_ite State.regs, apply_ite State.evt, apply_ite EvtSt.masks]; done)
    | (refine Keeps.trans ?_ (fold_keeps _ (fun s a => ?_) _ _) <;> (try dsimp only) <;> (repeat' split) <;> simp [Keeps])
@[simp] theorem endSelfTest_pending (s : State) : (endSelfTest s).pending = s.pending := (endSelfTest_keeps s).1
@[simp] theorem endSelfTest_clk (s : State) : (endSelfTest s).clk = s.clk := (endSelfTest_keeps s).2.1
@[simp] theorem endSelfTest_regs (s : State) : (endSelfTest s).regs = s.regs := (endSelfTest_keeps s).2.2.1
@[simp] theorem endSelfTest_masks (s : State) : (endSelfTest s).evt.masks = s.evt.masks := (endSelfTest_keeps s).2.2.2

theorem execCodeCopyDone_keeps (e : Engine) (s : State) {t : State} (h : execCodeCopyDone e s = .next t) : Keeps s t := by
  unfold execCodeCopyDone at h
  try dsimp only at h
  (repeat' split at h) <;> (injection h with h; subst h; simp [Keeps])

theorem startSelfTest_keeps (s : State) : Keeps s (startSelfTest s) := by
  unfold startSelfTest
  try dsimp only
  (repeat' split) <;> simp [Keeps]
@[simp] theorem startSelfTest_pending (s : State) : (startSelfTest s).pending = s.pending := (startSelfTest_keeps s).1
@[simp] theorem startSelfTest_clk (s : State) : (startSelfTest s).clk = s.clk := (startSelfTest_keeps s).2.1
@[simp] theorem startSelfTest_regs (s : State) : (startSelfTest s).regs = s.regs := (startSelfTest_keeps s).2.2.1
@[simp] theorem startSelfTest_masks (s : State) : (startSelfTest s).evt.masks = s.evt.masks := (startSelfTest_keeps s).2.2.2

theorem deferLaunch_keeps (e : Engine) (slot : Nat) (args : List Word) (asked : Option (Fin 4 × Nat)) (s : State) : Keeps s (deferLaunch e slot args asked s) := by
  unfold deferLaunch
  try dsimp only
  (repeat' split) <;> simp [Keeps]
@[simp] theorem deferLaunch_pending (e : Engine) (slot : Nat) (args : List Word) (asked : Option (Fin 4 × Nat)) (s : State) : (deferLaunch e slot args asked s).pending = s.pending := (deferLaunch_keeps e slot args asked s).1
@[simp] theorem deferLaunch_clk (e : Engine) (slot : Nat) (args : List Word) (asked : Option (Fin 4 × Nat)) (s : State) : (deferLaunch e slot args asked s).clk = s.clk := (deferLaunch_keeps e slot args asked s).2.1
@[simp] theorem deferLaunch_regs (e : Engine) (slot : Nat) (args : List Word) (asked : Option (Fin 4 × Nat)) (s : State) : (deferLaunch e slot args asked s).regs = s.regs := (deferLaunch_keeps e slot args asked s).2.2.1
@[simp] theorem deferLaunch_masks (e : Engine) (slot : Nat) (args : List Word) (asked : Option (Fin 4 × Nat)) (s : State) : (deferLaunch e slot args asked s).evt.masks = s.evt.masks := (deferLaunch_keeps e slot args asked s).2.2.2

theorem storeCode_keeps (k off : Nat) (code : List Byte) (s : State) : Keeps s (storeCode k off code s) := by
  simp [Keeps, storeCode]
@[simp] theorem storeCode_pending (k off : Nat) (code : List Byte) (s : State) : (storeCode k off code s).pending = s.pending := (storeCode_keeps k off code s).1
@[simp] theorem storeCode_clk (k off : Nat) (code : List Byte) (s : State) : (storeCode k off code s).clk = s.clk := (storeCode_keeps k off code s).2.1
@[simp] theorem storeCode_regs (k off : Nat) (code : List Byte) (s : State) : (storeCode k off code s).regs = s.regs := (storeCode_keeps k off code s).2.2.1
@[simp] theorem storeCode_masks (k off : Nat) (code : List Byte) (s : State) : (storeCode k off code s).evt.masks = s.evt.masks := (storeCode_keeps k off code s).2.2.2

theorem storeFails_keeps (k off n : Nat) (s : State) : Keeps s (storeFails k off n s) := by
  simp [Keeps, storeFails]
@[simp] theorem storeFails_pending (k off n : Nat) (s : State) : (storeFails k off n s).pending = s.pending := (storeFails_keeps k off n s).1
@[simp] theorem storeFails_clk (k off n : Nat) (s : State) : (storeFails k off n s).clk = s.clk := (storeFails_keeps k off n s).2.1
@[simp] theorem storeFails_regs (k off n : Nat) (s : State) : (storeFails k off n s).regs = s.regs := (storeFails_keeps k off n s).2.2.1
@[simp] theorem storeFails_masks (k off n : Nat) (s : State) : (storeFails k off n s).evt.masks = s.evt.masks := (storeFails_keeps k off n s).2.2.2

theorem cmdKernelLoad_keeps (slot : Byte) (offset : BitVec 16) (code : List Byte) (written : Bool) (s : State) : Keeps s (cmdKernelLoad slot offset code written s).st := by
  unfold cmdKernelLoad
  try dsimp only
  (repeat' split) <;> simp [Keeps, Res.of]
@[simp] theorem cmdKernelLoad_pending (slot : Byte) (offset : BitVec 16) (code : List Byte) (written : Bool) (s : State) : (cmdKernelLoad slot offset code written s).st.pending = s.pending := (cmdKernelLoad_keeps slot offset code written s).1
@[simp] theorem cmdKernelLoad_clk (slot : Byte) (offset : BitVec 16) (code : List Byte) (written : Bool) (s : State) : (cmdKernelLoad slot offset code written s).st.clk = s.clk := (cmdKernelLoad_keeps slot offset code written s).2.1
@[simp] theorem cmdKernelLoad_regs (slot : Byte) (offset : BitVec 16) (code : List Byte) (written : Bool) (s : State) : (cmdKernelLoad slot offset code written s).st.regs = s.regs := (cmdKernelLoad_keeps slot offset code written s).2.2.1
@[simp] theorem cmdKernelLoad_masks (slot : Byte) (offset : BitVec 16) (code : List Byte) (written : Bool) (s : State) : (cmdKernelLoad slot offset code written s).st.evt.masks = s.evt.masks := (cmdKernelLoad_keeps slot offset code written s).2.2.2

theorem execKernelLoad_keeps (rq : Req) (slot : Byte) (offset : BitVec 16) (code : List Byte) (written : Bool) (s : State) {t : State} (h : execKernelLoad rq slot offset code written s = .next t) : Keeps s t := by
  unfold execKernelLoad at h
  try dsimp only at h
  (repeat' split at h) <;> (injection h with h; subst h; simp [Keeps, runCmd_pending, runCmd_clk, runCmd_regs, runCmd_masks])

theorem cmdKernelCommit_keeps (slot : Byte) (crc : Word) (s : State) : Keeps s (cmdKernelCommit slot crc s).st := by
  unfold cmdKernelCommit
  try dsimp only
  (repeat' split) <;> simp [Keeps, Res.of]
@[simp] theorem cmdKernelCommit_pending (slot : Byte) (crc : Word) (s : State) : (cmdKernelCommit slot crc s).st.pending = s.pending := (cmdKernelCommit_keeps slot crc s).1
@[simp] theorem cmdKernelCommit_clk (slot : Byte) (crc : Word) (s : State) : (cmdKernelCommit slot crc s).st.clk = s.clk := (cmdKernelCommit_keeps slot crc s).2.1
@[simp] theorem cmdKernelCommit_regs (slot : Byte) (crc : Word) (s : State) : (cmdKernelCommit slot crc s).st.regs = s.regs := (cmdKernelCommit_keeps slot crc s).2.2.1
@[simp] theorem cmdKernelCommit_masks (slot : Byte) (crc : Word) (s : State) : (cmdKernelCommit slot crc s).st.evt.masks = s.evt.masks := (cmdKernelCommit_keeps slot crc s).2.2.2

theorem execKernelCommit_keeps (rq : Req) (slot : Byte) (crc : Word) (s : State) {t : State} (h : execKernelCommit rq slot crc s = .next t) : Keeps s t := by
  unfold execKernelCommit at h
  try dsimp only at h
  (repeat' split at h) <;> (injection h with h; subst h; simp [Keeps, runCmd_pending, runCmd_clk, runCmd_regs, runCmd_masks])

theorem cmdKernelLaunch_keeps (rq : Req) (slot : Byte) (engine : Byte) (args : List Byte) (s : State) : Keeps s (cmdKernelLaunch rq slot engine args s).st := by
  unfold cmdKernelLaunch
  try dsimp only
  (repeat' split) <;> simp [Keeps, Res.of]
@[simp] theorem cmdKernelLaunch_pending (rq : Req) (slot : Byte) (engine : Byte) (args : List Byte) (s : State) : (cmdKernelLaunch rq slot engine args s).st.pending = s.pending := (cmdKernelLaunch_keeps rq slot engine args s).1
@[simp] theorem cmdKernelLaunch_clk (rq : Req) (slot : Byte) (engine : Byte) (args : List Byte) (s : State) : (cmdKernelLaunch rq slot engine args s).st.clk = s.clk := (cmdKernelLaunch_keeps rq slot engine args s).2.1
@[simp] theorem cmdKernelLaunch_regs (rq : Req) (slot : Byte) (engine : Byte) (args : List Byte) (s : State) : (cmdKernelLaunch rq slot engine args s).st.regs = s.regs := (cmdKernelLaunch_keeps rq slot engine args s).2.2.1
@[simp] theorem cmdKernelLaunch_masks (rq : Req) (slot : Byte) (engine : Byte) (args : List Byte) (s : State) : (cmdKernelLaunch rq slot engine args s).st.evt.masks = s.evt.masks := (cmdKernelLaunch_keeps rq slot engine args s).2.2.2

theorem execKernelLaunch_keeps (rq : Req) (slot : Byte) (engine : Byte) (args : List Byte) (s : State) {t : State} (h : execKernelLaunch rq slot engine args s = .next t) : Keeps s t := by
  unfold execKernelLaunch at h
  try dsimp only at h
  (repeat' split at h) <;> (injection h with h; subst h; simp [Keeps, runCmd_pending, runCmd_clk, runCmd_regs, runCmd_masks])

theorem stopEngine_keeps (e : Engine) (save : Bool) (s : State) : Keeps s (stopEngine e save s) := by
  unfold stopEngine
  try dsimp only
  (repeat' split) <;> simp [Keeps]
@[simp] theorem stopEngine_pending (e : Engine) (save : Bool) (s : State) : (stopEngine e save s).pending = s.pending := (stopEngine_keeps e save s).1
@[simp] theorem stopEngine_clk (e : Engine) (save : Bool) (s : State) : (stopEngine e save s).clk = s.clk := (stopEngine_keeps e save s).2.1
@[simp] theorem stopEngine_regs (e : Engine) (save : Bool) (s : State) : (stopEngine e save s).regs = s.regs := (stopEngine_keeps e save s).2.2.1
@[simp] theorem stopEngine_masks (e : Engine) (save : Bool) (s : State) : (stopEngine e save s).evt.masks = s.evt.masks := (stopEngine_keeps e save s).2.2.2

theorem cmdKernelStop_keeps (rq : Req) (engine : Byte) (s : State) : Keeps s (cmdKernelStop rq engine s).st := by
  unfold cmdKernelStop
  try dsimp only
  (repeat' split) <;> simp [Keeps, Res.of]
@[simp] theorem cmdKernelStop_pending (rq : Req) (engine : Byte) (s : State) : (cmdKernelStop rq engine s).st.pending = s.pending := (cmdKernelStop_keeps rq engine s).1
@[simp] theorem cmdKernelStop_clk (rq : Req) (engine : Byte) (s : State) : (cmdKernelStop rq engine s).st.clk = s.clk := (cmdKernelStop_keeps rq engine s).2.1
@[simp] theorem cmdKernelStop_regs (rq : Req) (engine : Byte) (s : State) : (cmdKernelStop rq engine s).st.regs = s.regs := (cmdKernelStop_keeps rq engine s).2.2.1
@[simp] theorem cmdKernelStop_masks (rq : Req) (engine : Byte) (s : State) : (cmdKernelStop rq engine s).st.evt.masks = s.evt.masks := (cmdKernelStop_keeps rq engine s).2.2.2

theorem execKernelStop_keeps (rq : Req) (engine : Byte) (s : State) {t : State} (h : execKernelStop rq engine s = .next t) : Keeps s t := by
  unfold execKernelStop at h
  try dsimp only at h
  (repeat' split at h) <;> (injection h with h; subst h; simp [Keeps, runCmd_pending, runCmd_clk, runCmd_regs, runCmd_masks])

theorem cmdResultRead_keeps (offset : BitVec 16) (count : BitVec 16) (ecc : Ecc) (s : State) : Keeps s (cmdResultRead offset count ecc s).st := by
  unfold cmdResultRead
  try dsimp only
  (repeat' split) <;> simp [Keeps, Res.of]
@[simp] theorem cmdResultRead_pending (offset : BitVec 16) (count : BitVec 16) (ecc : Ecc) (s : State) : (cmdResultRead offset count ecc s).st.pending = s.pending := (cmdResultRead_keeps offset count ecc s).1
@[simp] theorem cmdResultRead_clk (offset : BitVec 16) (count : BitVec 16) (ecc : Ecc) (s : State) : (cmdResultRead offset count ecc s).st.clk = s.clk := (cmdResultRead_keeps offset count ecc s).2.1
@[simp] theorem cmdResultRead_regs (offset : BitVec 16) (count : BitVec 16) (ecc : Ecc) (s : State) : (cmdResultRead offset count ecc s).st.regs = s.regs := (cmdResultRead_keeps offset count ecc s).2.2.1
@[simp] theorem cmdResultRead_masks (offset : BitVec 16) (count : BitVec 16) (ecc : Ecc) (s : State) : (cmdResultRead offset count ecc s).st.evt.masks = s.evt.masks := (cmdResultRead_keeps offset count ecc s).2.2.2

theorem execResultRead_keeps (rq : Req) (offset : BitVec 16) (count : BitVec 16) (ecc : Ecc) (s : State) {t : State} (h : execResultRead rq offset count ecc s = .next t) : Keeps s t := by
  unfold execResultRead at h
  try dsimp only at h
  (repeat' split at h) <;> (injection h with h; subst h; simp [Keeps, runCmd_pending, runCmd_clk, runCmd_regs, runCmd_masks])

theorem execKernelTrigger_keeps (e : Engine) (s : State) {t : State} (h : execKernelTrigger e s = .next t) : Keeps s t := by
  unfold execKernelTrigger at h
  try dsimp only at h
  (repeat' split at h) <;> (injection h with h; subst h; simp [Keeps])

theorem execWatchdog_keeps (e : Engine) (s : State) {t : State} (h : execWatchdog e s = .next t) : Keeps s t := by
  unfold execWatchdog at h
  try dsimp only at h
  (repeat' split at h) <;> (injection h with h; subst h; simp [Keeps])

theorem abandonSave_keeps (e : Engine) (s : State) : Keeps s (abandonSave e s) := by
  unfold abandonSave
  try dsimp only
  (repeat' split) <;> simp [Keeps]
@[simp] theorem abandonSave_pending (e : Engine) (s : State) : (abandonSave e s).pending = s.pending := (abandonSave_keeps e s).1
@[simp] theorem abandonSave_clk (e : Engine) (s : State) : (abandonSave e s).clk = s.clk := (abandonSave_keeps e s).2.1
@[simp] theorem abandonSave_regs (e : Engine) (s : State) : (abandonSave e s).regs = s.regs := (abandonSave_keeps e s).2.2.1
@[simp] theorem abandonSave_masks (e : Engine) (s : State) : (abandonSave e s).evt.masks = s.evt.masks := (abandonSave_keeps e s).2.2.2

theorem indigoShutdown_keeps (s : State) : Keeps s (indigoShutdown s) := by
  unfold indigoShutdown
  try dsimp only
  (repeat' split) <;> simp [Keeps]
@[simp] theorem indigoShutdown_pending (s : State) : (indigoShutdown s).pending = s.pending := (indigoShutdown_keeps s).1
@[simp] theorem indigoShutdown_clk (s : State) : (indigoShutdown s).clk = s.clk := (indigoShutdown_keeps s).2.1
@[simp] theorem indigoShutdown_regs (s : State) : (indigoShutdown s).regs = s.regs := (indigoShutdown_keeps s).2.2.1
@[simp] theorem indigoShutdown_masks (s : State) : (indigoShutdown s).evt.masks = s.evt.masks := (indigoShutdown_keeps s).2.2.2

theorem indigoPowerDown_keeps (s : State) : Keeps s (indigoPowerDown s) := by
  unfold indigoPowerDown
  try dsimp only
  (repeat' split) <;> simp [Keeps]
@[simp] theorem indigoPowerDown_pending (s : State) : (indigoPowerDown s).pending = s.pending := (indigoPowerDown_keeps s).1
@[simp] theorem indigoPowerDown_clk (s : State) : (indigoPowerDown s).clk = s.clk := (indigoPowerDown_keeps s).2.1
@[simp] theorem indigoPowerDown_regs (s : State) : (indigoPowerDown s).regs = s.regs := (indigoPowerDown_keeps s).2.2.1
@[simp] theorem indigoPowerDown_masks (s : State) : (indigoPowerDown s).evt.masks = s.evt.masks := (indigoPowerDown_keeps s).2.2.2

end Sys2Proof.Machine
end

