-- ==== Sys2Proof/Laws/Keep/ThermOps.lean ====
section
/-! SUPPORT. What the operations of `Machine/ThermOps.lean` leave alone. -/

namespace Sys2Proof.Machine

open Sys2Proof

theorem settleStep_keeps (s : State) : Keeps s (settleStep s) := by
  unfold settleStep
  try dsimp only
  (repeat' split) <;> simp [Keeps]
@[simp] theorem settleStep_pending (s : State) : (settleStep s).pending = s.pending := (settleStep_keeps s).1
@[simp] theorem settleStep_clk (s : State) : (settleStep s).clk = s.clk := (settleStep_keeps s).2.1
@[simp] theorem settleStep_regs (s : State) : (settleStep s).regs = s.regs := (settleStep_keeps s).2.2.1
@[simp] theorem settleStep_masks (s : State) : (settleStep s).evt.masks = s.evt.masks := (settleStep_keeps s).2.2.2

theorem setSDie_keeps (n : Nat) (s : State) : Keeps s (setSDie n s) := by
  unfold setSDie
  try dsimp only
  (repeat' split) <;> simp [Keeps]
@[simp] theorem setSDie_pending (n : Nat) (s : State) : (setSDie n s).pending = s.pending := (setSDie_keeps n s).1
@[simp] theorem setSDie_clk (n : Nat) (s : State) : (setSDie n s).clk = s.clk := (setSDie_keeps n s).2.1
@[simp] theorem setSDie_regs (n : Nat) (s : State) : (setSDie n s).regs = s.regs := (setSDie_keeps n s).2.2.1
@[simp] theorem setSDie_masks (n : Nat) (s : State) : (setSDie n s).evt.masks = s.evt.masks := (setSDie_keeps n s).2.2.2

theorem setSPack_keeps (n : Nat) (s : State) : Keeps s (setSPack n s) := by
  unfold setSPack
  try dsimp only
  (repeat' split) <;> simp [Keeps]
@[simp] theorem setSPack_pending (n : Nat) (s : State) : (setSPack n s).pending = s.pending := (setSPack_keeps n s).1
@[simp] theorem setSPack_clk (n : Nat) (s : State) : (setSPack n s).clk = s.clk := (setSPack_keeps n s).2.1
@[simp] theorem setSPack_regs (n : Nat) (s : State) : (setSPack n s).regs = s.regs := (setSPack_keeps n s).2.2.1
@[simp] theorem setSPack_masks (n : Nat) (s : State) : (setSPack n s).evt.masks = s.evt.masks := (setSPack_keeps n s).2.2.2

theorem assertLines_keeps (s : State) : Keeps s (assertLines s) := by
  unfold assertLines
  try dsimp only
  (repeat' split) <;> simp [Keeps]
@[simp] theorem assertLines_pending (s : State) : (assertLines s).pending = s.pending := (assertLines_keeps s).1
@[simp] theorem assertLines_clk (s : State) : (assertLines s).clk = s.clk := (assertLines_keeps s).2.1
@[simp] theorem assertLines_regs (s : State) : (assertLines s).regs = s.regs := (assertLines_keeps s).2.2.1
@[simp] theorem assertLines_masks (s : State) : (assertLines s).evt.masks = s.evt.masks := (assertLines_keeps s).2.2.2

theorem enterShutdown_keeps (s : State) : Keeps s (enterShutdown s) := by
  unfold enterShutdown
  try dsimp only
  (repeat' split) <;> simp [Keeps]
@[simp] theorem enterShutdown_pending (s : State) : (enterShutdown s).pending = s.pending := (enterShutdown_keeps s).1
@[simp] theorem enterShutdown_clk (s : State) : (enterShutdown s).clk = s.clk := (enterShutdown_keeps s).2.1
@[simp] theorem enterShutdown_regs (s : State) : (enterShutdown s).regs = s.regs := (enterShutdown_keeps s).2.2.1
@[simp] theorem enterShutdown_masks (s : State) : (enterShutdown s).evt.masks = s.evt.masks := (enterShutdown_keeps s).2.2.2

theorem restartDie_keeps (s : State) : Keeps s (restartDie s) := by
  unfold restartDie
  try dsimp only
  (repeat' split) <;> simp [Keeps]
@[simp] theorem restartDie_pending (s : State) : (restartDie s).pending = s.pending := (restartDie_keeps s).1
@[simp] theorem restartDie_clk (s : State) : (restartDie s).clk = s.clk := (restartDie_keeps s).2.1
@[simp] theorem restartDie_regs (s : State) : (restartDie s).regs = s.regs := (restartDie_keeps s).2.2.1
@[simp] theorem restartDie_masks (s : State) : (restartDie s).evt.masks = s.evt.masks := (restartDie_keeps s).2.2.2

theorem judgeDie_keeps (t : Int) (s : State) : Keeps s (judgeDie t s) := by
  unfold judgeDie
  try dsimp only
  (repeat' split) <;> simp [Keeps]
@[simp] theorem judgeDie_pending (t : Int) (s : State) : (judgeDie t s).pending = s.pending := (judgeDie_keeps t s).1
@[simp] theorem judgeDie_clk (t : Int) (s : State) : (judgeDie t s).clk = s.clk := (judgeDie_keeps t s).2.1
@[simp] theorem judgeDie_regs (t : Int) (s : State) : (judgeDie t s).regs = s.regs := (judgeDie_keeps t s).2.2.1
@[simp] theorem judgeDie_masks (t : Int) (s : State) : (judgeDie t s).evt.masks = s.evt.masks := (judgeDie_keeps t s).2.2.2

theorem judgeRise_keeps (t : Int) (s : State) : Keeps s (judgeRise t s) := by
  unfold judgeRise
  try dsimp only
  (repeat' split) <;> simp [Keeps]
@[simp] theorem judgeRise_pending (t : Int) (s : State) : (judgeRise t s).pending = s.pending := (judgeRise_keeps t s).1
@[simp] theorem judgeRise_clk (t : Int) (s : State) : (judgeRise t s).clk = s.clk := (judgeRise_keeps t s).2.1
@[simp] theorem judgeRise_regs (t : Int) (s : State) : (judgeRise t s).regs = s.regs := (judgeRise_keeps t s).2.2.1
@[simp] theorem judgeRise_masks (t : Int) (s : State) : (judgeRise t s).evt.masks = s.evt.masks := (judgeRise_keeps t s).2.2.2

theorem breakDie_keeps (s : State) : Keeps s (breakDie s) := by
  unfold breakDie
  try dsimp only
  (repeat' split) <;> simp [Keeps]
@[simp] theorem breakDie_pending (s : State) : (breakDie s).pending = s.pending := (breakDie_keeps s).1
@[simp] theorem breakDie_clk (s : State) : (breakDie s).clk = s.clk := (breakDie_keeps s).2.1
@[simp] theorem breakDie_regs (s : State) : (breakDie s).regs = s.regs := (breakDie_keeps s).2.2.1
@[simp] theorem breakDie_masks (s : State) : (breakDie s).evt.masks = s.evt.masks := (breakDie_keeps s).2.2.2

theorem judgeGroup_keeps (s : State) (g : Nat) : Keeps s (judgeGroup s g) := by
  unfold judgeGroup
  try dsimp only
  (repeat' split) <;>
    first
    | (simp [Keeps, fold_pending, fold_clk, fold_regs, fold_masks, fold1_pending, fold1_clk, fold1_regs, fold1_masks, apply_ite State.pending, apply_ite State.clk, apply_ite State.regs, apply_ite State.evt, apply_ite EvtSt.masks]; done)
    | (refine Keeps.trans ?_ (fold_keeps _ (fun s a => ?_) _ _) <;> (try dsimp only) <;> (repeat' split) <;> simp [Keeps])
@[simp] theorem judgeGroup_pending (s : State) (g : Nat) : (judgeGroup s g).pending = s.pending := (judgeGroup_keeps s g).1
@[simp] theorem judgeGroup_clk (s : State) (g : Nat) : (judgeGroup s g).clk = s.clk := (judgeGroup_keeps s g).2.1
@[simp] theorem judgeGroup_regs (s : State) (g : Nat) : (judgeGroup s g).regs = s.regs := (judgeGroup_keeps s g).2.2.1
@[simp] theorem judgeGroup_masks (s : State) (g : Nat) : (judgeGroup s g).evt.masks = s.evt.masks := (judgeGroup_keeps s g).2.2.2

theorem settleAux_keeps (old : State) (s : State) : Keeps s (settleAux old s) := by
  unfold settleAux
  try dsimp only
  (repeat' split) <;>
    first
    | (simp [Keeps, fold_pending, fold_clk, fold_regs, fold_masks, fold1_pending, fold1_clk, fold1_regs, fold1_masks, apply_ite State.pending, apply_ite State.clk, apply_ite State.regs, apply_ite State.evt, apply_ite EvtSt.masks]; done)
    | (refine Keeps.trans ?_ (fold_keeps _ (fun s a => ?_) _ _) <;> (try dsimp only) <;> (repeat' split) <;> simp [Keeps])
@[simp] theorem settleAux_pending (old : State) (s : State) : (settleAux old s).pending = s.pending := (settleAux_keeps old s).1
@[simp] theorem settleAux_clk (old : State) (s : State) : (settleAux old s).clk = s.clk := (settleAux_keeps old s).2.1
@[simp] theorem settleAux_regs (old : State) (s : State) : (settleAux old s).regs = s.regs := (settleAux_keeps old s).2.2.1
@[simp] theorem settleAux_masks (old : State) (s : State) : (settleAux old s).evt.masks = s.evt.masks := (settleAux_keeps old s).2.2.2

theorem auxConverted_keeps (old : State) (s : State) : Keeps s (auxConverted old s) := by
  unfold auxConverted
  try dsimp only
  (repeat' split) <;> simp [Keeps]
@[simp] theorem auxConverted_pending (old : State) (s : State) : (auxConverted old s).pending = s.pending := (auxConverted_keeps old s).1
@[simp] theorem auxConverted_clk (old : State) (s : State) : (auxConverted old s).clk = s.clk := (auxConverted_keeps old s).2.1
@[simp] theorem auxConverted_regs (old : State) (s : State) : (auxConverted old s).regs = s.regs := (auxConverted_keeps old s).2.2.1
@[simp] theorem auxConverted_masks (old : State) (s : State) : (auxConverted old s).evt.masks = s.evt.masks := (auxConverted_keeps old s).2.2.2

end Sys2Proof.Machine
end

