-- ==== Sys2Proof/Laws/Keep/Thermal.lean ====
section
/-! SUPPORT. What the operations of `Machine/Thermal.lean` leave alone. -/

namespace Sys2Proof.Machine

open Sys2Proof

theorem noteAuxOpen_keeps (old : State) (s : State) : Keeps s (noteAuxOpen old s) := by
  unfold noteAuxOpen
  try dsimp only
  (repeat' split) <;>
    first
    | (simp [Keeps, fold_pending, fold_clk, fold_regs, fold_masks, fold1_pending, fold1_clk, fold1_regs, fold1_masks, apply_ite State.pending, apply_ite State.clk, apply_ite State.regs, apply_ite State.evt, apply_ite EvtSt.masks]; done)
    | (refine Keeps.trans ?_ (fold_keeps _ (fun s a => ?_) _ _) <;> (try dsimp only) <;> (repeat' split) <;> simp [Keeps])
@[simp] theorem noteAuxOpen_pending (old : State) (s : State) : (noteAuxOpen old s).pending = s.pending := (noteAuxOpen_keeps old s).1
@[simp] theorem noteAuxOpen_clk (old : State) (s : State) : (noteAuxOpen old s).clk = s.clk := (noteAuxOpen_keeps old s).2.1
@[simp] theorem noteAuxOpen_regs (old : State) (s : State) : (noteAuxOpen old s).regs = s.regs := (noteAuxOpen_keeps old s).2.2.1
@[simp] theorem noteAuxOpen_masks (old : State) (s : State) : (noteAuxOpen old s).evt.masks = s.evt.masks := (noteAuxOpen_keeps old s).2.2.2

theorem auxConvert_keeps (auxUV : List Nat) (vtrefUV : Nat) (s : State) : Keeps s (auxConvert auxUV vtrefUV s) := by
  unfold auxConvert
  try dsimp only
  (repeat' split) <;> simp [Keeps]
@[simp] theorem auxConvert_pending (auxUV : List Nat) (vtrefUV : Nat) (s : State) : (auxConvert auxUV vtrefUV s).pending = s.pending := (auxConvert_keeps auxUV vtrefUV s).1
@[simp] theorem auxConvert_clk (auxUV : List Nat) (vtrefUV : Nat) (s : State) : (auxConvert auxUV vtrefUV s).clk = s.clk := (auxConvert_keeps auxUV vtrefUV s).2.1
@[simp] theorem auxConvert_regs (auxUV : List Nat) (vtrefUV : Nat) (s : State) : (auxConvert auxUV vtrefUV s).regs = s.regs := (auxConvert_keeps auxUV vtrefUV s).2.2.1
@[simp] theorem auxConvert_masks (auxUV : List Nat) (vtrefUV : Nat) (s : State) : (auxConvert auxUV vtrefUV s).evt.masks = s.evt.masks := (auxConvert_keeps auxUV vtrefUV s).2.2.2

theorem execAuxSample_keeps (auxUV : List Nat) (vtrefUV : Nat) (s : State) {t : State} (h : execAuxSample auxUV vtrefUV s = .next t) : Keeps s t := by
  unfold execAuxSample at h
  try dsimp only at h
  (repeat' split at h) <;> (injection h with h; subst h; simp [Keeps])

theorem execVtrefFault_keeps (s : State) {t : State} (h : execVtrefFault s = .next t) : Keeps s t := by
  unfold execVtrefFault at h
  try dsimp only at h
  (repeat' split at h) <;> (injection h with h; subst h; simp [Keeps])

theorem execVtrefWithinLimits_keeps (s : State) {t : State} (h : execVtrefWithinLimits s = .next t) : Keeps s t := by
  unfold execVtrefWithinLimits at h
  try dsimp only at h
  (repeat' split at h) <;> (injection h with h; subst h; simp [Keeps])

theorem measureDie_keeps (t : Int) (s : State) : Keeps s (measureDie t s) := by
  unfold measureDie
  try dsimp only
  (repeat' split) <;> simp [Keeps]
@[simp] theorem measureDie_pending (t : Int) (s : State) : (measureDie t s).pending = s.pending := (measureDie_keeps t s).1
@[simp] theorem measureDie_clk (t : Int) (s : State) : (measureDie t s).clk = s.clk := (measureDie_keeps t s).2.1
@[simp] theorem measureDie_regs (t : Int) (s : State) : (measureDie t s).regs = s.regs := (measureDie_keeps t s).2.2.1
@[simp] theorem measureDie_masks (t : Int) (s : State) : (measureDie t s).evt.masks = s.evt.masks := (measureDie_keeps t s).2.2.2

theorem execDieMeasure_keeps (tenths : Int) (s : State) {t : State} (h : execDieMeasure tenths s = .next t) : Keeps s t := by
  unfold execDieMeasure at h
  try dsimp only at h
  (repeat' split at h) <;> (injection h with h; subst h; simp [Keeps])

theorem execComparatorTrip_keeps (s : State) {t : State} (h : execComparatorTrip s = .next t) : Keeps s t := by
  unfold execComparatorTrip at h
  try dsimp only at h
  (repeat' split at h) <;> (injection h with h; subst h; simp [Keeps])

theorem execThrottleStepTimer_keeps (pack : Bool) (s : State) {t : State} (h : execThrottleStepTimer pack s = .next t) : Keeps s t := by
  unfold execThrottleStepTimer at h
  try dsimp only at h
  (repeat' split at h) <;> (injection h with h; subst h; simp [Keeps])

theorem execDieSensorFault_keeps (hard : Bool) (s : State) {t : State} (h : execDieSensorFault hard s = .next t) : Keeps s t := by
  unfold execDieSensorFault at h
  try dsimp only at h
  (repeat' split at h) <;> (injection h with h; subst h; simp [Keeps])

theorem execUmberTempRead_keeps (tenths : Int) (s : State) {t : State} (h : execUmberTempRead tenths s = .next t) : Keeps s t := by
  unfold execUmberTempRead at h
  try dsimp only at h
  (repeat' split at h) <;> (injection h with h; subst h; simp [Keeps])

theorem execSdCntExpiry_keeps (s : State) {t : State} (h : execSdCntExpiry s = .next t) : Keeps s t := by
  unfold execSdCntExpiry at h
  try dsimp only at h
  (repeat' split at h) <;> (injection h with h; subst h; simp [Keeps])

theorem rorChannel_keeps (s : State) (k : Nat) : Keeps s (rorChannel s k) := by
  unfold rorChannel
  try dsimp only
  (repeat' split) <;> simp [Keeps]
@[simp] theorem rorChannel_pending (s : State) (k : Nat) : (rorChannel s k).pending = s.pending := (rorChannel_keeps s k).1
@[simp] theorem rorChannel_clk (s : State) (k : Nat) : (rorChannel s k).clk = s.clk := (rorChannel_keeps s k).2.1
@[simp] theorem rorChannel_regs (s : State) (k : Nat) : (rorChannel s k).regs = s.regs := (rorChannel_keeps s k).2.2.1
@[simp] theorem rorChannel_masks (s : State) (k : Nat) : (rorChannel s k).evt.masks = s.evt.masks := (rorChannel_keeps s k).2.2.2

theorem compareChannel_keeps (o : State) (s : State) (k : Nat) : Keeps s (compareChannel o s k) := by
  unfold compareChannel
  try dsimp only
  (repeat' split) <;> simp [Keeps]
@[simp] theorem compareChannel_pending (o : State) (s : State) (k : Nat) : (compareChannel o s k).pending = s.pending := (compareChannel_keeps o s k).1
@[simp] theorem compareChannel_clk (o : State) (s : State) (k : Nat) : (compareChannel o s k).clk = s.clk := (compareChannel_keeps o s k).2.1
@[simp] theorem compareChannel_regs (o : State) (s : State) (k : Nat) : (compareChannel o s k).regs = s.regs := (compareChannel_keeps o s k).2.2.1
@[simp] theorem compareChannel_masks (o : State) (s : State) (k : Nat) : (compareChannel o s k).evt.masks = s.evt.masks := (compareChannel_keeps o s k).2.2.2

theorem compareDie_keeps (s : State) : Keeps s (compareDie s) := by
  unfold compareDie
  try dsimp only
  (repeat' split) <;> simp [Keeps]
@[simp] theorem compareDie_pending (s : State) : (compareDie s).pending = s.pending := (compareDie_keeps s).1
@[simp] theorem compareDie_clk (s : State) : (compareDie s).clk = s.clk := (compareDie_keeps s).2.1
@[simp] theorem compareDie_regs (s : State) : (compareDie s).regs = s.regs := (compareDie_keeps s).2.2.1
@[simp] theorem compareDie_masks (s : State) : (compareDie s).evt.masks = s.evt.masks := (compareDie_keeps s).2.2.2

theorem execRorEval_keeps (s : State) {t : State} (h : execRorEval s = .next t) : Keeps s t := by
  unfold execRorEval at h
  try dsimp only at h
  (repeat' split at h) <;> (injection h with h; subst h; simp [Keeps, fold_pending, fold_clk, fold_regs, fold_masks, fold1_pending, fold1_clk, fold1_regs, fold1_masks, apply_ite State.pending, apply_ite State.clk, apply_ite State.regs, apply_ite State.evt, apply_ite EvtSt.masks])

theorem execThermalReport_keeps (s : State) {t : State} (h : execThermalReport s = .next t) : Keeps s t := by
  unfold execThermalReport at h
  try dsimp only at h
  (repeat' split at h) <;> (injection h with h; subst h; simp [Keeps])

end Sys2Proof.Machine
end

