-- ==== Sys2Proof/Laws/Keep/SportOps.lean ====
section
/-! SUPPORT. What the operations of `Machine/SportOps.lean` leave alone. -/

namespace Sys2Proof.Machine

open Sys2Proof

theorem setSp_keeps (n : Nat) (f : SpSt → SpSt) (s : State) : Keeps s (setSp n f s) := by
  unfold setSp
  try dsimp only
  (repeat' split) <;> simp [Keeps]
@[simp] theorem setSp_pending (n : Nat) (f : SpSt → SpSt) (s : State) : (setSp n f s).pending = s.pending := (setSp_keeps n f s).1
@[simp] theorem setSp_clk (n : Nat) (f : SpSt → SpSt) (s : State) : (setSp n f s).clk = s.clk := (setSp_keeps n f s).2.1
@[simp] theorem setSp_regs (n : Nat) (f : SpSt → SpSt) (s : State) : (setSp n f s).regs = s.regs := (setSp_keeps n f s).2.2.1
@[simp] theorem setSp_masks (n : Nat) (f : SpSt → SpSt) (s : State) : (setSp n f s).evt.masks = s.evt.masks := (setSp_keeps n f s).2.2.2

theorem setStale_keeps (n : Nat) (s : State) : Keeps s (setStale n s) := by
  unfold setStale
  try dsimp only
  (repeat' split) <;> simp [Keeps]
@[simp] theorem setStale_pending (n : Nat) (s : State) : (setStale n s).pending = s.pending := (setStale_keeps n s).1
@[simp] theorem setStale_clk (n : Nat) (s : State) : (setStale n s).clk = s.clk := (setStale_keeps n s).2.1
@[simp] theorem setStale_regs (n : Nat) (s : State) : (setStale n s).regs = s.regs := (setStale_keeps n s).2.2.1
@[simp] theorem setStale_masks (n : Nat) (s : State) : (setStale n s).evt.masks = s.evt.masks := (setStale_keeps n s).2.2.2

theorem relearn_keeps (n : Nat) (s : State) : Keeps s (relearn n s) := by
  unfold relearn
  try dsimp only
  (repeat' split) <;> simp [Keeps]
@[simp] theorem relearn_pending (n : Nat) (s : State) : (relearn n s).pending = s.pending := (relearn_keeps n s).1
@[simp] theorem relearn_clk (n : Nat) (s : State) : (relearn n s).clk = s.clk := (relearn_keeps n s).2.1
@[simp] theorem relearn_regs (n : Nat) (s : State) : (relearn n s).regs = s.regs := (relearn_keeps n s).2.2.1
@[simp] theorem relearn_masks (n : Nat) (s : State) : (relearn n s).evt.masks = s.evt.masks := (relearn_keeps n s).2.2.2

theorem powerPort_keeps (n : Nat) (s : State) : Keeps s (powerPort n s) := by
  unfold powerPort
  try dsimp only
  (repeat' split) <;> simp [Keeps]
@[simp] theorem powerPort_pending (n : Nat) (s : State) : (powerPort n s).pending = s.pending := (powerPort_keeps n s).1
@[simp] theorem powerPort_clk (n : Nat) (s : State) : (powerPort n s).clk = s.clk := (powerPort_keeps n s).2.1
@[simp] theorem powerPort_regs (n : Nat) (s : State) : (powerPort n s).regs = s.regs := (powerPort_keeps n s).2.2.1
@[simp] theorem powerPort_masks (n : Nat) (s : State) : (powerPort n s).evt.masks = s.evt.masks := (powerPort_keeps n s).2.2.2

theorem startPort_keeps (n : Nat) (s : State) : Keeps s (startPort n s) := by
  unfold startPort
  try dsimp only
  (repeat' split) <;> simp [Keeps]
@[simp] theorem startPort_pending (n : Nat) (s : State) : (startPort n s).pending = s.pending := (startPort_keeps n s).1
@[simp] theorem startPort_clk (n : Nat) (s : State) : (startPort n s).clk = s.clk := (startPort_keeps n s).2.1
@[simp] theorem startPort_regs (n : Nat) (s : State) : (startPort n s).regs = s.regs := (startPort_keeps n s).2.2.1
@[simp] theorem startPort_masks (n : Nat) (s : State) : (startPort n s).evt.masks = s.evt.masks := (startPort_keeps n s).2.2.2

theorem badFrame_keeps (n : Nat) (f : SpSt → SpSt) (s : State) : Keeps s (badFrame n f s) := by
  unfold badFrame
  try dsimp only
  (repeat' split) <;> simp [Keeps]
@[simp] theorem badFrame_pending (n : Nat) (f : SpSt → SpSt) (s : State) : (badFrame n f s).pending = s.pending := (badFrame_keeps n f s).1
@[simp] theorem badFrame_clk (n : Nat) (f : SpSt → SpSt) (s : State) : (badFrame n f s).clk = s.clk := (badFrame_keeps n f s).2.1
@[simp] theorem badFrame_regs (n : Nat) (f : SpSt → SpSt) (s : State) : (badFrame n f s).regs = s.regs := (badFrame_keeps n f s).2.2.1
@[simp] theorem badFrame_masks (n : Nat) (f : SpSt → SpSt) (s : State) : (badFrame n f s).evt.masks = s.evt.masks := (badFrame_keeps n f s).2.2.2

theorem goodFrame_keeps (n : Nat) (cal : Nat) (status : Nat) (d : List Nat) (s : State) : Keeps s (goodFrame n cal status d s) := by
  unfold goodFrame
  try dsimp only
  (repeat' split) <;> simp [Keeps]
@[simp] theorem goodFrame_pending (n : Nat) (cal : Nat) (status : Nat) (d : List Nat) (s : State) : (goodFrame n cal status d s).pending = s.pending := (goodFrame_keeps n cal status d s).1
@[simp] theorem goodFrame_clk (n : Nat) (cal : Nat) (status : Nat) (d : List Nat) (s : State) : (goodFrame n cal status d s).clk = s.clk := (goodFrame_keeps n cal status d s).2.1
@[simp] theorem goodFrame_regs (n : Nat) (cal : Nat) (status : Nat) (d : List Nat) (s : State) : (goodFrame n cal status d s).regs = s.regs := (goodFrame_keeps n cal status d s).2.2.1
@[simp] theorem goodFrame_masks (n : Nat) (cal : Nat) (status : Nat) (d : List Nat) (s : State) : (goodFrame n cal status d s).evt.masks = s.evt.masks := (goodFrame_keeps n cal status d s).2.2.2

theorem takeSentFrame_keeps (n : Nat) (cal : Nat) (pulses : List Nat) (pause : Option Nat) (s : State) : Keeps s (takeSentFrame n cal pulses pause s) := by
  unfold takeSentFrame
  try dsimp only
  (repeat' split) <;> simp [Keeps]
@[simp] theorem takeSentFrame_pending (n : Nat) (cal : Nat) (pulses : List Nat) (pause : Option Nat) (s : State) : (takeSentFrame n cal pulses pause s).pending = s.pending := (takeSentFrame_keeps n cal pulses pause s).1
@[simp] theorem takeSentFrame_clk (n : Nat) (cal : Nat) (pulses : List Nat) (pause : Option Nat) (s : State) : (takeSentFrame n cal pulses pause s).clk = s.clk := (takeSentFrame_keeps n cal pulses pause s).2.1
@[simp] theorem takeSentFrame_regs (n : Nat) (cal : Nat) (pulses : List Nat) (pause : Option Nat) (s : State) : (takeSentFrame n cal pulses pause s).regs = s.regs := (takeSentFrame_keeps n cal pulses pause s).2.2.1
@[simp] theorem takeSentFrame_masks (n : Nat) (cal : Nat) (pulses : List Nat) (pause : Option Nat) (s : State) : (takeSentFrame n cal pulses pause s).evt.masks = s.evt.masks := (takeSentFrame_keeps n cal pulses pause s).2.2.2

end Sys2Proof.Machine
end

