-- ==== Sys2Proof/Laws/Keep/Sport.lean ====
section
/-! SUPPORT. What the operations of `Machine/Sport.lean` leave alone. -/

namespace Sys2Proof.Machine

open Sys2Proof

theorem execSentFrame_keeps (port : Fin 2) (cal10ns : Nat) (pulses10ns : List Nat) (pause10ns : Option Nat) (s : State) {t : State} (h : execSentFrame port cal10ns pulses10ns pause10ns s = .next t) : Keeps s t := by
  unfold execSentFrame at h
  try dsimp only at h
  (repeat' split at h) <;> (injection h with h; subst h; simp [Keeps])

theorem takeType_keeps (n : Nat) (ty : Nat) (s : State) : Keeps s (takeType n ty s) := by
  unfold takeType
  try dsimp only
  (repeat' split) <;> simp [Keeps]
@[simp] theorem takeType_pending (n : Nat) (ty : Nat) (s : State) : (takeType n ty s).pending = s.pending := (takeType_keeps n ty s).1
@[simp] theorem takeType_clk (n : Nat) (ty : Nat) (s : State) : (takeType n ty s).clk = s.clk := (takeType_keeps n ty s).2.1
@[simp] theorem takeType_regs (n : Nat) (ty : Nat) (s : State) : (takeType n ty s).regs = s.regs := (takeType_keeps n ty s).2.2.1
@[simp] theorem takeType_masks (n : Nat) (ty : Nat) (s : State) : (takeType n ty s).evt.masks = s.evt.masks := (takeType_keeps n ty s).2.2.2

theorem execSerialMessage_keeps (port : Fin 2) (fmt : Bool) (ident : Byte) (value : BitVec 16) (crcOk : Bool) (s : State) {t : State} (h : execSerialMessage port fmt ident value crcOk s = .next t) : Keeps s t := by
  unfold execSerialMessage at h
  try dsimp only at h
  (repeat' split at h) <;> (injection h with h; subst h; simp [Keeps])

theorem execSportReport_keeps (port : Fin 2) (s : State) {t : State} (h : execSportReport port s = .next t) : Keeps s t := by
  unfold execSportReport at h
  try dsimp only at h
  (repeat' split at h) <;> (injection h with h; subst h; simp [Keeps])

theorem execSportStale_keeps (port : Fin 2) (s : State) {t : State} (h : execSportStale port s = .next t) : Keeps s t := by
  unfold execSportStale at h
  try dsimp only at h
  (repeat' split at h) <;> (injection h with h; subst h; simp [Keeps])

theorem execLineLow_keeps (port : Fin 2) (s : State) {t : State} (h : execLineLow port s = .next t) : Keeps s t := by
  unfold execLineLow at h
  try dsimp only at h
  (repeat' split at h) <;> (injection h with h; subst h; simp [Keeps])

theorem execLinePowerRestore_keeps (port : Fin 2) (stillLow : Bool) (s : State) {t : State} (h : execLinePowerRestore port stillLow s = .next t) : Keeps s t := by
  unfold execLinePowerRestore at h
  try dsimp only at h
  (repeat' split at h) <;> (injection h with h; subst h; simp [Keeps])

theorem execLineRetry_keeps (port : Fin 2) (s : State) {t : State} (h : execLineRetry port s = .next t) : Keeps s t := by
  unfold execLineRetry at h
  try dsimp only at h
  (repeat' split at h) <;> (injection h with h; subst h; simp [Keeps])

theorem execVspAbsent_keeps (s : State) {t : State} (h : execVspAbsent s = .next t) : Keeps s t := by
  unfold execVspAbsent at h
  try dsimp only at h
  (repeat' split at h) <;> (injection h with h; subst h; simp [Keeps])

theorem execVspRestored_keeps (s : State) {t : State} (h : execVspRestored s = .next t) : Keeps s t := by
  unfold execVspRestored at h
  try dsimp only at h
  (repeat' split at h) <;> (injection h with h; subst h; simp [Keeps])

theorem writeSpCfg_keeps (n : Nat) (value : Word) (s : State) : (writeSpCfg n value s).pending = s.pending ∧ (writeSpCfg n value s).clk = s.clk ∧ (writeSpCfg n value s).evt.masks = s.evt.masks := by
  unfold writeSpCfg
  try dsimp only
  (repeat' split) <;> simp
@[simp] theorem writeSpCfg_pending (n : Nat) (value : Word) (s : State) : (writeSpCfg n value s).pending = s.pending := (writeSpCfg_keeps n value s).1
@[simp] theorem writeSpCfg_clk (n : Nat) (value : Word) (s : State) : (writeSpCfg n value s).clk = s.clk := (writeSpCfg_keeps n value s).2.1
@[simp] theorem writeSpCfg_masks (n : Nat) (value : Word) (s : State) : (writeSpCfg n value s).evt.masks = s.evt.masks := (writeSpCfg_keeps n value s).2.2

theorem execSportCfgWrite_keeps (port : Fin 2) (value : Word) (s : State) {t : State} (h : execSportCfgWrite port value s = .next t) : t.pending = s.pending ∧ t.clk = s.clk ∧ t.evt.masks = s.evt.masks := by
  unfold execSportCfgWrite at h
  try dsimp only at h
  (repeat' split at h) <;> (injection h with h; subst h; simp)

theorem clearErrs_keeps (n : Nat) (s : State) : Keeps s (clearErrs n s) := by
  unfold clearErrs
  try dsimp only
  (repeat' split) <;> simp [Keeps]
@[simp] theorem clearErrs_pending (n : Nat) (s : State) : (clearErrs n s).pending = s.pending := (clearErrs_keeps n s).1
@[simp] theorem clearErrs_clk (n : Nat) (s : State) : (clearErrs n s).clk = s.clk := (clearErrs_keeps n s).2.1
@[simp] theorem clearErrs_regs (n : Nat) (s : State) : (clearErrs n s).regs = s.regs := (clearErrs_keeps n s).2.2.1
@[simp] theorem clearErrs_masks (n : Nat) (s : State) : (clearErrs n s).evt.masks = s.evt.masks := (clearErrs_keeps n s).2.2.2

theorem cmdSportRead_keeps (port : Byte) (s : State) : Keeps s (cmdSportRead port s).st := by
  unfold cmdSportRead
  try dsimp only
  (repeat' split) <;> simp [Keeps, Res.of]
@[simp] theorem cmdSportRead_pending (port : Byte) (s : State) : (cmdSportRead port s).st.pending = s.pending := (cmdSportRead_keeps port s).1
@[simp] theorem cmdSportRead_clk (port : Byte) (s : State) : (cmdSportRead port s).st.clk = s.clk := (cmdSportRead_keeps port s).2.1
@[simp] theorem cmdSportRead_regs (port : Byte) (s : State) : (cmdSportRead port s).st.regs = s.regs := (cmdSportRead_keeps port s).2.2.1
@[simp] theorem cmdSportRead_masks (port : Byte) (s : State) : (cmdSportRead port s).st.evt.masks = s.evt.masks := (cmdSportRead_keeps port s).2.2.2

theorem execSportRead_keeps (rq : Req) (port : Byte) (s : State) {t : State} (h : execSportRead rq port s = .next t) : Keeps s t := by
  unfold execSportRead at h
  try dsimp only at h
  (repeat' split at h) <;> (injection h with h; subst h; simp [Keeps, runCmd_pending, runCmd_clk, runCmd_regs, runCmd_masks])

end Sys2Proof.Machine
end

