-- ==== Sys2Proof/Laws/Keep/WatchOps.lean ====
section
/-! SUPPORT. What the operations of `Machine/WatchOps.lean` leave alone. -/

namespace Sys2Proof.Machine

open Sys2Proof

theorem undoStep_keeps (s : State) (k : Nat) : Keeps s (undoStep s k) := by
  unfold undoStep
  try dsimp only
  (repeat' split) <;> simp [Keeps]
@[simp] theorem undoStep_pending (s : State) (k : Nat) : (undoStep s k).pending = s.pending := (undoStep_keeps s k).1
@[simp] theorem undoStep_clk (s : State) (k : Nat) : (undoStep s k).clk = s.clk := (undoStep_keeps s k).2.1
@[simp] theorem undoStep_regs (s : State) (k : Nat) : (undoStep s k).regs = s.regs := (undoStep_keeps s k).2.2.1
@[simp] theorem undoStep_masks (s : State) (k : Nat) : (undoStep s k).evt.masks = s.evt.masks := (undoStep_keeps s k).2.2.2

theorem undoSteps_keeps (s : State) : Keeps s (undoSteps s) := by
  unfold undoSteps
  try dsimp only
  (repeat' split) <;>
    first
    | (simp [Keeps, fold_pending, fold_clk, fold_regs, fold_masks, fold1_pending, fold1_clk, fold1_regs, fold1_masks, apply_ite State.pending, apply_ite State.clk, apply_ite State.regs, apply_ite State.evt, apply_ite EvtSt.masks]; done)
    | (refine Keeps.trans ?_ (fold_keeps _ (fun s a => ?_) _ _) <;> (try dsimp only) <;> (repeat' split) <;> simp [Keeps])
@[simp] theorem undoSteps_pending (s : State) : (undoSteps s).pending = s.pending := (undoSteps_keeps s).1
@[simp] theorem undoSteps_clk (s : State) : (undoSteps s).clk = s.clk := (undoSteps_keeps s).2.1
@[simp] theorem undoSteps_regs (s : State) : (undoSteps s).regs = s.regs := (undoSteps_keeps s).2.2.1
@[simp] theorem undoSteps_masks (s : State) : (undoSteps s).evt.masks = s.evt.masks := (undoSteps_keeps s).2.2.2

theorem stopProof_keeps (s : State) : Keeps s (stopProof s) := by
  unfold stopProof
  try dsimp only
  (repeat' split) <;> simp [Keeps]
@[simp] theorem stopProof_pending (s : State) : (stopProof s).pending = s.pending := (stopProof_keeps s).1
@[simp] theorem stopProof_clk (s : State) : (stopProof s).clk = s.clk := (stopProof_keeps s).2.1
@[simp] theorem stopProof_regs (s : State) : (stopProof s).regs = s.regs := (stopProof_keeps s).2.2.1
@[simp] theorem stopProof_masks (s : State) : (stopProof s).evt.masks = s.evt.masks := (stopProof_keeps s).2.2.2

theorem abortProof_keeps (s : State) : Keeps s (abortProof s) := by
  unfold abortProof
  try dsimp only
  (repeat' split) <;>
    first
    | (simp [Keeps, fold_pending, fold_clk, fold_regs, fold_masks, fold1_pending, fold1_clk, fold1_regs, fold1_masks, apply_ite State.pending, apply_ite State.clk, apply_ite State.regs, apply_ite State.evt, apply_ite EvtSt.masks]; done)
    | (refine Keeps.trans ?_ (fold_keeps _ (fun s a => ?_) _ _) <;> (try dsimp only) <;> (repeat' split) <;> simp [Keeps])
@[simp] theorem abortProof_pending (s : State) : (abortProof s).pending = s.pending := (abortProof_keeps s).1
@[simp] theorem abortProof_clk (s : State) : (abortProof s).clk = s.clk := (abortProof_keeps s).2.1
@[simp] theorem abortProof_regs (s : State) : (abortProof s).regs = s.regs := (abortProof_keeps s).2.2.1
@[simp] theorem abortProof_masks (s : State) : (abortProof s).evt.masks = s.evt.masks := (abortProof_keeps s).2.2.2

theorem quiet_keeps (s : State) : Keeps s (quiet s) := by
  unfold quiet
  try dsimp only
  (repeat' split) <;> simp [Keeps]
@[simp] theorem quiet_pending (s : State) : (quiet s).pending = s.pending := (quiet_keeps s).1
@[simp] theorem quiet_clk (s : State) : (quiet s).clk = s.clk := (quiet_keeps s).2.1
@[simp] theorem quiet_regs (s : State) : (quiet s).regs = s.regs := (quiet_keeps s).2.2.1
@[simp] theorem quiet_masks (s : State) : (quiet s).evt.masks = s.evt.masks := (quiet_keeps s).2.2.2

theorem alarmFrame_keeps (s : State) : Keeps s (alarmFrame s) := by
  unfold alarmFrame
  try dsimp only
  (repeat' split) <;> simp [Keeps]
@[simp] theorem alarmFrame_pending (s : State) : (alarmFrame s).pending = s.pending := (alarmFrame_keeps s).1
@[simp] theorem alarmFrame_clk (s : State) : (alarmFrame s).clk = s.clk := (alarmFrame_keeps s).2.1
@[simp] theorem alarmFrame_regs (s : State) : (alarmFrame s).regs = s.regs := (alarmFrame_keeps s).2.2.1
@[simp] theorem alarmFrame_masks (s : State) : (alarmFrame s).evt.masks = s.evt.masks := (alarmFrame_keeps s).2.2.2

theorem enterAlarm_keeps (strong : Bool) (s : State) : Keeps s (enterAlarm strong s) := by
  unfold enterAlarm
  try dsimp only
  (repeat' split) <;> simp [Keeps]
@[simp] theorem enterAlarm_pending (strong : Bool) (s : State) : (enterAlarm strong s).pending = s.pending := (enterAlarm_keeps strong s).1
@[simp] theorem enterAlarm_clk (strong : Bool) (s : State) : (enterAlarm strong s).clk = s.clk := (enterAlarm_keeps strong s).2.1
@[simp] theorem enterAlarm_regs (strong : Bool) (s : State) : (enterAlarm strong s).regs = s.regs := (enterAlarm_keeps strong s).2.2.1
@[simp] theorem enterAlarm_masks (strong : Bool) (s : State) : (enterAlarm strong s).evt.masks = s.evt.masks := (enterAlarm_keeps strong s).2.2.2

theorem enterLevel_keeps (l : Level) (up : Bool) (s : State) : Keeps s (enterLevel l up s) := by
  unfold enterLevel
  try dsimp only
  (repeat' split) <;> simp [Keeps]
@[simp] theorem enterLevel_pending (l : Level) (up : Bool) (s : State) : (enterLevel l up s).pending = s.pending := (enterLevel_keeps l up s).1
@[simp] theorem enterLevel_clk (l : Level) (up : Bool) (s : State) : (enterLevel l up s).clk = s.clk := (enterLevel_keeps l up s).2.1
@[simp] theorem enterLevel_regs (l : Level) (up : Bool) (s : State) : (enterLevel l up s).regs = s.regs := (enterLevel_keeps l up s).2.2.1
@[simp] theorem enterLevel_masks (l : Level) (up : Bool) (s : State) : (enterLevel l up s).evt.masks = s.evt.masks := (enterLevel_keeps l up s).2.2.2

theorem noteEvidence_keeps (now : List Item) (s : State) : Keeps s (noteEvidence now s) := by
  unfold noteEvidence
  try dsimp only
  (repeat' split) <;> simp [Keeps]
@[simp] theorem noteEvidence_pending (now : List Item) (s : State) : (noteEvidence now s).pending = s.pending := (noteEvidence_keeps now s).1
@[simp] theorem noteEvidence_clk (now : List Item) (s : State) : (noteEvidence now s).clk = s.clk := (noteEvidence_keeps now s).2.1
@[simp] theorem noteEvidence_regs (now : List Item) (s : State) : (noteEvidence now s).regs = s.regs := (noteEvidence_keeps now s).2.2.1
@[simp] theorem noteEvidence_masks (now : List Item) (s : State) : (noteEvidence now s).evt.masks = s.evt.masks := (noteEvidence_keeps now s).2.2.2

theorem judgeLevel_keeps (old : State) (now : List Item) (s : State) : Keeps s (judgeLevel old now s) := by
  unfold judgeLevel
  try dsimp only
  (repeat' split) <;> simp [Keeps]
@[simp] theorem judgeLevel_pending (old : State) (now : List Item) (s : State) : (judgeLevel old now s).pending = s.pending := (judgeLevel_keeps old now s).1
@[simp] theorem judgeLevel_clk (old : State) (now : List Item) (s : State) : (judgeLevel old now s).clk = s.clk := (judgeLevel_keeps old now s).2.1
@[simp] theorem judgeLevel_regs (old : State) (now : List Item) (s : State) : (judgeLevel old now s).regs = s.regs := (judgeLevel_keeps old now s).2.2.1
@[simp] theorem judgeLevel_masks (old : State) (now : List Item) (s : State) : (judgeLevel old now s).evt.masks = s.evt.masks := (judgeLevel_keeps old now s).2.2.2

theorem evalWatch_keeps (s : State) : Keeps s (evalWatch s) := by
  unfold evalWatch
  try dsimp only
  (repeat' split) <;> simp [Keeps]
@[simp] theorem evalWatch_pending (s : State) : (evalWatch s).pending = s.pending := (evalWatch_keeps s).1
@[simp] theorem evalWatch_clk (s : State) : (evalWatch s).clk = s.clk := (evalWatch_keeps s).2.1
@[simp] theorem evalWatch_regs (s : State) : (evalWatch s).regs = s.regs := (evalWatch_keeps s).2.2.1
@[simp] theorem evalWatch_masks (s : State) : (evalWatch s).evt.masks = s.evt.masks := (evalWatch_keeps s).2.2.2

end Sys2Proof.Machine
end

