-- ==== Sys2Proof/Laws/Keep/Watch.lean ====
section
/-! SUPPORT. What the operations of `Machine/Watch.lean` leave alone. -/

namespace Sys2Proof.Machine

open Sys2Proof

theorem execWatchEval_keeps (s : State) {t : State} (h : execWatchEval s = .next t) : Keeps s t := by
  unfold execWatchEval at h
  try dsimp only at h
  (repeat' split at h) <;> (injection h with h; subst h; simp [Keeps])

theorem execAlarmDeferredActions_keeps (s : State) {t : State} (h : execAlarmDeferredActions s = .next t) : Keeps s t := by
  unfold execAlarmDeferredActions at h
  try dsimp only at h
  (repeat' split at h) <;> (injection h with h; subst h; simp [Keeps])

theorem execCriteriaStale_keeps (s : State) {t : State} (h : execCriteriaStale s = .next t) : Keeps s t := by
  unfold execCriteriaStale at h
  try dsimp only at h
  (repeat' split at h) <;> (injection h with h; subst h; simp [Keeps])

theorem execCriterionUnavailable_keeps (c : Fin 6) (s : State) {t : State} (h : execCriterionUnavailable c s = .next t) : Keeps s t := by
  unfold execCriterionUnavailable at h
  try dsimp only at h
  (repeat' split at h) <;> (injection h with h; subst h; simp [Keeps])

theorem execZoneShareSend_keeps (s : State) {t : State} (h : execZoneShareSend s = .next t) : Keeps s t := by
  unfold execZoneShareSend at h
  try dsimp only at h
  (repeat' split at h) <;> (injection h with h; subst h; simp [Keeps, fold_pending, fold_clk, fold_regs, fold_masks, fold1_pending, fold1_clk, fold1_regs, fold1_masks, apply_ite State.pending, apply_ite State.clk, apply_ite State.regs, apply_ite State.evt, apply_ite EvtSt.masks])

theorem execZoneShareStale_keeps (peer : Fin 24) (s : State) {t : State} (h : execZoneShareStale peer s = .next t) : Keeps s t := by
  unfold execZoneShareStale at h
  try dsimp only at h
  (repeat' split at h) <;> (injection h with h; subst h; simp [Keeps])

theorem execGasLearnEnd_keeps (port : Fin 2) (s : State) {t : State} (h : execGasLearnEnd port s = .next t) : Keeps s t := by
  unfold execGasLearnEnd at h
  try dsimp only at h
  (repeat' split at h) <;> (injection h with h; subst h; simp [Keeps])

theorem execGasBaselineUpdate_keeps (port : Fin 2) (s : State) {t : State} (h : execGasBaselineUpdate port s = .next t) : Keeps s t := by
  unfold execGasBaselineUpdate at h
  try dsimp only at h
  (repeat' split at h) <;> (injection h with h; subst h; simp [Keeps])

theorem execImpedanceBaseline_keeps (s : State) {t : State} (h : execImpedanceBaseline s = .next t) : Keeps s t := by
  unfold execImpedanceBaseline at h
  try dsimp only at h
  (repeat' split at h) <;> (injection h with h; subst h; simp [Keeps])

theorem execWatchReport_keeps (s : State) {t : State} (h : execWatchReport s = .next t) : Keeps s t := by
  unfold execWatchReport at h
  try dsimp only at h
  (repeat' split at h) <;> (injection h with h; subst h; simp [Keeps])

theorem cmdAlarmClr_keeps (key : Byte) (s : State) : Keeps s (cmdAlarmClr key s).st := by
  unfold cmdAlarmClr
  try dsimp only
  (repeat' split) <;> simp [Keeps, Res.of]
@[simp] theorem cmdAlarmClr_pending (key : Byte) (s : State) : (cmdAlarmClr key s).st.pending = s.pending := (cmdAlarmClr_keeps key s).1
@[simp] theorem cmdAlarmClr_clk (key : Byte) (s : State) : (cmdAlarmClr key s).st.clk = s.clk := (cmdAlarmClr_keeps key s).2.1
@[simp] theorem cmdAlarmClr_regs (key : Byte) (s : State) : (cmdAlarmClr key s).st.regs = s.regs := (cmdAlarmClr_keeps key s).2.2.1
@[simp] theorem cmdAlarmClr_masks (key : Byte) (s : State) : (cmdAlarmClr key s).st.evt.masks = s.evt.masks := (cmdAlarmClr_keeps key s).2.2.2

theorem execAlarmClr_keeps (rq : Req) (key : Byte) (s : State) {t : State} (h : execAlarmClr rq key s = .next t) : Keeps s t := by
  unfold execAlarmClr at h
  try dsimp only at h
  (repeat' split at h) <;> (injection h with h; subst h; simp [Keeps, runCmd_pending, runCmd_clk, runCmd_regs, runCmd_masks])

theorem cmdWatchRead_keeps (s : State) : Keeps s (cmdWatchRead s).st := by
  unfold cmdWatchRead
  try dsimp only
  (repeat' split) <;> simp [Keeps, Res.of]
@[simp] theorem cmdWatchRead_pending (s : State) : (cmdWatchRead s).st.pending = s.pending := (cmdWatchRead_keeps s).1
@[simp] theorem cmdWatchRead_clk (s : State) : (cmdWatchRead s).st.clk = s.clk := (cmdWatchRead_keeps s).2.1
@[simp] theorem cmdWatchRead_regs (s : State) : (cmdWatchRead s).st.regs = s.regs := (cmdWatchRead_keeps s).2.2.1
@[simp] theorem cmdWatchRead_masks (s : State) : (cmdWatchRead s).st.evt.masks = s.evt.masks := (cmdWatchRead_keeps s).2.2.2

theorem execWatchRead_keeps (rq : Req) (s : State) {t : State} (h : execWatchRead rq s = .next t) : Keeps s t := by
  unfold execWatchRead at h
  try dsimp only at h
  (repeat' split at h) <;> (injection h with h; subst h; simp [Keeps, runCmd_pending, runCmd_clk, runCmd_regs, runCmd_masks])

end Sys2Proof.Machine
end

