-- ==== Sys2Proof/Laws/Keep/Proof.lean ====
section
/-! SUPPORT. What the operations of `Machine/Proof.lean` leave alone. -/

namespace Sys2Proof.Machine

open Sys2Proof

theorem proofFallsDue_keeps (s : State) : Keeps s (proofFallsDue s) := by
  unfold proofFallsDue
  try dsimp only
  (repeat' split) <;> simp [Keeps]
@[simp] theorem proofFallsDue_pending (s : State) : (proofFallsDue s).pending = s.pending := (proofFallsDue_keeps s).1
@[simp] theorem proofFallsDue_clk (s : State) : (proofFallsDue s).clk = s.clk := (proofFallsDue_keeps s).2.1
@[simp] theorem proofFallsDue_regs (s : State) : (proofFallsDue s).regs = s.regs := (proofFallsDue_keeps s).2.2.1
@[simp] theorem proofFallsDue_masks (s : State) : (proofFallsDue s).evt.masks = s.evt.masks := (proofFallsDue_keeps s).2.2.2

theorem execProofDue_keeps (s : State) {t : State} (h : execProofDue s = .next t) : Keeps s t := by
  unfold execProofDue at h
  try dsimp only at h
  (repeat' split at h) <;> (injection h with h; subst h; simp [Keeps])

theorem cmdProofRun_keeps (rq : Req) (s : State) : Keeps s (cmdProofRun rq s).st := by
  unfold cmdProofRun
  try dsimp only
  (repeat' split) <;> simp [Keeps, Res.of]
@[simp] theorem cmdProofRun_pending (rq : Req) (s : State) : (cmdProofRun rq s).st.pending = s.pending := (cmdProofRun_keeps rq s).1
@[simp] theorem cmdProofRun_clk (rq : Req) (s : State) : (cmdProofRun rq s).st.clk = s.clk := (cmdProofRun_keeps rq s).2.1
@[simp] theorem cmdProofRun_regs (rq : Req) (s : State) : (cmdProofRun rq s).st.regs = s.regs := (cmdProofRun_keeps rq s).2.2.1
@[simp] theorem cmdProofRun_masks (rq : Req) (s : State) : (cmdProofRun rq s).st.evt.masks = s.evt.masks := (cmdProofRun_keeps rq s).2.2.2

theorem execProofRun_keeps (rq : Req) (s : State) {t : State} (h : execProofRun rq s = .next t) : Keeps s t := by
  unfold execProofRun at h
  try dsimp only at h
  (repeat' split at h) <;> (injection h with h; subst h; simp [Keeps, runCmd_pending, runCmd_clk, runCmd_regs, runCmd_masks])

theorem execProofOverdue_keeps (s : State) {t : State} (h : execProofOverdue s = .next t) : Keeps s t := by
  unfold execProofOverdue at h
  try dsimp only at h
  (repeat' split at h) <;> (injection h with h; subst h; simp [Keeps])

theorem stepsA_keeps (m : ProofIn) (s : State) : Keeps s (stepsA m s) := by
  unfold stepsA
  try dsimp only
  (repeat' split) <;> simp [Keeps]
@[simp] theorem stepsA_pending (m : ProofIn) (s : State) : (stepsA m s).pending = s.pending := (stepsA_keeps m s).1
@[simp] theorem stepsA_clk (m : ProofIn) (s : State) : (stepsA m s).clk = s.clk := (stepsA_keeps m s).2.1
@[simp] theorem stepsA_regs (m : ProofIn) (s : State) : (stepsA m s).regs = s.regs := (stepsA_keeps m s).2.2.1
@[simp] theorem stepsA_masks (m : ProofIn) (s : State) : (stepsA m s).evt.masks = s.evt.masks := (stepsA_keeps m s).2.2.2

theorem stepPins_keeps (s : State) : Keeps s (stepPins s) := by
  unfold stepPins
  try dsimp only
  (repeat' split) <;> simp [Keeps]
@[simp] theorem stepPins_pending (s : State) : (stepPins s).pending = s.pending := (stepPins_keeps s).1
@[simp] theorem stepPins_clk (s : State) : (stepPins s).clk = s.clk := (stepPins_keeps s).2.1
@[simp] theorem stepPins_regs (s : State) : (stepPins s).regs = s.regs := (stepPins_keeps s).2.2.1
@[simp] theorem stepPins_masks (s : State) : (stepPins s).evt.masks = s.evt.masks := (stepPins_keeps s).2.2.2

theorem stepBalance_keeps (m : ProofIn) (s : State) : Keeps s (stepBalance m s) := by
  unfold stepBalance
  try dsimp only
  (repeat' split) <;>
    first
    | (simp [Keeps, fold_pending, fold_clk, fold_regs, fold_masks, fold1_pending, fold1_clk, fold1_regs, fold1_masks, apply_ite State.pending, apply_ite State.clk, apply_ite State.regs, apply_ite State.evt, apply_ite EvtSt.masks]; done)
    | (refine Keeps.trans ?_ (fold_keeps _ (fun s a => ?_) _ _) <;> (try dsimp only) <;> (repeat' split) <;> simp [Keeps])
@[simp] theorem stepBalance_pending (m : ProofIn) (s : State) : (stepBalance m s).pending = s.pending := (stepBalance_keeps m s).1
@[simp] theorem stepBalance_clk (m : ProofIn) (s : State) : (stepBalance m s).clk = s.clk := (stepBalance_keeps m s).2.1
@[simp] theorem stepBalance_regs (m : ProofIn) (s : State) : (stepBalance m s).regs = s.regs := (stepBalance_keeps m s).2.2.1
@[simp] theorem stepBalance_masks (m : ProofIn) (s : State) : (stepBalance m s).evt.masks = s.evt.masks := (stepBalance_keeps m s).2.2.2

theorem stepAux_keeps (s : State) : Keeps s (stepAux s) := by
  unfold stepAux
  try dsimp only
  (repeat' split) <;> simp [Keeps]
@[simp] theorem stepAux_pending (s : State) : (stepAux s).pending = s.pending := (stepAux_keeps s).1
@[simp] theorem stepAux_clk (s : State) : (stepAux s).clk = s.clk := (stepAux_keeps s).2.1
@[simp] theorem stepAux_regs (s : State) : (stepAux s).regs = s.regs := (stepAux_keeps s).2.2.1
@[simp] theorem stepAux_masks (s : State) : (stepAux s).evt.masks = s.evt.masks := (stepAux_keeps s).2.2.2

theorem stepSat_keeps (n : Nat) (s : State) : Keeps s (stepSat n s) := by
  unfold stepSat
  try dsimp only
  (repeat' split) <;> simp [Keeps]
@[simp] theorem stepSat_pending (n : Nat) (s : State) : (stepSat n s).pending = s.pending := (stepSat_keeps n s).1
@[simp] theorem stepSat_clk (n : Nat) (s : State) : (stepSat n s).clk = s.clk := (stepSat_keeps n s).2.1
@[simp] theorem stepSat_regs (n : Nat) (s : State) : (stepSat n s).regs = s.regs := (stepSat_keeps n s).2.2.1
@[simp] theorem stepSat_masks (n : Nat) (s : State) : (stepSat n s).evt.masks = s.evt.masks := (stepSat_keeps n s).2.2.2

theorem stepHb_keeps (m : ProofIn) (s : State) : Keeps s (stepHb m s) := by
  unfold stepHb
  try dsimp only
  (repeat' split) <;> simp [Keeps]
@[simp] theorem stepHb_pending (m : ProofIn) (s : State) : (stepHb m s).pending = s.pending := (stepHb_keeps m s).1
@[simp] theorem stepHb_clk (m : ProofIn) (s : State) : (stepHb m s).clk = s.clk := (stepHb_keeps m s).2.1
@[simp] theorem stepHb_regs (m : ProofIn) (s : State) : (stepHb m s).regs = s.regs := (stepHb_keeps m s).2.2.1
@[simp] theorem stepHb_masks (m : ProofIn) (s : State) : (stepHb m s).evt.masks = s.evt.masks := (stepHb_keeps m s).2.2.2

theorem scrubBlock_keeps (m : ProofIn) (s : State) : Keeps s (scrubBlock m s) := by
  unfold scrubBlock
  try dsimp only
  (repeat' split) <;> simp [Keeps]
@[simp] theorem scrubBlock_pending (m : ProofIn) (s : State) : (scrubBlock m s).pending = s.pending := (scrubBlock_keeps m s).1
@[simp] theorem scrubBlock_clk (m : ProofIn) (s : State) : (scrubBlock m s).clk = s.clk := (scrubBlock_keeps m s).2.1
@[simp] theorem scrubBlock_regs (m : ProofIn) (s : State) : (scrubBlock m s).regs = s.regs := (scrubBlock_keeps m s).2.2.1
@[simp] theorem scrubBlock_masks (m : ProofIn) (s : State) : (scrubBlock m s).evt.masks = s.evt.masks := (scrubBlock_keeps m s).2.2.2

theorem stepVerm_keeps (m : ProofIn) (s : State) : Keeps s (stepVerm m s) := by
  unfold stepVerm
  try dsimp only
  (repeat' split) <;>
    first
    | (simp [Keeps, fold_pending, fold_clk, fold_regs, fold_masks, fold1_pending, fold1_clk, fold1_regs, fold1_masks, apply_ite State.pending, apply_ite State.clk, apply_ite State.regs, apply_ite State.evt, apply_ite EvtSt.masks]; done)
    | (refine Keeps.trans ?_ (fold_keeps _ (fun s a => ?_) _ _) <;> (try dsimp only) <;> (repeat' split) <;> simp [Keeps])
@[simp] theorem stepVerm_pending (m : ProofIn) (s : State) : (stepVerm m s).pending = s.pending := (stepVerm_keeps m s).1
@[simp] theorem stepVerm_clk (m : ProofIn) (s : State) : (stepVerm m s).clk = s.clk := (stepVerm_keeps m s).2.1
@[simp] theorem stepVerm_regs (m : ProofIn) (s : State) : (stepVerm m s).regs = s.regs := (stepVerm_keeps m s).2.2.1
@[simp] theorem stepVerm_masks (m : ProofIn) (s : State) : (stepVerm m s).evt.masks = s.evt.masks := (stepVerm_keeps m s).2.2.2

theorem stepLog_keeps (m : ProofIn) (s : State) : Keeps s (stepLog m s) := by
  unfold stepLog
  try dsimp only
  (repeat' split) <;> simp [Keeps]
@[simp] theorem stepLog_pending (m : ProofIn) (s : State) : (stepLog m s).pending = s.pending := (stepLog_keeps m s).1
@[simp] theorem stepLog_clk (m : ProofIn) (s : State) : (stepLog m s).clk = s.clk := (stepLog_keeps m s).2.1
@[simp] theorem stepLog_regs (m : ProofIn) (s : State) : (stepLog m s).regs = s.regs := (stepLog_keeps m s).2.2.1
@[simp] theorem stepLog_masks (m : ProofIn) (s : State) : (stepLog m s).evt.masks = s.evt.masks := (stepLog_keeps m s).2.2.2

theorem stepCurrent_keeps (m : ProofIn) (s : State) : Keeps s (stepCurrent m s) := by
  unfold stepCurrent
  try dsimp only
  (repeat' split) <;> simp [Keeps]
@[simp] theorem stepCurrent_pending (m : ProofIn) (s : State) : (stepCurrent m s).pending = s.pending := (stepCurrent_keeps m s).1
@[simp] theorem stepCurrent_clk (m : ProofIn) (s : State) : (stepCurrent m s).clk = s.clk := (stepCurrent_keeps m s).2.1
@[simp] theorem stepCurrent_regs (m : ProofIn) (s : State) : (stepCurrent m s).regs = s.regs := (stepCurrent_keeps m s).2.2.1
@[simp] theorem stepCurrent_masks (m : ProofIn) (s : State) : (stepCurrent m s).evt.masks = s.evt.masks := (stepCurrent_keeps m s).2.2.2

theorem stepMemory_keeps (m : ProofIn) (s : State) : Keeps s (stepMemory m s) := by
  unfold stepMemory
  try dsimp only
  (repeat' split) <;> simp [Keeps]
@[simp] theorem stepMemory_pending (m : ProofIn) (s : State) : (stepMemory m s).pending = s.pending := (stepMemory_keeps m s).1
@[simp] theorem stepMemory_clk (m : ProofIn) (s : State) : (stepMemory m s).clk = s.clk := (stepMemory_keeps m s).2.1
@[simp] theorem stepMemory_regs (m : ProofIn) (s : State) : (stepMemory m s).regs = s.regs := (stepMemory_keeps m s).2.2.1
@[simp] theorem stepMemory_masks (m : ProofIn) (s : State) : (stepMemory m s).evt.masks = s.evt.masks := (stepMemory_keeps m s).2.2.2

theorem execProofStart_keeps (meas : ProofIn) (s : State) {t : State} (h : execProofStart meas s = .next t) : Keeps s t := by
  unfold execProofStart at h
  try dsimp only at h
  (repeat' split at h) <;> (injection h with h; subst h; simp [Keeps])

theorem execSatTestTimeout_keeps (port : Fin 2) (s : State) {t : State} (h : execSatTestTimeout port s = .next t) : Keeps s t := by
  unfold execSatTestTimeout at h
  try dsimp only at h
  (repeat' split at h) <;> (injection h with h; subst h; simp [Keeps])

theorem finishSat_keeps (n : Nat) (s : State) : Keeps s (finishSat n s) := by
  unfold finishSat
  try dsimp only
  (repeat' split) <;> simp [Keeps]
@[simp] theorem finishSat_pending (n : Nat) (s : State) : (finishSat n s).pending = s.pending := (finishSat_keeps n s).1
@[simp] theorem finishSat_clk (n : Nat) (s : State) : (finishSat n s).clk = s.clk := (finishSat_keeps n s).2.1
@[simp] theorem finishSat_regs (n : Nat) (s : State) : (finishSat n s).regs = s.regs := (finishSat_keeps n s).2.2.1
@[simp] theorem finishSat_masks (n : Nat) (s : State) : (finishSat n s).evt.masks = s.evt.masks := (finishSat_keeps n s).2.2.2

theorem execProofComplete_keeps (s : State) {t : State} (h : execProofComplete s = .next t) : Keeps s t := by
  unfold execProofComplete at h
  try dsimp only at h
  (repeat' split at h) <;> (injection h with h; subst h; simp [Keeps, fold_pending, fold_clk, fold_regs, fold_masks, fold1_pending, fold1_clk, fold1_regs, fold1_masks, apply_ite State.pending, apply_ite State.clk, apply_ite State.regs, apply_ite State.evt, apply_ite EvtSt.masks])

end Sys2Proof.Machine
end

