-- ==== Sys2Proof/Laws/Keep/Time.lean ====
section
/-! SUPPORT. What the operations of `Machine/Time.lean` leave alone. -/

namespace Sys2Proof.Machine

open Sys2Proof

theorem cmdTimeSet_keeps (sec : BitVec 48) (ns : Word) (s : State) : Keeps s (cmdTimeSet sec ns s).st := by
  unfold cmdTimeSet
  try dsimp only
  (repeat' split) <;> simp [Keeps, Res.of]
@[simp] theorem cmdTimeSet_pending (sec : BitVec 48) (ns : Word) (s : State) : (cmdTimeSet sec ns s).st.pending = s.pending := (cmdTimeSet_keeps sec ns s).1
@[simp] theorem cmdTimeSet_clk (sec : BitVec 48) (ns : Word) (s : State) : (cmdTimeSet sec ns s).st.clk = s.clk := (cmdTimeSet_keeps sec ns s).2.1
@[simp] theorem cmdTimeSet_regs (sec : BitVec 48) (ns : Word) (s : State) : (cmdTimeSet sec ns s).st.regs = s.regs := (cmdTimeSet_keeps sec ns s).2.2.1
@[simp] theorem cmdTimeSet_masks (sec : BitVec 48) (ns : Word) (s : State) : (cmdTimeSet sec ns s).st.evt.masks = s.evt.masks := (cmdTimeSet_keeps sec ns s).2.2.2

theorem execTimeSet_keeps (rq : Req) (sec : BitVec 48) (ns : Word) (s : State) {t : State} (h : execTimeSet rq sec ns s = .next t) : Keeps s t := by
  unfold execTimeSet at h
  try dsimp only at h
  (repeat' split at h) <;> (injection h with h; subst h; simp [Keeps, runCmd_pending, runCmd_clk, runCmd_regs, runCmd_masks])

theorem cmdTimeGet_keeps (s : State) : Keeps s (cmdTimeGet s).st := by
  unfold cmdTimeGet
  try dsimp only
  (repeat' split) <;> simp [Keeps, Res.of]
@[simp] theorem cmdTimeGet_pending (s : State) : (cmdTimeGet s).st.pending = s.pending := (cmdTimeGet_keeps s).1
@[simp] theorem cmdTimeGet_clk (s : State) : (cmdTimeGet s).st.clk = s.clk := (cmdTimeGet_keeps s).2.1
@[simp] theorem cmdTimeGet_regs (s : State) : (cmdTimeGet s).st.regs = s.regs := (cmdTimeGet_keeps s).2.2.1
@[simp] theorem cmdTimeGet_masks (s : State) : (cmdTimeGet s).st.evt.masks = s.evt.masks := (cmdTimeGet_keeps s).2.2.2

theorem execTimeGet_keeps (rq : Req) (s : State) {t : State} (h : execTimeGet rq s = .next t) : Keeps s t := by
  unfold execTimeGet at h
  try dsimp only at h
  (repeat' split at h) <;> (injection h with h; subst h; simp [Keeps, runCmd_pending, runCmd_clk, runCmd_regs, runCmd_masks])

theorem execSyncInEdge_keeps (frac : Nat) (highNs : Nat) (s : State) {t : State} (h : execSyncInEdge frac highNs s = .next t) : Keeps s t := by
  unfold execSyncInEdge at h
  try dsimp only at h
  (repeat' split at h) <;> (injection h with h; subst h; simp [Keeps])

theorem execTimeSetExpiry_keeps (s : State) {t : State} (h : execTimeSetExpiry s = .next t) : Keeps s t := by
  unfold execTimeSetExpiry at h
  try dsimp only at h
  (repeat' split at h) <;> (injection h with h; subst h; simp [Keeps])

theorem execAnchorHoldover_keeps (s : State) {t : State} (h : execAnchorHoldover s = .next t) : Keeps s t := by
  unfold execAnchorHoldover at h
  try dsimp only at h
  (repeat' split at h) <;> (injection h with h; subst h; simp [Keeps])

theorem execHoldoverLimit_keeps (s : State) {t : State} (h : execHoldoverLimit s = .next t) : Keeps s t := by
  unfold execHoldoverLimit at h
  try dsimp only at h
  (repeat' split at h) <;> (injection h with h; subst h; simp [Keeps])

theorem execBeaconSend_keeps (s : State) {t : State} (h : execBeaconSend s = .next t) : Keeps s t := by
  unfold execBeaconSend at h
  try dsimp only at h
  (repeat' split at h) <;> (injection h with h; subst h; simp [Keeps])

theorem useBeacon_keeps (sd : Side) (f : Frame) (frac : Nat) (s : State) : Keeps s (useBeacon sd f frac s) := by
  unfold useBeacon
  try dsimp only
  (repeat' split) <;> simp [Keeps]
@[simp] theorem useBeacon_pending (sd : Side) (f : Frame) (frac : Nat) (s : State) : (useBeacon sd f frac s).pending = s.pending := (useBeacon_keeps sd f frac s).1
@[simp] theorem useBeacon_clk (sd : Side) (f : Frame) (frac : Nat) (s : State) : (useBeacon sd f frac s).clk = s.clk := (useBeacon_keeps sd f frac s).2.1
@[simp] theorem useBeacon_regs (sd : Side) (f : Frame) (frac : Nat) (s : State) : (useBeacon sd f frac s).regs = s.regs := (useBeacon_keeps sd f frac s).2.2.1
@[simp] theorem useBeacon_masks (sd : Side) (f : Frame) (frac : Nat) (s : State) : (useBeacon sd f frac s).evt.masks = s.evt.masks := (useBeacon_keeps sd f frac s).2.2.2

theorem execBeacon_keeps (sd : Side) (f : Frame) (lq : LineQ) (frac : Nat) (residence : Nat) (s : State) {t : State} (h : execBeacon sd f lq frac residence s = .next t) : Keeps s t := by
  unfold execBeacon at h
  try dsimp only at h
  (repeat' split at h) <;> (injection h with h; subst h; simp [Keeps])

theorem execBeaconTimeout_keeps (s : State) {t : State} (h : execBeaconTimeout s = .next t) : Keeps s t := by
  unfold execBeaconTimeout at h
  try dsimp only at h
  (repeat' split at h) <;> (injection h with h; subst h; simp [Keeps])

theorem execDelayMeasure_keeps (sd : Side) (s : State) {t : State} (h : execDelayMeasure sd s = .next t) : Keeps s t := by
  unfold execDelayMeasure at h
  try dsimp only at h
  (repeat' split at h) <;> (injection h with h; subst h; simp [Keeps])

theorem execDelayReq_keeps (sd : Side) (f : Frame) (lq : LineQ) (frac : Nat) (s : State) {t : State} (h : execDelayReq sd f lq frac s = .next t) : Keeps s t := by
  unfold execDelayReq at h
  try dsimp only at h
  (repeat' split at h) <;> (injection h with h; subst h; simp [Keeps])

theorem execDelayResp_keeps (sd : Side) (f : Frame) (lq : LineQ) (frac : Nat) (s : State) {t : State} (h : execDelayResp sd f lq frac s = .next t) : Keeps s t := by
  unfold execDelayResp at h
  try dsimp only at h
  (repeat' split at h) <;> (injection h with h; subst h; simp [Keeps])

theorem latchTime_keeps (s : State) : Keeps s (latchTime s) := by
  unfold latchTime
  try dsimp only
  (repeat' split) <;> simp [Keeps]
@[simp] theorem latchTime_pending (s : State) : (latchTime s).pending = s.pending := (latchTime_keeps s).1
@[simp] theorem latchTime_clk (s : State) : (latchTime s).clk = s.clk := (latchTime_keeps s).2.1
@[simp] theorem latchTime_regs (s : State) : (latchTime s).regs = s.regs := (latchTime_keeps s).2.2.1
@[simp] theorem latchTime_masks (s : State) : (latchTime s).evt.masks = s.evt.masks := (latchTime_keeps s).2.2.2

theorem execTimeNsRead_keeps (s : State) {t : State} (h : execTimeNsRead s = .next t) : Keeps s t := by
  unfold execTimeNsRead at h
  try dsimp only at h
  (repeat' split at h) <;> (injection h with h; subst h; simp [Keeps])

end Sys2Proof.Machine
end

