-- ==== Sys2Proof/Laws/Keep/Umber.lean ====
section
/-! SUPPORT. What the operations of `Machine/Umber.lean` leave alone. -/

namespace Sys2Proof.Machine

open Sys2Proof

theorem meanStep_keeps (nV : Int) (uV : Int) (s : State) : Keeps s (meanStep nV uV s) := by
  unfold meanStep
  try dsimp only
  (repeat' split) <;> simp [Keeps]
@[simp] theorem meanStep_pending (nV : Int) (uV : Int) (s : State) : (meanStep nV uV s).pending = s.pending := (meanStep_keeps nV uV s).1
@[simp] theorem meanStep_clk (nV : Int) (uV : Int) (s : State) : (meanStep nV uV s).clk = s.clk := (meanStep_keeps nV uV s).2.1
@[simp] theorem meanStep_regs (nV : Int) (uV : Int) (s : State) : (meanStep nV uV s).regs = s.regs := (meanStep_keeps nV uV s).2.2.1
@[simp] theorem meanStep_masks (nV : Int) (uV : Int) (s : State) : (meanStep nV uV s).evt.masks = s.evt.masks := (meanStep_keeps nV uV s).2.2.2

theorem execUmberSample_keeps (shuntNV : Int) (uhvUV : Int) (s : State) {t : State} (h : execUmberSample shuntNV uhvUV s = .next t) : Keeps s t := by
  unfold execUmberSample at h
  try dsimp only at h
  (repeat' split at h) <;> (injection h with h; subst h; simp [Keeps])

theorem execIntervalClose_keeps (s : State) {t : State} (h : execIntervalClose s = .next t) : Keeps s t := by
  unfold execIntervalClose at h
  try dsimp only at h
  (repeat' split at h) <;> (injection h with h; subst h; simp [Keeps])

theorem boundaryFirst_keeps (s : State) : Keeps s (boundaryFirst s) := by
  unfold boundaryFirst
  try dsimp only
  (repeat' split) <;> simp [Keeps]
@[simp] theorem boundaryFirst_pending (s : State) : (boundaryFirst s).pending = s.pending := (boundaryFirst_keeps s).1
@[simp] theorem boundaryFirst_clk (s : State) : (boundaryFirst s).clk = s.clk := (boundaryFirst_keeps s).2.1
@[simp] theorem boundaryFirst_regs (s : State) : (boundaryFirst s).regs = s.regs := (boundaryFirst_keeps s).2.2.1
@[simp] theorem boundaryFirst_masks (s : State) : (boundaryFirst s).evt.masks = s.evt.masks := (boundaryFirst_keeps s).2.2.2

theorem execTimeLabel_keeps (s : State) {t : State} (h : execTimeLabel s = .next t) : Keeps s t := by
  unfold execTimeLabel at h
  try dsimp only at h
  (repeat' split at h) <;> (injection h with h; subst h; simp [Keeps])

theorem execUmberSave_keeps (s : State) {t : State} (h : execUmberSave s = .next t) : Keeps s t := by
  unfold execUmberSave at h
  try dsimp only at h
  (repeat' split at h) <;> (injection h with h; subst h; simp [Keeps])

theorem execUmberSupplyLoss_keeps (s : State) {t : State} (h : execUmberSupplyLoss s = .next t) : Keeps s t := by
  unfold execUmberSupplyLoss at h
  try dsimp only at h
  (repeat' split at h) <;> (injection h with h; subst h; simp [Keeps])

theorem execUmberPowerUp_keeps (sealPin : Bool) (swid : Word) (s : State) {t : State} (h : execUmberPowerUp sealPin swid s = .next t) : Keeps s t := by
  unfold execUmberPowerUp at h
  try dsimp only at h
  (repeat' split at h) <;> (injection h with h; subst h; simp [Keeps])

theorem execSwidCheck_keeps (swid : Word) (s : State) {t : State} (h : execSwidCheck swid s = .next t) : Keeps s t := by
  unfold execSwidCheck at h
  try dsimp only at h
  (repeat' split at h) <;> (injection h with h; subst h; simp [Keeps])

theorem execSealNFall_keeps (s : State) {t : State} (h : execSealNFall s = .next t) : Keeps s t := by
  unfold execSealNFall at h
  try dsimp only at h
  (repeat' split at h) <;> (injection h with h; subst h; simp [Keeps])

theorem execSealNRise_keeps (s : State) {t : State} (h : execSealNRise s = .next t) : Keeps s t := by
  unfold execSealNRise at h
  try dsimp only at h
  (repeat' split at h) <;> (injection h with h; subst h; simp [Keeps])

theorem execInwardDiscard_keeps (s : State) {t : State} (h : execInwardDiscard s = .next t) : Keeps s t := by
  unfold execInwardDiscard at h
  try dsimp only at h
  (repeat' split at h) <;> (injection h with h; subst h; simp [Keeps])

theorem execLinkDown_keeps (s : State) {t : State} (h : execLinkDown s = .next t) : Keeps s t := by
  unfold execLinkDown at h
  try dsimp only at h
  (repeat' split at h) <;> (injection h with h; subst h; simp [Keeps])

theorem execInterDieLinkUp_keeps (s : State) {t : State} (h : execInterDieLinkUp s = .next t) : Keeps s t := by
  unfold execInterDieLinkUp at h
  try dsimp only at h
  (repeat' split at h) <;> (injection h with h; subst h; simp [Keeps])

theorem execMirrorRefresh_keeps (s : State) {t : State} (h : execMirrorRefresh s = .next t) : Keeps s t := by
  unfold execMirrorRefresh at h
  try dsimp only at h
  (repeat' split at h) <;> (injection h with h; subst h; simp [Keeps])

theorem execRecordRequest_keeps (h : Fin 4) (s : State) {t : State} (h : execRecordRequest h s = .next t) : Keeps s t := by
  unfold execRecordRequest at h
  try dsimp only at h
  (repeat' split at h) <;> (injection h with h; subst h; simp [Keeps])

theorem sendMetro_keeps (h : Nat) (payload : List Byte) (s : State) : Keeps s (sendMetro h payload s) := by
  unfold sendMetro
  try dsimp only
  (repeat' split) <;> simp [Keeps]
@[simp] theorem sendMetro_pending (h : Nat) (payload : List Byte) (s : State) : (sendMetro h payload s).pending = s.pending := (sendMetro_keeps h payload s).1
@[simp] theorem sendMetro_clk (h : Nat) (payload : List Byte) (s : State) : (sendMetro h payload s).clk = s.clk := (sendMetro_keeps h payload s).2.1
@[simp] theorem sendMetro_regs (h : Nat) (payload : List Byte) (s : State) : (sendMetro h payload s).regs = s.regs := (sendMetro_keeps h payload s).2.2.1
@[simp] theorem sendMetro_masks (h : Nat) (payload : List Byte) (s : State) : (sendMetro h payload s).evt.masks = s.evt.masks := (sendMetro_keeps h payload s).2.2.2

theorem execRecordReturned_keeps (h : Fin 4) (s : State) {t : State} (h : execRecordReturned h s = .next t) : Keeps s t := by
  unfold execRecordReturned at h
  try dsimp only at h
  (repeat' split at h) <;> (injection h with h; subst h; simp [Keeps])

theorem needUmber_keeps (f : State → Res) (s : State) (h : Keeps s (f s).st) : Keeps s (needUmber f s).st := by
  unfold needUmber
  split
  · exact h
  · exact Keeps.refl s

theorem cmdMtrRead_keeps (s : State) : Keeps s (cmdMtrRead s).st := by
  unfold cmdMtrRead
  try dsimp only
  (repeat' split) <;>
    first
    | (simp [Keeps, Res.of]; done)
    | (refine needUmber_keeps _ _ ?_; (try dsimp only); (repeat' split) <;> simp [Keeps, Res.of])
@[simp] theorem cmdMtrRead_pending (s : State) : (cmdMtrRead s).st.pending = s.pending := (cmdMtrRead_keeps s).1
@[simp] theorem cmdMtrRead_clk (s : State) : (cmdMtrRead s).st.clk = s.clk := (cmdMtrRead_keeps s).2.1
@[simp] theorem cmdMtrRead_regs (s : State) : (cmdMtrRead s).st.regs = s.regs := (cmdMtrRead_keeps s).2.2.1
@[simp] theorem cmdMtrRead_masks (s : State) : (cmdMtrRead s).st.evt.masks = s.evt.masks := (cmdMtrRead_keeps s).2.2.2

theorem execMtrRead_keeps (rq : Req) (s : State) {t : State} (h : execMtrRead rq s = .next t) : Keeps s t := by
  unfold execMtrRead at h
  try dsimp only at h
  (repeat' split at h) <;> (injection h with h; subst h; simp [Keeps, runCmd_pending, runCmd_clk, runCmd_regs, runCmd_masks])

theorem cmdMtrRecords_keeps (rq : Req) (slots : Byte) (s : State) : Keeps s (cmdMtrRecords rq slots s).st := by
  unfold cmdMtrRecords
  try dsimp only
  (repeat' split) <;> simp [Keeps, Res.of]
@[simp] theorem cmdMtrRecords_pending (rq : Req) (slots : Byte) (s : State) : (cmdMtrRecords rq slots s).st.pending = s.pending := (cmdMtrRecords_keeps rq slots s).1
@[simp] theorem cmdMtrRecords_clk (rq : Req) (slots : Byte) (s : State) : (cmdMtrRecords rq slots s).st.clk = s.clk := (cmdMtrRecords_keeps rq slots s).2.1
@[simp] theorem cmdMtrRecords_regs (rq : Req) (slots : Byte) (s : State) : (cmdMtrRecords rq slots s).st.regs = s.regs := (cmdMtrRecords_keeps rq slots s).2.2.1
@[simp] theorem cmdMtrRecords_masks (rq : Req) (slots : Byte) (s : State) : (cmdMtrRecords rq slots s).st.evt.masks = s.evt.masks := (cmdMtrRecords_keeps rq slots s).2.2.2

theorem execMtrRecords_keeps (rq : Req) (slots : Byte) (s : State) {t : State} (h : execMtrRecords rq slots s = .next t) : Keeps s t := by
  unfold execMtrRecords at h
  try dsimp only at h
  (repeat' split at h) <;> (injection h with h; subst h; simp [Keeps, runCmd_pending, runCmd_clk, runCmd_regs, runCmd_masks])

theorem cmdMtrConfig_keeps (interval : Byte) (s : State) : Keeps s (cmdMtrConfig interval s).st := by
  unfold cmdMtrConfig
  try dsimp only
  (repeat' split) <;>
    first
    | (simp [Keeps, Res.of]; done)
    | (refine needUmber_keeps _ _ ?_; (try dsimp only); (repeat' split) <;> simp [Keeps, Res.of])
@[simp] theorem cmdMtrConfig_pending (interval : Byte) (s : State) : (cmdMtrConfig interval s).st.pending = s.pending := (cmdMtrConfig_keeps interval s).1
@[simp] theorem cmdMtrConfig_clk (interval : Byte) (s : State) : (cmdMtrConfig interval s).st.clk = s.clk := (cmdMtrConfig_keeps interval s).2.1
@[simp] theorem cmdMtrConfig_regs (interval : Byte) (s : State) : (cmdMtrConfig interval s).st.regs = s.regs := (cmdMtrConfig_keeps interval s).2.2.1
@[simp] theorem cmdMtrConfig_masks (interval : Byte) (s : State) : (cmdMtrConfig interval s).st.evt.masks = s.evt.masks := (cmdMtrConfig_keeps interval s).2.2.2

theorem execMtrConfig_keeps (rq : Req) (interval : Byte) (s : State) {t : State} (h : execMtrConfig rq interval s = .next t) : Keeps s t := by
  unfold execMtrConfig at h
  try dsimp only at h
  (repeat' split at h) <;> (injection h with h; subst h; simp [Keeps, runCmd_pending, runCmd_clk, runCmd_regs, runCmd_masks])

theorem cmdMtrPubkey_keeps (s : State) : Keeps s (cmdMtrPubkey s).st := by
  unfold cmdMtrPubkey
  try dsimp only
  (repeat' split) <;>
    first
    | (simp [Keeps, Res.of]; done)
    | (refine needUmber_keeps _ _ ?_; (try dsimp only); (repeat' split) <;> simp [Keeps, Res.of])
@[simp] theorem cmdMtrPubkey_pending (s : State) : (cmdMtrPubkey s).st.pending = s.pending := (cmdMtrPubkey_keeps s).1
@[simp] theorem cmdMtrPubkey_clk (s : State) : (cmdMtrPubkey s).st.clk = s.clk := (cmdMtrPubkey_keeps s).2.1
@[simp] theorem cmdMtrPubkey_regs (s : State) : (cmdMtrPubkey s).st.regs = s.regs := (cmdMtrPubkey_keeps s).2.2.1
@[simp] theorem cmdMtrPubkey_masks (s : State) : (cmdMtrPubkey s).st.evt.masks = s.evt.masks := (cmdMtrPubkey_keeps s).2.2.2

theorem execMtrPubkey_keeps (rq : Req) (s : State) {t : State} (h : execMtrPubkey rq s = .next t) : Keeps s t := by
  unfold execMtrPubkey at h
  try dsimp only at h
  (repeat' split at h) <;> (injection h with h; subst h; simp [Keeps, runCmd_pending, runCmd_clk, runCmd_regs, runCmd_masks])

theorem cmdMtrSwid_keeps (s : State) : Keeps s (cmdMtrSwid s).st := by
  unfold cmdMtrSwid
  try dsimp only
  (repeat' split) <;>
    first
    | (simp [Keeps, Res.of]; done)
    | (refine needUmber_keeps _ _ ?_; (try dsimp only); (repeat' split) <;> simp [Keeps, Res.of])
@[simp] theorem cmdMtrSwid_pending (s : State) : (cmdMtrSwid s).st.pending = s.pending := (cmdMtrSwid_keeps s).1
@[simp] theorem cmdMtrSwid_clk (s : State) : (cmdMtrSwid s).st.clk = s.clk := (cmdMtrSwid_keeps s).2.1
@[simp] theorem cmdMtrSwid_regs (s : State) : (cmdMtrSwid s).st.regs = s.regs := (cmdMtrSwid_keeps s).2.2.1
@[simp] theorem cmdMtrSwid_masks (s : State) : (cmdMtrSwid s).st.evt.masks = s.evt.masks := (cmdMtrSwid_keeps s).2.2.2

theorem execMtrSwid_keeps (rq : Req) (s : State) {t : State} (h : execMtrSwid rq s = .next t) : Keeps s t := by
  unfold execMtrSwid at h
  try dsimp only at h
  (repeat' split at h) <;> (injection h with h; subst h; simp [Keeps, runCmd_pending, runCmd_clk, runCmd_regs, runCmd_masks])

theorem cmdMtrUpdate_keeps (rq : Req) (offset : Word) (image : List Byte) (s : State) : Keeps s (cmdMtrUpdate rq offset image s).st := by
  unfold cmdMtrUpdate
  try dsimp only
  (repeat' split) <;>
    first
    | (simp [Keeps, Res.of]; done)
    | (refine needUmber_keeps _ _ ?_; (try dsimp only); (repeat' split) <;> simp [Keeps, Res.of])
@[simp] theorem cmdMtrUpdate_pending (rq : Req) (offset : Word) (image : List Byte) (s : State) : (cmdMtrUpdate rq offset image s).st.pending = s.pending := (cmdMtrUpdate_keeps rq offset image s).1
@[simp] theorem cmdMtrUpdate_clk (rq : Req) (offset : Word) (image : List Byte) (s : State) : (cmdMtrUpdate rq offset image s).st.clk = s.clk := (cmdMtrUpdate_keeps rq offset image s).2.1
@[simp] theorem cmdMtrUpdate_regs (rq : Req) (offset : Word) (image : List Byte) (s : State) : (cmdMtrUpdate rq offset image s).st.regs = s.regs := (cmdMtrUpdate_keeps rq offset image s).2.2.1
@[simp] theorem cmdMtrUpdate_masks (rq : Req) (offset : Word) (image : List Byte) (s : State) : (cmdMtrUpdate rq offset image s).st.evt.masks = s.evt.masks := (cmdMtrUpdate_keeps rq offset image s).2.2.2

theorem execMtrUpdate_keeps (rq : Req) (offset : Word) (image : List Byte) (s : State) {t : State} (h : execMtrUpdate rq offset image s = .next t) : Keeps s t := by
  unfold execMtrUpdate at h
  try dsimp only at h
  (repeat' split at h) <;> (injection h with h; subst h; simp [Keeps, runCmd_pending, runCmd_clk, runCmd_regs, runCmd_masks])

theorem activateImage_keeps (img : List Byte) (s : State) : Keeps s (activateImage img s) := by
  unfold activateImage
  try dsimp only
  (repeat' split) <;> simp [Keeps]
@[simp] theorem activateImage_pending (img : List Byte) (s : State) : (activateImage img s).pending = s.pending := (activateImage_keeps img s).1
@[simp] theorem activateImage_clk (img : List Byte) (s : State) : (activateImage img s).clk = s.clk := (activateImage_keeps img s).2.1
@[simp] theorem activateImage_regs (img : List Byte) (s : State) : (activateImage img s).regs = s.regs := (activateImage_keeps img s).2.2.1
@[simp] theorem activateImage_masks (img : List Byte) (s : State) : (activateImage img s).evt.masks = s.evt.masks := (activateImage_keeps img s).2.2.2

theorem execMeterUpdateDone_keeps (s : State) {t : State} (h : execMeterUpdateDone s = .next t) : Keeps s t := by
  unfold execMeterUpdateDone at h
  try dsimp only at h
  (repeat' split at h) <;> (injection h with h; subst h; simp [Keeps])

end Sys2Proof.Machine
end

