-- ==== Sys2Proof/Laws/Keep/RegRead.lean ====
section
/-! SUPPORT. What the operations of `Machine/RegRead.lean` leave alone. -/

namespace Sys2Proof.Machine

open Sys2Proof

theorem beforeRead_keeps (ecc : Ecc) (a : Nat) (s : State) : Keeps s (beforeRead ecc a s) := by
  unfold beforeRead
  try dsimp only
  (repeat' split) <;> simp [Keeps]
@[simp] theorem beforeRead_pending (ecc : Ecc) (a : Nat) (s : State) : (beforeRead ecc a s).pending = s.pending := (beforeRead_keeps ecc a s).1
@[simp] theorem beforeRead_clk (ecc : Ecc) (a : Nat) (s : State) : (beforeRead ecc a s).clk = s.clk := (beforeRead_keeps ecc a s).2.1
@[simp] theorem beforeRead_regs (ecc : Ecc) (a : Nat) (s : State) : (beforeRead ecc a s).regs = s.regs := (beforeRead_keeps ecc a s).2.2.1
@[simp] theorem beforeRead_masks (ecc : Ecc) (a : Nat) (s : State) : (beforeRead ecc a s).evt.masks = s.evt.masks := (beforeRead_keeps ecc a s).2.2.2

theorem clearReadA_keeps (a : Nat) (s t : State) (h : clearReadA a s = some t) : Keeps s t := by
  unfold clearReadA at h
  dsimp only at h
  split at h <;> first | (injection h with h; subst h; simp [Keeps]; done) | cases h

theorem clearReadB_keeps (a : Nat) (s : State) : Keeps s (clearReadB a s) := by
  unfold clearReadB
  try dsimp only
  (repeat' split) <;> simp [Keeps]
@[simp] theorem clearReadB_pending (a : Nat) (s : State) : (clearReadB a s).pending = s.pending := (clearReadB_keeps a s).1
@[simp] theorem clearReadB_clk (a : Nat) (s : State) : (clearReadB a s).clk = s.clk := (clearReadB_keeps a s).2.1
@[simp] theorem clearReadB_regs (a : Nat) (s : State) : (clearReadB a s).regs = s.regs := (clearReadB_keeps a s).2.2.1
@[simp] theorem clearReadB_masks (a : Nat) (s : State) : (clearReadB a s).evt.masks = s.evt.masks := (clearReadB_keeps a s).2.2.2

theorem afterRead_keeps (a : Nat) (s : State) : Keeps s (afterRead a s) := by
  unfold afterRead
  cases h : clearReadA a s with
  | none => exact clearReadB_keeps a s
  | some t => exact clearReadA_keeps a s t h
@[simp] theorem afterRead_pending (a : Nat) (s : State) : (afterRead a s).pending = s.pending := (afterRead_keeps a s).1
@[simp] theorem afterRead_clk (a : Nat) (s : State) : (afterRead a s).clk = s.clk := (afterRead_keeps a s).2.1
@[simp] theorem afterRead_regs (a : Nat) (s : State) : (afterRead a s).regs = s.regs := (afterRead_keeps a s).2.2.1
@[simp] theorem afterRead_masks (a : Nat) (s : State) : (afterRead a s).evt.masks = s.evt.masks := (afterRead_keeps a s).2.2.2

theorem readReg_keeps (ecc : Ecc) (a : Nat) (s : State) : Keeps s (readReg ecc a s).2 := by
  unfold readReg
  try dsimp only
  (repeat' split) <;> simp [Keeps]
@[simp] theorem readReg_pending (ecc : Ecc) (a : Nat) (s : State) : (readReg ecc a s).2.pending = s.pending := (readReg_keeps ecc a s).1
@[simp] theorem readReg_clk (ecc : Ecc) (a : Nat) (s : State) : (readReg ecc a s).2.clk = s.clk := (readReg_keeps ecc a s).2.1
@[simp] theorem readReg_regs (ecc : Ecc) (a : Nat) (s : State) : (readReg ecc a s).2.regs = s.regs := (readReg_keeps ecc a s).2.2.1
@[simp] theorem readReg_masks (ecc : Ecc) (a : Nat) (s : State) : (readReg ecc a s).2.evt.masks = s.evt.masks := (readReg_keeps ecc a s).2.2.2

theorem readRegs_keeps (ecc : Ecc) (n a : Nat) (s : State) : Keeps s (readRegs ecc n a s).2 := by
  induction n generalizing a s with
  | zero => exact Keeps.refl s
  | succ n ih => exact (readReg_keeps ecc a s).trans (ih _ _)
@[simp] theorem readRegs_pending (ecc : Ecc) (n a : Nat) (s : State) : (readRegs ecc n a s).2.pending = s.pending := (readRegs_keeps ecc n a s).1
@[simp] theorem readRegs_clk (ecc : Ecc) (n a : Nat) (s : State) : (readRegs ecc n a s).2.clk = s.clk := (readRegs_keeps ecc n a s).2.1
@[simp] theorem readRegs_regs (ecc : Ecc) (n a : Nat) (s : State) : (readRegs ecc n a s).2.regs = s.regs := (readRegs_keeps ecc n a s).2.2.1
@[simp] theorem readRegs_masks (ecc : Ecc) (n a : Nat) (s : State) : (readRegs ecc n a s).2.evt.masks = s.evt.masks := (readRegs_keeps ecc n a s).2.2.2

end Sys2Proof.Machine
end

