-- ==== Sys2Proof/Laws/Keep/Crossing.lean ====
section
/-! SUPPORT. What the operations of `Machine/Crossing.lean` leave alone. -/

namespace Sys2Proof.Machine

open Sys2Proof

theorem readIsland_keeps (d : Nat) (s : State) : Keeps s (readIsland d s) := by
  unfold readIsland
  try dsimp only
  (repeat' split) <;> simp [Keeps]
@[simp] theorem readIsland_pending (d : Nat) (s : State) : (readIsland d s).pending = s.pending := (readIsland_keeps d s).1
@[simp] theorem readIsland_clk (d : Nat) (s : State) : (readIsland d s).clk = s.clk := (readIsland_keeps d s).2.1
@[simp] theorem readIsland_regs (d : Nat) (s : State) : (readIsland d s).regs = s.regs := (readIsland_keeps d s).2.2.1
@[simp] theorem readIsland_masks (d : Nat) (s : State) : (readIsland d s).evt.masks = s.evt.masks := (readIsland_keeps d s).2.2.2

theorem readIslands_keeps (s : State) : Keeps s (readIslands s) := by
  unfold readIslands
  try dsimp only
  (repeat' split) <;>
    first
    | (simp [Keeps, fold_pending, fold_clk, fold_regs, fold_masks, fold1_pending, fold1_clk, fold1_regs, fold1_masks, apply_ite State.pending, apply_ite State.clk, apply_ite State.regs, apply_ite State.evt, apply_ite EvtSt.masks]; done)
    | (refine Keeps.trans ?_ (fold_keeps _ (fun s a => ?_) _ _) <;> (try dsimp only) <;> (repeat' split) <;> simp [Keeps])
@[simp] theorem readIslands_pending (s : State) : (readIslands s).pending = s.pending := (readIslands_keeps s).1
@[simp] theorem readIslands_clk (s : State) : (readIslands s).clk = s.clk := (readIslands_keeps s).2.1
@[simp] theorem readIslands_regs (s : State) : (readIslands s).regs = s.regs := (readIslands_keeps s).2.2.1
@[simp] theorem readIslands_masks (s : State) : (readIslands s).evt.masks = s.evt.masks := (readIslands_keeps s).2.2.2

theorem execCrossingMessage_keeps (src : Fin 28) (dst : Fin 28) (cls : Fin 6) (bytes : List Byte) (s : State) {t : State} (h : execCrossingMessage src dst cls bytes s = .next t) : Keeps s t := by
  unfold execCrossingMessage at h
  try dsimp only at h
  (repeat' split at h) <;> (injection h with h; subst h; simp [Keeps])

end Sys2Proof.Machine
end

