-- ==== Sys2Proof/Laws/Keep/PowerOps.lean ====
section
/-! SUPPORT. What the operations of `Machine/PowerOps.lean` leave alone. -/

namespace Sys2Proof.Machine

open Sys2Proof

theorem ran_keeps (o : Out) (s : State) (h : ∀ t, o = .next t → Keeps s t) : Keeps s (ran o s) := by
  unfold ran
  split
  · rename_i t
    exact h t rfl
  · exact Keeps.refl s

theorem refuseMode_keeps (c : Nat) (s : State) : Keeps s (refuseMode c s) := by
  unfold refuseMode
  try dsimp only
  (repeat' split) <;> simp [Keeps]
@[simp] theorem refuseMode_pending (c : Nat) (s : State) : (refuseMode c s).pending = s.pending := (refuseMode_keeps c s).1
@[simp] theorem refuseMode_clk (c : Nat) (s : State) : (refuseMode c s).clk = s.clk := (refuseMode_keeps c s).2.1
@[simp] theorem refuseMode_regs (c : Nat) (s : State) : (refuseMode c s).regs = s.regs := (refuseMode_keeps c s).2.2.1
@[simp] theorem refuseMode_masks (c : Nat) (s : State) : (refuseMode c s).evt.masks = s.evt.masks := (refuseMode_keeps c s).2.2.2

theorem modeOrder_keeps (rq : Req) (mode : Nat) (key : Nat) (s : State) : Keeps s (modeOrder rq mode key s).st := by
  unfold modeOrder
  try dsimp only
  (repeat' split) <;> simp [Keeps, Res.of]
@[simp] theorem modeOrder_pending (rq : Req) (mode : Nat) (key : Nat) (s : State) : (modeOrder rq mode key s).st.pending = s.pending := (modeOrder_keeps rq mode key s).1
@[simp] theorem modeOrder_clk (rq : Req) (mode : Nat) (key : Nat) (s : State) : (modeOrder rq mode key s).st.clk = s.clk := (modeOrder_keeps rq mode key s).2.1
@[simp] theorem modeOrder_regs (rq : Req) (mode : Nat) (key : Nat) (s : State) : (modeOrder rq mode key s).st.regs = s.regs := (modeOrder_keeps rq mode key s).2.2.1
@[simp] theorem modeOrder_masks (rq : Req) (mode : Nat) (key : Nat) (s : State) : (modeOrder rq mode key s).st.evt.masks = s.evt.masks := (modeOrder_keeps rq mode key s).2.2.2

theorem cmdSetMode_keeps (rq : Req) (mode : Byte) (key : Byte) (s : State) : Keeps s (cmdSetMode rq mode key s).st := by
  unfold cmdSetMode
  try dsimp only
  (repeat' split) <;> simp [Keeps, Res.of]
@[simp] theorem cmdSetMode_pending (rq : Req) (mode : Byte) (key : Byte) (s : State) : (cmdSetMode rq mode key s).st.pending = s.pending := (cmdSetMode_keeps rq mode key s).1
@[simp] theorem cmdSetMode_clk (rq : Req) (mode : Byte) (key : Byte) (s : State) : (cmdSetMode rq mode key s).st.clk = s.clk := (cmdSetMode_keeps rq mode key s).2.1
@[simp] theorem cmdSetMode_regs (rq : Req) (mode : Byte) (key : Byte) (s : State) : (cmdSetMode rq mode key s).st.regs = s.regs := (cmdSetMode_keeps rq mode key s).2.2.1
@[simp] theorem cmdSetMode_masks (rq : Req) (mode : Byte) (key : Byte) (s : State) : (cmdSetMode rq mode key s).st.evt.masks = s.evt.masks := (cmdSetMode_keeps rq mode key s).2.2.2

theorem deliverSent_keeps (s : State) : Keeps s (deliverSent s) := by
  unfold deliverSent
  exact fold_keeps _ (fun s a => ran_keeps _ _ (fun _ h => execSafetyMessage_keeps _ _ _ _ _ h)) _ _
@[simp] theorem deliverSent_pending (s : State) : (deliverSent s).pending = s.pending := (deliverSent_keeps s).1
@[simp] theorem deliverSent_clk (s : State) : (deliverSent s).clk = s.clk := (deliverSent_keeps s).2.1
@[simp] theorem deliverSent_regs (s : State) : (deliverSent s).regs = s.regs := (deliverSent_keeps s).2.2.1
@[simp] theorem deliverSent_masks (s : State) : (deliverSent s).evt.masks = s.evt.masks := (deliverSent_keeps s).2.2.2

theorem logItem_keeps (alarm : Bool) (bytes : List Byte) (s : State) : Keeps s (logItem alarm bytes s) := by
  unfold logItem
  try dsimp only
  (repeat' split) <;> simp [Keeps]
@[simp] theorem logItem_pending (alarm : Bool) (bytes : List Byte) (s : State) : (logItem alarm bytes s).pending = s.pending := (logItem_keeps alarm bytes s).1
@[simp] theorem logItem_clk (alarm : Bool) (bytes : List Byte) (s : State) : (logItem alarm bytes s).clk = s.clk := (logItem_keeps alarm bytes s).2.1
@[simp] theorem logItem_regs (alarm : Bool) (bytes : List Byte) (s : State) : (logItem alarm bytes s).regs = s.regs := (logItem_keeps alarm bytes s).2.2.1
@[simp] theorem logItem_masks (alarm : Bool) (bytes : List Byte) (s : State) : (logItem alarm bytes s).evt.masks = s.evt.masks := (logItem_keeps alarm bytes s).2.2.2

theorem drainPort_keeps (sd : Side) (s : State) : Keeps s (drainPort sd s) := by
  unfold drainPort
  try dsimp only
  (repeat' split) <;>
    first
    | (simp [Keeps, fold_pending, fold_clk, fold_regs, fold_masks, fold1_pending, fold1_clk, fold1_regs, fold1_masks, apply_ite State.pending, apply_ite State.clk, apply_ite State.regs, apply_ite State.evt, apply_ite EvtSt.masks]; done)
    | (refine Keeps.trans ?_ (fold_keeps _ (fun s a => ?_) _ _) <;> (try dsimp only) <;> (repeat' split) <;> simp [Keeps])
@[simp] theorem drainPort_pending (sd : Side) (s : State) : (drainPort sd s).pending = s.pending := (drainPort_keeps sd s).1
@[simp] theorem drainPort_clk (sd : Side) (s : State) : (drainPort sd s).clk = s.clk := (drainPort_keeps sd s).2.1
@[simp] theorem drainPort_regs (sd : Side) (s : State) : (drainPort sd s).regs = s.regs := (drainPort_keeps sd s).2.2.1
@[simp] theorem drainPort_masks (sd : Side) (s : State) : (drainPort sd s).evt.masks = s.evt.masks := (drainPort_keeps sd s).2.2.2

theorem logUnsent_keeps (s : State) : Keeps s (logUnsent s) := by
  unfold logUnsent
  try dsimp only
  (repeat' split) <;>
    first
    | (simp [Keeps, fold_pending, fold_clk, fold_regs, fold_masks, fold1_pending, fold1_clk, fold1_regs, fold1_masks, apply_ite State.pending, apply_ite State.clk, apply_ite State.regs, apply_ite State.evt, apply_ite EvtSt.masks]; done)
    | (refine Keeps.trans ?_ (fold_keeps _ (fun s a => ?_) _ _) <;> (try dsimp only) <;> (repeat' split) <;> simp [Keeps])
@[simp] theorem logUnsent_pending (s : State) : (logUnsent s).pending = s.pending := (logUnsent_keeps s).1
@[simp] theorem logUnsent_clk (s : State) : (logUnsent s).clk = s.clk := (logUnsent_keeps s).2.1
@[simp] theorem logUnsent_regs (s : State) : (logUnsent s).regs = s.regs := (logUnsent_keeps s).2.2.1
@[simp] theorem logUnsent_masks (s : State) : (logUnsent s).evt.masks = s.evt.masks := (logUnsent_keeps s).2.2.2

theorem dropQueues_keeps (s : State) : Keeps s (dropQueues s) := by
  unfold dropQueues
  try dsimp only
  (repeat' split) <;> simp [Keeps]
@[simp] theorem dropQueues_pending (s : State) : (dropQueues s).pending = s.pending := (dropQueues_keeps s).1
@[simp] theorem dropQueues_clk (s : State) : (dropQueues s).clk = s.clk := (dropQueues_keeps s).2.1
@[simp] theorem dropQueues_regs (s : State) : (dropQueues s).regs = s.regs := (dropQueues_keeps s).2.2.1
@[simp] theorem dropQueues_masks (s : State) : (dropQueues s).evt.masks = s.evt.masks := (dropQueues_keeps s).2.2.2

theorem writeAll_keeps (n : Nat) (s : State) : Keeps s (writeAll n s) := by
  induction n generalizing s with
  | zero => exact Keeps.refl s
  | succ n ih => exact (ran_keeps _ _ (fun _ h => execLogWrite_keeps _ _ h)).trans (ih _)
@[simp] theorem writeAll_pending (n : Nat) (s : State) : (writeAll n s).pending = s.pending := (writeAll_keeps n s).1
@[simp] theorem writeAll_clk (n : Nat) (s : State) : (writeAll n s).clk = s.clk := (writeAll_keeps n s).2.1
@[simp] theorem writeAll_regs (n : Nat) (s : State) : (writeAll n s).regs = s.regs := (writeAll_keeps n s).2.2.1
@[simp] theorem writeAll_masks (n : Nat) (s : State) : (writeAll n s).evt.masks = s.evt.masks := (writeAll_keeps n s).2.2.2

theorem closeStreams_keeps (s : State) : Keeps s (closeStreams s) := by
  unfold closeStreams
  try dsimp only
  (repeat' split) <;>
    first
    | (simp [Keeps, fold_pending, fold_clk, fold_regs, fold_masks, fold1_pending, fold1_clk, fold1_regs, fold1_masks, apply_ite State.pending, apply_ite State.clk, apply_ite State.regs, apply_ite State.evt, apply_ite EvtSt.masks]; done)
    | (refine Keeps.trans ?_ (fold_keeps _ (fun s a => ?_) _ _) <;> (try dsimp only) <;> (repeat' split) <;> simp [Keeps])
@[simp] theorem closeStreams_pending (s : State) : (closeStreams s).pending = s.pending := (closeStreams_keeps s).1
@[simp] theorem closeStreams_clk (s : State) : (closeStreams s).clk = s.clk := (closeStreams_keeps s).2.1
@[simp] theorem closeStreams_regs (s : State) : (closeStreams s).regs = s.regs := (closeStreams_keeps s).2.2.1
@[simp] theorem closeStreams_masks (s : State) : (closeStreams s).evt.masks = s.evt.masks := (closeStreams_keeps s).2.2.2

theorem stopBlocks_keeps (s : State) : Keeps s (stopBlocks s) := by
  unfold stopBlocks
  try dsimp only
  (repeat' split) <;> simp [Keeps]
@[simp] theorem stopBlocks_pending (s : State) : (stopBlocks s).pending = s.pending := (stopBlocks_keeps s).1
@[simp] theorem stopBlocks_clk (s : State) : (stopBlocks s).clk = s.clk := (stopBlocks_keeps s).2.1
@[simp] theorem stopBlocks_regs (s : State) : (stopBlocks s).regs = s.regs := (stopBlocks_keeps s).2.2.1
@[simp] theorem stopBlocks_masks (s : State) : (stopBlocks s).evt.masks = s.evt.masks := (stopBlocks_keeps s).2.2.2

theorem sleepTime_keeps (m : Mode) (s : State) : Keeps s (sleepTime m s) := by
  unfold sleepTime
  try dsimp only
  (repeat' split) <;> simp [Keeps]
@[simp] theorem sleepTime_pending (m : Mode) (s : State) : (sleepTime m s).pending = s.pending := (sleepTime_keeps m s).1
@[simp] theorem sleepTime_clk (m : Mode) (s : State) : (sleepTime m s).clk = s.clk := (sleepTime_keeps m s).2.1
@[simp] theorem sleepTime_regs (m : Mode) (s : State) : (sleepTime m s).regs = s.regs := (sleepTime_keeps m s).2.2.1
@[simp] theorem sleepTime_masks (m : Mode) (s : State) : (sleepTime m s).evt.masks = s.evt.masks := (sleepTime_keeps m s).2.2.2

theorem shipState_keeps (s : State) : Keeps s (shipState s) := by
  unfold shipState
  try dsimp only
  (repeat' split) <;> simp [Keeps]
@[simp] theorem shipState_pending (s : State) : (shipState s).pending = s.pending := (shipState_keeps s).1
@[simp] theorem shipState_clk (s : State) : (shipState s).clk = s.clk := (shipState_keeps s).2.1
@[simp] theorem shipState_regs (s : State) : (shipState s).regs = s.regs := (shipState_keeps s).2.2.1
@[simp] theorem shipState_masks (s : State) : (shipState s).evt.masks = s.evt.masks := (shipState_keeps s).2.2.2

theorem fallAsleep_keeps (m : Mode) (s : State) : Keeps s (fallAsleep m s) := by
  unfold fallAsleep
  try dsimp only
  (repeat' split) <;> simp [Keeps]
@[simp] theorem fallAsleep_pending (m : Mode) (s : State) : (fallAsleep m s).pending = s.pending := (fallAsleep_keeps m s).1
@[simp] theorem fallAsleep_clk (m : Mode) (s : State) : (fallAsleep m s).clk = s.clk := (fallAsleep_keeps m s).2.1
@[simp] theorem fallAsleep_regs (m : Mode) (s : State) : (fallAsleep m s).regs = s.regs := (fallAsleep_keeps m s).2.2.1
@[simp] theorem fallAsleep_masks (m : Mode) (s : State) : (fallAsleep m s).evt.masks = s.evt.masks := (fallAsleep_keeps m s).2.2.2

theorem keepWake_keeps (s : State) : Keeps s (keepWake s) := by
  unfold keepWake
  try dsimp only
  (repeat' split) <;> simp [Keeps]
@[simp] theorem keepWake_pending (s : State) : (keepWake s).pending = s.pending := (keepWake_keeps s).1
@[simp] theorem keepWake_clk (s : State) : (keepWake s).clk = s.clk := (keepWake_keeps s).2.1
@[simp] theorem keepWake_regs (s : State) : (keepWake s).regs = s.regs := (keepWake_keeps s).2.2.1
@[simp] theorem keepWake_masks (s : State) : (keepWake s).evt.masks = s.evt.masks := (keepWake_keeps s).2.2.2

theorem restartInputs_keeps (s : State) : Keeps s (restartInputs s) := by
  unfold restartInputs
  try dsimp only
  (repeat' split) <;> simp [Keeps]
@[simp] theorem restartInputs_pending (s : State) : (restartInputs s).pending = s.pending := (restartInputs_keeps s).1
@[simp] theorem restartInputs_clk (s : State) : (restartInputs s).clk = s.clk := (restartInputs_keeps s).2.1
@[simp] theorem restartInputs_regs (s : State) : (restartInputs s).regs = s.regs := (restartInputs_keeps s).2.2.1
@[simp] theorem restartInputs_masks (s : State) : (restartInputs s).evt.masks = s.evt.masks := (restartInputs_keeps s).2.2.2

theorem restartMeasuring_keeps (s : State) : Keeps s (restartMeasuring s) := by
  unfold restartMeasuring
  try dsimp only
  (repeat' split) <;> simp [Keeps]
@[simp] theorem restartMeasuring_pending (s : State) : (restartMeasuring s).pending = s.pending := (restartMeasuring_keeps s).1
@[simp] theorem restartMeasuring_clk (s : State) : (restartMeasuring s).clk = s.clk := (restartMeasuring_keeps s).2.1
@[simp] theorem restartMeasuring_regs (s : State) : (restartMeasuring s).regs = s.regs := (restartMeasuring_keeps s).2.2.1
@[simp] theorem restartMeasuring_masks (s : State) : (restartMeasuring s).evt.masks = s.evt.masks := (restartMeasuring_keeps s).2.2.2

theorem sendTone_keeps (sd : Side) (s : State) : Keeps s (sendTone sd s) := by
  unfold sendTone
  try dsimp only
  (repeat' split) <;> simp [Keeps]
@[simp] theorem sendTone_pending (sd : Side) (s : State) : (sendTone sd s).pending = s.pending := (sendTone_keeps sd s).1
@[simp] theorem sendTone_clk (sd : Side) (s : State) : (sendTone sd s).clk = s.clk := (sendTone_keeps sd s).2.1
@[simp] theorem sendTone_regs (sd : Side) (s : State) : (sendTone sd s).regs = s.regs := (sendTone_keeps sd s).2.2.1
@[simp] theorem sendTone_masks (sd : Side) (s : State) : (sendTone sd s).evt.masks = s.evt.masks := (sendTone_keeps sd s).2.2.2

end Sys2Proof.Machine
end

