-- ==== Sys2Proof/Laws/Keep/Vermilion.lean ====
section
/-! SUPPORT. What the operations of `Machine/Vermilion.lean` leave alone. -/

namespace Sys2Proof.Machine

open Sys2Proof

theorem execInputChange_keeps (k : Fin 4) (chB : Bool) (high : Bool) (samples : Nat) (s : State) {t : State} (h : execInputChange k chB high samples s = .next t) : Keeps s t := by
  unfold execInputChange at h
  try dsimp only at h
  (repeat' split at h) <;> (injection h with h; subst h; simp [Keeps])

theorem execTestPulse_keeps (b : Bool) (levels : List (Bool × Bool)) (s : State) {t : State} (h : execTestPulse b levels s = .next t) : Keeps s t := by
  unfold execTestPulse at h
  try dsimp only at h
  (repeat' split at h) <;> (injection h with h; subst h; simp [Keeps, fold_pending, fold_clk, fold_regs, fold_masks, fold1_pending, fold1_clk, fold1_regs, fold1_masks, apply_ite State.pending, apply_ite State.clk, apply_ite State.regs, apply_ite State.evt, apply_ite EvtSt.masks])

theorem execDiscrepancy_keeps (k : Fin 4) (s : State) {t : State} (h : execDiscrepancy k s = .next t) : Keeps s t := by
  unfold execDiscrepancy at h
  try dsimp only at h
  (repeat' split at h) <;> (injection h with h; subst h; simp [Keeps])

theorem execRampDone_keeps (o : Fin 3) (s : State) {t : State} (h : execRampDone o s = .next t) : Keeps s t := by
  unfold execRampDone at h
  try dsimp only at h
  (repeat' split at h) <;> (injection h with h; subst h; simp [Keeps])

theorem execPullinDone_keeps (o : Fin 3) (s : State) {t : State} (h : execPullinDone o s = .next t) : Keeps s t := by
  unfold execPullinDone at h
  try dsimp only at h
  (repeat' split at h) <;> (injection h with h; subst h; simp [Keeps])

theorem execOffPulse_keeps (o : Fin 3) (mV : BitVec 16) (s : State) {t : State} (h : execOffPulse o mV s = .next t) : Keeps s t := by
  unfold execOffPulse at h
  try dsimp only at h
  (repeat' split at h) <;> (injection h with h; subst h; simp [Keeps])

theorem execOutputShort_keeps (o : Fin 3) (s : State) {t : State} (h : execOutputShort o s = .next t) : Keeps s t := by
  unfold execOutputShort at h
  try dsimp only at h
  (repeat' split at h) <;> (injection h with h; subst h; simp [Keeps])

theorem execStuckOn_keeps (o : Fin 3) (s : State) {t : State} (h : execStuckOn o s = .next t) : Keeps s t := by
  unfold execStuckOn at h
  try dsimp only at h
  (repeat' split at h) <;> (injection h with h; subst h; simp [Keeps])

theorem execOpenLoad_keeps (o : Fin 3) (s : State) {t : State} (h : execOpenLoad o s = .next t) : Keeps s t := by
  unfold execOpenLoad at h
  try dsimp only at h
  (repeat' split at h) <;> (injection h with h; subst h; simp [Keeps])

theorem execVcoilLow_keeps (coil10mV : BitVec 12) (s : State) {t : State} (h : execVcoilLow coil10mV s = .next t) : Keeps s t := by
  unfold execVcoilLow at h
  try dsimp only at h
  (repeat' split at h) <;> (injection h with h; subst h; simp [Keeps])

theorem execPreMaxTimeout_keeps (s : State) {t : State} (h : execPreMaxTimeout s = .next t) : Keeps s t := by
  unfold execPreMaxTimeout at h
  try dsimp only at h
  (repeat' split at h) <;> (injection h with h; subst h; simp [Keeps])

theorem cmdContactor_keeps (rq : Req) (output : Byte) (state : Byte) (s : State) : Keeps s (cmdContactor rq output state s).st := by
  unfold cmdContactor
  try dsimp only
  (repeat' split) <;> simp [Keeps, Res.of]
@[simp] theorem cmdContactor_pending (rq : Req) (output : Byte) (state : Byte) (s : State) : (cmdContactor rq output state s).st.pending = s.pending := (cmdContactor_keeps rq output state s).1
@[simp] theorem cmdContactor_clk (rq : Req) (output : Byte) (state : Byte) (s : State) : (cmdContactor rq output state s).st.clk = s.clk := (cmdContactor_keeps rq output state s).2.1
@[simp] theorem cmdContactor_regs (rq : Req) (output : Byte) (state : Byte) (s : State) : (cmdContactor rq output state s).st.regs = s.regs := (cmdContactor_keeps rq output state s).2.2.1
@[simp] theorem cmdContactor_masks (rq : Req) (output : Byte) (state : Byte) (s : State) : (cmdContactor rq output state s).st.evt.masks = s.evt.masks := (cmdContactor_keeps rq output state s).2.2.2

theorem execContactor_keeps (rq : Req) (output : Byte) (state : Byte) (s : State) {t : State} (h : execContactor rq output state s = .next t) : Keeps s t := by
  unfold execContactor at h
  try dsimp only at h
  (repeat' split at h) <;> (injection h with h; subst h; simp [Keeps, runCmd_pending, runCmd_clk, runCmd_regs, runCmd_masks])

theorem cmdCurrentLimit_keeps (rq : Req) (charge : BitVec 16) (discharge : BitVec 16) (winC : Bool) (winD : Bool) (s : State) : Keeps s (cmdCurrentLimit rq charge discharge winC winD s).st := by
  unfold cmdCurrentLimit
  try dsimp only
  (repeat' split) <;> simp [Keeps, Res.of]
@[simp] theorem cmdCurrentLimit_pending (rq : Req) (charge : BitVec 16) (discharge : BitVec 16) (winC : Bool) (winD : Bool) (s : State) : (cmdCurrentLimit rq charge discharge winC winD s).st.pending = s.pending := (cmdCurrentLimit_keeps rq charge discharge winC winD s).1
@[simp] theorem cmdCurrentLimit_clk (rq : Req) (charge : BitVec 16) (discharge : BitVec 16) (winC : Bool) (winD : Bool) (s : State) : (cmdCurrentLimit rq charge discharge winC winD s).st.clk = s.clk := (cmdCurrentLimit_keeps rq charge discharge winC winD s).2.1
@[simp] theorem cmdCurrentLimit_regs (rq : Req) (charge : BitVec 16) (discharge : BitVec 16) (winC : Bool) (winD : Bool) (s : State) : (cmdCurrentLimit rq charge discharge winC winD s).st.regs = s.regs := (cmdCurrentLimit_keeps rq charge discharge winC winD s).2.2.1
@[simp] theorem cmdCurrentLimit_masks (rq : Req) (charge : BitVec 16) (discharge : BitVec 16) (winC : Bool) (winD : Bool) (s : State) : (cmdCurrentLimit rq charge discharge winC winD s).st.evt.masks = s.evt.masks := (cmdCurrentLimit_keeps rq charge discharge winC winD s).2.2.2

theorem execCurrentLimit_keeps (rq : Req) (charge : BitVec 16) (discharge : BitVec 16) (s : State) {t : State} (h : execCurrentLimit rq charge discharge s = .next t) : Keeps s t := by
  unfold execCurrentLimit at h
  try dsimp only at h
  (repeat' split at h) <;> (injection h with h; subst h; simp [Keeps, runCmd_pending, runCmd_clk, runCmd_regs, runCmd_masks])

theorem cmdResetReq_keeps (s : State) : Keeps s (cmdResetReq s).st := by
  unfold cmdResetReq
  try dsimp only
  (repeat' split) <;> simp [Keeps, Res.of]
@[simp] theorem cmdResetReq_pending (s : State) : (cmdResetReq s).st.pending = s.pending := (cmdResetReq_keeps s).1
@[simp] theorem cmdResetReq_clk (s : State) : (cmdResetReq s).st.clk = s.clk := (cmdResetReq_keeps s).2.1
@[simp] theorem cmdResetReq_regs (s : State) : (cmdResetReq s).st.regs = s.regs := (cmdResetReq_keeps s).2.2.1
@[simp] theorem cmdResetReq_masks (s : State) : (cmdResetReq s).st.evt.masks = s.evt.masks := (cmdResetReq_keeps s).2.2.2

theorem execResetReq_keeps (rq : Req) (s : State) {t : State} (h : execResetReq rq s = .next t) : Keeps s t := by
  unfold execResetReq at h
  try dsimp only at h
  (repeat' split at h) <;> (injection h with h; subst h; simp [Keeps, runCmd_pending, runCmd_clk, runCmd_regs, runCmd_masks])

theorem cmdSafeParamWrite_keeps (offset : Byte) (bytes : List Byte) (s : State) : Keeps s (cmdSafeParamWrite offset bytes s).st := by
  unfold cmdSafeParamWrite
  try dsimp only
  (repeat' split) <;> simp [Keeps, Res.of]
@[simp] theorem cmdSafeParamWrite_pending (offset : Byte) (bytes : List Byte) (s : State) : (cmdSafeParamWrite offset bytes s).st.pending = s.pending := (cmdSafeParamWrite_keeps offset bytes s).1
@[simp] theorem cmdSafeParamWrite_clk (offset : Byte) (bytes : List Byte) (s : State) : (cmdSafeParamWrite offset bytes s).st.clk = s.clk := (cmdSafeParamWrite_keeps offset bytes s).2.1
@[simp] theorem cmdSafeParamWrite_regs (offset : Byte) (bytes : List Byte) (s : State) : (cmdSafeParamWrite offset bytes s).st.regs = s.regs := (cmdSafeParamWrite_keeps offset bytes s).2.2.1
@[simp] theorem cmdSafeParamWrite_masks (offset : Byte) (bytes : List Byte) (s : State) : (cmdSafeParamWrite offset bytes s).st.evt.masks = s.evt.masks := (cmdSafeParamWrite_keeps offset bytes s).2.2.2

theorem execSafeParamWrite_keeps (rq : Req) (offset : Byte) (bytes : List Byte) (s : State) {t : State} (h : execSafeParamWrite rq offset bytes s = .next t) : Keeps s t := by
  unfold execSafeParamWrite at h
  try dsimp only at h
  (repeat' split at h) <;> (injection h with h; subst h; simp [Keeps, runCmd_pending, runCmd_clk, runCmd_regs, runCmd_masks])

theorem cmdSafeParamRead_keeps (s : State) : Keeps s (cmdSafeParamRead s).st := by
  unfold cmdSafeParamRead
  try dsimp only
  (repeat' split) <;> simp [Keeps, Res.of]
@[simp] theorem cmdSafeParamRead_pending (s : State) : (cmdSafeParamRead s).st.pending = s.pending := (cmdSafeParamRead_keeps s).1
@[simp] theorem cmdSafeParamRead_clk (s : State) : (cmdSafeParamRead s).st.clk = s.clk := (cmdSafeParamRead_keeps s).2.1
@[simp] theorem cmdSafeParamRead_regs (s : State) : (cmdSafeParamRead s).st.regs = s.regs := (cmdSafeParamRead_keeps s).2.2.1
@[simp] theorem cmdSafeParamRead_masks (s : State) : (cmdSafeParamRead s).st.evt.masks = s.evt.masks := (cmdSafeParamRead_keeps s).2.2.2

theorem execSafeParamRead_keeps (rq : Req) (s : State) {t : State} (h : execSafeParamRead rq s = .next t) : Keeps s t := by
  unfold execSafeParamRead at h
  try dsimp only at h
  (repeat' split at h) <;> (injection h with h; subst h; simp [Keeps, runCmd_pending, runCmd_clk, runCmd_regs, runCmd_masks])

theorem cmdCommitSeal_keeps (rq : Req) (mordant : Word) (s : State) : Keeps s (cmdCommitSeal rq mordant s).st := by
  unfold cmdCommitSeal
  try dsimp only
  (repeat' split) <;> simp [Keeps, Res.of]
@[simp] theorem cmdCommitSeal_pending (rq : Req) (mordant : Word) (s : State) : (cmdCommitSeal rq mordant s).st.pending = s.pending := (cmdCommitSeal_keeps rq mordant s).1
@[simp] theorem cmdCommitSeal_clk (rq : Req) (mordant : Word) (s : State) : (cmdCommitSeal rq mordant s).st.clk = s.clk := (cmdCommitSeal_keeps rq mordant s).2.1
@[simp] theorem cmdCommitSeal_regs (rq : Req) (mordant : Word) (s : State) : (cmdCommitSeal rq mordant s).st.regs = s.regs := (cmdCommitSeal_keeps rq mordant s).2.2.1
@[simp] theorem cmdCommitSeal_masks (rq : Req) (mordant : Word) (s : State) : (cmdCommitSeal rq mordant s).st.evt.masks = s.evt.masks := (cmdCommitSeal_keeps rq mordant s).2.2.2

theorem execCommitSeal_keeps (rq : Req) (mordant : Word) (s : State) {t : State} (h : execCommitSeal rq mordant s = .next t) : Keeps s t := by
  unfold execCommitSeal at h
  try dsimp only at h
  (repeat' split at h) <;> (injection h with h; subst h; simp [Keeps, runCmd_pending, runCmd_clk, runCmd_regs, runCmd_masks])

theorem sealBlock_keeps (m : Word) (h : Fin 4) (seq : Nat) (agrees : Bool) (writeOk : Bool) (s : State) : Keeps s (sealBlock m h seq agrees writeOk s) := by
  unfold sealBlock
  try dsimp only
  (repeat' split) <;> simp [Keeps]
@[simp] theorem sealBlock_pending (m : Word) (h : Fin 4) (seq : Nat) (agrees : Bool) (writeOk : Bool) (s : State) : (sealBlock m h seq agrees writeOk s).pending = s.pending := (sealBlock_keeps m h seq agrees writeOk s).1
@[simp] theorem sealBlock_clk (m : Word) (h : Fin 4) (seq : Nat) (agrees : Bool) (writeOk : Bool) (s : State) : (sealBlock m h seq agrees writeOk s).clk = s.clk := (sealBlock_keeps m h seq agrees writeOk s).2.1
@[simp] theorem sealBlock_regs (m : Word) (h : Fin 4) (seq : Nat) (agrees : Bool) (writeOk : Bool) (s : State) : (sealBlock m h seq agrees writeOk s).regs = s.regs := (sealBlock_keeps m h seq agrees writeOk s).2.2.1
@[simp] theorem sealBlock_masks (m : Word) (h : Fin 4) (seq : Nat) (agrees : Bool) (writeOk : Bool) (s : State) : (sealBlock m h seq agrees writeOk s).evt.masks = s.evt.masks := (sealBlock_keeps m h seq agrees writeOk s).2.2.2

theorem execSealCheckDone_keeps (writeOk : Bool) (s : State) {t : State} (h : execSealCheckDone writeOk s = .next t) : Keeps s t := by
  unfold execSealCheckDone at h
  try dsimp only at h
  (repeat' split at h) <;> (injection h with h; subst h; simp [Keeps])

theorem execUnseal_keeps (rq : Req) (key : Byte) (s : State) {t : State} (h : execUnseal rq key s = .next t) : Keeps s t := by
  unfold execUnseal at h
  try dsimp only at h
  (repeat' split at h) <;> (injection h with h; subst h; simp [Keeps])

end Sys2Proof.Machine
end

