-- ==== Sys2Proof/Laws/Keep/RegWrite.lean ====
section
/-! SUPPORT. What the operations of `Machine/RegWrite.lean` leave alone. -/

namespace Sys2Proof.Machine

open Sys2Proof

theorem storeA_keeps (a : Nat) (w : Word) (s t : State) (h : storeA a w s = some t) : t.pending = s.pending ∧ t.clk = s.clk ∧ t.evt.masks = s.evt.masks := by
  unfold storeA at h
  split at h <;> first | (injection h with h; subst h; simp) | cases h

theorem storeB_keeps (a : Nat) (w : Word) (s : State) : (storeB a w s).pending = s.pending ∧ (storeB a w s).clk = s.clk ∧ (storeB a w s).evt.masks = s.evt.masks := by
  unfold storeB
  try dsimp only
  (repeat' split) <;> simp
@[simp] theorem storeB_pending (a : Nat) (w : Word) (s : State) : (storeB a w s).pending = s.pending := (storeB_keeps a w s).1
@[simp] theorem storeB_clk (a : Nat) (w : Word) (s : State) : (storeB a w s).clk = s.clk := (storeB_keeps a w s).2.1
@[simp] theorem storeB_masks (a : Nat) (w : Word) (s : State) : (storeB a w s).evt.masks = s.evt.masks := (storeB_keeps a w s).2.2

theorem storeReg_keeps (a : Nat) (w : Word) (s : State) : (storeReg a w s).pending = s.pending ∧ (storeReg a w s).clk = s.clk ∧ (storeReg a w s).evt.masks = s.evt.masks := by
  unfold storeReg
  cases h : storeA a w s with
  | none => exact storeB_keeps a w s
  | some t => exact storeA_keeps a w s t h
@[simp] theorem storeReg_pending (a : Nat) (w : Word) (s : State) : (storeReg a w s).pending = s.pending := (storeReg_keeps a w s).1
@[simp] theorem storeReg_clk (a : Nat) (w : Word) (s : State) : (storeReg a w s).clk = s.clk := (storeReg_keeps a w s).2.1
@[simp] theorem storeReg_masks (a : Nat) (w : Word) (s : State) : (storeReg a w s).evt.masks = s.evt.masks := (storeReg_keeps a w s).2.2

theorem writeCellCfg_keeps (w : Word) (s : State) : (writeCellCfg w s).pending = s.pending ∧ (writeCellCfg w s).clk = s.clk ∧ (writeCellCfg w s).evt.masks = s.evt.masks := by
  unfold writeCellCfg
  try dsimp only
  (repeat' split) <;> simp
@[simp] theorem writeCellCfg_pending (w : Word) (s : State) : (writeCellCfg w s).pending = s.pending := (writeCellCfg_keeps w s).1
@[simp] theorem writeCellCfg_clk (w : Word) (s : State) : (writeCellCfg w s).clk = s.clk := (writeCellCfg_keeps w s).2.1
@[simp] theorem writeCellCfg_masks (w : Word) (s : State) : (writeCellCfg w s).evt.masks = s.evt.masks := (writeCellCfg_keeps w s).2.2

theorem writeBalCfg_keeps (w : Word) (s : State) : (writeBalCfg w s).pending = s.pending ∧ (writeBalCfg w s).clk = s.clk ∧ (writeBalCfg w s).evt.masks = s.evt.masks := by
  unfold writeBalCfg
  try dsimp only
  (repeat' split) <;> simp [fold_pending, fold_clk, fold_masks, fold1_pending, fold1_clk, fold1_masks, apply_ite State.pending, apply_ite State.clk, apply_ite State.evt, apply_ite EvtSt.masks]
@[simp] theorem writeBalCfg_pending (w : Word) (s : State) : (writeBalCfg w s).pending = s.pending := (writeBalCfg_keeps w s).1
@[simp] theorem writeBalCfg_clk (w : Word) (s : State) : (writeBalCfg w s).clk = s.clk := (writeBalCfg_keeps w s).2.1
@[simp] theorem writeBalCfg_masks (w : Word) (s : State) : (writeBalCfg w s).evt.masks = s.evt.masks := (writeBalCfg_keeps w s).2.2

theorem writeChainCfg_keeps (w : Word) (s : State) : (writeChainCfg w s).pending = s.pending ∧ (writeChainCfg w s).clk = s.clk ∧ (writeChainCfg w s).evt.masks = s.evt.masks := by
  unfold writeChainCfg
  try dsimp only
  (repeat' split) <;> simp
@[simp] theorem writeChainCfg_pending (w : Word) (s : State) : (writeChainCfg w s).pending = s.pending := (writeChainCfg_keeps w s).1
@[simp] theorem writeChainCfg_clk (w : Word) (s : State) : (writeChainCfg w s).clk = s.clk := (writeChainCfg_keeps w s).2.1
@[simp] theorem writeChainCfg_masks (w : Word) (s : State) : (writeChainCfg w s).evt.masks = s.evt.masks := (writeChainCfg_keeps w s).2.2

theorem applyRw_keeps (a : Nat) (w : Word) (s : State) : (applyRw a w s).pending = s.pending ∧ (applyRw a w s).clk = s.clk ∧ (applyRw a w s).evt.masks = s.evt.masks := by
  unfold applyRw
  try dsimp only
  (repeat' split) <;> simp
@[simp] theorem applyRw_pending (a : Nat) (w : Word) (s : State) : (applyRw a w s).pending = s.pending := (applyRw_keeps a w s).1
@[simp] theorem applyRw_clk (a : Nat) (w : Word) (s : State) : (applyRw a w s).clk = s.clk := (applyRw_keeps a w s).2.1
@[simp] theorem applyRw_masks (a : Nat) (w : Word) (s : State) : (applyRw a w s).evt.masks = s.evt.masks := (applyRw_keeps a w s).2.2

theorem writeRw_keeps (a : Nat) (mask : Word) (value : Word) (s : State) : (writeRw a mask value s).pending = s.pending ∧ (writeRw a mask value s).clk = s.clk ∧ (writeRw a mask value s).evt.masks = s.evt.masks := by
  unfold writeRw
  try dsimp only
  (repeat' split) <;> simp
@[simp] theorem writeRw_pending (a : Nat) (mask : Word) (value : Word) (s : State) : (writeRw a mask value s).pending = s.pending := (writeRw_keeps a mask value s).1
@[simp] theorem writeRw_clk (a : Nat) (mask : Word) (value : Word) (s : State) : (writeRw a mask value s).clk = s.clk := (writeRw_keeps a mask value s).2.1
@[simp] theorem writeRw_masks (a : Nat) (mask : Word) (value : Word) (s : State) : (writeRw a mask value s).evt.masks = s.evt.masks := (writeRw_keeps a mask value s).2.2

theorem writeChkCfg_keeps (n : Fin 4) (mask value : Word) (s : State) : Keeps s (writeChkCfg n mask value s) := by
  unfold writeChkCfg
  dsimp only
  generalize hw : merged (rwVal s (0x3800 + 0x20 * n.val)) (mask &&& 0x3003) value = w
  refine Keeps.trans (t := updChk n.val (fun u => { u with mode := w.getLsbD 0, evtEn := w.getLsbD 1, nb := rf w 13 12 }) s) (by simp [Keeps]) ?_
  have one (c : Bool) (f : State → Out) (s : State) (h : ∀ s t, f s = .next t → Keeps s t) : Keeps s (if c = true then ran (f s) s else s) := by
    split
    · exact ran_keeps _ _ (h s)
    · exact Keeps.refl s
  exact ((((one _ _ _ (fun _ _ h => execResume_keeps _ _ h)).trans (one _ _ _ (fun _ _ h => execStart_keeps _ _ h))).trans
    (one _ _ _ (fun _ _ h => execChkEnd_keeps _ _ h))).trans (one _ _ _ (fun _ _ h => execAbort_keeps _ _ h))).trans
    (one _ _ _ (fun _ _ h => execSuspend_keeps _ _ h))
@[simp] theorem writeChkCfg_pending (n : Fin 4) (mask value : Word) (s : State) : (writeChkCfg n mask value s).pending = s.pending := (writeChkCfg_keeps n mask value s).1
@[simp] theorem writeChkCfg_clk (n : Fin 4) (mask value : Word) (s : State) : (writeChkCfg n mask value s).clk = s.clk := (writeChkCfg_keeps n mask value s).2.1
@[simp] theorem writeChkCfg_regs (n : Fin 4) (mask value : Word) (s : State) : (writeChkCfg n mask value s).regs = s.regs := (writeChkCfg_keeps n mask value s).2.2.1
@[simp] theorem writeChkCfg_masks (n : Fin 4) (mask value : Word) (s : State) : (writeChkCfg n mask value s).evt.masks = s.evt.masks := (writeChkCfg_keeps n mask value s).2.2.2

theorem writeUnit_keeps (n : Fin 4) (o : Nat) (mask value : Word) (s : State) : Keeps s (writeUnit n o mask value s) := by
  unfold writeUnit
  dsimp only
  split
  · exact writeChkCfg_keeps n mask value s
  · exact ran_keeps _ _ (fun _ h => execData_keeps _ _ _ h)
  · exact ran_keeps _ _ (fun _ h => execExp_keeps _ _ _ h)
  · simp [Keeps]
  · exact ran_keeps _ _ (fun _ h => execContextRestore_keeps _ _ _ h)
  · simp [Keeps]
  · exact Keeps.refl s
@[simp] theorem writeUnit_pending (n : Fin 4) (o : Nat) (mask value : Word) (s : State) : (writeUnit n o mask value s).pending = s.pending := (writeUnit_keeps n o mask value s).1
@[simp] theorem writeUnit_clk (n : Fin 4) (o : Nat) (mask value : Word) (s : State) : (writeUnit n o mask value s).clk = s.clk := (writeUnit_keeps n o mask value s).2.1
@[simp] theorem writeUnit_regs (n : Fin 4) (o : Nat) (mask value : Word) (s : State) : (writeUnit n o mask value s).regs = s.regs := (writeUnit_keeps n o mask value s).2.2.1
@[simp] theorem writeUnit_masks (n : Fin 4) (o : Nat) (mask value : Word) (s : State) : (writeUnit n o mask value s).evt.masks = s.evt.masks := (writeUnit_keeps n o mask value s).2.2.2

theorem clearW1c_keeps (a : Nat) (ones : Word) (s : State) : Keeps s (clearW1c a ones s) := by
  unfold clearW1c
  try dsimp only
  (repeat' split) <;> simp [Keeps]
@[simp] theorem clearW1c_pending (a : Nat) (ones : Word) (s : State) : (clearW1c a ones s).pending = s.pending := (clearW1c_keeps a ones s).1
@[simp] theorem clearW1c_clk (a : Nat) (ones : Word) (s : State) : (clearW1c a ones s).clk = s.clk := (clearW1c_keeps a ones s).2.1
@[simp] theorem clearW1c_regs (a : Nat) (ones : Word) (s : State) : (clearW1c a ones s).regs = s.regs := (clearW1c_keeps a ones s).2.2.1
@[simp] theorem clearW1c_masks (a : Nat) (ones : Word) (s : State) : (clearW1c a ones s).evt.masks = s.evt.masks := (clearW1c_keeps a ones s).2.2.2

theorem actWo_keeps (rq : Req) (a : Nat) (mask v : Word) (s : State) : Keeps s (actWo rq a mask v s) := by
  unfold actWo
  split
  · exact ran_keeps _ _ (fun _ h => execPortClr_keeps _ _ _ h)
  · split
    · exact ran_keeps _ _ (fun _ h => execOwStart_keeps _ h)
    · exact Keeps.refl s
  · simp [Keeps]
  · split
    · exact ran_keeps _ _ (fun _ h => execUnseal_keeps _ _ _ h)
    · exact Keeps.refl s
  · exact ran_keeps _ _ (fun _ h => execChkAlvResync_keeps _ _ h)
  · split
    · exact Keeps.refl s
    · exact ran_keeps _ _ (fun _ h => execLogCursorSet_keeps _ _ h)
  · exact Keeps.refl s
@[simp] theorem actWo_pending (rq : Req) (a : Nat) (mask v : Word) (s : State) : (actWo rq a mask v s).pending = s.pending := (actWo_keeps rq a mask v s).1
@[simp] theorem actWo_clk (rq : Req) (a : Nat) (mask v : Word) (s : State) : (actWo rq a mask v s).clk = s.clk := (actWo_keeps rq a mask v s).2.1
@[simp] theorem actWo_regs (rq : Req) (a : Nat) (mask v : Word) (s : State) : (actWo rq a mask v s).regs = s.regs := (actWo_keeps rq a mask v s).2.2.1
@[simp] theorem actWo_masks (rq : Req) (a : Nat) (mask v : Word) (s : State) : (actWo rq a mask v s).evt.masks = s.evt.masks := (actWo_keeps rq a mask v s).2.2.2

theorem writeWindow_keeps (a : Nat) (mask : Word) (value : Word) (s : State) : Keeps s (writeWindow a mask value s) := by
  unfold writeWindow
  try dsimp only
  (repeat' split) <;> simp [Keeps]
@[simp] theorem writeWindow_pending (a : Nat) (mask : Word) (value : Word) (s : State) : (writeWindow a mask value s).pending = s.pending := (writeWindow_keeps a mask value s).1
@[simp] theorem writeWindow_clk (a : Nat) (mask : Word) (value : Word) (s : State) : (writeWindow a mask value s).clk = s.clk := (writeWindow_keeps a mask value s).2.1
@[simp] theorem writeWindow_regs (a : Nat) (mask : Word) (value : Word) (s : State) : (writeWindow a mask value s).regs = s.regs := (writeWindow_keeps a mask value s).2.2.1
@[simp] theorem writeWindow_masks (a : Nat) (mask : Word) (value : Word) (s : State) : (writeWindow a mask value s).evt.masks = s.evt.masks := (writeWindow_keeps a mask value s).2.2.2

theorem writePlain_keeps (rq : Req) (a : Nat) (mask : Word) (value : Word) (s : State) : (writePlain rq a mask value s).pending = s.pending ∧ (writePlain rq a mask value s).clk = s.clk ∧ (writePlain rq a mask value s).evt.masks = s.evt.masks := by
  unfold writePlain
  try dsimp only
  (repeat' split) <;> simp
@[simp] theorem writePlain_pending (rq : Req) (a : Nat) (mask : Word) (value : Word) (s : State) : (writePlain rq a mask value s).pending = s.pending := (writePlain_keeps rq a mask value s).1
@[simp] theorem writePlain_clk (rq : Req) (a : Nat) (mask : Word) (value : Word) (s : State) : (writePlain rq a mask value s).clk = s.clk := (writePlain_keeps rq a mask value s).2.1
@[simp] theorem writePlain_masks (rq : Req) (a : Nat) (mask : Word) (value : Word) (s : State) : (writePlain rq a mask value s).evt.masks = s.evt.masks := (writePlain_keeps rq a mask value s).2.2

theorem cmdWriteReg_keeps (rq : Req) (addr : BitVec 16) (mask : Word) (value : Word) (s : State) : (cmdWriteReg rq addr mask value s).st.pending = s.pending ∧ (cmdWriteReg rq addr mask value s).st.clk = s.clk ∧ (cmdWriteReg rq addr mask value s).st.evt.masks = s.evt.masks := by
  unfold cmdWriteReg
  try dsimp only
  (repeat' split) <;> simp [Res.of]
@[simp] theorem cmdWriteReg_pending (rq : Req) (addr : BitVec 16) (mask : Word) (value : Word) (s : State) : (cmdWriteReg rq addr mask value s).st.pending = s.pending := (cmdWriteReg_keeps rq addr mask value s).1
@[simp] theorem cmdWriteReg_clk (rq : Req) (addr : BitVec 16) (mask : Word) (value : Word) (s : State) : (cmdWriteReg rq addr mask value s).st.clk = s.clk := (cmdWriteReg_keeps rq addr mask value s).2.1
@[simp] theorem cmdWriteReg_masks (rq : Req) (addr : BitVec 16) (mask : Word) (value : Word) (s : State) : (cmdWriteReg rq addr mask value s).st.evt.masks = s.evt.masks := (cmdWriteReg_keeps rq addr mask value s).2.2

theorem execWriteReg_keeps (rq : Req) (addr : BitVec 16) (mask : Word) (value : Word) (s : State) {t : State} (h : execWriteReg rq addr mask value s = .next t) : t.pending = s.pending ∧ t.clk = s.clk ∧ t.evt.masks = s.evt.masks := by
  unfold execWriteReg at h
  try dsimp only at h
  (repeat' split at h) <;> (injection h with h; subst h; simp [runCmd_pending, runCmd_clk, runCmd_masks])

theorem cmdModeReq_keeps (rq : Req) (mode : BitVec 2) (shipKey : Byte) (s : State) : Keeps s (cmdModeReq rq mode shipKey s).st := by
  unfold cmdModeReq
  try dsimp only
  (repeat' split) <;> simp [Keeps, Res.of]
@[simp] theorem cmdModeReq_pending (rq : Req) (mode : BitVec 2) (shipKey : Byte) (s : State) : (cmdModeReq rq mode shipKey s).st.pending = s.pending := (cmdModeReq_keeps rq mode shipKey s).1
@[simp] theorem cmdModeReq_clk (rq : Req) (mode : BitVec 2) (shipKey : Byte) (s : State) : (cmdModeReq rq mode shipKey s).st.clk = s.clk := (cmdModeReq_keeps rq mode shipKey s).2.1
@[simp] theorem cmdModeReq_regs (rq : Req) (mode : BitVec 2) (shipKey : Byte) (s : State) : (cmdModeReq rq mode shipKey s).st.regs = s.regs := (cmdModeReq_keeps rq mode shipKey s).2.2.1
@[simp] theorem cmdModeReq_masks (rq : Req) (mode : BitVec 2) (shipKey : Byte) (s : State) : (cmdModeReq rq mode shipKey s).st.evt.masks = s.evt.masks := (cmdModeReq_keeps rq mode shipKey s).2.2.2

theorem execModeReq_keeps (rq : Req) (mode : BitVec 2) (shipKey : Byte) (s : State) {t : State} (h : execModeReq rq mode shipKey s = .next t) : Keeps s t := by
  unfold execModeReq at h
  try dsimp only at h
  (repeat' split at h) <;> (injection h with h; subst h; simp [Keeps, runCmd_pending, runCmd_clk, runCmd_regs, runCmd_masks])

theorem execWindowWrite_keeps (addr : BitVec 16) (mask : Word) (value : Word) (s : State) {t : State} (h : execWindowWrite addr mask value s = .next t) : Keeps s t := by
  unfold execWindowWrite at h
  try dsimp only at h
  (repeat' split at h) <;> (injection h with h; subst h; simp [Keeps])

end Sys2Proof.Machine
end

