-- ==== Sys2Proof/Laws/Keep/HostCmd.lean ====
section
/-! SUPPORT. What the operations of `Machine/HostCmd.lean` leave alone. -/

namespace Sys2Proof.Machine

open Sys2Proof

theorem cmdNop_keeps (s : State) : Keeps s (cmdNop s).st := by
  unfold cmdNop
  try dsimp only
  (repeat' split) <;> simp [Keeps, Res.of]
@[simp] theorem cmdNop_pending (s : State) : (cmdNop s).st.pending = s.pending := (cmdNop_keeps s).1
@[simp] theorem cmdNop_clk (s : State) : (cmdNop s).st.clk = s.clk := (cmdNop_keeps s).2.1
@[simp] theorem cmdNop_regs (s : State) : (cmdNop s).st.regs = s.regs := (cmdNop_keeps s).2.2.1
@[simp] theorem cmdNop_masks (s : State) : (cmdNop s).st.evt.masks = s.evt.masks := (cmdNop_keeps s).2.2.2

theorem execNop_keeps (rq : Req) (s : State) {t : State} (h : execNop rq s = .next t) : Keeps s t := by
  unfold execNop at h
  try dsimp only at h
  (repeat' split at h) <;> (injection h with h; subst h; simp [Keeps, runCmd_pending, runCmd_clk, runCmd_regs, runCmd_masks])

theorem cmdGetId_keeps (s : State) : Keeps s (cmdGetId s).st := by
  unfold cmdGetId
  try dsimp only
  (repeat' split) <;> simp [Keeps, Res.of]
@[simp] theorem cmdGetId_pending (s : State) : (cmdGetId s).st.pending = s.pending := (cmdGetId_keeps s).1
@[simp] theorem cmdGetId_clk (s : State) : (cmdGetId s).st.clk = s.clk := (cmdGetId_keeps s).2.1
@[simp] theorem cmdGetId_regs (s : State) : (cmdGetId s).st.regs = s.regs := (cmdGetId_keeps s).2.2.1
@[simp] theorem cmdGetId_masks (s : State) : (cmdGetId s).st.evt.masks = s.evt.masks := (cmdGetId_keeps s).2.2.2

theorem execGetId_keeps (rq : Req) (s : State) {t : State} (h : execGetId rq s = .next t) : Keeps s t := by
  unfold execGetId at h
  try dsimp only at h
  (repeat' split at h) <;> (injection h with h; subst h; simp [Keeps, runCmd_pending, runCmd_clk, runCmd_regs, runCmd_masks])

theorem cmdReadReg_keeps (rq : Req) (addr : BitVec 16) (count : Byte) (ecc : Ecc) (s : State) : Keeps s (cmdReadReg rq addr count ecc s).st := by
  unfold cmdReadReg
  try dsimp only
  (repeat' split) <;> simp [Keeps, Res.of]
@[simp] theorem cmdReadReg_pending (rq : Req) (addr : BitVec 16) (count : Byte) (ecc : Ecc) (s : State) : (cmdReadReg rq addr count ecc s).st.pending = s.pending := (cmdReadReg_keeps rq addr count ecc s).1
@[simp] theorem cmdReadReg_clk (rq : Req) (addr : BitVec 16) (count : Byte) (ecc : Ecc) (s : State) : (cmdReadReg rq addr count ecc s).st.clk = s.clk := (cmdReadReg_keeps rq addr count ecc s).2.1
@[simp] theorem cmdReadReg_regs (rq : Req) (addr : BitVec 16) (count : Byte) (ecc : Ecc) (s : State) : (cmdReadReg rq addr count ecc s).st.regs = s.regs := (cmdReadReg_keeps rq addr count ecc s).2.2.1
@[simp] theorem cmdReadReg_masks (rq : Req) (addr : BitVec 16) (count : Byte) (ecc : Ecc) (s : State) : (cmdReadReg rq addr count ecc s).st.evt.masks = s.evt.masks := (cmdReadReg_keeps rq addr count ecc s).2.2.2

theorem execReadReg_keeps (rq : Req) (addr : BitVec 16) (count : Byte) (ecc : Ecc) (s : State) {t : State} (h : execReadReg rq addr count ecc s = .next t) : Keeps s t := by
  unfold execReadReg at h
  try dsimp only at h
  (repeat' split at h) <;> (injection h with h; subst h; simp [Keeps, runCmd_pending, runCmd_clk, runCmd_regs, runCmd_masks])

theorem execSetMode_keeps (rq : Req) (mode : Byte) (key : Byte) (s : State) {t : State} (h : execSetMode rq mode key s = .next t) : Keeps s t := by
  unfold execSetMode at h
  try dsimp only at h
  (repeat' split at h) <;> (injection h with h; subst h; simp [Keeps, runCmd_pending, runCmd_clk, runCmd_regs, runCmd_masks])

theorem cmdResetMember_keeps (key : Byte) (s : State) : Keeps s (cmdResetMember key s).st := by
  unfold cmdResetMember
  try dsimp only
  (repeat' split) <;> simp [Keeps, Res.of]
@[simp] theorem cmdResetMember_pending (key : Byte) (s : State) : (cmdResetMember key s).st.pending = s.pending := (cmdResetMember_keeps key s).1
@[simp] theorem cmdResetMember_clk (key : Byte) (s : State) : (cmdResetMember key s).st.clk = s.clk := (cmdResetMember_keeps key s).2.1
@[simp] theorem cmdResetMember_regs (key : Byte) (s : State) : (cmdResetMember key s).st.regs = s.regs := (cmdResetMember_keeps key s).2.2.1
@[simp] theorem cmdResetMember_masks (key : Byte) (s : State) : (cmdResetMember key s).st.evt.masks = s.evt.masks := (cmdResetMember_keeps key s).2.2.2

theorem execResetMember_keeps (rq : Req) (key : Byte) (s : State) {t : State} (h : execResetMember rq key s = .next t) : Keeps s t := by
  unfold execResetMember at h
  try dsimp only at h
  (repeat' split at h) <;> (injection h with h; subst h; simp [Keeps, runCmd_pending, runCmd_clk, runCmd_regs, runCmd_masks])

theorem cmdTagSync_keeps (rq : Req) (nonce : Word) (s : State) : Keeps s (cmdTagSync rq nonce s).st := by
  unfold cmdTagSync
  try dsimp only
  (repeat' split) <;> simp [Keeps, Res.of]
@[simp] theorem cmdTagSync_pending (rq : Req) (nonce : Word) (s : State) : (cmdTagSync rq nonce s).st.pending = s.pending := (cmdTagSync_keeps rq nonce s).1
@[simp] theorem cmdTagSync_clk (rq : Req) (nonce : Word) (s : State) : (cmdTagSync rq nonce s).st.clk = s.clk := (cmdTagSync_keeps rq nonce s).2.1
@[simp] theorem cmdTagSync_regs (rq : Req) (nonce : Word) (s : State) : (cmdTagSync rq nonce s).st.regs = s.regs := (cmdTagSync_keeps rq nonce s).2.2.1
@[simp] theorem cmdTagSync_masks (rq : Req) (nonce : Word) (s : State) : (cmdTagSync rq nonce s).st.evt.masks = s.evt.masks := (cmdTagSync_keeps rq nonce s).2.2.2

theorem execTagSync_keeps (rq : Req) (nonce : Word) (s : State) {t : State} (h : execTagSync rq nonce s = .next t) : Keeps s t := by
  unfold execTagSync at h
  try dsimp only at h
  (repeat' split at h) <;> (injection h with h; subst h; simp [Keeps, runCmd_pending, runCmd_clk, runCmd_regs, runCmd_masks])

theorem cmdSetBaud_keeps (code : Byte) (s : State) : (cmdSetBaud code s).st.pending = s.pending ∧ (cmdSetBaud code s).st.clk = s.clk ∧ (cmdSetBaud code s).st.evt.masks = s.evt.masks := by
  unfold cmdSetBaud
  try dsimp only
  (repeat' split) <;> simp [Res.of]
@[simp] theorem cmdSetBaud_pending (code : Byte) (s : State) : (cmdSetBaud code s).st.pending = s.pending := (cmdSetBaud_keeps code s).1
@[simp] theorem cmdSetBaud_clk (code : Byte) (s : State) : (cmdSetBaud code s).st.clk = s.clk := (cmdSetBaud_keeps code s).2.1
@[simp] theorem cmdSetBaud_masks (code : Byte) (s : State) : (cmdSetBaud code s).st.evt.masks = s.evt.masks := (cmdSetBaud_keeps code s).2.2

theorem execSetBaud_keeps (rq : Req) (code : Byte) (s : State) {t : State} (h : execSetBaud rq code s = .next t) : t.pending = s.pending ∧ t.clk = s.clk ∧ t.evt.masks = s.evt.masks := by
  unfold execSetBaud at h
  try dsimp only at h
  (repeat' split at h) <;> (injection h with h; subst h; simp [runCmd_pending, runCmd_clk, runCmd_masks])

theorem cmdEvtRead_keeps (rq : Req) (max : Byte) (s : State) : Keeps s (cmdEvtRead rq max s).st := by
  unfold cmdEvtRead
  try dsimp only
  (repeat' split) <;> simp [Keeps, Res.of]
@[simp] theorem cmdEvtRead_pending (rq : Req) (max : Byte) (s : State) : (cmdEvtRead rq max s).st.pending = s.pending := (cmdEvtRead_keeps rq max s).1
@[simp] theorem cmdEvtRead_clk (rq : Req) (max : Byte) (s : State) : (cmdEvtRead rq max s).st.clk = s.clk := (cmdEvtRead_keeps rq max s).2.1
@[simp] theorem cmdEvtRead_regs (rq : Req) (max : Byte) (s : State) : (cmdEvtRead rq max s).st.regs = s.regs := (cmdEvtRead_keeps rq max s).2.2.1
@[simp] theorem cmdEvtRead_masks (rq : Req) (max : Byte) (s : State) : (cmdEvtRead rq max s).st.evt.masks = s.evt.masks := (cmdEvtRead_keeps rq max s).2.2.2

theorem execEvtRead_keeps (rq : Req) (max : Byte) (s : State) {t : State} (h : execEvtRead rq max s = .next t) : Keeps s t := by
  unfold execEvtRead at h
  try dsimp only at h
  (repeat' split at h) <;> (injection h with h; subst h; simp [Keeps, runCmd_pending, runCmd_clk, runCmd_regs, runCmd_masks])

theorem cmdEvtAck_keeps (src : Byte) (seq : BitVec 16) (s : State) : Keeps s (cmdEvtAck src seq s).st := by
  unfold cmdEvtAck
  try dsimp only
  (repeat' split) <;> simp [Keeps, Res.of]
@[simp] theorem cmdEvtAck_pending (src : Byte) (seq : BitVec 16) (s : State) : (cmdEvtAck src seq s).st.pending = s.pending := (cmdEvtAck_keeps src seq s).1
@[simp] theorem cmdEvtAck_clk (src : Byte) (seq : BitVec 16) (s : State) : (cmdEvtAck src seq s).st.clk = s.clk := (cmdEvtAck_keeps src seq s).2.1
@[simp] theorem cmdEvtAck_regs (src : Byte) (seq : BitVec 16) (s : State) : (cmdEvtAck src seq s).st.regs = s.regs := (cmdEvtAck_keeps src seq s).2.2.1
@[simp] theorem cmdEvtAck_masks (src : Byte) (seq : BitVec 16) (s : State) : (cmdEvtAck src seq s).st.evt.masks = s.evt.masks := (cmdEvtAck_keeps src seq s).2.2.2

theorem execEvtAck_keeps (rq : Req) (src : Byte) (seq : BitVec 16) (s : State) {t : State} (h : execEvtAck rq src seq s = .next t) : Keeps s t := by
  unfold execEvtAck at h
  try dsimp only at h
  (repeat' split at h) <;> (injection h with h; subst h; simp [Keeps, runCmd_pending, runCmd_clk, runCmd_regs, runCmd_masks])

theorem cmdEvtMask_keeps (rq : Req) (mask : BitVec 160) (s : State) : (cmdEvtMask rq mask s).st.pending = s.pending ∧ (cmdEvtMask rq mask s).st.clk = s.clk ∧ (cmdEvtMask rq mask s).st.regs = s.regs := by
  unfold cmdEvtMask
  try dsimp only
  (repeat' split) <;> simp [Res.of]
@[simp] theorem cmdEvtMask_pending (rq : Req) (mask : BitVec 160) (s : State) : (cmdEvtMask rq mask s).st.pending = s.pending := (cmdEvtMask_keeps rq mask s).1
@[simp] theorem cmdEvtMask_clk (rq : Req) (mask : BitVec 160) (s : State) : (cmdEvtMask rq mask s).st.clk = s.clk := (cmdEvtMask_keeps rq mask s).2.1
@[simp] theorem cmdEvtMask_regs (rq : Req) (mask : BitVec 160) (s : State) : (cmdEvtMask rq mask s).st.regs = s.regs := (cmdEvtMask_keeps rq mask s).2.2

theorem execEvtMask_keeps (rq : Req) (mask : BitVec 160) (s : State) {t : State} (h : execEvtMask rq mask s = .next t) : t.pending = s.pending ∧ t.clk = s.clk ∧ t.regs = s.regs := by
  unfold execEvtMask at h
  try dsimp only at h
  (repeat' split at h) <;> (injection h with h; subst h; simp [runCmd_pending, runCmd_clk, runCmd_regs])

theorem noteReturned_keeps (rq : Req) (seq : Nat) (s : State) : Keeps s (noteReturned rq seq s) := by
  unfold noteReturned
  try dsimp only
  (repeat' split) <;> simp [Keeps]
@[simp] theorem noteReturned_pending (rq : Req) (seq : Nat) (s : State) : (noteReturned rq seq s).pending = s.pending := (noteReturned_keeps rq seq s).1
@[simp] theorem noteReturned_clk (rq : Req) (seq : Nat) (s : State) : (noteReturned rq seq s).clk = s.clk := (noteReturned_keeps rq seq s).2.1
@[simp] theorem noteReturned_regs (rq : Req) (seq : Nat) (s : State) : (noteReturned rq seq s).regs = s.regs := (noteReturned_keeps rq seq s).2.2.1
@[simp] theorem noteReturned_masks (rq : Req) (seq : Nat) (s : State) : (noteReturned rq seq s).evt.masks = s.evt.masks := (noteReturned_keeps rq seq s).2.2.2

theorem cmdCmdResult_keeps (rq : Req) (seq : BitVec 16) (s : State) : Keeps s (cmdCmdResult rq seq s).st := by
  unfold cmdCmdResult
  try dsimp only
  (repeat' split) <;> simp [Keeps, Res.of]
@[simp] theorem cmdCmdResult_pending (rq : Req) (seq : BitVec 16) (s : State) : (cmdCmdResult rq seq s).st.pending = s.pending := (cmdCmdResult_keeps rq seq s).1
@[simp] theorem cmdCmdResult_clk (rq : Req) (seq : BitVec 16) (s : State) : (cmdCmdResult rq seq s).st.clk = s.clk := (cmdCmdResult_keeps rq seq s).2.1
@[simp] theorem cmdCmdResult_regs (rq : Req) (seq : BitVec 16) (s : State) : (cmdCmdResult rq seq s).st.regs = s.regs := (cmdCmdResult_keeps rq seq s).2.2.1
@[simp] theorem cmdCmdResult_masks (rq : Req) (seq : BitVec 16) (s : State) : (cmdCmdResult rq seq s).st.evt.masks = s.evt.masks := (cmdCmdResult_keeps rq seq s).2.2.2

theorem execCmdResult_keeps (rq : Req) (seq : BitVec 16) (s : State) {t : State} (h : execCmdResult rq seq s = .next t) : Keeps s t := by
  unfold execCmdResult at h
  try dsimp only at h
  (repeat' split at h) <;> (injection h with h; subst h; simp [Keeps, runCmd_pending, runCmd_clk, runCmd_regs, runCmd_masks])

theorem cmdEnumerate_keeps (rq : Req) (s : State) : Keeps s (cmdEnumerate rq s).st := by
  unfold cmdEnumerate
  try dsimp only
  (repeat' split) <;> simp [Keeps, Res.of]
@[simp] theorem cmdEnumerate_pending (rq : Req) (s : State) : (cmdEnumerate rq s).st.pending = s.pending := (cmdEnumerate_keeps rq s).1
@[simp] theorem cmdEnumerate_clk (rq : Req) (s : State) : (cmdEnumerate rq s).st.clk = s.clk := (cmdEnumerate_keeps rq s).2.1
@[simp] theorem cmdEnumerate_regs (rq : Req) (s : State) : (cmdEnumerate rq s).st.regs = s.regs := (cmdEnumerate_keeps rq s).2.2.1
@[simp] theorem cmdEnumerate_masks (rq : Req) (s : State) : (cmdEnumerate rq s).st.evt.masks = s.evt.masks := (cmdEnumerate_keeps rq s).2.2.2

theorem execEnumerate_keeps (rq : Req) (s : State) {t : State} (h : execEnumerate rq s = .next t) : Keeps s t := by
  unfold execEnumerate at h
  try dsimp only at h
  (repeat' split at h) <;> (injection h with h; subst h; simp [Keeps, runCmd_pending, runCmd_clk, runCmd_regs, runCmd_masks])

theorem cmdChainStat_keeps (s : State) : Keeps s (cmdChainStat s).st := by
  unfold cmdChainStat
  try dsimp only
  (repeat' split) <;> simp [Keeps, Res.of]
@[simp] theorem cmdChainStat_pending (s : State) : (cmdChainStat s).st.pending = s.pending := (cmdChainStat_keeps s).1
@[simp] theorem cmdChainStat_clk (s : State) : (cmdChainStat s).st.clk = s.clk := (cmdChainStat_keeps s).2.1
@[simp] theorem cmdChainStat_regs (s : State) : (cmdChainStat s).st.regs = s.regs := (cmdChainStat_keeps s).2.2.1
@[simp] theorem cmdChainStat_masks (s : State) : (cmdChainStat s).st.evt.masks = s.evt.masks := (cmdChainStat_keeps s).2.2.2

theorem execChainStat_keeps (rq : Req) (s : State) {t : State} (h : execChainStat rq s = .next t) : Keeps s t := by
  unfold execChainStat at h
  try dsimp only at h
  (repeat' split at h) <;> (injection h with h; subst h; simp [Keeps, runCmd_pending, runCmd_clk, runCmd_regs, runCmd_masks])

end Sys2Proof.Machine
end

