-- ==== Sys2Proof/Laws/Keep/Power.lean ====
section
/-! SUPPORT. What the operations of `Machine/Power.lean` leave alone. -/

namespace Sys2Proof.Machine

open Sys2Proof

theorem execVstkLowSet_keeps (s : State) {t : State} (h : execVstkLowSet s = .next t) : Keeps s t := by
  unfold execVstkLowSet at h
  try dsimp only at h
  (repeat' split at h) <;> (injection h with h; subst h; simp [Keeps])

theorem execVstkLowClear_keeps (s : State) {t : State} (h : execVstkLowClear s = .next t) : Keeps s t := by
  unfold execVstkLowClear at h
  try dsimp only at h
  (repeat' split at h) <;> (injection h with h; subst h; simp [Keeps])

theorem execRailFault_keeps (vregBad : Bool) (vdd33Bad : Bool) (s : State) {t : State} (h : execRailFault vregBad vdd33Bad s = .next t) : Keeps s t := by
  unfold execRailFault at h
  try dsimp only at h
  (repeat' split at h) <;> (injection h with h; subst h; simp [Keeps])

theorem execVddioChange_keeps (present : Bool) (s : State) {t : State} (h : execVddioChange present s = .next t) : Keeps s t := by
  unfold execVddioChange at h
  try dsimp only at h
  (repeat' split at h) <;> (injection h with h; subst h; simp [Keeps])

theorem execSupplyUpdate_keeps (vstk10mV : BitVec 16) (vspMV : BitVec 16) (s : State) {t : State} (h : execSupplyUpdate vstk10mV vspMV s = .next t) : Keeps s t := by
  unfold execSupplyUpdate at h
  try dsimp only at h
  (repeat' split at h) <;> (injection h with h; subst h; simp [Keeps])

theorem execXtalTaken_keeps (s : State) {t : State} (h : execXtalTaken s = .next t) : Keeps s t := by
  unfold execXtalTaken at h
  try dsimp only at h
  (repeat' split at h) <;> (injection h with h; subst h; simp [Keeps])

theorem execXtalStop_keeps (s : State) {t : State} (h : execXtalStop s = .next t) : Keeps s t := by
  unfold execXtalStop at h
  try dsimp only at h
  (repeat' split at h) <;> (injection h with h; subst h; simp [Keeps])

theorem islandsFail_keeps (new : BitVec 25) (s : State) : Keeps s (islandsFail new s) := by
  unfold islandsFail
  try dsimp only
  (repeat' split) <;>
    first
    | (simp [Keeps, fold_pending, fold_clk, fold_regs, fold_masks, fold1_pending, fold1_clk, fold1_regs, fold1_masks, apply_ite State.pending, apply_ite State.clk, apply_ite State.regs, apply_ite State.evt, apply_ite EvtSt.masks]; done)
    | (refine Keeps.trans ?_ (fold_keeps _ (fun s a => ?_) _ _) <;> (try dsimp only) <;> (repeat' split) <;> simp [Keeps])
@[simp] theorem islandsFail_pending (new : BitVec 25) (s : State) : (islandsFail new s).pending = s.pending := (islandsFail_keeps new s).1
@[simp] theorem islandsFail_clk (new : BitVec 25) (s : State) : (islandsFail new s).clk = s.clk := (islandsFail_keeps new s).2.1
@[simp] theorem islandsFail_regs (new : BitVec 25) (s : State) : (islandsFail new s).regs = s.regs := (islandsFail_keeps new s).2.2.1
@[simp] theorem islandsFail_masks (new : BitVec 25) (s : State) : (islandsFail new s).evt.masks = s.evt.masks := (islandsFail_keeps new s).2.2.2

theorem execClockCheck_keeps (dev : BitVec 25) (mosc : Bool) (s : State) {t : State} (h : execClockCheck dev mosc s = .next t) : Keeps s t := by
  unfold execClockCheck at h
  try dsimp only at h
  (repeat' split at h) <;> (injection h with h; subst h; simp [Keeps])

theorem execStrobeTimeout_keeps (s : State) {t : State} (h : execStrobeTimeout s = .next t) : Keeps s t := by
  unfold execStrobeTimeout at h
  try dsimp only at h
  (repeat' split at h) <;> (injection h with h; subst h; simp [Keeps])

theorem execCoreStall_keeps (s : State) {t : State} (h : execCoreStall s = .next t) : Keeps s t := by
  unfold execCoreStall at h
  try dsimp only at h
  (repeat' split at h) <;> (injection h with h; subst h; simp [Keeps])

theorem execFabricStall_keeps (cls : Fin 6) (wait100ns : Nat) (s : State) {t : State} (h : execFabricStall cls wait100ns s = .next t) : Keeps s t := by
  unfold execFabricStall at h
  try dsimp only at h
  (repeat' split at h) <;> (injection h with h; subst h; simp [Keeps])

theorem execIdleEntry_keeps (s : State) {t : State} (h : execIdleEntry s = .next t) : Keeps s t := by
  unfold execIdleEntry at h
  try dsimp only at h
  (repeat' split at h) <;> (injection h with h; subst h; simp [Keeps])

theorem execModeEntry_keeps (s : State) {t : State} (h : execModeEntry s = .next t) : Keeps s t := by
  unfold execModeEntry at h
  try dsimp only at h
  (repeat' split at h) <;> (injection h with h; subst h; simp [Keeps])

theorem execSentinelWake_keeps (cellUV : List Int) (auxUV : List Nat) (vtrefUV : Nat) (dieTenths : Int) (s : State) {t : State} (h : execSentinelWake cellUV auxUV vtrefUV dieTenths s = .next t) : Keeps s t := by
  unfold execSentinelWake at h
  try dsimp only at h
  (repeat' split at h) <;> (injection h with h; subst h; simp [Keeps])

theorem execSentinelBurst_keeps (vspOk : Bool) (s : State) {t : State} (h : execSentinelBurst vspOk s = .next t) : Keeps s t := by
  unfold execSentinelBurst at h
  try dsimp only at h
  (repeat' split at h) <;> (injection h with h; subst h; simp [Keeps])

theorem burstValue_keeps (n : Nat) (s : State) : Keeps s (burstValue n s) := by
  unfold burstValue
  try dsimp only
  (repeat' split) <;> simp [Keeps]
@[simp] theorem burstValue_pending (n : Nat) (s : State) : (burstValue n s).pending = s.pending := (burstValue_keeps n s).1
@[simp] theorem burstValue_clk (n : Nat) (s : State) : (burstValue n s).clk = s.clk := (burstValue_keeps n s).2.1
@[simp] theorem burstValue_regs (n : Nat) (s : State) : (burstValue n s).regs = s.regs := (burstValue_keeps n s).2.2.1
@[simp] theorem burstValue_masks (n : Nat) (s : State) : (burstValue n s).evt.masks = s.evt.masks := (burstValue_keeps n s).2.2.2

theorem execBurstEnd_keeps (port : Fin 2) (s : State) {t : State} (h : execBurstEnd port s = .next t) : Keeps s t := by
  unfold execBurstEnd at h
  try dsimp only at h
  (repeat' split at h) <;> (injection h with h; subst h; simp [Keeps])

theorem wakeUp_keeps (bit : Nat) (s : State) : Keeps s (wakeUp bit s) := by
  unfold wakeUp
  try dsimp only
  (repeat' split) <;> simp [Keeps]
@[simp] theorem wakeUp_pending (bit : Nat) (s : State) : (wakeUp bit s).pending = s.pending := (wakeUp_keeps bit s).1
@[simp] theorem wakeUp_clk (bit : Nat) (s : State) : (wakeUp bit s).clk = s.clk := (wakeUp_keeps bit s).2.1
@[simp] theorem wakeUp_regs (bit : Nat) (s : State) : (wakeUp bit s).regs = s.regs := (wakeUp_keeps bit s).2.2.1
@[simp] theorem wakeUp_masks (bit : Nat) (s : State) : (wakeUp bit s).evt.masks = s.evt.masks := (wakeUp_keeps bit s).2.2.2

theorem toneEvent_keeps (s : State) : Keeps s (toneEvent s) := by
  unfold toneEvent
  try dsimp only
  (repeat' split) <;> simp [Keeps]
@[simp] theorem toneEvent_pending (s : State) : (toneEvent s).pending = s.pending := (toneEvent_keeps s).1
@[simp] theorem toneEvent_clk (s : State) : (toneEvent s).clk = s.clk := (toneEvent_keeps s).2.1
@[simp] theorem toneEvent_regs (s : State) : (toneEvent s).regs = s.regs := (toneEvent_keeps s).2.2.1
@[simp] theorem toneEvent_masks (s : State) : (toneEvent s).evt.masks = s.evt.masks := (toneEvent_keeps s).2.2.2

theorem execWakeComplete_keeps (s : State) {t : State} (h : execWakeComplete s = .next t) : Keeps s t := by
  unfold execWakeComplete at h
  try dsimp only at h
  (repeat' split at h) <;> (injection h with h; subst h; simp [Keeps])

end Sys2Proof.Machine
end

