-- ==== Sys2Proof/Laws/Keep/Lifecycle.lean ====
section
/-! SUPPORT. What the operations of `Machine/Lifecycle.lean` leave alone. -/

namespace Sys2Proof.Machine

open Sys2Proof

@[simp] theorem keepCore_pending (s z : State) : (keepCore s z).pending = s.pending := rfl
@[simp] theorem keepCore_clk (s z : State) : (keepCore s z).clk = s.clk := rfl

theorem keepRecords_keeps (s : State) (z : State) : Keeps z (keepRecords s z) := by
  unfold keepRecords
  try dsimp only
  (repeat' split) <;> simp [Keeps]
@[simp] theorem keepRecords_pending (s : State) (z : State) : (keepRecords s z).pending = z.pending := (keepRecords_keeps s z).1
@[simp] theorem keepRecords_clk (s : State) (z : State) : (keepRecords s z).clk = z.clk := (keepRecords_keeps s z).2.1
@[simp] theorem keepRecords_regs (s : State) (z : State) : (keepRecords s z).regs = z.regs := (keepRecords_keeps s z).2.2.1
@[simp] theorem keepRecords_masks (s : State) (z : State) : (keepRecords s z).evt.masks = z.evt.masks := (keepRecords_keeps s z).2.2.2

theorem keepVao_keeps (s : State) (z : State) : Keeps z (keepVao s z) := by
  unfold keepVao
  try dsimp only
  (repeat' split) <;> simp [Keeps]
@[simp] theorem keepVao_pending (s : State) (z : State) : (keepVao s z).pending = z.pending := (keepVao_keeps s z).1
@[simp] theorem keepVao_clk (s : State) (z : State) : (keepVao s z).clk = z.clk := (keepVao_keeps s z).2.1
@[simp] theorem keepVao_regs (s : State) (z : State) : (keepVao s z).regs = z.regs := (keepVao_keeps s z).2.2.1
@[simp] theorem keepVao_masks (s : State) (z : State) : (keepVao s z).evt.masks = z.evt.masks := (keepVao_keeps s z).2.2.2

theorem keepPorts_keeps (s : State) (z : State) : Keeps z (keepPorts s z) := by
  unfold keepPorts
  try dsimp only
  (repeat' split) <;> simp [Keeps]
@[simp] theorem keepPorts_pending (s : State) (z : State) : (keepPorts s z).pending = z.pending := (keepPorts_keeps s z).1
@[simp] theorem keepPorts_clk (s : State) (z : State) : (keepPorts s z).clk = z.clk := (keepPorts_keeps s z).2.1
@[simp] theorem keepPorts_regs (s : State) (z : State) : (keepPorts s z).regs = z.regs := (keepPorts_keeps s z).2.2.1
@[simp] theorem keepPorts_masks (s : State) (z : State) : (keepPorts s z).evt.masks = z.evt.masks := (keepPorts_keeps s z).2.2.2

theorem keepThermal_keeps (s : State) (z : State) : Keeps z (keepThermal s z) := by
  unfold keepThermal
  try dsimp only
  (repeat' split) <;> simp [Keeps]
@[simp] theorem keepThermal_pending (s : State) (z : State) : (keepThermal s z).pending = z.pending := (keepThermal_keeps s z).1
@[simp] theorem keepThermal_clk (s : State) (z : State) : (keepThermal s z).clk = z.clk := (keepThermal_keeps s z).2.1
@[simp] theorem keepThermal_regs (s : State) (z : State) : (keepThermal s z).regs = z.regs := (keepThermal_keeps s z).2.2.1
@[simp] theorem keepThermal_masks (s : State) (z : State) : (keepThermal s z).evt.masks = z.evt.masks := (keepThermal_keeps s z).2.2.2

theorem keepIdentity_keeps (cause : Nat) (s : State) (z : State) : Keeps z (keepIdentity cause s z) := by
  unfold keepIdentity
  try dsimp only
  (repeat' split) <;> simp [Keeps]
@[simp] theorem keepIdentity_pending (cause : Nat) (s : State) (z : State) : (keepIdentity cause s z).pending = z.pending := (keepIdentity_keeps cause s z).1
@[simp] theorem keepIdentity_clk (cause : Nat) (s : State) (z : State) : (keepIdentity cause s z).clk = z.clk := (keepIdentity_keeps cause s z).2.1
@[simp] theorem keepIdentity_regs (cause : Nat) (s : State) (z : State) : (keepIdentity cause s z).regs = z.regs := (keepIdentity_keeps cause s z).2.2.1
@[simp] theorem keepIdentity_masks (cause : Nat) (s : State) (z : State) : (keepIdentity cause s z).evt.masks = z.evt.masks := (keepIdentity_keeps cause s z).2.2.2

theorem trialFails_keeps (ready : Bool) (s : State) : Keeps s (trialFails ready s) := by
  unfold trialFails
  try dsimp only
  (repeat' split) <;> simp [Keeps]
@[simp] theorem trialFails_pending (ready : Bool) (s : State) : (trialFails ready s).pending = s.pending := (trialFails_keeps ready s).1
@[simp] theorem trialFails_clk (ready : Bool) (s : State) : (trialFails ready s).clk = s.clk := (trialFails_keeps ready s).2.1
@[simp] theorem trialFails_regs (ready : Bool) (s : State) : (trialFails ready s).regs = s.regs := (trialFails_keeps ready s).2.2.1
@[simp] theorem trialFails_masks (ready : Bool) (s : State) : (trialFails ready s).evt.masks = s.evt.masks := (trialFails_keeps ready s).2.2.2

theorem resetTo_keeps (cause : Nat) (s : State) : (resetTo cause s).pending = s.pending ∧ (resetTo cause s).clk = s.clk := by
  unfold resetTo
  try dsimp only
  (repeat' split) <;> simp
@[simp] theorem resetTo_pending (cause : Nat) (s : State) : (resetTo cause s).pending = s.pending := (resetTo_keeps cause s).1
@[simp] theorem resetTo_clk (cause : Nat) (s : State) : (resetTo cause s).clk = s.clk := (resetTo_keeps cause s).2

theorem execPowerOnReset_keeps (s : State) {t : State} (h : execPowerOnReset s = .next t) : t.pending = s.pending ∧ t.clk = s.clk := by
  unfold execPowerOnReset at h
  try dsimp only at h
  (repeat' split at h) <;> (injection h with h; subst h; simp)

theorem execRstNPulse_keeps (lowUs : Nat) (s : State) {t : State} (h : execRstNPulse lowUs s = .next t) : t.pending = s.pending ∧ t.clk = s.clk := by
  unfold execRstNPulse at h
  try dsimp only at h
  (repeat' split at h) <;> (injection h with h; subst h; simp)

theorem execMemberReset_keeps (s : State) {t : State} (h : execMemberReset s = .next t) : t.pending = s.pending ∧ t.clk = s.clk := by
  unfold execMemberReset at h
  try dsimp only at h
  (repeat' split at h) <;> (injection h with h; subst h; simp)

theorem execFwRestart_keeps (s : State) {t : State} (h : execFwRestart s = .next t) : t.pending = s.pending ∧ t.clk = s.clk := by
  unfold execFwRestart at h
  try dsimp only at h
  (repeat' split at h) <;> (injection h with h; subst h; simp)

theorem execTrialBootFail_keeps (s : State) {t : State} (h : execTrialBootFail s = .next t) : t.pending = s.pending ∧ t.clk = s.clk := by
  unfold execTrialBootFail at h
  try dsimp only at h
  (repeat' split at h) <;> (injection h with h; subst h; simp)

theorem latchAnchor_keeps (pin : Bool) (s : State) : Keeps s (latchAnchor pin s) := by
  unfold latchAnchor
  try dsimp only
  (repeat' split) <;> simp [Keeps]
@[simp] theorem latchAnchor_pending (pin : Bool) (s : State) : (latchAnchor pin s).pending = s.pending := (latchAnchor_keeps pin s).1
@[simp] theorem latchAnchor_clk (pin : Bool) (s : State) : (latchAnchor pin s).clk = s.clk := (latchAnchor_keeps pin s).2.1
@[simp] theorem latchAnchor_regs (pin : Bool) (s : State) : (latchAnchor pin s).regs = s.regs := (latchAnchor_keeps pin s).2.2.1
@[simp] theorem latchAnchor_masks (pin : Bool) (s : State) : (latchAnchor pin s).evt.masks = s.evt.masks := (latchAnchor_keeps pin s).2.2.2

theorem selectBank_keeps (boot : BootIn) (s : State) : Keeps s (selectBank boot s) := by
  unfold selectBank
  try dsimp only
  (repeat' split) <;> simp [Keeps]
@[simp] theorem selectBank_pending (boot : BootIn) (s : State) : (selectBank boot s).pending = s.pending := (selectBank_keeps boot s).1
@[simp] theorem selectBank_clk (boot : BootIn) (s : State) : (selectBank boot s).clk = s.clk := (selectBank_keeps boot s).2.1
@[simp] theorem selectBank_regs (boot : BootIn) (s : State) : (selectBank boot s).regs = s.regs := (selectBank_keeps boot s).2.2.1
@[simp] theorem selectBank_masks (boot : BootIn) (s : State) : (selectBank boot s).evt.masks = s.evt.masks := (selectBank_keeps boot s).2.2.2

theorem selectCopy_keeps (boot : BootIn) (s : State) : Keeps s (selectCopy boot s) := by
  unfold selectCopy
  try dsimp only
  (repeat' split) <;> simp [Keeps]
@[simp] theorem selectCopy_pending (boot : BootIn) (s : State) : (selectCopy boot s).pending = s.pending := (selectCopy_keeps boot s).1
@[simp] theorem selectCopy_clk (boot : BootIn) (s : State) : (selectCopy boot s).clk = s.clk := (selectCopy_keeps boot s).2.1
@[simp] theorem selectCopy_regs (boot : BootIn) (s : State) : (selectCopy boot s).regs = s.regs := (selectCopy_keeps boot s).2.2.1
@[simp] theorem selectCopy_masks (boot : BootIn) (s : State) : (selectCopy boot s).evt.masks = s.evt.masks := (selectCopy_keeps boot s).2.2.2

theorem loadConfig_keeps (s : State) : (loadConfig s).pending = s.pending ∧ (loadConfig s).clk = s.clk ∧ (loadConfig s).evt.masks = s.evt.masks := by
  unfold loadConfig
  try dsimp only
  (repeat' split) <;> simp [fold_pending, fold_clk, fold_masks, fold1_pending, fold1_clk, fold1_masks, apply_ite State.pending, apply_ite State.clk, apply_ite State.evt, apply_ite EvtSt.masks]
@[simp] theorem loadConfig_pending (s : State) : (loadConfig s).pending = s.pending := (loadConfig_keeps s).1
@[simp] theorem loadConfig_clk (s : State) : (loadConfig s).clk = s.clk := (loadConfig_keeps s).2.1
@[simp] theorem loadConfig_masks (s : State) : (loadConfig s).evt.masks = s.evt.masks := (loadConfig_keeps s).2.2

theorem startVermilion_keeps (blockBad : Bool) (s : State) : Keeps s (startVermilion blockBad s) := by
  unfold startVermilion
  try dsimp only
  (repeat' split) <;> simp [Keeps]
@[simp] theorem startVermilion_pending (blockBad : Bool) (s : State) : (startVermilion blockBad s).pending = s.pending := (startVermilion_keeps blockBad s).1
@[simp] theorem startVermilion_clk (blockBad : Bool) (s : State) : (startVermilion blockBad s).clk = s.clk := (startVermilion_keeps blockBad s).2.1
@[simp] theorem startVermilion_regs (blockBad : Bool) (s : State) : (startVermilion blockBad s).regs = s.regs := (startVermilion_keeps blockBad s).2.2.1
@[simp] theorem startVermilion_masks (blockBad : Bool) (s : State) : (startVermilion blockBad s).evt.masks = s.evt.masks := (startVermilion_keeps blockBad s).2.2.2

theorem scanLog_keeps (boot : BootIn) (s : State) : Keeps s (scanLog boot s) := by
  unfold scanLog
  try dsimp only
  (repeat' split) <;>
    first
    | (simp [Keeps, fold_pending, fold_clk, fold_regs, fold_masks, fold1_pending, fold1_clk, fold1_regs, fold1_masks, apply_ite State.pending, apply_ite State.clk, apply_ite State.regs, apply_ite State.evt, apply_ite EvtSt.masks]; done)
    | (refine Keeps.trans ?_ (fold_keeps _ (fun s a => ?_) _ _) <;> (try dsimp only) <;> (repeat' split) <;> simp [Keeps])
@[simp] theorem scanLog_pending (boot : BootIn) (s : State) : (scanLog boot s).pending = s.pending := (scanLog_keeps boot s).1
@[simp] theorem scanLog_clk (boot : BootIn) (s : State) : (scanLog boot s).clk = s.clk := (scanLog_keeps boot s).2.1
@[simp] theorem scanLog_regs (boot : BootIn) (s : State) : (scanLog boot s).regs = s.regs := (scanLog_keeps boot s).2.2.1
@[simp] theorem scanLog_masks (boot : BootIn) (s : State) : (scanLog boot s).evt.masks = s.evt.masks := (scanLog_keeps boot s).2.2.2

theorem execPowerUp_keeps (boot : BootIn) (s : State) {t : State} (h : execPowerUp boot s = .next t) : t.pending = s.pending ∧ t.clk = s.clk ∧ t.evt.masks = s.evt.masks := by
  unfold execPowerUp at h
  try dsimp only at h
  (repeat' split at h) <;> (injection h with h; subst h; simp)

theorem execBootComplete_keeps (s : State) {t : State} (h : execBootComplete s = .next t) : Keeps s t := by
  unfold execBootComplete at h
  try dsimp only at h
  (repeat' split at h) <;> (injection h with h; subst h; simp [Keeps])

theorem leaveShip_keeps (bit : Nat) (s : State) : (leaveShip bit s).pending = s.pending ∧ (leaveShip bit s).clk = s.clk := by
  unfold leaveShip
  try dsimp only
  (repeat' split) <;> simp
@[simp] theorem leaveShip_pending (bit : Nat) (s : State) : (leaveShip bit s).pending = s.pending := (leaveShip_keeps bit s).1
@[simp] theorem leaveShip_clk (bit : Nat) (s : State) : (leaveShip bit s).clk = s.clk := (leaveShip_keeps bit s).2

theorem execWakePin_keeps (highUs : Nat) (s : State) {t : State} (h : execWakePin highUs s = .next t) : t.pending = s.pending ∧ t.clk = s.clk := by
  unfold execWakePin at h
  try dsimp only at h
  (repeat' split at h) <;> (injection h with h; subst h; simp)

theorem execHostWakeEdge_keeps (p : HPort) (s : State) {t : State} (h : execHostWakeEdge p s = .next t) : Keeps s t := by
  unfold execHostWakeEdge at h
  try dsimp only at h
  (repeat' split at h) <;> (injection h with h; subst h; simp [Keeps])

theorem noteTone_keeps (sd : Side) (s : State) : Keeps s (noteTone sd s) := by
  unfold noteTone
  try dsimp only
  (repeat' split) <;> simp [Keeps]
@[simp] theorem noteTone_pending (sd : Side) (s : State) : (noteTone sd s).pending = s.pending := (noteTone_keeps sd s).1
@[simp] theorem noteTone_clk (sd : Side) (s : State) : (noteTone sd s).clk = s.clk := (noteTone_keeps sd s).2.1
@[simp] theorem noteTone_regs (sd : Side) (s : State) : (noteTone sd s).regs = s.regs := (noteTone_keeps sd s).2.2.1
@[simp] theorem noteTone_masks (sd : Side) (s : State) : (noteTone sd s).evt.masks = s.evt.masks := (noteTone_keeps sd s).2.2.2

theorem toneEnds_keeps (sd : Side) (s : State) : Keeps s (toneEnds sd s) := by
  unfold toneEnds
  try dsimp only
  (repeat' split) <;> simp [Keeps]
@[simp] theorem toneEnds_pending (sd : Side) (s : State) : (toneEnds sd s).pending = s.pending := (toneEnds_keeps sd s).1
@[simp] theorem toneEnds_clk (sd : Side) (s : State) : (toneEnds sd s).clk = s.clk := (toneEnds_keeps sd s).2.1
@[simp] theorem toneEnds_regs (sd : Side) (s : State) : (toneEnds sd s).regs = s.regs := (toneEnds_keeps sd s).2.2.1
@[simp] theorem toneEnds_masks (sd : Side) (s : State) : (toneEnds sd s).evt.masks = s.evt.masks := (toneEnds_keeps sd s).2.2.2

theorem execWakeTone_keeps (sd : Side) (s : State) {t : State} (h : execWakeTone sd s = .next t) : t.pending = s.pending ∧ t.clk = s.clk := by
  unfold execWakeTone at h
  try dsimp only at h
  (repeat' split at h) <;> (injection h with h; subst h; simp)

theorem execWakeToneRepeat_keeps (sd : Side) (s : State) {t : State} (h : execWakeToneRepeat sd s = .next t) : Keeps s t := by
  unfold execWakeToneRepeat at h
  try dsimp only at h
  (repeat' split at h) <;> (injection h with h; subst h; simp [Keeps])

theorem discardPartial_keeps (s : State) : Keeps s (discardPartial s) := by
  unfold discardPartial
  try dsimp only
  (repeat' split) <;> simp [Keeps]
@[simp] theorem discardPartial_pending (s : State) : (discardPartial s).pending = s.pending := (discardPartial_keeps s).1
@[simp] theorem discardPartial_clk (s : State) : (discardPartial s).clk = s.clk := (discardPartial_keeps s).2.1
@[simp] theorem discardPartial_regs (s : State) : (discardPartial s).regs = s.regs := (discardPartial_keeps s).2.2.1
@[simp] theorem discardPartial_masks (s : State) : (discardPartial s).evt.masks = s.evt.masks := (discardPartial_keeps s).2.2.2

theorem execFwPartialTimeout_keeps (s : State) {t : State} (h : execFwPartialTimeout s = .next t) : Keeps s t := by
  unfold execFwPartialTimeout at h
  try dsimp only at h
  (repeat' split at h) <;> (injection h with h; subst h; simp [Keeps])

theorem activateFw_keeps (crc : Word) (s : State) : Keeps s (activateFw crc s) := by
  unfold activateFw
  try dsimp only
  (repeat' split) <;> simp [Keeps]
@[simp] theorem activateFw_pending (crc : Word) (s : State) : (activateFw crc s).pending = s.pending := (activateFw_keeps crc s).1
@[simp] theorem activateFw_clk (crc : Word) (s : State) : (activateFw crc s).clk = s.clk := (activateFw_keeps crc s).2.1
@[simp] theorem activateFw_regs (crc : Word) (s : State) : (activateFw crc s).regs = s.regs := (activateFw_keeps crc s).2.2.1
@[simp] theorem activateFw_masks (crc : Word) (s : State) : (activateFw crc s).evt.masks = s.evt.masks := (activateFw_keeps crc s).2.2.2

theorem execFwCheckDone_keeps (s : State) {t : State} (h : execFwCheckDone s = .next t) : Keeps s t := by
  unfold execFwCheckDone at h
  try dsimp only at h
  (repeat' split at h) <;> (injection h with h; subst h; simp [Keeps])

theorem commitImage_keeps (l : List Byte) (h : Fin 4) (seq : Nat) (agrees : Bool) (writeOk : Bool) (s : State) : Keeps s (commitImage l h seq agrees writeOk s) := by
  unfold commitImage
  try dsimp only
  (repeat' split) <;> simp [Keeps]
@[simp] theorem commitImage_pending (l : List Byte) (h : Fin 4) (seq : Nat) (agrees : Bool) (writeOk : Bool) (s : State) : (commitImage l h seq agrees writeOk s).pending = s.pending := (commitImage_keeps l h seq agrees writeOk s).1
@[simp] theorem commitImage_clk (l : List Byte) (h : Fin 4) (seq : Nat) (agrees : Bool) (writeOk : Bool) (s : State) : (commitImage l h seq agrees writeOk s).clk = s.clk := (commitImage_keeps l h seq agrees writeOk s).2.1
@[simp] theorem commitImage_regs (l : List Byte) (h : Fin 4) (seq : Nat) (agrees : Bool) (writeOk : Bool) (s : State) : (commitImage l h seq agrees writeOk s).regs = s.regs := (commitImage_keeps l h seq agrees writeOk s).2.2.1
@[simp] theorem commitImage_masks (l : List Byte) (h : Fin 4) (seq : Nat) (agrees : Bool) (writeOk : Bool) (s : State) : (commitImage l h seq agrees writeOk s).evt.masks = s.evt.masks := (commitImage_keeps l h seq agrees writeOk s).2.2.2

theorem execCfgCheckDone_keeps (writeOk : Bool) (s : State) {t : State} (h : execCfgCheckDone writeOk s = .next t) : Keeps s t := by
  unfold execCfgCheckDone at h
  try dsimp only at h
  (repeat' split at h) <;> (injection h with h; subst h; simp [Keeps])

end Sys2Proof.Machine
end

