-- ==== Sys2Proof/Laws/Keep/HostCmd2.lean ====
section
/-! SUPPORT. What the operations of `Machine/HostCmd2.lean` leave alone. -/

namespace Sys2Proof.Machine

open Sys2Proof

theorem setInactive_keeps (m : List Host.Cell) (s : State) : Keeps s (setInactive m s) := by
  unfold setInactive
  try dsimp only
  (repeat' split) <;> simp [Keeps]
@[simp] theorem setInactive_pending (m : List Host.Cell) (s : State) : (setInactive m s).pending = s.pending := (setInactive_keeps m s).1
@[simp] theorem setInactive_clk (m : List Host.Cell) (s : State) : (setInactive m s).clk = s.clk := (setInactive_keeps m s).2.1
@[simp] theorem setInactive_regs (m : List Host.Cell) (s : State) : (setInactive m s).regs = s.regs := (setInactive_keeps m s).2.2.1
@[simp] theorem setInactive_masks (m : List Host.Cell) (s : State) : (setInactive m s).evt.masks = s.evt.masks := (setInactive_keeps m s).2.2.2

theorem unqualify_keeps (s : State) : Keeps s (unqualify s) := by
  unfold unqualify
  try dsimp only
  (repeat' split) <;> simp [Keeps]
@[simp] theorem unqualify_pending (s : State) : (unqualify s).pending = s.pending := (unqualify_keeps s).1
@[simp] theorem unqualify_clk (s : State) : (unqualify s).clk = s.clk := (unqualify_keeps s).2.1
@[simp] theorem unqualify_regs (s : State) : (unqualify s).regs = s.regs := (unqualify_keeps s).2.2.1
@[simp] theorem unqualify_masks (s : State) : (unqualify s).evt.masks = s.evt.masks := (unqualify_keeps s).2.2.2

theorem cmdFwLoad_keeps (offset : Word) (image : List Byte) (s : State) : Keeps s (cmdFwLoad offset image s).st := by
  unfold cmdFwLoad
  try dsimp only
  (repeat' split) <;> simp [Keeps, Res.of]
@[simp] theorem cmdFwLoad_pending (offset : Word) (image : List Byte) (s : State) : (cmdFwLoad offset image s).st.pending = s.pending := (cmdFwLoad_keeps offset image s).1
@[simp] theorem cmdFwLoad_clk (offset : Word) (image : List Byte) (s : State) : (cmdFwLoad offset image s).st.clk = s.clk := (cmdFwLoad_keeps offset image s).2.1
@[simp] theorem cmdFwLoad_regs (offset : Word) (image : List Byte) (s : State) : (cmdFwLoad offset image s).st.regs = s.regs := (cmdFwLoad_keeps offset image s).2.2.1
@[simp] theorem cmdFwLoad_masks (offset : Word) (image : List Byte) (s : State) : (cmdFwLoad offset image s).st.evt.masks = s.evt.masks := (cmdFwLoad_keeps offset image s).2.2.2

theorem execFwLoad_keeps (rq : Req) (offset : Word) (image : List Byte) (s : State) {t : State} (h : execFwLoad rq offset image s = .next t) : Keeps s t := by
  unfold execFwLoad at h
  try dsimp only at h
  (repeat' split at h) <;> (injection h with h; subst h; simp [Keeps, runCmd_pending, runCmd_clk, runCmd_regs, runCmd_masks])

theorem cmdFwActivate_keeps (rq : Req) (crc : Word) (s : State) : Keeps s (cmdFwActivate rq crc s).st := by
  unfold cmdFwActivate
  try dsimp only
  (repeat' split) <;> simp [Keeps, Res.of]
@[simp] theorem cmdFwActivate_pending (rq : Req) (crc : Word) (s : State) : (cmdFwActivate rq crc s).st.pending = s.pending := (cmdFwActivate_keeps rq crc s).1
@[simp] theorem cmdFwActivate_clk (rq : Req) (crc : Word) (s : State) : (cmdFwActivate rq crc s).st.clk = s.clk := (cmdFwActivate_keeps rq crc s).2.1
@[simp] theorem cmdFwActivate_regs (rq : Req) (crc : Word) (s : State) : (cmdFwActivate rq crc s).st.regs = s.regs := (cmdFwActivate_keeps rq crc s).2.2.1
@[simp] theorem cmdFwActivate_masks (rq : Req) (crc : Word) (s : State) : (cmdFwActivate rq crc s).st.evt.masks = s.evt.masks := (cmdFwActivate_keeps rq crc s).2.2.2

theorem execFwActivate_keeps (rq : Req) (crc : Word) (s : State) {t : State} (h : execFwActivate rq crc s = .next t) : Keeps s t := by
  unfold execFwActivate at h
  try dsimp only at h
  (repeat' split at h) <;> (injection h with h; subst h; simp [Keeps, runCmd_pending, runCmd_clk, runCmd_regs, runCmd_masks])

theorem routeHost_keeps (h : Nat) (auth : Option Auth) (s : State) : Keeps s (routeHost h auth s) := by
  unfold routeHost
  try dsimp only
  (repeat' split) <;> simp [Keeps]
@[simp] theorem routeHost_pending (h : Nat) (auth : Option Auth) (s : State) : (routeHost h auth s).pending = s.pending := (routeHost_keeps h auth s).1
@[simp] theorem routeHost_clk (h : Nat) (auth : Option Auth) (s : State) : (routeHost h auth s).clk = s.clk := (routeHost_keeps h auth s).2.1
@[simp] theorem routeHost_regs (h : Nat) (auth : Option Auth) (s : State) : (routeHost h auth s).regs = s.regs := (routeHost_keeps h auth s).2.2.1
@[simp] theorem routeHost_masks (h : Nat) (auth : Option Auth) (s : State) : (routeHost h auth s).evt.masks = s.evt.masks := (routeHost_keeps h auth s).2.2.2

theorem bindHost_keeps (h : Nat) (pos : Nat) (port : Nat) (auth : Nat) (s : State) : (bindHost h pos port auth s).pending = s.pending ∧ (bindHost h pos port auth s).clk = s.clk ∧ (bindHost h pos port auth s).regs = s.regs := by
  unfold bindHost
  try dsimp only
  (repeat' split) <;> simp
@[simp] theorem bindHost_pending (h : Nat) (pos : Nat) (port : Nat) (auth : Nat) (s : State) : (bindHost h pos port auth s).pending = s.pending := (bindHost_keeps h pos port auth s).1
@[simp] theorem bindHost_clk (h : Nat) (pos : Nat) (port : Nat) (auth : Nat) (s : State) : (bindHost h pos port auth s).clk = s.clk := (bindHost_keeps h pos port auth s).2.1
@[simp] theorem bindHost_regs (h : Nat) (pos : Nat) (port : Nat) (auth : Nat) (s : State) : (bindHost h pos port auth s).regs = s.regs := (bindHost_keeps h pos port auth s).2.2

theorem cmdBindHost_keeps (rq : Req) (host : Byte) (position : Byte) (port : Byte) (authority : Byte) (s : State) : (cmdBindHost rq host position port authority s).st.pending = s.pending ∧ (cmdBindHost rq host position port authority s).st.clk = s.clk ∧ (cmdBindHost rq host position port authority s).st.regs = s.regs := by
  unfold cmdBindHost
  try dsimp only
  (repeat' split) <;> simp [Res.of]
@[simp] theorem cmdBindHost_pending (rq : Req) (host : Byte) (position : Byte) (port : Byte) (authority : Byte) (s : State) : (cmdBindHost rq host position port authority s).st.pending = s.pending := (cmdBindHost_keeps rq host position port authority s).1
@[simp] theorem cmdBindHost_clk (rq : Req) (host : Byte) (position : Byte) (port : Byte) (authority : Byte) (s : State) : (cmdBindHost rq host position port authority s).st.clk = s.clk := (cmdBindHost_keeps rq host position port authority s).2.1
@[simp] theorem cmdBindHost_regs (rq : Req) (host : Byte) (position : Byte) (port : Byte) (authority : Byte) (s : State) : (cmdBindHost rq host position port authority s).st.regs = s.regs := (cmdBindHost_keeps rq host position port authority s).2.2

theorem execBindHost_keeps (rq : Req) (host : Byte) (position : Byte) (port : Byte) (authority : Byte) (s : State) {t : State} (h : execBindHost rq host position port authority s = .next t) : t.pending = s.pending ∧ t.clk = s.clk ∧ t.regs = s.regs := by
  unfold execBindHost at h
  try dsimp only at h
  (repeat' split at h) <;> (injection h with h; subst h; simp [runCmd_pending, runCmd_clk, runCmd_regs])

theorem storeKey_keeps (h : Nat) (key : List Byte) (s : State) : Keeps s (storeKey h key s) := by
  unfold storeKey
  try dsimp only
  (repeat' split) <;> simp [Keeps]
@[simp] theorem storeKey_pending (h : Nat) (key : List Byte) (s : State) : (storeKey h key s).pending = s.pending := (storeKey_keeps h key s).1
@[simp] theorem storeKey_clk (h : Nat) (key : List Byte) (s : State) : (storeKey h key s).clk = s.clk := (storeKey_keeps h key s).2.1
@[simp] theorem storeKey_regs (h : Nat) (key : List Byte) (s : State) : (storeKey h key s).regs = s.regs := (storeKey_keeps h key s).2.2.1
@[simp] theorem storeKey_masks (h : Nat) (key : List Byte) (s : State) : (storeKey h key s).evt.masks = s.evt.masks := (storeKey_keeps h key s).2.2.2

theorem cmdKeyProvision_keeps (rq : Req) (host : Byte) (key : List Byte) (s : State) : Keeps s (cmdKeyProvision rq host key s).st := by
  unfold cmdKeyProvision
  try dsimp only
  (repeat' split) <;> simp [Keeps, Res.of]
@[simp] theorem cmdKeyProvision_pending (rq : Req) (host : Byte) (key : List Byte) (s : State) : (cmdKeyProvision rq host key s).st.pending = s.pending := (cmdKeyProvision_keeps rq host key s).1
@[simp] theorem cmdKeyProvision_clk (rq : Req) (host : Byte) (key : List Byte) (s : State) : (cmdKeyProvision rq host key s).st.clk = s.clk := (cmdKeyProvision_keeps rq host key s).2.1
@[simp] theorem cmdKeyProvision_regs (rq : Req) (host : Byte) (key : List Byte) (s : State) : (cmdKeyProvision rq host key s).st.regs = s.regs := (cmdKeyProvision_keeps rq host key s).2.2.1
@[simp] theorem cmdKeyProvision_masks (rq : Req) (host : Byte) (key : List Byte) (s : State) : (cmdKeyProvision rq host key s).st.evt.masks = s.evt.masks := (cmdKeyProvision_keeps rq host key s).2.2.2

theorem execKeyProvision_keeps (rq : Req) (host : Byte) (key : List Byte) (s : State) {t : State} (h : execKeyProvision rq host key s = .next t) : Keeps s t := by
  unfold execKeyProvision at h
  try dsimp only at h
  (repeat' split at h) <;> (injection h with h; subst h; simp [Keeps, runCmd_pending, runCmd_clk, runCmd_regs, runCmd_masks])

theorem cmdCfgWrite_keeps (offset : BitVec 16) (bytes : List Byte) (s : State) : Keeps s (cmdCfgWrite offset bytes s).st := by
  unfold cmdCfgWrite
  try dsimp only
  (repeat' split) <;> simp [Keeps, Res.of]
@[simp] theorem cmdCfgWrite_pending (offset : BitVec 16) (bytes : List Byte) (s : State) : (cmdCfgWrite offset bytes s).st.pending = s.pending := (cmdCfgWrite_keeps offset bytes s).1
@[simp] theorem cmdCfgWrite_clk (offset : BitVec 16) (bytes : List Byte) (s : State) : (cmdCfgWrite offset bytes s).st.clk = s.clk := (cmdCfgWrite_keeps offset bytes s).2.1
@[simp] theorem cmdCfgWrite_regs (offset : BitVec 16) (bytes : List Byte) (s : State) : (cmdCfgWrite offset bytes s).st.regs = s.regs := (cmdCfgWrite_keeps offset bytes s).2.2.1
@[simp] theorem cmdCfgWrite_masks (offset : BitVec 16) (bytes : List Byte) (s : State) : (cmdCfgWrite offset bytes s).st.evt.masks = s.evt.masks := (cmdCfgWrite_keeps offset bytes s).2.2.2

theorem execCfgWrite_keeps (rq : Req) (offset : BitVec 16) (bytes : List Byte) (s : State) {t : State} (h : execCfgWrite rq offset bytes s = .next t) : Keeps s t := by
  unfold execCfgWrite at h
  try dsimp only at h
  (repeat' split at h) <;> (injection h with h; subst h; simp [Keeps, runCmd_pending, runCmd_clk, runCmd_regs, runCmd_masks])

theorem cmdCfgCommit_keeps (rq : Req) (crc : Word) (s : State) : Keeps s (cmdCfgCommit rq crc s).st := by
  unfold cmdCfgCommit
  try dsimp only
  (repeat' split) <;> simp [Keeps, Res.of]
@[simp] theorem cmdCfgCommit_pending (rq : Req) (crc : Word) (s : State) : (cmdCfgCommit rq crc s).st.pending = s.pending := (cmdCfgCommit_keeps rq crc s).1
@[simp] theorem cmdCfgCommit_clk (rq : Req) (crc : Word) (s : State) : (cmdCfgCommit rq crc s).st.clk = s.clk := (cmdCfgCommit_keeps rq crc s).2.1
@[simp] theorem cmdCfgCommit_regs (rq : Req) (crc : Word) (s : State) : (cmdCfgCommit rq crc s).st.regs = s.regs := (cmdCfgCommit_keeps rq crc s).2.2.1
@[simp] theorem cmdCfgCommit_masks (rq : Req) (crc : Word) (s : State) : (cmdCfgCommit rq crc s).st.evt.masks = s.evt.masks := (cmdCfgCommit_keeps rq crc s).2.2.2

theorem execCfgCommit_keeps (rq : Req) (crc : Word) (s : State) {t : State} (h : execCfgCommit rq crc s = .next t) : Keeps s t := by
  unfold execCfgCommit at h
  try dsimp only at h
  (repeat' split at h) <;> (injection h with h; subst h; simp [Keeps, runCmd_pending, runCmd_clk, runCmd_regs, runCmd_masks])

end Sys2Proof.Machine
end

