-- ==== Sys2Proof/Laws/Keep/IndigoScalar.lean ====
section
/-! SUPPORT. What the operations of `Machine/IndigoScalar.lean` leave alone. -/

namespace Sys2Proof.Machine

open Sys2Proof

theorem execKernelNop_keeps (e : Engine) (s : State) {t : State} (h : execKernelNop e s = .next t) : Keeps s t := by
  unfold execKernelNop at h
  injection h with h
  subst h
  refine runInstr_keeps _ _ _ _ (fun s => ?_)
  try dsimp only
  first
  | refine unlessFault_keeps _ _ _ ?_; (try dsimp only)
  | skip
  (repeat' split) <;>
    first | (simp [Keeps]; done) | exact Keeps.trans (by simp [Keeps]) (fold_keeps _ (fun s a => by simp [Keeps]) _ _) | (refine unlessFault_keeps _ _ _ ?_; (try dsimp only); (repeat' split) <;> first | (simp [Keeps]; done) | exact Keeps.trans (by simp [Keeps]) (fold_keeps _ (fun s a => by simp [Keeps]) _ _))

theorem execLi_keeps (e : Engine) (d : Fin 16) (k : BitVec 18) (s : State) {t : State} (h : execLi e d k s = .next t) : Keeps s t := by
  unfold execLi at h
  injection h with h
  subst h
  refine runInstr_keeps _ _ _ _ (fun s => ?_)
  try dsimp only
  first
  | refine unlessFault_keeps _ _ _ ?_; (try dsimp only)
  | skip
  (repeat' split) <;>
    first | (simp [Keeps]; done) | exact Keeps.trans (by simp [Keeps]) (fold_keeps _ (fun s a => by simp [Keeps]) _ _) | (refine unlessFault_keeps _ _ _ ?_; (try dsimp only); (repeat' split) <;> first | (simp [Keeps]; done) | exact Keeps.trans (by simp [Keeps]) (fold_keeps _ (fun s a => by simp [Keeps]) _ _))

theorem execLih_keeps (e : Engine) (d : Fin 16) (k : BitVec 18) (s : State) {t : State} (h : execLih e d k s = .next t) : Keeps s t := by
  unfold execLih at h
  injection h with h
  subst h
  refine runInstr_keeps _ _ _ _ (fun s => ?_)
  try dsimp only
  first
  | refine unlessFault_keeps _ _ _ ?_; (try dsimp only)
  | skip
  (repeat' split) <;>
    first | (simp [Keeps]; done) | exact Keeps.trans (by simp [Keeps]) (fold_keeps _ (fun s a => by simp [Keeps]) _ _) | (refine unlessFault_keeps _ _ _ ?_; (try dsimp only); (repeat' split) <;> first | (simp [Keeps]; done) | exact Keeps.trans (by simp [Keeps]) (fold_keeps _ (fun s a => by simp [Keeps]) _ _))

theorem execAddi_keeps (e : Engine) (d : Fin 16) (a : Fin 16) (k : BitVec 18) (s : State) {t : State} (h : execAddi e d a k s = .next t) : Keeps s t := by
  unfold execAddi at h
  injection h with h
  subst h
  refine runInstr_keeps _ _ _ _ (fun s => ?_)
  try dsimp only
  first
  | refine unlessFault_keeps _ _ _ ?_; (try dsimp only)
  | skip
  (repeat' split) <;>
    first | (simp [Keeps]; done) | exact Keeps.trans (by simp [Keeps]) (fold_keeps _ (fun s a => by simp [Keeps]) _ _) | (refine unlessFault_keeps _ _ _ ?_; (try dsimp only); (repeat' split) <;> first | (simp [Keeps]; done) | exact Keeps.trans (by simp [Keeps]) (fold_keeps _ (fun s a => by simp [Keeps]) _ _))

theorem execSop_keeps (e : Engine) (d : Fin 16) (a : Fin 16) (b : Fin 16) (op : Fin 12) (s : State) {t : State} (h : execSop e d a b op s = .next t) : Keeps s t := by
  unfold execSop at h
  injection h with h
  subst h
  refine runInstr_keeps _ _ _ _ (fun s => ?_)
  try dsimp only
  first
  | refine unlessFault_keeps _ _ _ ?_; (try dsimp only)
  | skip
  (repeat' split) <;>
    first | (simp [Keeps]; done) | exact Keeps.trans (by simp [Keeps]) (fold_keeps _ (fun s a => by simp [Keeps]) _ _) | (refine unlessFault_keeps _ _ _ ?_; (try dsimp only); (repeat' split) <;> first | (simp [Keeps]; done) | exact Keeps.trans (by simp [Keeps]) (fold_keeps _ (fun s a => by simp [Keeps]) _ _))

theorem execLds_keeps (e : Engine) (d : Fin 16) (a : Fin 16) (k : BitVec 18) (ecc : Ecc) (s : State) {t : State} (h : execLds e d a k ecc s = .next t) : Keeps s t := by
  unfold execLds at h
  injection h with h
  subst h
  refine runInstr_keeps _ _ _ _ (fun s => ?_)
  try dsimp only
  first
  | refine unlessFault_keeps _ _ _ ?_; (try dsimp only)
  | skip
  (repeat' split) <;>
    first | (simp [Keeps]; done) | exact Keeps.trans (by simp [Keeps]) (fold_keeps _ (fun s a => by simp [Keeps]) _ _) | (refine unlessFault_keeps _ _ _ ?_; (try dsimp only); (repeat' split) <;> first | (simp [Keeps]; done) | exact Keeps.trans (by simp [Keeps]) (fold_keeps _ (fun s a => by simp [Keeps]) _ _))

theorem execSts_keeps (e : Engine) (d : Fin 16) (a : Fin 16) (k : BitVec 18) (s : State) {t : State} (h : execSts e d a k s = .next t) : Keeps s t := by
  unfold execSts at h
  injection h with h
  subst h
  refine runInstr_keeps _ _ _ _ (fun s => ?_)
  try dsimp only
  first
  | refine unlessFault_keeps _ _ _ ?_; (try dsimp only)
  | skip
  (repeat' split) <;>
    first | (simp [Keeps]; done) | exact Keeps.trans (by simp [Keeps]) (fold_keeps _ (fun s a => by simp [Keeps]) _ _) | (refine unlessFault_keeps _ _ _ ?_; (try dsimp only); (repeat' split) <;> first | (simp [Keeps]; done) | exact Keeps.trans (by simp [Keeps]) (fold_keeps _ (fun s a => by simp [Keeps]) _ _))

theorem execBr_keeps (e : Engine) (cond : Fin 7) (a : Fin 16) (b : Fin 16) (target : BitVec 11) (s : State) {t : State} (h : execBr e cond a b target s = .next t) : Keeps s t := by
  unfold execBr at h
  injection h with h
  subst h
  refine runInstr_keeps _ _ _ _ (fun s => ?_)
  try dsimp only
  first
  | refine unlessFault_keeps _ _ _ ?_; (try dsimp only)
  | skip
  (repeat' split) <;>
    first | (simp [Keeps]; done) | exact Keeps.trans (by simp [Keeps]) (fold_keeps _ (fun s a => by simp [Keeps]) _ _) | (refine unlessFault_keeps _ _ _ ?_; (try dsimp only); (repeat' split) <;> first | (simp [Keeps]; done) | exact Keeps.trans (by simp [Keeps]) (fold_keeps _ (fun s a => by simp [Keeps]) _ _))

@[simp] theorem openLoop_keeps (e : Engine) (count last : Nat) (s : State) : IKeeps s (openLoop e count last s) := by
  unfold openLoop
  dsimp only
  refine unlessFault_keeps _ _ _ ?_
  simp [Keeps]

theorem execLoopr_keeps (e : Engine) (a : Fin 16) (last : BitVec 11) (s : State) {t : State} (h : execLoopr e a last s = .next t) : Keeps s t := by
  unfold execLoopr at h
  injection h with h
  subst h
  refine runInstr_keeps _ _ _ _ (fun s => ?_)
  try dsimp only
  first
  | refine unlessFault_keeps _ _ _ ?_; (try dsimp only)
  | skip
  (repeat' split) <;>
    first | (simp [Keeps]; done) | exact Keeps.trans (by simp [Keeps]) (fold_keeps _ (fun s a => by simp [Keeps]) _ _) | (refine unlessFault_keeps _ _ _ ?_; (try dsimp only); (repeat' split) <;> first | (simp [Keeps]; done) | exact Keeps.trans (by simp [Keeps]) (fold_keeps _ (fun s a => by simp [Keeps]) _ _))

theorem execLoopi_keeps (e : Engine) (count : BitVec 11) (last : BitVec 11) (s : State) {t : State} (h : execLoopi e count last s = .next t) : Keeps s t := by
  unfold execLoopi at h
  injection h with h
  subst h
  refine runInstr_keeps _ _ _ _ (fun s => ?_)
  try dsimp only
  first
  | refine unlessFault_keeps _ _ _ ?_; (try dsimp only)
  | skip
  (repeat' split) <;>
    first | (simp [Keeps]; done) | exact Keeps.trans (by simp [Keeps]) (fold_keeps _ (fun s a => by simp [Keeps]) _ _) | (refine unlessFault_keeps _ _ _ ?_; (try dsimp only); (repeat' split) <;> first | (simp [Keeps]; done) | exact Keeps.trans (by simp [Keeps]) (fold_keeps _ (fun s a => by simp [Keeps]) _ _))

theorem execEndKernel_keeps (e : Engine) (a : Fin 16) (s : State) {t : State} (h : execEndKernel e a s = .next t) : Keeps s t := by
  unfold execEndKernel at h
  try dsimp only at h
  (repeat' split at h) <;> (injection h with h; subst h; simp [Keeps])

theorem execStw_keeps (e : Engine) (d : Fin 16) (a : Fin 16) (clear : Bool) (s : State) {t : State} (h : execStw e d a clear s = .next t) : Keeps s t := by
  unfold execStw at h
  injection h with h
  subst h
  refine runInstr_keeps _ _ _ _ (fun s => ?_)
  try dsimp only
  first
  | refine unlessFault_keeps _ _ _ ?_; (try dsimp only)
  | skip
  (repeat' split) <;>
    first | (simp [Keeps]; done) | exact Keeps.trans (by simp [Keeps]) (fold_keeps _ (fun s a => by simp [Keeps]) _ _) | (refine unlessFault_keeps _ _ _ ?_; (try dsimp only); (repeat' split) <;> first | (simp [Keeps]; done) | exact Keeps.trans (by simp [Keeps]) (fold_keeps _ (fun s a => by simp [Keeps]) _ _))

theorem execRing_keeps (e : Engine) (d : Fin 16) (a : Fin 16) (write : Bool) (aux : Bool) (s : State) {t : State} (h : execRing e d a write aux s = .next t) : Keeps s t := by
  unfold execRing at h
  injection h with h
  subst h
  refine runInstr_keeps _ _ _ _ (fun s => ?_)
  try dsimp only
  first
  | refine unlessFault_keeps _ _ _ ?_; (try dsimp only)
  | skip
  (repeat' split) <;>
    first | (simp [Keeps]; done) | exact Keeps.trans (by simp [Keeps]) (fold_keeps _ (fun s a => by simp [Keeps]) _ _) | (refine unlessFault_keeps _ _ _ ?_; (try dsimp only); (repeat' split) <;> first | (simp [Keeps]; done) | exact Keeps.trans (by simp [Keeps]) (fold_keeps _ (fun s a => by simp [Keeps]) _ _))

theorem execUndefinedEncoding_keeps (e : Engine) (w : Word) (s : State) {t : State} (h : execUndefinedEncoding e w s = .next t) : Keeps s t := by
  unfold execUndefinedEncoding at h
  try dsimp only at h
  (repeat' split at h) <;> (injection h with h; subst h; simp [Keeps])

end Sys2Proof.Machine
end

