-- ==== Sys2Proof/Laws/Keep/IndigoTile.lean ====
section
/-! SUPPORT. What the operations of `Machine/IndigoTile.lean` leave alone. -/

namespace Sys2Proof.Machine

open Sys2Proof

theorem setTile_keeps (r : Nat) (t : Tile) (s : State) : Keeps s (setTile r t s) := by
  unfold setTile
  try dsimp only
  (repeat' split) <;> simp [Keeps]
@[simp] theorem setTile_pending (r : Nat) (t : Tile) (s : State) : (setTile r t s).pending = s.pending := (setTile_keeps r t s).1
@[simp] theorem setTile_clk (r : Nat) (t : Tile) (s : State) : (setTile r t s).clk = s.clk := (setTile_keeps r t s).2.1
@[simp] theorem setTile_regs (r : Nat) (t : Tile) (s : State) : (setTile r t s).regs = s.regs := (setTile_keeps r t s).2.2.1
@[simp] theorem setTile_masks (r : Nat) (t : Tile) (s : State) : (setTile r t s).evt.masks = s.evt.masks := (setTile_keeps r t s).2.2.2

theorem readTiles_keeps (l : List Nat) (s : State) : Keeps s (readTiles l s).2 := by
  unfold readTiles
  try dsimp only
  (repeat' split) <;>
    first
    | (simp [Keeps, fold_pending, fold_clk, fold_regs, fold_masks, fold1_pending, fold1_clk, fold1_regs, fold1_masks, apply_ite State.pending, apply_ite State.clk, apply_ite State.regs, apply_ite State.evt, apply_ite EvtSt.masks]; done)
    | (refine Keeps.trans ?_ (fold_keeps _ (fun s a => ?_) _ _) <;> (try dsimp only) <;> (repeat' split) <;> simp [Keeps])
@[simp] theorem readTiles_pending (l : List Nat) (s : State) : (readTiles l s).2.pending = s.pending := (readTiles_keeps l s).1
@[simp] theorem readTiles_clk (l : List Nat) (s : State) : (readTiles l s).2.clk = s.clk := (readTiles_keeps l s).2.1
@[simp] theorem readTiles_regs (l : List Nat) (s : State) : (readTiles l s).2.regs = s.regs := (readTiles_keeps l s).2.2.1
@[simp] theorem readTiles_masks (l : List Nat) (s : State) : (readTiles l s).2.evt.masks = s.evt.masks := (readTiles_keeps l s).2.2.2

theorem elemResult_keeps (d cost ty rows cols : Nat) (l : List (Nat × Flags)) (s : State) {u : State} (h : Keeps u s) :
    IKeeps u (elemResult d cost ty rows cols l s) := h.trans (by simp [Keeps])

theorem execTshp_keeps (d : Fin 16) (p : BitVec 10) (s : State) {t : State} (h : execTshp d p s = .next t) : Keeps s t := by
  unfold execTshp at h
  injection h with h
  subst h
  refine runInstr_keeps _ _ _ _ (fun s => ?_)
  try dsimp only
  first
  | refine unlessFault_keeps _ _ _ ?_; (try dsimp only)
  | skip
  (repeat' split) <;>
    first | (simp [Keeps]; done) | exact elemResult_keeps _ _ _ _ _ _ _ (by simp [Keeps]) | exact Keeps.trans (by simp [Keeps]) (fold_keeps _ (fun s a => by simp [Keeps]) _ _) | (refine unlessFault_keeps _ _ _ ?_; (try dsimp only); (repeat' split) <;> first | (simp [Keeps]; done) | exact elemResult_keeps _ _ _ _ _ _ _ (by simp [Keeps]) | exact Keeps.trans (by simp [Keeps]) (fold_keeps _ (fun s a => by simp [Keeps]) _ _))

theorem execTld_keeps (d : Fin 16) (a : Fin 16) (b : Fin 16) (p : BitVec 10) (ecc : Ecc) (s : State) {t : State} (h : execTld d a b p ecc s = .next t) : Keeps s t := by
  unfold execTld at h
  injection h with h
  subst h
  refine runInstr_keeps _ _ _ _ (fun s => ?_)
  try dsimp only
  first
  | refine unlessFault_keeps _ _ _ ?_; (try dsimp only)
  | skip
  (repeat' split) <;>
    first | (simp [Keeps]; done) | exact elemResult_keeps _ _ _ _ _ _ _ (by simp [Keeps]) | exact Keeps.trans (by simp [Keeps]) (fold_keeps _ (fun s a => by simp [Keeps]) _ _) | (refine unlessFault_keeps _ _ _ ?_; (try dsimp only); (repeat' split) <;> first | (simp [Keeps]; done) | exact elemResult_keeps _ _ _ _ _ _ _ (by simp [Keeps]) | exact Keeps.trans (by simp [Keeps]) (fold_keeps _ (fun s a => by simp [Keeps]) _ _))

theorem execTst_keeps (d : Fin 16) (a : Fin 16) (b : Fin 16) (s : State) {t : State} (h : execTst d a b s = .next t) : Keeps s t := by
  unfold execTst at h
  injection h with h
  subst h
  refine runInstr_keeps _ _ _ _ (fun s => ?_)
  try dsimp only
  first
  | refine unlessFault_keeps _ _ _ ?_; (try dsimp only)
  | skip
  (repeat' split) <;>
    first | (simp [Keeps]; done) | exact elemResult_keeps _ _ _ _ _ _ _ (by simp [Keeps]) | exact Keeps.trans (by simp [Keeps]) (fold_keeps _ (fun s a => by simp [Keeps]) _ _) | (refine unlessFault_keeps _ _ _ ?_; (try dsimp only); (repeat' split) <;> first | (simp [Keeps]; done) | exact elemResult_keeps _ _ _ _ _ _ _ (by simp [Keeps]) | exact Keeps.trans (by simp [Keeps]) (fold_keeps _ (fun s a => by simp [Keeps]) _ _))

theorem execTew_keeps (d : Fin 16) (a : Fin 16) (b : Fin 16) (op : Fin 5) (s : State) {t : State} (h : execTew d a b op s = .next t) : Keeps s t := by
  unfold execTew at h
  injection h with h
  subst h
  refine runInstr_keeps _ _ _ _ (fun s => ?_)
  try dsimp only
  first
  | refine unlessFault_keeps _ _ _ ?_; (try dsimp only)
  | skip
  (repeat' split) <;>
    first | (simp [Keeps]; done) | exact elemResult_keeps _ _ _ _ _ _ _ (by simp [Keeps]) | exact Keeps.trans (by simp [Keeps]) (fold_keeps _ (fun s a => by simp [Keeps]) _ _) | (refine unlessFault_keeps _ _ _ ?_; (try dsimp only); (repeat' split) <;> first | (simp [Keeps]; done) | exact elemResult_keeps _ _ _ _ _ _ _ (by simp [Keeps]) | exact Keeps.trans (by simp [Keeps]) (fold_keeps _ (fun s a => by simp [Keeps]) _ _))

theorem execTews_keeps (d : Fin 16) (a : Fin 16) (c : Fin 16) (op : Fin 3) (s : State) {t : State} (h : execTews d a c op s = .next t) : Keeps s t := by
  unfold execTews at h
  injection h with h
  subst h
  refine runInstr_keeps _ _ _ _ (fun s => ?_)
  try dsimp only
  first
  | refine unlessFault_keeps _ _ _ ?_; (try dsimp only)
  | skip
  (repeat' split) <;>
    first | (simp [Keeps]; done) | exact elemResult_keeps _ _ _ _ _ _ _ (by simp [Keeps]) | exact Keeps.trans (by simp [Keeps]) (fold_keeps _ (fun s a => by simp [Keeps]) _ _) | (refine unlessFault_keeps _ _ _ ?_; (try dsimp only); (repeat' split) <;> first | (simp [Keeps]; done) | exact elemResult_keeps _ _ _ _ _ _ _ (by simp [Keeps]) | exact Keeps.trans (by simp [Keeps]) (fold_keeps _ (fun s a => by simp [Keeps]) _ _))

theorem execTmm_keeps (d : Fin 16) (a : Fin 16) (b : Fin 16) (op : Fin 3) (s : State) {t : State} (h : execTmm d a b op s = .next t) : Keeps s t := by
  unfold execTmm at h
  injection h with h
  subst h
  refine runInstr_keeps _ _ _ _ (fun s => ?_)
  try dsimp only
  first
  | refine unlessFault_keeps _ _ _ ?_; (try dsimp only)
  | skip
  (repeat' split) <;>
    first | (simp [Keeps]; done) | exact elemResult_keeps _ _ _ _ _ _ _ (by simp [Keeps]) | exact Keeps.trans (by simp [Keeps]) (fold_keeps _ (fun s a => by simp [Keeps]) _ _) | (refine unlessFault_keeps _ _ _ ?_; (try dsimp only); (repeat' split) <;> first | (simp [Keeps]; done) | exact elemResult_keeps _ _ _ _ _ _ _ (by simp [Keeps]) | exact Keeps.trans (by simp [Keeps]) (fold_keeps _ (fun s a => by simp [Keeps]) _ _))

theorem execTtr_keeps (d : Fin 16) (a : Fin 16) (s : State) {t : State} (h : execTtr d a s = .next t) : Keeps s t := by
  unfold execTtr at h
  injection h with h
  subst h
  refine runInstr_keeps _ _ _ _ (fun s => ?_)
  try dsimp only
  first
  | refine unlessFault_keeps _ _ _ ?_; (try dsimp only)
  | skip
  (repeat' split) <;>
    first | (simp [Keeps]; done) | exact elemResult_keeps _ _ _ _ _ _ _ (by simp [Keeps]) | exact Keeps.trans (by simp [Keeps]) (fold_keeps _ (fun s a => by simp [Keeps]) _ _) | (refine unlessFault_keeps _ _ _ ?_; (try dsimp only); (repeat' split) <;> first | (simp [Keeps]; done) | exact elemResult_keeps _ _ _ _ _ _ _ (by simp [Keeps]) | exact Keeps.trans (by simp [Keeps]) (fold_keeps _ (fun s a => by simp [Keeps]) _ _))

theorem execTcvt_keeps (d : Fin 16) (a : Fin 16) (ty : Fin 4) (exponent : Byte) (s : State) {t : State} (h : execTcvt d a ty exponent s = .next t) : Keeps s t := by
  unfold execTcvt at h
  injection h with h
  subst h
  refine runInstr_keeps _ _ _ _ (fun s => ?_)
  try dsimp only
  first
  | refine unlessFault_keeps _ _ _ ?_; (try dsimp only)
  | skip
  (repeat' split) <;>
    first | (simp [Keeps]; done) | exact elemResult_keeps _ _ _ _ _ _ _ (by simp [Keeps]) | exact Keeps.trans (by simp [Keeps]) (fold_keeps _ (fun s a => by simp [Keeps]) _ _) | (refine unlessFault_keeps _ _ _ ?_; (try dsimp only); (repeat' split) <;> first | (simp [Keeps]; done) | exact elemResult_keeps _ _ _ _ _ _ _ (by simp [Keeps]) | exact Keeps.trans (by simp [Keeps]) (fold_keeps _ (fun s a => by simp [Keeps]) _ _))

theorem execTred_keeps (d : Fin 16) (a : Fin 16) (op : Fin 4) (s : State) {t : State} (h : execTred d a op s = .next t) : Keeps s t := by
  unfold execTred at h
  injection h with h
  subst h
  refine runInstr_keeps _ _ _ _ (fun s => ?_)
  try dsimp only
  first
  | refine unlessFault_keeps _ _ _ ?_; (try dsimp only)
  | skip
  (repeat' split) <;>
    first | (simp [Keeps]; done) | exact elemResult_keeps _ _ _ _ _ _ _ (by simp [Keeps]) | exact Keeps.trans (by simp [Keeps]) (fold_keeps _ (fun s a => by simp [Keeps]) _ _) | (refine unlessFault_keeps _ _ _ ?_; (try dsimp only); (repeat' split) <;> first | (simp [Keeps]; done) | exact elemResult_keeps _ _ _ _ _ _ _ (by simp [Keeps]) | exact Keeps.trans (by simp [Keeps]) (fold_keeps _ (fun s a => by simp [Keeps]) _ _))

theorem execTmov_keeps (d : Fin 16) (a : Fin 16) (s : State) {t : State} (h : execTmov d a s = .next t) : Keeps s t := by
  unfold execTmov at h
  injection h with h
  subst h
  refine runInstr_keeps _ _ _ _ (fun s => ?_)
  try dsimp only
  first
  | refine unlessFault_keeps _ _ _ ?_; (try dsimp only)
  | skip
  (repeat' split) <;>
    first | (simp [Keeps]; done) | exact elemResult_keeps _ _ _ _ _ _ _ (by simp [Keeps]) | exact Keeps.trans (by simp [Keeps]) (fold_keeps _ (fun s a => by simp [Keeps]) _ _) | (refine unlessFault_keeps _ _ _ ?_; (try dsimp only); (repeat' split) <;> first | (simp [Keeps]; done) | exact elemResult_keeps _ _ _ _ _ _ _ (by simp [Keeps]) | exact Keeps.trans (by simp [Keeps]) (fold_keeps _ (fun s a => by simp [Keeps]) _ _))

theorem execTget_keeps (d : Fin 16) (a : Fin 16) (row : Fin 16) (col : Fin 16) (s : State) {t : State} (h : execTget d a row col s = .next t) : Keeps s t := by
  unfold execTget at h
  injection h with h
  subst h
  refine runInstr_keeps _ _ _ _ (fun s => ?_)
  try dsimp only
  first
  | refine unlessFault_keeps _ _ _ ?_; (try dsimp only)
  | skip
  (repeat' split) <;>
    first | (simp [Keeps]; done) | exact elemResult_keeps _ _ _ _ _ _ _ (by simp [Keeps]) | exact Keeps.trans (by simp [Keeps]) (fold_keeps _ (fun s a => by simp [Keeps]) _ _) | (refine unlessFault_keeps _ _ _ ?_; (try dsimp only); (repeat' split) <;> first | (simp [Keeps]; done) | exact elemResult_keeps _ _ _ _ _ _ _ (by simp [Keeps]) | exact Keeps.trans (by simp [Keeps]) (fold_keeps _ (fun s a => by simp [Keeps]) _ _))

theorem execTput_keeps (d : Fin 16) (a : Fin 16) (row : Fin 16) (col : Fin 16) (s : State) {t : State} (h : execTput d a row col s = .next t) : Keeps s t := by
  unfold execTput at h
  injection h with h
  subst h
  refine runInstr_keeps _ _ _ _ (fun s => ?_)
  try dsimp only
  first
  | refine unlessFault_keeps _ _ _ ?_; (try dsimp only)
  | skip
  (repeat' split) <;>
    first | (simp [Keeps]; done) | exact elemResult_keeps _ _ _ _ _ _ _ (by simp [Keeps]) | exact Keeps.trans (by simp [Keeps]) (fold_keeps _ (fun s a => by simp [Keeps]) _ _) | (refine unlessFault_keeps _ _ _ ?_; (try dsimp only); (repeat' split) <;> first | (simp [Keeps]; done) | exact elemResult_keeps _ _ _ _ _ _ _ (by simp [Keeps]) | exact Keeps.trans (by simp [Keeps]) (fold_keeps _ (fun s a => by simp [Keeps]) _ _))

theorem execTunpk_keeps (d : Fin 16) (a : Fin 16) (c : Fin 16) (op : Fin 5) (s : State) {t : State} (h : execTunpk d a c op s = .next t) : Keeps s t := by
  unfold execTunpk at h
  injection h with h
  subst h
  refine runInstr_keeps _ _ _ _ (fun s => ?_)
  try dsimp only
  first
  | refine unlessFault_keeps _ _ _ ?_; (try dsimp only)
  | skip
  (repeat' split) <;>
    first | (simp [Keeps]; done) | exact elemResult_keeps _ _ _ _ _ _ _ (by simp [Keeps]) | exact Keeps.trans (by simp [Keeps]) (fold_keeps _ (fun s a => by simp [Keeps]) _ _) | (refine unlessFault_keeps _ _ _ ?_; (try dsimp only); (repeat' split) <;> first | (simp [Keeps]; done) | exact elemResult_keeps _ _ _ _ _ _ _ (by simp [Keeps]) | exact Keeps.trans (by simp [Keeps]) (fold_keeps _ (fun s a => by simp [Keeps]) _ _))

theorem execTxs_keeps (a : Fin 16) (s : State) {t : State} (h : execTxs a s = .next t) : Keeps s t := by
  unfold execTxs at h
  injection h with h
  subst h
  refine runInstr_keeps _ _ _ _ (fun s => ?_)
  try dsimp only
  first
  | refine unlessFault_keeps _ _ _ ?_; (try dsimp only)
  | skip
  (repeat' split) <;>
    first | (simp [Keeps]; done) | exact elemResult_keeps _ _ _ _ _ _ _ (by simp [Keeps]) | exact Keeps.trans (by simp [Keeps]) (fold_keeps _ (fun s a => by simp [Keeps]) _ _) | (refine unlessFault_keeps _ _ _ ?_; (try dsimp only); (repeat' split) <;> first | (simp [Keeps]; done) | exact elemResult_keeps _ _ _ _ _ _ _ (by simp [Keeps]) | exact Keeps.trans (by simp [Keeps]) (fold_keeps _ (fun s a => by simp [Keeps]) _ _))

theorem execTxr_keeps (d : Fin 16) (s : State) {t : State} (h : execTxr d s = .next t) : Keeps s t := by
  unfold execTxr at h
  injection h with h
  subst h
  refine runInstr_keeps _ _ _ _ (fun s => ?_)
  try dsimp only
  first
  | refine unlessFault_keeps _ _ _ ?_; (try dsimp only)
  | skip
  (repeat' split) <;>
    first | (simp [Keeps]; done) | exact elemResult_keeps _ _ _ _ _ _ _ (by simp [Keeps]) | exact Keeps.trans (by simp [Keeps]) (fold_keeps _ (fun s a => by simp [Keeps]) _ _) | (refine unlessFault_keeps _ _ _ ?_; (try dsimp only); (repeat' split) <;> first | (simp [Keeps]; done) | exact elemResult_keeps _ _ _ _ _ _ _ (by simp [Keeps]) | exact Keeps.trans (by simp [Keeps]) (fold_keeps _ (fun s a => by simp [Keeps]) _ _))

end Sys2Proof.Machine
end

