-- ==== Sys2Proof/Laws/Keep/IndigoSpectral.lean ====
section
/-! SUPPORT. What the operations of `Machine/IndigoSpectral.lean` leave alone. -/

namespace Sys2Proof.Machine

open Sys2Proof

theorem setSpec_keeps (r : Nat) (l : List Nat) (s : State) : Keeps s (setSpec r l s) := by
  unfold setSpec
  try dsimp only
  (repeat' split) <;> simp [Keeps]
@[simp] theorem setSpec_pending (r : Nat) (l : List Nat) (s : State) : (setSpec r l s).pending = s.pending := (setSpec_keeps r l s).1
@[simp] theorem setSpec_clk (r : Nat) (l : List Nat) (s : State) : (setSpec r l s).clk = s.clk := (setSpec_keeps r l s).2.1
@[simp] theorem setSpec_regs (r : Nat) (l : List Nat) (s : State) : (setSpec r l s).regs = s.regs := (setSpec_keeps r l s).2.2.1
@[simp] theorem setSpec_masks (r : Nat) (l : List Nat) (s : State) : (setSpec r l s).evt.masks = s.evt.masks := (setSpec_keeps r l s).2.2.2

theorem specResult_keeps (d cost : Nat) (l : List (Nat × Flags)) (s : State) {u : State} (h : Keeps u s) :
    IKeeps u (specResult d cost l s) := h.trans (by simp [Keeps])

theorem execSshp_keeps (d : Fin 8) (len : BitVec 9) (s : State) {t : State} (h : execSshp d len s = .next t) : Keeps s t := by
  unfold execSshp at h
  injection h with h
  subst h
  refine runInstr_keeps _ _ _ _ (fun s => ?_)
  try dsimp only
  first
  | refine unlessFault_keeps _ _ _ ?_; (try dsimp only)
  | skip
  (repeat' split) <;>
    first | (simp [Keeps]; done) | exact specResult_keeps _ _ _ _ (by simp [Keeps]) | exact Keeps.trans (by simp [Keeps]) (fold_keeps _ (fun s a => by simp [Keeps]) _ _) | (refine unlessFault_keeps _ _ _ ?_; (try dsimp only); (repeat' split) <;> first | (simp [Keeps]; done) | exact specResult_keeps _ _ _ _ (by simp [Keeps]) | exact Keeps.trans (by simp [Keeps]) (fold_keeps _ (fun s a => by simp [Keeps]) _ _))

theorem execSld_keeps (d : Fin 8) (a : Fin 16) (len : BitVec 9) (ecc : Ecc) (s : State) {t : State} (h : execSld d a len ecc s = .next t) : Keeps s t := by
  unfold execSld at h
  injection h with h
  subst h
  refine runInstr_keeps _ _ _ _ (fun s => ?_)
  try dsimp only
  first
  | refine unlessFault_keeps _ _ _ ?_; (try dsimp only)
  | skip
  (repeat' split) <;>
    first | (simp [Keeps]; done) | exact specResult_keeps _ _ _ _ (by simp [Keeps]) | exact Keeps.trans (by simp [Keeps]) (fold_keeps _ (fun s a => by simp [Keeps]) _ _) | (refine unlessFault_keeps _ _ _ ?_; (try dsimp only); (repeat' split) <;> first | (simp [Keeps]; done) | exact specResult_keeps _ _ _ _ (by simp [Keeps]) | exact Keeps.trans (by simp [Keeps]) (fold_keeps _ (fun s a => by simp [Keeps]) _ _))

theorem execSst_keeps (d : Fin 8) (a : Fin 16) (s : State) {t : State} (h : execSst d a s = .next t) : Keeps s t := by
  unfold execSst at h
  injection h with h
  subst h
  refine runInstr_keeps _ _ _ _ (fun s => ?_)
  try dsimp only
  first
  | refine unlessFault_keeps _ _ _ ?_; (try dsimp only)
  | skip
  (repeat' split) <;>
    first | (simp [Keeps]; done) | exact specResult_keeps _ _ _ _ (by simp [Keeps]) | exact Keeps.trans (by simp [Keeps]) (fold_keeps _ (fun s a => by simp [Keeps]) _ _) | (refine unlessFault_keeps _ _ _ ?_; (try dsimp only); (repeat' split) <;> first | (simp [Keeps]; done) | exact specResult_keeps _ _ _ _ (by simp [Keeps]) | exact Keeps.trans (by simp [Keeps]) (fold_keeps _ (fun s a => by simp [Keeps]) _ _))

theorem execSew_keeps (d : Fin 8) (a : Fin 8) (b : Fin 8) (op : Fin 4) (s : State) {t : State} (h : execSew d a b op s = .next t) : Keeps s t := by
  unfold execSew at h
  injection h with h
  subst h
  refine runInstr_keeps _ _ _ _ (fun s => ?_)
  try dsimp only
  first
  | refine unlessFault_keeps _ _ _ ?_; (try dsimp only)
  | skip
  (repeat' split) <;>
    first | (simp [Keeps]; done) | exact specResult_keeps _ _ _ _ (by simp [Keeps]) | exact Keeps.trans (by simp [Keeps]) (fold_keeps _ (fun s a => by simp [Keeps]) _ _) | (refine unlessFault_keeps _ _ _ ?_; (try dsimp only); (repeat' split) <;> first | (simp [Keeps]; done) | exact specResult_keeps _ _ _ _ (by simp [Keeps]) | exact Keeps.trans (by simp [Keeps]) (fold_keeps _ (fun s a => by simp [Keeps]) _ _))

theorem execSscl_keeps (d : Fin 8) (a : Fin 8) (c : Fin 16) (s : State) {t : State} (h : execSscl d a c s = .next t) : Keeps s t := by
  unfold execSscl at h
  injection h with h
  subst h
  refine runInstr_keeps _ _ _ _ (fun s => ?_)
  try dsimp only
  first
  | refine unlessFault_keeps _ _ _ ?_; (try dsimp only)
  | skip
  (repeat' split) <;>
    first | (simp [Keeps]; done) | exact specResult_keeps _ _ _ _ (by simp [Keeps]) | exact Keeps.trans (by simp [Keeps]) (fold_keeps _ (fun s a => by simp [Keeps]) _ _) | (refine unlessFault_keeps _ _ _ ?_; (try dsimp only); (repeat' split) <;> first | (simp [Keeps]; done) | exact specResult_keeps _ _ _ _ (by simp [Keeps]) | exact Keeps.trans (by simp [Keeps]) (fold_keeps _ (fun s a => by simp [Keeps]) _ _))

theorem execSdot_keeps (d : Fin 15) (a : Fin 8) (b : Fin 8) (h : Fin 16) (s : State) {t : State} (h : execSdot d a b h s = .next t) : Keeps s t := by
  unfold execSdot at h
  injection h with h
  subst h
  refine runInstr_keeps _ _ _ _ (fun s => ?_)
  try dsimp only
  first
  | refine unlessFault_keeps _ _ _ ?_; (try dsimp only)
  | skip
  (repeat' split) <;>
    first | (simp [Keeps]; done) | exact specResult_keeps _ _ _ _ (by simp [Keeps]) | exact Keeps.trans (by simp [Keeps]) (fold_keeps _ (fun s a => by simp [Keeps]) _ _) | (refine unlessFault_keeps _ _ _ ?_; (try dsimp only); (repeat' split) <;> first | (simp [Keeps]; done) | exact specResult_keeps _ _ _ _ (by simp [Keeps]) | exact Keeps.trans (by simp [Keeps]) (fold_keeps _ (fun s a => by simp [Keeps]) _ _))

theorem execSfft_keeps (d : Fin 8) (a : Fin 8) (inverse : Bool) (s : State) {t : State} (h : execSfft d a inverse s = .next t) : Keeps s t := by
  unfold execSfft at h
  injection h with h
  subst h
  refine runInstr_keeps _ _ _ _ (fun s => ?_)
  try dsimp only
  first
  | refine unlessFault_keeps _ _ _ ?_; (try dsimp only)
  | skip
  (repeat' split) <;>
    first | (simp [Keeps]; done) | exact specResult_keeps _ _ _ _ (by simp [Keeps]) | exact Keeps.trans (by simp [Keeps]) (fold_keeps _ (fun s a => by simp [Keeps]) _ _) | (refine unlessFault_keeps _ _ _ ?_; (try dsimp only); (repeat' split) <;> first | (simp [Keeps]; done) | exact specResult_keeps _ _ _ _ (by simp [Keeps]) | exact Keeps.trans (by simp [Keeps]) (fold_keeps _ (fun s a => by simp [Keeps]) _ _))

theorem execSget_keeps (d : Fin 16) (a : Fin 8) (i : Byte) (s : State) {t : State} (h : execSget d a i s = .next t) : Keeps s t := by
  unfold execSget at h
  injection h with h
  subst h
  refine runInstr_keeps _ _ _ _ (fun s => ?_)
  try dsimp only
  first
  | refine unlessFault_keeps _ _ _ ?_; (try dsimp only)
  | skip
  (repeat' split) <;>
    first | (simp [Keeps]; done) | exact specResult_keeps _ _ _ _ (by simp [Keeps]) | exact Keeps.trans (by simp [Keeps]) (fold_keeps _ (fun s a => by simp [Keeps]) _ _) | (refine unlessFault_keeps _ _ _ ?_; (try dsimp only); (repeat' split) <;> first | (simp [Keeps]; done) | exact specResult_keeps _ _ _ _ (by simp [Keeps]) | exact Keeps.trans (by simp [Keeps]) (fold_keeps _ (fun s a => by simp [Keeps]) _ _))

theorem execSput_keeps (d : Fin 8) (a : Fin 16) (i : Byte) (s : State) {t : State} (h : execSput d a i s = .next t) : Keeps s t := by
  unfold execSput at h
  injection h with h
  subst h
  refine runInstr_keeps _ _ _ _ (fun s => ?_)
  try dsimp only
  first
  | refine unlessFault_keeps _ _ _ ?_; (try dsimp only)
  | skip
  (repeat' split) <;>
    first | (simp [Keeps]; done) | exact specResult_keeps _ _ _ _ (by simp [Keeps]) | exact Keeps.trans (by simp [Keeps]) (fold_keeps _ (fun s a => by simp [Keeps]) _ _) | (refine unlessFault_keeps _ _ _ ?_; (try dsimp only); (repeat' split) <;> first | (simp [Keeps]; done) | exact specResult_keeps _ _ _ _ (by simp [Keeps]) | exact Keeps.trans (by simp [Keeps]) (fold_keeps _ (fun s a => by simp [Keeps]) _ _))

theorem execSxs_keeps (a : Fin 8) (s : State) {t : State} (h : execSxs a s = .next t) : Keeps s t := by
  unfold execSxs at h
  injection h with h
  subst h
  refine runInstr_keeps _ _ _ _ (fun s => ?_)
  try dsimp only
  first
  | refine unlessFault_keeps _ _ _ ?_; (try dsimp only)
  | skip
  (repeat' split) <;>
    first | (simp [Keeps]; done) | exact specResult_keeps _ _ _ _ (by simp [Keeps]) | exact Keeps.trans (by simp [Keeps]) (fold_keeps _ (fun s a => by simp [Keeps]) _ _) | (refine unlessFault_keeps _ _ _ ?_; (try dsimp only); (repeat' split) <;> first | (simp [Keeps]; done) | exact specResult_keeps _ _ _ _ (by simp [Keeps]) | exact Keeps.trans (by simp [Keeps]) (fold_keeps _ (fun s a => by simp [Keeps]) _ _))

theorem execSxr_keeps (d : Fin 8) (s : State) {t : State} (h : execSxr d s = .next t) : Keeps s t := by
  unfold execSxr at h
  injection h with h
  subst h
  refine runInstr_keeps _ _ _ _ (fun s => ?_)
  try dsimp only
  first
  | refine unlessFault_keeps _ _ _ ?_; (try dsimp only)
  | skip
  (repeat' split) <;>
    first | (simp [Keeps]; done) | exact specResult_keeps _ _ _ _ (by simp [Keeps]) | exact Keeps.trans (by simp [Keeps]) (fold_keeps _ (fun s a => by simp [Keeps]) _ _) | (refine unlessFault_keeps _ _ _ ?_; (try dsimp only); (repeat' split) <;> first | (simp [Keeps]; done) | exact specResult_keeps _ _ _ _ (by simp [Keeps]) | exact Keeps.trans (by simp [Keeps]) (fold_keeps _ (fun s a => by simp [Keeps]) _ _))

end Sys2Proof.Machine
end

