-- ==== Sys2Proof/Laws/Keep/Tick.lean ====
section
/-! SUPPORT. What the operations of `Machine/Tick.lean` leave alone. -/

namespace Sys2Proof.Machine

open Sys2Proof

theorem meaningA_keeps (ecc : Ecc) (rq : Req) (opc : Nat) (p : List Byte) (s : State) : (meaningA ecc rq opc p s).st.pending = s.pending ∧ (meaningA ecc rq opc p s).st.clk = s.clk := by
  unfold meaningA
  try dsimp only
  (repeat' split) <;> simp [Res.of]
@[simp] theorem meaningA_pending (ecc : Ecc) (rq : Req) (opc : Nat) (p : List Byte) (s : State) : (meaningA ecc rq opc p s).st.pending = s.pending := (meaningA_keeps ecc rq opc p s).1
@[simp] theorem meaningA_clk (ecc : Ecc) (rq : Req) (opc : Nat) (p : List Byte) (s : State) : (meaningA ecc rq opc p s).st.clk = s.clk := (meaningA_keeps ecc rq opc p s).2

theorem meaningB_keeps (ecc : Ecc) (winC : Bool) (winD : Bool) (rq : Req) (opc : Nat) (p : List Byte) (s : State) : (meaningB ecc winC winD rq opc p s).st.pending = s.pending ∧ (meaningB ecc winC winD rq opc p s).st.clk = s.clk ∧ (meaningB ecc winC winD rq opc p s).st.regs = s.regs := by
  unfold meaningB
  try dsimp only
  (repeat' split) <;> simp [Res.of]
@[simp] theorem meaningB_pending (ecc : Ecc) (winC : Bool) (winD : Bool) (rq : Req) (opc : Nat) (p : List Byte) (s : State) : (meaningB ecc winC winD rq opc p s).st.pending = s.pending := (meaningB_keeps ecc winC winD rq opc p s).1
@[simp] theorem meaningB_clk (ecc : Ecc) (winC : Bool) (winD : Bool) (rq : Req) (opc : Nat) (p : List Byte) (s : State) : (meaningB ecc winC winD rq opc p s).st.clk = s.clk := (meaningB_keeps ecc winC winD rq opc p s).2.1
@[simp] theorem meaningB_regs (ecc : Ecc) (winC : Bool) (winD : Bool) (rq : Req) (opc : Nat) (p : List Byte) (s : State) : (meaningB ecc winC winD rq opc p s).st.regs = s.regs := (meaningB_keeps ecc winC winD rq opc p s).2.2

theorem malformed_keeps (c : PCmd) (s : State) : Keeps s (malformed c s).st := by
  unfold malformed
  try dsimp only
  (repeat' split) <;> simp [Keeps, Res.of]
@[simp] theorem malformed_pending (c : PCmd) (s : State) : (malformed c s).st.pending = s.pending := (malformed_keeps c s).1
@[simp] theorem malformed_clk (c : PCmd) (s : State) : (malformed c s).st.clk = s.clk := (malformed_keeps c s).2.1
@[simp] theorem malformed_regs (c : PCmd) (s : State) : (malformed c s).st.regs = s.regs := (malformed_keeps c s).2.2.1
@[simp] theorem malformed_masks (c : PCmd) (s : State) : (malformed c s).st.evt.masks = s.evt.masks := (malformed_keeps c s).2.2.2

theorem meaning_keeps (ecc : Ecc) (winC : Bool) (winD : Bool) (c : PCmd) (s : State) : (meaning ecc winC winD c s).st.pending = s.pending ∧ (meaning ecc winC winD c s).st.clk = s.clk := by
  unfold meaning
  try dsimp only
  (repeat' split) <;> simp [Res.of]
@[simp] theorem meaning_pending (ecc : Ecc) (winC : Bool) (winD : Bool) (c : PCmd) (s : State) : (meaning ecc winC winD c s).st.pending = s.pending := (meaning_keeps ecc winC winD c s).1
@[simp] theorem meaning_clk (ecc : Ecc) (winC : Bool) (winD : Bool) (c : PCmd) (s : State) : (meaning ecc winC winD c s).st.clk = s.clk := (meaning_keeps ecc winC winD c s).2

theorem dispatchOne_keeps (ecc : Ecc) (all : List Order) (i : Nat) (c : PCmd) (s : State) : (dispatchOne ecc all i c s).pending = s.pending ∧ (dispatchOne ecc all i c s).clk = s.clk := by
  unfold dispatchOne
  try dsimp only
  (repeat' split) <;> simp [runCmd_pending, runCmd_clk]
@[simp] theorem dispatchOne_pending (ecc : Ecc) (all : List Order) (i : Nat) (c : PCmd) (s : State) : (dispatchOne ecc all i c s).pending = s.pending := (dispatchOne_keeps ecc all i c s).1
@[simp] theorem dispatchOne_clk (ecc : Ecc) (all : List Order) (i : Nat) (c : PCmd) (s : State) : (dispatchOne ecc all i c s).clk = s.clk := (dispatchOne_keeps ecc all i c s).2

theorem dispatchAll_keeps (ecc : Ecc) (all : List Order) (i : Nat) (l : List PCmd) (s : State) :
    (dispatchAll ecc all i l s).pending = s.pending ∧ (dispatchAll ecc all i l s).clk = s.clk := by
  induction l generalizing i s with
  | nil => exact ⟨rfl, rfl⟩
  | cons c t ih =>
    have h := dispatchOne_keeps ecc all i c s
    have k := ih (i + 1) (dispatchOne ecc all i c s)
    exact ⟨k.1.trans h.1, k.2.trans h.2⟩
@[simp] theorem dispatchAll_pending (ecc : Ecc) (all : List Order) (i : Nat) (l : List PCmd) (s : State) : (dispatchAll ecc all i l s).pending = s.pending := (dispatchAll_keeps ecc all i l s).1
@[simp] theorem dispatchAll_clk (ecc : Ecc) (all : List Order) (i : Nat) (l : List PCmd) (s : State) : (dispatchAll ecc all i l s).clk = s.clk := (dispatchAll_keeps ecc all i l s).2

theorem beginTick_keeps (s : State) : Keeps s (beginTick s) := by
  unfold beginTick
  try dsimp only
  (repeat' split) <;> simp [Keeps]
@[simp] theorem beginTick_pending (s : State) : (beginTick s).pending = s.pending := (beginTick_keeps s).1
@[simp] theorem beginTick_clk (s : State) : (beginTick s).clk = s.clk := (beginTick_keeps s).2.1
@[simp] theorem beginTick_regs (s : State) : (beginTick s).regs = s.regs := (beginTick_keeps s).2.2.1
@[simp] theorem beginTick_masks (s : State) : (beginTick s).evt.masks = s.evt.masks := (beginTick_keeps s).2.2.2

theorem execDispatchTickEnd_keeps (ecc : Ecc) (s : State) {t : State} (h : execDispatchTickEnd ecc s = .next t) : t.pending = s.pending ∧ t.clk = s.clk := by
  unfold execDispatchTickEnd at h
  try dsimp only at h
  (repeat' split at h) <;> (injection h with h; subst h; simp)

end Sys2Proof.Machine
end

