-- ==== Sys2Proof/Laws/Memory.lean ====
section
/-! SUPPORT. The byte memories: every operation keeps the canonical form, a read after a write gives what was written, and a write leaves every other address
alone. -/

namespace Sys2Proof.Machine

open Sys2Proof

theorem Memory.wfFrom_mono {m : List Host.Cell} {lo lo' : Nat} (h : Memory.wfFrom lo m = true) (hl : lo' ≤ lo) : Memory.wfFrom lo' m = true := by
  cases m with
  | nil => rfl
  | cons c t =>
    simp only [Memory.wfFrom, Bool.and_eq_true, decide_eq_true_eq] at h ⊢
    exact ⟨⟨by omega, h.1.2⟩, h.2⟩

/-- Below its lowest entry a memory reads 0. -/
theorem memGet_below {m : List Host.Cell} {lo a : Nat} (h : Memory.wfFrom lo m = true) (ha : a < lo) : memGet m a = 0 := by
  induction m generalizing lo with
  | nil => rfl
  | cons c t ih =>
    simp only [Memory.wfFrom, Bool.and_eq_true, decide_eq_true_eq] at h
    have hne : a ≠ c.1 := by omega
    simp only [memGet, hne, if_false]
    exact ih h.2 (by omega)

theorem memPut_nil (a : Nat) (b : Byte) : memPut a b [] = if b = 0 then [] else [(a, b)] := rfl

theorem memPut_cons (a : Nat) (b : Byte) (c : Host.Cell) (t : List Host.Cell) : memPut a b (c :: t) =
    if a < c.1 then (if b = 0 then c :: t else (a, b) :: c :: t) else if a = c.1 then (if b = 0 then t else (a, b) :: t) else c :: memPut a b t := rfl

theorem memGet_cons (c : Host.Cell) (t : List Host.Cell) (x : Nat) : memGet (c :: t) x = if x = c.1 then c.2 else memGet t x := rfl

theorem Memory.wfFrom_cons {lo : Nat} {c : Host.Cell} {t : List Host.Cell} :
    Memory.wfFrom lo (c :: t) = true ↔ lo ≤ c.1 ∧ c.2 ≠ 0 ∧ Memory.wfFrom (c.1 + 1) t = true := by
  simp [Memory.wfFrom, and_assoc]

theorem memPut_wfFrom {m : List Host.Cell} {lo a : Nat} (b : Byte) (h : Memory.wfFrom lo m = true) (ha : lo ≤ a) : Memory.wfFrom lo (memPut a b m) = true := by
  induction m generalizing lo with
  | nil =>
    rw [memPut_nil]
    split
    · rfl
    · exact Memory.wfFrom_cons.mpr ⟨ha, ‹_›, rfl⟩
  | cons c t ih =>
    obtain ⟨h1, h2, h3⟩ := Memory.wfFrom_cons.mp h
    rw [memPut_cons]
    split
    · split
      · exact h
      · exact Memory.wfFrom_cons.mpr ⟨ha, ‹_›, Memory.wfFrom_cons.mpr ⟨by assumption, h2, h3⟩⟩
    · split
      · split
        · exact Memory.wfFrom_mono h3 (by omega)
        · exact Memory.wfFrom_cons.mpr ⟨ha, ‹_›, Memory.wfFrom_mono h3 (by dsimp only; omega)⟩
      · exact Memory.wfFrom_cons.mpr ⟨h1, h2, ih h3 (by omega)⟩

/-- A byte read after one byte is replaced. -/
theorem memGet_memPut {m : List Host.Cell} {lo : Nat} (a x : Nat) (b : Byte) (h : Memory.wfFrom lo m = true) :
    memGet (memPut a b m) x = if x = a then b else memGet m x := by
  induction m generalizing lo with
  | nil =>
    rw [memPut_nil]
    split
    · rename_i hb; subst hb; split <;> rfl
    · rfl
  | cons c t ih =>
    obtain ⟨h1, h2, h3⟩ := Memory.wfFrom_cons.mp h
    have zero {y : Nat} (hy : y < c.1 + 1) : memGet t y = 0 := memGet_below h3 hy
    rw [memPut_cons, memGet_cons]
    split
    · split
      · rename_i hb; subst hb
        by_cases hx : x = a
        · rw [if_pos hx, memGet_cons, if_neg (by omega), zero (by omega)]
        · rw [if_neg hx, memGet_cons]
      · rw [memGet_cons, memGet_cons]
    · split
      · rename_i he; subst he
        split
        · rename_i hb; subst hb
          by_cases hx : x = c.1
          · rw [if_pos hx, zero (by omega)]
          · rw [if_neg hx, if_neg hx]
        · rw [memGet_cons]
          by_cases hx : x = c.1
          · rw [if_pos hx, if_pos hx]
          · rw [if_neg hx, if_neg hx, if_neg hx]
      · rw [memGet_cons, ih h3]
        by_cases hx : x = c.1
        · rw [if_pos hx, if_neg (by omega), if_pos hx]
        · rw [if_neg hx, if_neg hx]

theorem memPut_wf {m : List Host.Cell} (a : Nat) (b : Byte) (h : Memory.wf m = true) : Memory.wf (memPut a b m) = true :=
  memPut_wfFrom b h (Nat.zero_le a)

theorem memWrite_wf {m : List Host.Cell} (a : Nat) (l : List Byte) (h : Memory.wf m = true) : Memory.wf (memWrite m a l) = true := by
  induction l generalizing m a with
  | nil => exact h
  | cons b t ih => exact ih (a + 1) (memPut_wf a b h)

theorem memWriteMod_wf {m : List Host.Cell} (base size a : Nat) (l : List Byte) (h : Memory.wf m = true) : Memory.wf (memWriteMod m base size a l) = true := by
  induction l generalizing m a with
  | nil => exact h
  | cons b t ih => exact ih (a + 1) (memPut_wf _ b h)

theorem memClear_wfFrom {m : List Host.Cell} {low : Nat} (lo hi : Nat) (h : Memory.wfFrom low m = true) : Memory.wfFrom low (memClear m lo hi) = true := by
  induction m generalizing low with
  | nil => rfl
  | cons c t ih =>
    simp only [Memory.wfFrom, Bool.and_eq_true, decide_eq_true_eq] at h
    obtain ⟨⟨h1, h2⟩, h3⟩ := h
    have := ih h3
    simp only [memClear] at this ⊢
    by_cases hc : (decide (c.1 < lo) || decide (hi ≤ c.1)) = true
    · simp only [List.filter_cons, hc, if_true, Memory.wfFrom, Bool.and_eq_true, decide_eq_true_eq]
      exact ⟨⟨h1, h2⟩, this⟩
    · simp only [List.filter_cons, hc]
      exact Memory.wfFrom_mono this (by omega)

theorem memClear_wf {m : List Host.Cell} (lo hi : Nat) (h : Memory.wf m = true) : Memory.wf (memClear m lo hi) = true := memClear_wfFrom lo hi h

/-- A write of bytes from an address upward leaves every other address alone. -/
theorem memGet_memWrite_outside {m : List Host.Cell} (a x : Nat) (l : List Byte) (h : Memory.wf m = true) (hx : x < a ∨ a + l.length ≤ x) :
    memGet (memWrite m a l) x = memGet m x := by
  induction l generalizing m a with
  | nil => rfl
  | cons b t ih =>
    simp only [List.length_cons] at hx
    rw [memWrite, ih (a + 1) (memPut_wf a b h) (by omega), memGet_memPut a x b h, if_neg (by omega)]

/-- A read of the bytes just written gives them. -/
theorem memRead_memWrite {m : List Host.Cell} (a : Nat) (l : List Byte) (h : Memory.wf m = true) : memRead (memWrite m a l) a l.length = l := by
  induction l generalizing m a with
  | nil => rfl
  | cons b t ih =>
    have h' := memPut_wf a b h
    have hb : memGet (memWrite (memPut a b m) (a + 1) t) a = b := by
      rw [memGet_memWrite_outside _ _ _ h' (by omega), memGet_memPut a a b h, if_pos rfl]
    have ht := ih (a + 1) h'
    simp only [memRead] at ht ⊢
    rw [List.length_cons, List.range_succ_eq_map, List.map_cons, List.map_map, memWrite, show a + 0 = a from rfl, hb]
    refine congrArg (b :: ·) (Eq.trans ?_ ht)
    refine List.map_congr_left fun i _ => ?_
    simp [Nat.add_comm, Nat.add_left_comm]

theorem reset_memories_wf : Memory.wf State.reset.indigo.pad = true ∧ Memory.wf State.reset.indigo.store = true ∧ Memory.wf State.reset.nv.cfgWork = true :=
  ⟨rfl, rfl, rfl⟩

end Sys2Proof.Machine
end

