-- ==== Sys2Proof/Laws/State.lean ====
section
/-! SUPPORT. What each plain update of one part of the state leaves alone, one lemma for each other part, and the part updated read back. -/

namespace Sys2Proof.Machine

open Sys2Proof

@[simp] theorem setPort_sys (sd : Side) (f : ChPort → ChPort) (s : State) : (setPort sd f s).sys = s.sys := by cases sd <;> rfl
@[simp] theorem setPort_pins (sd : Side) (f : ChPort → ChPort) (s : State) : (setPort sd f s).pins = s.pins := by cases sd <;> rfl
@[simp] theorem setPort_nv (sd : Side) (f : ChPort → ChPort) (s : State) : (setPort sd f s).nv = s.nv := by cases sd <;> rfl
@[simp] theorem setPort_fw (sd : Side) (f : ChPort → ChPort) (s : State) : (setPort sd f s).fw = s.fw := by cases sd <;> rfl
@[simp] theorem setPort_host (sd : Side) (f : ChPort → ChPort) (s : State) : (setPort sd f s).host = s.host := by cases sd <;> rfl
@[simp] theorem setPort_cmd (sd : Side) (f : ChPort → ChPort) (s : State) : (setPort sd f s).cmd = s.cmd := by cases sd <;> rfl
@[simp] theorem setPort_evt (sd : Side) (f : ChPort → ChPort) (s : State) : (setPort sd f s).evt = s.evt := by cases sd <;> rfl
@[simp] theorem setPort_time (sd : Side) (f : ChPort → ChPort) (s : State) : (setPort sd f s).time = s.time := by cases sd <;> rfl
@[simp] theorem setPort_cell (sd : Side) (f : ChPort → ChPort) (s : State) : (setPort sd f s).cell = s.cell := by cases sd <;> rfl
@[simp] theorem setPort_bal (sd : Side) (f : ChPort → ChPort) (s : State) : (setPort sd f s).bal = s.bal := by cases sd <;> rfl
@[simp] theorem setPort_indigo (sd : Side) (f : ChPort → ChPort) (s : State) : (setPort sd f s).indigo = s.indigo := by cases sd <;> rfl
@[simp] theorem setPort_sweep (sd : Side) (f : ChPort → ChPort) (s : State) : (setPort sd f s).sweep = s.sweep := by cases sd <;> rfl
@[simp] theorem setPort_therm (sd : Side) (f : ChPort → ChPort) (s : State) : (setPort sd f s).therm = s.therm := by cases sd <;> rfl
@[simp] theorem setPort_sp1 (sd : Side) (f : ChPort → ChPort) (s : State) : (setPort sd f s).sp1 = s.sp1 := by cases sd <;> rfl
@[simp] theorem setPort_sp2 (sd : Side) (f : ChPort → ChPort) (s : State) : (setPort sd f s).sp2 = s.sp2 := by cases sd <;> rfl
@[simp] theorem setPort_watch (sd : Side) (f : ChPort → ChPort) (s : State) : (setPort sd f s).watch = s.watch := by cases sd <;> rfl
@[simp] theorem setPort_verm (sd : Side) (f : ChPort → ChPort) (s : State) : (setPort sd f s).verm = s.verm := by cases sd <;> rfl
@[simp] theorem setPort_chk (sd : Side) (f : ChPort → ChPort) (s : State) : (setPort sd f s).chk = s.chk := by cases sd <;> rfl
@[simp] theorem setPort_log (sd : Side) (f : ChPort → ChPort) (s : State) : (setPort sd f s).log = s.log := by cases sd <;> rfl
@[simp] theorem setPort_umber (sd : Side) (f : ChPort → ChPort) (s : State) : (setPort sd f s).umber = s.umber := by cases sd <;> rfl
@[simp] theorem setPort_tagFails (sd : Side) (f : ChPort → ChPort) (s : State) : (setPort sd f s).tagFails = s.tagFails := by cases sd <;> rfl
@[simp] theorem setPort_lockout (sd : Side) (f : ChPort → ChPort) (s : State) : (setPort sd f s).lockout = s.lockout := by cases sd <;> rfl
@[simp] theorem setPort_hostData (sd : Side) (f : ChPort → ChPort) (s : State) : (setPort sd f s).hostData = s.hostData := by cases sd <;> rfl
@[simp] theorem setPort_freeCtr (sd : Side) (f : ChPort → ChPort) (s : State) : (setPort sd f s).freeCtr = s.freeCtr := by cases sd <;> rfl

@[simp] theorem setBuf_sys (p : HPort) (f : PortBuf → PortBuf) (s : State) : (setBuf p f s).sys = s.sys := by cases p <;> rfl
@[simp] theorem setBuf_pins (p : HPort) (f : PortBuf → PortBuf) (s : State) : (setBuf p f s).pins = s.pins := by cases p <;> rfl
@[simp] theorem setBuf_nv (p : HPort) (f : PortBuf → PortBuf) (s : State) : (setBuf p f s).nv = s.nv := by cases p <;> rfl
@[simp] theorem setBuf_fw (p : HPort) (f : PortBuf → PortBuf) (s : State) : (setBuf p f s).fw = s.fw := by cases p <;> rfl
@[simp] theorem setBuf_cmd (p : HPort) (f : PortBuf → PortBuf) (s : State) : (setBuf p f s).cmd = s.cmd := by cases p <;> rfl
@[simp] theorem setBuf_evt (p : HPort) (f : PortBuf → PortBuf) (s : State) : (setBuf p f s).evt = s.evt := by cases p <;> rfl
@[simp] theorem setBuf_chain (p : HPort) (f : PortBuf → PortBuf) (s : State) : (setBuf p f s).chain = s.chain := by cases p <;> rfl
@[simp] theorem setBuf_time (p : HPort) (f : PortBuf → PortBuf) (s : State) : (setBuf p f s).time = s.time := by cases p <;> rfl
@[simp] theorem setBuf_cell (p : HPort) (f : PortBuf → PortBuf) (s : State) : (setBuf p f s).cell = s.cell := by cases p <;> rfl
@[simp] theorem setBuf_bal (p : HPort) (f : PortBuf → PortBuf) (s : State) : (setBuf p f s).bal = s.bal := by cases p <;> rfl
@[simp] theorem setBuf_indigo (p : HPort) (f : PortBuf → PortBuf) (s : State) : (setBuf p f s).indigo = s.indigo := by cases p <;> rfl
@[simp] theorem setBuf_sweep (p : HPort) (f : PortBuf → PortBuf) (s : State) : (setBuf p f s).sweep = s.sweep := by cases p <;> rfl
@[simp] theorem setBuf_therm (p : HPort) (f : PortBuf → PortBuf) (s : State) : (setBuf p f s).therm = s.therm := by cases p <;> rfl
@[simp] theorem setBuf_sp1 (p : HPort) (f : PortBuf → PortBuf) (s : State) : (setBuf p f s).sp1 = s.sp1 := by cases p <;> rfl
@[simp] theorem setBuf_sp2 (p : HPort) (f : PortBuf → PortBuf) (s : State) : (setBuf p f s).sp2 = s.sp2 := by cases p <;> rfl
@[simp] theorem setBuf_watch (p : HPort) (f : PortBuf → PortBuf) (s : State) : (setBuf p f s).watch = s.watch := by cases p <;> rfl
@[simp] theorem setBuf_verm (p : HPort) (f : PortBuf → PortBuf) (s : State) : (setBuf p f s).verm = s.verm := by cases p <;> rfl
@[simp] theorem setBuf_chk (p : HPort) (f : PortBuf → PortBuf) (s : State) : (setBuf p f s).chk = s.chk := by cases p <;> rfl
@[simp] theorem setBuf_log (p : HPort) (f : PortBuf → PortBuf) (s : State) : (setBuf p f s).log = s.log := by cases p <;> rfl
@[simp] theorem setBuf_umber (p : HPort) (f : PortBuf → PortBuf) (s : State) : (setBuf p f s).umber = s.umber := by cases p <;> rfl
@[simp] theorem setBuf_tagFails (p : HPort) (f : PortBuf → PortBuf) (s : State) : (setBuf p f s).tagFails = s.tagFails := by cases p <;> rfl
@[simp] theorem setBuf_lockout (p : HPort) (f : PortBuf → PortBuf) (s : State) : (setBuf p f s).lockout = s.lockout := by cases p <;> rfl
@[simp] theorem setBuf_hostData (p : HPort) (f : PortBuf → PortBuf) (s : State) : (setBuf p f s).hostData = s.hostData := by cases p <;> rfl
@[simp] theorem setBuf_freeCtr (p : HPort) (f : PortBuf → PortBuf) (s : State) : (setBuf p f s).freeCtr = s.freeCtr := by cases p <;> rfl

@[simp] theorem setEng_sys (e : Engine) (f : Eng → Eng) (s : State) : (setEng e f s).sys = s.sys := by cases e <;> rfl
@[simp] theorem setEng_pins (e : Engine) (f : Eng → Eng) (s : State) : (setEng e f s).pins = s.pins := by cases e <;> rfl
@[simp] theorem setEng_nv (e : Engine) (f : Eng → Eng) (s : State) : (setEng e f s).nv = s.nv := by cases e <;> rfl
@[simp] theorem setEng_fw (e : Engine) (f : Eng → Eng) (s : State) : (setEng e f s).fw = s.fw := by cases e <;> rfl
@[simp] theorem setEng_host (e : Engine) (f : Eng → Eng) (s : State) : (setEng e f s).host = s.host := by cases e <;> rfl
@[simp] theorem setEng_cmd (e : Engine) (f : Eng → Eng) (s : State) : (setEng e f s).cmd = s.cmd := by cases e <;> rfl
@[simp] theorem setEng_evt (e : Engine) (f : Eng → Eng) (s : State) : (setEng e f s).evt = s.evt := by cases e <;> rfl
@[simp] theorem setEng_chain (e : Engine) (f : Eng → Eng) (s : State) : (setEng e f s).chain = s.chain := by cases e <;> rfl
@[simp] theorem setEng_time (e : Engine) (f : Eng → Eng) (s : State) : (setEng e f s).time = s.time := by cases e <;> rfl
@[simp] theorem setEng_cell (e : Engine) (f : Eng → Eng) (s : State) : (setEng e f s).cell = s.cell := by cases e <;> rfl
@[simp] theorem setEng_bal (e : Engine) (f : Eng → Eng) (s : State) : (setEng e f s).bal = s.bal := by cases e <;> rfl
@[simp] theorem setEng_sweep (e : Engine) (f : Eng → Eng) (s : State) : (setEng e f s).sweep = s.sweep := by cases e <;> rfl
@[simp] theorem setEng_therm (e : Engine) (f : Eng → Eng) (s : State) : (setEng e f s).therm = s.therm := by cases e <;> rfl
@[simp] theorem setEng_sp1 (e : Engine) (f : Eng → Eng) (s : State) : (setEng e f s).sp1 = s.sp1 := by cases e <;> rfl
@[simp] theorem setEng_sp2 (e : Engine) (f : Eng → Eng) (s : State) : (setEng e f s).sp2 = s.sp2 := by cases e <;> rfl
@[simp] theorem setEng_watch (e : Engine) (f : Eng → Eng) (s : State) : (setEng e f s).watch = s.watch := by cases e <;> rfl
@[simp] theorem setEng_verm (e : Engine) (f : Eng → Eng) (s : State) : (setEng e f s).verm = s.verm := by cases e <;> rfl
@[simp] theorem setEng_chk (e : Engine) (f : Eng → Eng) (s : State) : (setEng e f s).chk = s.chk := by cases e <;> rfl
@[simp] theorem setEng_log (e : Engine) (f : Eng → Eng) (s : State) : (setEng e f s).log = s.log := by cases e <;> rfl
@[simp] theorem setEng_umber (e : Engine) (f : Eng → Eng) (s : State) : (setEng e f s).umber = s.umber := by cases e <;> rfl
@[simp] theorem setEng_tagFails (e : Engine) (f : Eng → Eng) (s : State) : (setEng e f s).tagFails = s.tagFails := by cases e <;> rfl
@[simp] theorem setEng_lockout (e : Engine) (f : Eng → Eng) (s : State) : (setEng e f s).lockout = s.lockout := by cases e <;> rfl
@[simp] theorem setEng_hostData (e : Engine) (f : Eng → Eng) (s : State) : (setEng e f s).hostData = s.hostData := by cases e <;> rfl
@[simp] theorem setEng_freeCtr (e : Engine) (f : Eng → Eng) (s : State) : (setEng e f s).freeCtr = s.freeCtr := by cases e <;> rfl

@[simp] theorem setSp_sys (n : Nat) (f : SpSt → SpSt) (s : State) : (setSp n f s).sys = s.sys := by unfold setSp; split <;> rfl
@[simp] theorem setSp_pins (n : Nat) (f : SpSt → SpSt) (s : State) : (setSp n f s).pins = s.pins := by unfold setSp; split <;> rfl
@[simp] theorem setSp_nv (n : Nat) (f : SpSt → SpSt) (s : State) : (setSp n f s).nv = s.nv := by unfold setSp; split <;> rfl
@[simp] theorem setSp_fw (n : Nat) (f : SpSt → SpSt) (s : State) : (setSp n f s).fw = s.fw := by unfold setSp; split <;> rfl
@[simp] theorem setSp_host (n : Nat) (f : SpSt → SpSt) (s : State) : (setSp n f s).host = s.host := by unfold setSp; split <;> rfl
@[simp] theorem setSp_cmd (n : Nat) (f : SpSt → SpSt) (s : State) : (setSp n f s).cmd = s.cmd := by unfold setSp; split <;> rfl
@[simp] theorem setSp_evt (n : Nat) (f : SpSt → SpSt) (s : State) : (setSp n f s).evt = s.evt := by unfold setSp; split <;> rfl
@[simp] theorem setSp_chain (n : Nat) (f : SpSt → SpSt) (s : State) : (setSp n f s).chain = s.chain := by unfold setSp; split <;> rfl
@[simp] theorem setSp_time (n : Nat) (f : SpSt → SpSt) (s : State) : (setSp n f s).time = s.time := by unfold setSp; split <;> rfl
@[simp] theorem setSp_cell (n : Nat) (f : SpSt → SpSt) (s : State) : (setSp n f s).cell = s.cell := by unfold setSp; split <;> rfl
@[simp] theorem setSp_bal (n : Nat) (f : SpSt → SpSt) (s : State) : (setSp n f s).bal = s.bal := by unfold setSp; split <;> rfl
@[simp] theorem setSp_indigo (n : Nat) (f : SpSt → SpSt) (s : State) : (setSp n f s).indigo = s.indigo := by unfold setSp; split <;> rfl
@[simp] theorem setSp_sweep (n : Nat) (f : SpSt → SpSt) (s : State) : (setSp n f s).sweep = s.sweep := by unfold setSp; split <;> rfl
@[simp] theorem setSp_therm (n : Nat) (f : SpSt → SpSt) (s : State) : (setSp n f s).therm = s.therm := by unfold setSp; split <;> rfl
@[simp] theorem setSp_watch (n : Nat) (f : SpSt → SpSt) (s : State) : (setSp n f s).watch = s.watch := by unfold setSp; split <;> rfl
@[simp] theorem setSp_verm (n : Nat) (f : SpSt → SpSt) (s : State) : (setSp n f s).verm = s.verm := by unfold setSp; split <;> rfl
@[simp] theorem setSp_chk (n : Nat) (f : SpSt → SpSt) (s : State) : (setSp n f s).chk = s.chk := by unfold setSp; split <;> rfl
@[simp] theorem setSp_log (n : Nat) (f : SpSt → SpSt) (s : State) : (setSp n f s).log = s.log := by unfold setSp; split <;> rfl
@[simp] theorem setSp_umber (n : Nat) (f : SpSt → SpSt) (s : State) : (setSp n f s).umber = s.umber := by unfold setSp; split <;> rfl
@[simp] theorem setSp_tagFails (n : Nat) (f : SpSt → SpSt) (s : State) : (setSp n f s).tagFails = s.tagFails := by unfold setSp; split <;> rfl
@[simp] theorem setSp_lockout (n : Nat) (f : SpSt → SpSt) (s : State) : (setSp n f s).lockout = s.lockout := by unfold setSp; split <;> rfl
@[simp] theorem setSp_hostData (n : Nat) (f : SpSt → SpSt) (s : State) : (setSp n f s).hostData = s.hostData := by unfold setSp; split <;> rfl
@[simp] theorem setSp_freeCtr (n : Nat) (f : SpSt → SpSt) (s : State) : (setSp n f s).freeCtr = s.freeCtr := by unfold setSp; split <;> rfl

@[simp] theorem setHop_sys (sd : Side) (f : Hop → Hop) (s : State) : (setHop sd f s).sys = s.sys := by cases sd <;> rfl
@[simp] theorem setHop_pins (sd : Side) (f : Hop → Hop) (s : State) : (setHop sd f s).pins = s.pins := by cases sd <;> rfl
@[simp] theorem setHop_nv (sd : Side) (f : Hop → Hop) (s : State) : (setHop sd f s).nv = s.nv := by cases sd <;> rfl
@[simp] theorem setHop_fw (sd : Side) (f : Hop → Hop) (s : State) : (setHop sd f s).fw = s.fw := by cases sd <;> rfl
@[simp] theorem setHop_host (sd : Side) (f : Hop → Hop) (s : State) : (setHop sd f s).host = s.host := by cases sd <;> rfl
@[simp] theorem setHop_cmd (sd : Side) (f : Hop → Hop) (s : State) : (setHop sd f s).cmd = s.cmd := by cases sd <;> rfl
@[simp] theorem setHop_evt (sd : Side) (f : Hop → Hop) (s : State) : (setHop sd f s).evt = s.evt := by cases sd <;> rfl
@[simp] theorem setHop_chain (sd : Side) (f : Hop → Hop) (s : State) : (setHop sd f s).chain = s.chain := by cases sd <;> rfl
@[simp] theorem setHop_cell (sd : Side) (f : Hop → Hop) (s : State) : (setHop sd f s).cell = s.cell := by cases sd <;> rfl
@[simp] theorem setHop_bal (sd : Side) (f : Hop → Hop) (s : State) : (setHop sd f s).bal = s.bal := by cases sd <;> rfl
@[simp] theorem setHop_indigo (sd : Side) (f : Hop → Hop) (s : State) : (setHop sd f s).indigo = s.indigo := by cases sd <;> rfl
@[simp] theorem setHop_sweep (sd : Side) (f : Hop → Hop) (s : State) : (setHop sd f s).sweep = s.sweep := by cases sd <;> rfl
@[simp] theorem setHop_therm (sd : Side) (f : Hop → Hop) (s : State) : (setHop sd f s).therm = s.therm := by cases sd <;> rfl
@[simp] theorem setHop_sp1 (sd : Side) (f : Hop → Hop) (s : State) : (setHop sd f s).sp1 = s.sp1 := by cases sd <;> rfl
@[simp] theorem setHop_sp2 (sd : Side) (f : Hop → Hop) (s : State) : (setHop sd f s).sp2 = s.sp2 := by cases sd <;> rfl
@[simp] theorem setHop_watch (sd : Side) (f : Hop → Hop) (s : State) : (setHop sd f s).watch = s.watch := by cases sd <;> rfl
@[simp] theorem setHop_verm (sd : Side) (f : Hop → Hop) (s : State) : (setHop sd f s).verm = s.verm := by cases sd <;> rfl
@[simp] theorem setHop_chk (sd : Side) (f : Hop → Hop) (s : State) : (setHop sd f s).chk = s.chk := by cases sd <;> rfl
@[simp] theorem setHop_log (sd : Side) (f : Hop → Hop) (s : State) : (setHop sd f s).log = s.log := by cases sd <;> rfl
@[simp] theorem setHop_umber (sd : Side) (f : Hop → Hop) (s : State) : (setHop sd f s).umber = s.umber := by cases sd <;> rfl
@[simp] theorem setHop_tagFails (sd : Side) (f : Hop → Hop) (s : State) : (setHop sd f s).tagFails = s.tagFails := by cases sd <;> rfl
@[simp] theorem setHop_lockout (sd : Side) (f : Hop → Hop) (s : State) : (setHop sd f s).lockout = s.lockout := by cases sd <;> rfl
@[simp] theorem setHop_hostData (sd : Side) (f : Hop → Hop) (s : State) : (setHop sd f s).hostData = s.hostData := by cases sd <;> rfl
@[simp] theorem setHop_freeCtr (sd : Side) (f : Hop → Hop) (s : State) : (setHop sd f s).freeCtr = s.freeCtr := by cases sd <;> rfl

@[simp] theorem updPeer_sys (j : Nat) (f : PeerS → PeerS) (s : State) : (updPeer j f s).sys = s.sys := rfl
@[simp] theorem updPeer_pins (j : Nat) (f : PeerS → PeerS) (s : State) : (updPeer j f s).pins = s.pins := rfl
@[simp] theorem updPeer_nv (j : Nat) (f : PeerS → PeerS) (s : State) : (updPeer j f s).nv = s.nv := rfl
@[simp] theorem updPeer_fw (j : Nat) (f : PeerS → PeerS) (s : State) : (updPeer j f s).fw = s.fw := rfl
@[simp] theorem updPeer_host (j : Nat) (f : PeerS → PeerS) (s : State) : (updPeer j f s).host = s.host := rfl
@[simp] theorem updPeer_cmd (j : Nat) (f : PeerS → PeerS) (s : State) : (updPeer j f s).cmd = s.cmd := rfl
@[simp] theorem updPeer_evt (j : Nat) (f : PeerS → PeerS) (s : State) : (updPeer j f s).evt = s.evt := rfl
@[simp] theorem updPeer_chain (j : Nat) (f : PeerS → PeerS) (s : State) : (updPeer j f s).chain = s.chain := rfl
@[simp] theorem updPeer_time (j : Nat) (f : PeerS → PeerS) (s : State) : (updPeer j f s).time = s.time := rfl
@[simp] theorem updPeer_cell (j : Nat) (f : PeerS → PeerS) (s : State) : (updPeer j f s).cell = s.cell := rfl
@[simp] theorem updPeer_bal (j : Nat) (f : PeerS → PeerS) (s : State) : (updPeer j f s).bal = s.bal := rfl
@[simp] theorem updPeer_indigo (j : Nat) (f : PeerS → PeerS) (s : State) : (updPeer j f s).indigo = s.indigo := rfl
@[simp] theorem updPeer_sweep (j : Nat) (f : PeerS → PeerS) (s : State) : (updPeer j f s).sweep = s.sweep := rfl
@[simp] theorem updPeer_therm (j : Nat) (f : PeerS → PeerS) (s : State) : (updPeer j f s).therm = s.therm := rfl
@[simp] theorem updPeer_sp1 (j : Nat) (f : PeerS → PeerS) (s : State) : (updPeer j f s).sp1 = s.sp1 := rfl
@[simp] theorem updPeer_sp2 (j : Nat) (f : PeerS → PeerS) (s : State) : (updPeer j f s).sp2 = s.sp2 := rfl
@[simp] theorem updPeer_watch (j : Nat) (f : PeerS → PeerS) (s : State) : (updPeer j f s).watch = s.watch := rfl
@[simp] theorem updPeer_chk (j : Nat) (f : PeerS → PeerS) (s : State) : (updPeer j f s).chk = s.chk := rfl
@[simp] theorem updPeer_log (j : Nat) (f : PeerS → PeerS) (s : State) : (updPeer j f s).log = s.log := rfl
@[simp] theorem updPeer_umber (j : Nat) (f : PeerS → PeerS) (s : State) : (updPeer j f s).umber = s.umber := rfl
@[simp] theorem updPeer_tagFails (j : Nat) (f : PeerS → PeerS) (s : State) : (updPeer j f s).tagFails = s.tagFails := rfl
@[simp] theorem updPeer_lockout (j : Nat) (f : PeerS → PeerS) (s : State) : (updPeer j f s).lockout = s.lockout := rfl
@[simp] theorem updPeer_hostData (j : Nat) (f : PeerS → PeerS) (s : State) : (updPeer j f s).hostData = s.hostData := rfl
@[simp] theorem updPeer_freeCtr (j : Nat) (f : PeerS → PeerS) (s : State) : (updPeer j f s).freeCtr = s.freeCtr := rfl

@[simp] theorem updChk_sys (n : Nat) (f : ChkU → ChkU) (s : State) : (updChk n f s).sys = s.sys := rfl
@[simp] theorem updChk_pins (n : Nat) (f : ChkU → ChkU) (s : State) : (updChk n f s).pins = s.pins := rfl
@[simp] theorem updChk_nv (n : Nat) (f : ChkU → ChkU) (s : State) : (updChk n f s).nv = s.nv := rfl
@[simp] theorem updChk_fw (n : Nat) (f : ChkU → ChkU) (s : State) : (updChk n f s).fw = s.fw := rfl
@[simp] theorem updChk_host (n : Nat) (f : ChkU → ChkU) (s : State) : (updChk n f s).host = s.host := rfl
@[simp] theorem updChk_cmd (n : Nat) (f : ChkU → ChkU) (s : State) : (updChk n f s).cmd = s.cmd := rfl
@[simp] theorem updChk_evt (n : Nat) (f : ChkU → ChkU) (s : State) : (updChk n f s).evt = s.evt := rfl
@[simp] theorem updChk_chain (n : Nat) (f : ChkU → ChkU) (s : State) : (updChk n f s).chain = s.chain := rfl
@[simp] theorem updChk_time (n : Nat) (f : ChkU → ChkU) (s : State) : (updChk n f s).time = s.time := rfl
@[simp] theorem updChk_cell (n : Nat) (f : ChkU → ChkU) (s : State) : (updChk n f s).cell = s.cell := rfl
@[simp] theorem updChk_bal (n : Nat) (f : ChkU → ChkU) (s : State) : (updChk n f s).bal = s.bal := rfl
@[simp] theorem updChk_indigo (n : Nat) (f : ChkU → ChkU) (s : State) : (updChk n f s).indigo = s.indigo := rfl
@[simp] theorem updChk_sweep (n : Nat) (f : ChkU → ChkU) (s : State) : (updChk n f s).sweep = s.sweep := rfl
@[simp] theorem updChk_therm (n : Nat) (f : ChkU → ChkU) (s : State) : (updChk n f s).therm = s.therm := rfl
@[simp] theorem updChk_sp1 (n : Nat) (f : ChkU → ChkU) (s : State) : (updChk n f s).sp1 = s.sp1 := rfl
@[simp] theorem updChk_sp2 (n : Nat) (f : ChkU → ChkU) (s : State) : (updChk n f s).sp2 = s.sp2 := rfl
@[simp] theorem updChk_watch (n : Nat) (f : ChkU → ChkU) (s : State) : (updChk n f s).watch = s.watch := rfl
@[simp] theorem updChk_verm (n : Nat) (f : ChkU → ChkU) (s : State) : (updChk n f s).verm = s.verm := rfl
@[simp] theorem updChk_log (n : Nat) (f : ChkU → ChkU) (s : State) : (updChk n f s).log = s.log := rfl
@[simp] theorem updChk_umber (n : Nat) (f : ChkU → ChkU) (s : State) : (updChk n f s).umber = s.umber := rfl
@[simp] theorem updChk_tagFails (n : Nat) (f : ChkU → ChkU) (s : State) : (updChk n f s).tagFails = s.tagFails := rfl
@[simp] theorem updChk_lockout (n : Nat) (f : ChkU → ChkU) (s : State) : (updChk n f s).lockout = s.lockout := rfl
@[simp] theorem updChk_hostData (n : Nat) (f : ChkU → ChkU) (s : State) : (updChk n f s).hostData = s.hostData := rfl
@[simp] theorem updChk_freeCtr (n : Nat) (f : ChkU → ChkU) (s : State) : (updChk n f s).freeCtr = s.freeCtr := rfl

@[simp] theorem updAlv_sys (ch : Nat) (f : Alv → Alv) (s : State) : (updAlv ch f s).sys = s.sys := rfl
@[simp] theorem updAlv_pins (ch : Nat) (f : Alv → Alv) (s : State) : (updAlv ch f s).pins = s.pins := rfl
@[simp] theorem updAlv_nv (ch : Nat) (f : Alv → Alv) (s : State) : (updAlv ch f s).nv = s.nv := rfl
@[simp] theorem updAlv_fw (ch : Nat) (f : Alv → Alv) (s : State) : (updAlv ch f s).fw = s.fw := rfl
@[simp] theorem updAlv_host (ch : Nat) (f : Alv → Alv) (s : State) : (updAlv ch f s).host = s.host := rfl
@[simp] theorem updAlv_cmd (ch : Nat) (f : Alv → Alv) (s : State) : (updAlv ch f s).cmd = s.cmd := rfl
@[simp] theorem updAlv_evt (ch : Nat) (f : Alv → Alv) (s : State) : (updAlv ch f s).evt = s.evt := rfl
@[simp] theorem updAlv_chain (ch : Nat) (f : Alv → Alv) (s : State) : (updAlv ch f s).chain = s.chain := rfl
@[simp] theorem updAlv_time (ch : Nat) (f : Alv → Alv) (s : State) : (updAlv ch f s).time = s.time := rfl
@[simp] theorem updAlv_cell (ch : Nat) (f : Alv → Alv) (s : State) : (updAlv ch f s).cell = s.cell := rfl
@[simp] theorem updAlv_bal (ch : Nat) (f : Alv → Alv) (s : State) : (updAlv ch f s).bal = s.bal := rfl
@[simp] theorem updAlv_indigo (ch : Nat) (f : Alv → Alv) (s : State) : (updAlv ch f s).indigo = s.indigo := rfl
@[simp] theorem updAlv_sweep (ch : Nat) (f : Alv → Alv) (s : State) : (updAlv ch f s).sweep = s.sweep := rfl
@[simp] theorem updAlv_therm (ch : Nat) (f : Alv → Alv) (s : State) : (updAlv ch f s).therm = s.therm := rfl
@[simp] theorem updAlv_sp1 (ch : Nat) (f : Alv → Alv) (s : State) : (updAlv ch f s).sp1 = s.sp1 := rfl
@[simp] theorem updAlv_sp2 (ch : Nat) (f : Alv → Alv) (s : State) : (updAlv ch f s).sp2 = s.sp2 := rfl
@[simp] theorem updAlv_watch (ch : Nat) (f : Alv → Alv) (s : State) : (updAlv ch f s).watch = s.watch := rfl
@[simp] theorem updAlv_verm (ch : Nat) (f : Alv → Alv) (s : State) : (updAlv ch f s).verm = s.verm := rfl
@[simp] theorem updAlv_log (ch : Nat) (f : Alv → Alv) (s : State) : (updAlv ch f s).log = s.log := rfl
@[simp] theorem updAlv_umber (ch : Nat) (f : Alv → Alv) (s : State) : (updAlv ch f s).umber = s.umber := rfl
@[simp] theorem updAlv_tagFails (ch : Nat) (f : Alv → Alv) (s : State) : (updAlv ch f s).tagFails = s.tagFails := rfl
@[simp] theorem updAlv_lockout (ch : Nat) (f : Alv → Alv) (s : State) : (updAlv ch f s).lockout = s.lockout := rfl
@[simp] theorem updAlv_hostData (ch : Nat) (f : Alv → Alv) (s : State) : (updAlv ch f s).hostData = s.hostData := rfl
@[simp] theorem updAlv_freeCtr (ch : Nat) (f : Alv → Alv) (s : State) : (updAlv ch f s).freeCtr = s.freeCtr := rfl

@[simp] theorem updOut_sys (o : Nat) (f : OutS → OutS) (s : State) : (updOut o f s).sys = s.sys := rfl
@[simp] theorem updOut_pins (o : Nat) (f : OutS → OutS) (s : State) : (updOut o f s).pins = s.pins := rfl
@[simp] theorem updOut_nv (o : Nat) (f : OutS → OutS) (s : State) : (updOut o f s).nv = s.nv := rfl
@[simp] theorem updOut_fw (o : Nat) (f : OutS → OutS) (s : State) : (updOut o f s).fw = s.fw := rfl
@[simp] theorem updOut_host (o : Nat) (f : OutS → OutS) (s : State) : (updOut o f s).host = s.host := rfl
@[simp] theorem updOut_cmd (o : Nat) (f : OutS → OutS) (s : State) : (updOut o f s).cmd = s.cmd := rfl
@[simp] theorem updOut_evt (o : Nat) (f : OutS → OutS) (s : State) : (updOut o f s).evt = s.evt := rfl
@[simp] theorem updOut_chain (o : Nat) (f : OutS → OutS) (s : State) : (updOut o f s).chain = s.chain := rfl
@[simp] theorem updOut_time (o : Nat) (f : OutS → OutS) (s : State) : (updOut o f s).time = s.time := rfl
@[simp] theorem updOut_cell (o : Nat) (f : OutS → OutS) (s : State) : (updOut o f s).cell = s.cell := rfl
@[simp] theorem updOut_bal (o : Nat) (f : OutS → OutS) (s : State) : (updOut o f s).bal = s.bal := rfl
@[simp] theorem updOut_indigo (o : Nat) (f : OutS → OutS) (s : State) : (updOut o f s).indigo = s.indigo := rfl
@[simp] theorem updOut_sweep (o : Nat) (f : OutS → OutS) (s : State) : (updOut o f s).sweep = s.sweep := rfl
@[simp] theorem updOut_therm (o : Nat) (f : OutS → OutS) (s : State) : (updOut o f s).therm = s.therm := rfl
@[simp] theorem updOut_sp1 (o : Nat) (f : OutS → OutS) (s : State) : (updOut o f s).sp1 = s.sp1 := rfl
@[simp] theorem updOut_sp2 (o : Nat) (f : OutS → OutS) (s : State) : (updOut o f s).sp2 = s.sp2 := rfl
@[simp] theorem updOut_watch (o : Nat) (f : OutS → OutS) (s : State) : (updOut o f s).watch = s.watch := rfl
@[simp] theorem updOut_chk (o : Nat) (f : OutS → OutS) (s : State) : (updOut o f s).chk = s.chk := rfl
@[simp] theorem updOut_log (o : Nat) (f : OutS → OutS) (s : State) : (updOut o f s).log = s.log := rfl
@[simp] theorem updOut_umber (o : Nat) (f : OutS → OutS) (s : State) : (updOut o f s).umber = s.umber := rfl
@[simp] theorem updOut_tagFails (o : Nat) (f : OutS → OutS) (s : State) : (updOut o f s).tagFails = s.tagFails := rfl
@[simp] theorem updOut_lockout (o : Nat) (f : OutS → OutS) (s : State) : (updOut o f s).lockout = s.lockout := rfl
@[simp] theorem updOut_hostData (o : Nat) (f : OutS → OutS) (s : State) : (updOut o f s).hostData = s.hostData := rfl
@[simp] theorem updOut_freeCtr (o : Nat) (f : OutS → OutS) (s : State) : (updOut o f s).freeCtr = s.freeCtr := rfl

@[simp] theorem port_setPort (sd : Side) (f : ChPort → ChPort) (s : State) : port (setPort sd f s) sd = f (port s sd) := by cases sd <;> rfl
@[simp] theorem port_setPort_other (sd : Side) (f : ChPort → ChPort) (s : State) : port (setPort sd f s) (otherSide sd) = port s (otherSide sd) := by cases sd <;> rfl
@[simp] theorem portBuf_setBuf (p : HPort) (f : PortBuf → PortBuf) (s : State) : portBuf (setBuf p f s) p = f (portBuf s p) := by cases p <;> rfl
@[simp] theorem eng_setEng (e : Engine) (f : Eng → Eng) (s : State) : eng (setEng e f s) e = f (eng s e) := by cases e <;> rfl
@[simp] theorem setEng_pad (e : Engine) (f : Eng → Eng) (s : State) : (setEng e f s).indigo.pad = s.indigo.pad := by cases e <;> rfl
@[simp] theorem setEng_store (e : Engine) (f : Eng → Eng) (s : State) : (setEng e f s).indigo.store = s.indigo.store := by cases e <;> rfl
@[simp] theorem setEng_ts (e : Engine) (f : Eng → Eng) (s : State) : (setEng e f s).indigo.ts = s.indigo.ts := by cases e <;> rfl
@[simp] theorem setEng_st (e : Engine) (f : Eng → Eng) (s : State) : (setEng e f s).indigo.st = s.indigo.st := by cases e <;> rfl

/-- Two updates of one engine are one. -/
theorem setEng_setEng (e : Engine) (f g : Eng → Eng) (s : State) : setEng e f (setEng e g s) = setEng e (fun x => f (g x)) s := by cases e <;> rfl

/-- An element of a list that is updated at an index inside it. -/
theorem nth_upd {α : Type} (l : List α) (i : Nat) (f : α → α) (d : α) (h : i < l.length) : nth (upd l i f) i d = f (nth l i d) := by
  simp [nth, upd, List.getD, h]

/-- Another element of a list that is updated at an index. -/
theorem nth_upd_other {α : Type} (l : List α) (i j : Nat) (f : α → α) (d : α) (h : i ≠ j) : nth (upd l i f) j d = nth l j d := by
  simp [nth, upd, List.getD, h]

@[simp] theorem length_upd {α : Type} (l : List α) (i : Nat) (f : α → α) : (upd l i f).length = l.length := by simp [upd]

/-- A unit changed reads as changed, and every other unit as before. -/
theorem chkU_updChk (n : Nat) (f : ChkU → ChkU) (s : State) (h : n < s.chk.units.length) : chkU (updChk n f s) n = f (chkU s n) := nth_upd _ _ _ _ h

theorem chkU_updChk_other (n m : Nat) (f : ChkU → ChkU) (s : State) (h : n ≠ m) : chkU (updChk n f s) m = chkU s m := nth_upd_other _ _ _ _ _ h

end Sys2Proof.Machine
end

