-- ==== Sys2Proof/WellFormed.lean ====
section
/-! DEFINITION. What the operands of a command must be beyond their types: the lengths of lists of readings and bytes, and the ranges of
frame fields. The checks say which terms stand for something that can happen; `exec` answers for every term. -/

namespace Sys2Proof

/-- A list with one reading per cell. -/
def wfCells (l : List CellIn) : Bool := l.length == 16

/-- A frame whose fields fit the link header of R244: class, blocks, position bytes, kind, counter, payload count and hops. -/
def wfFrame (f : Frame) : Bool :=
  f.cls < 8 && f.blk < 16 && f.dest < 256 && f.orig < 64 && f.kind < 16 && f.seq < 16384 && f.plen < 1024 && f.hops < 64 &&
    f.cred.length == 6 && f.cred.all (· < 256) && f.rxbad < 256

/-- A frame of a row that names its kind (R245). -/
def wfKind (k : Nat) (f : Frame) : Bool := wfFrame f && f.kind == k

/-- What the boot finds: a result for each of the four check-value units. -/
def wfBoot (b : BootIn) : Bool := b.katOk.length == 4 && b.logDamaged.all (· < 4112) && b.badShadows.all (· < 4096)

/-- What a pulse test reads: four inputs, three outputs. -/
def wfPulse (p : PulseIn) : Bool :=
  p.inLow.length == 4 && p.inHigh.length == 4 && p.outMV.length == 3 && p.fallMV.length == 3 && p.limit.length == 3 && p.enabled.length == 3

/-- What a proof measures: four unit results, sixteen cells, sixteen balance channels, the 64 periods of the heartbeat, the pulse test. -/
def wfProof (p : ProofIn) : Bool :=
  p.katOk.length == 4 && wfPulse p.pulse && p.cellUV.length == 16 && p.curMA.length == 16 && p.startUV.length == 16 && p.endUV.length == 16 && p.hbBack.length == 64 &&
    p.logDamaged.all (· < 4112)

/-- What a balance period measures: sixteen channels. -/
def wfBal (m : BalMeas) : Bool :=
  m.curMA.length == 16 && m.limitUs.length == 16 && m.switchMV.length == 16 && m.gateOnMV.length == 16 && m.gateOffMV.length == 16

/-- Byte lists of the host commands within the sizes of R176. -/
def wfBytes (max : Nat) (l : List Byte) : Bool := l.length ≤ max

/-- The well-formedness of a command. -/
def Instr.wf : Instr → Bool
  | .kernelLoad _ _ _ code _ => wfBytes 509 code
  | .kernelLaunch _ _ _ args => wfBytes 16 args
  | .safeParamWrite _ _ bytes => wfBytes 256 bytes
  | .mtrUpdate _ _ image => wfBytes 508 image
  | .fwLoad _ _ image => wfBytes 508 image
  | .keyProvision _ _ key => key.length == 16
  | .cfgWrite _ _ bytes => wfBytes 510 bytes
  | .powerUp boot => wfBoot boot
  | .proofStart meas => wfProof meas
  | .cellSample ins => wfCells ins
  | .limitSample ins => wfCells ins
  | .sentinelWake cellUV auxUV _ _ => cellUV.length == 16 && auxUV.length == 8
  | .auxSample auxUV _ => auxUV.length == 8
  | .loadCheck startUV endUV gateOnMV gateOffMV => startUV.length == 16 && endUV.length == 16 && gateOnMV.length == 16 && gateOffMV.length == 16
  | .balPeriod meas => wfBal meas
  | .clockCheck dev _ => dev &&& 0x55 == 0
  | .transitFrame _ f _ => wfFrame f
  | .creditFrame _ f _ => wfKind 0 f
  | .linkUp _ f _ => wfKind 1 f
  | .breakFrame _ f _ => wfKind 6 f
  | .enumFrame _ f _ => wfKind 2 f
  | .enumEnd _ f _ => wfKind 3 f
  | .enumDone _ f _ => wfKind 4 f
  | .ack _ f _ => wfKind 5 f
  | .voidFrame _ f _ => wfKind 14 f
  | .commandFrame _ f _ => wfKind 8 f
  | .responseFrame _ f _ => wfKind 9 f
  | .eventFrame _ f _ => wfKind 10 f
  | .safetyFrame _ f _ => wfKind 11 f
  | .metro _ f _ => wfKind 12 f
  | .dataFrame _ f _ => wfKind 13 f
  | .beacon _ f _ _ _ => wfKind 7 f
  | .delayReq _ f _ _ => wfKind 7 f
  | .delayResp _ f _ _ => wfKind 7 f
  | .crossingMessage _ _ _ bytes => !bytes.isEmpty
  | _ => true

end Sys2Proof
end

