-- ==== Sys2Proof/Tests/Slice0.lean ====
section
/-! SUPPORT. Tests: ill-formed commands that the checks of WellFormed.lean refuse, words and check values the manual writes out, the decoder of words,
and, for every clause of a statement that has hypotheses, a state and operands that meet all of them together. -/

namespace Sys2Proof.Tests

open Sys2Proof Sys2Proof.Machine

/-! ## The commands the tests speak of -/

/-- A command from a host on the SPI port of this member, under an authority. -/
def ask (a : Auth) : Req := { host := 0, auth := a, seq := 5, orig := .port .spi, dev := 0xFD }

/-- A member that is powered, ready and active, with its meter talking. -/
def awake : State :=
  { State.reset with sys.powered := true, sys.ready := true, sys.mode := .active, umber.linkUp := true }

/-- The same member in a ring of four, at position 1, with both links up and room at its neighbours. -/
def onChain : State :=
  { awake with
    chain.addr := true, chain.pos := 1, chain.n := 4, chain.ring := .closed,
    chain.north := { st := .active, advRes := [2, 2, 8, 18, 18, 18], advShared := 14 },
    chain.south := { st := .active, advRes := [2, 2, 8, 18, 18, 18], advShared := 14 } }

/-- The same member in SENTINEL. -/
def asleep : State := { awake with sys.mode := .sentinel, sys.ready := false }

/-- A frame of a class and kind to a position, from position 3. -/
def frm (cls kind dest plen : Nat) (body : List Byte) : Frame :=
  { cls := cls, blk := (21 + body.length + 63) / 64, south := false, dest := dest, orig := 3, turned := false, first := false, kind := kind, rexmit := false,
    tag := false, seq := 0, twin := false, multi := false, plen := plen, hops := 1, cred := [0, 0, 0, 0, 0, 0], rxbad := 0, body := body }

/-- An engine in the middle of a kernel whose next word is the first of a list. -/
def runs (words : List Word) : Eng := { st := .running, prog := words, budget := 1000 }

/-- The member with the tile engine at an instruction; tiles 1 and 2 are 1 by 2 of Q31. -/
def teAt (i : IInstr) : State :=
  { awake with indigo.te := { runs [encodeI i, 0, 0, 0] with
      tiles := [none, some { ty := 1, rows := 1, cols := 2, elems := [1, 2] }, some { ty := 1, rows := 1, cols := 2, elems := [3, 4] }] ++ List.replicate 13 none } }

/-- The member with the spectral engine at an instruction; registers 1 and 2 hold four elements. -/
def seAt (i : IInstr) : State :=
  { awake with indigo.se := { runs [encodeI i, 0, 0, 0] with spec := [none, some [1, 2, 3, 4], some [5, 6, 7, 8], none, none, none, none, none] } }

/-- What a boot meets on a sound member. -/
def soundBoot : BootIn :=
  { anchorPin := false, vstk10mV := 5600, vspMV := 5000, katOk := [true, true, true, true], bankAOk := true, bankBOk := true, cfgOneBad := false,
    cfgNewBad := false, blockBad := false, logUnread := false, logDamaged := [], badShadows := [] }

/-- What a pulse test reads at a sound member without inputs and outputs in use. -/
def soundPulse : PulseIn :=
  { inLow := List.replicate 4 (false, false), inHigh := List.replicate 4 (true, true), outMV := [0, 0, 0], coilMV := 24000, fallMV := [0, 0, 0],
    limit := [true, true, true], enabled := [false, false, false] }

/-- What a proof measures on a sound member. -/
def soundProof : ProofIn :=
  { katOk := [true, true, true, true], refUV := (0, 0, 0), cellUV := List.replicate 16 3300000, isnsNV := 0, curMA := List.replicate 16 50,
    startUV := List.replicate 16 3300000, endUV := List.replicate 16 3300000, hbBack := List.replicate 64 (500, 1000), pulse := soundPulse, logDamaged := [],
    iUmb := 0, iSafe := 0, memOk := true, blockOk := true }

/-- What a balance period without pulses measures. -/
def quietBal : BalMeas :=
  { curMA := List.replicate 16 0, limitUs := List.replicate 16 none, switchMV := List.replicate 16 0, gateOnMV := List.replicate 16 0,
    gateOffMV := List.replicate 16 0, clip := false }

/-- A record of the meter. -/
def record1 : URec :=
  { kind := 0, flags := 0, seq := 1, start := 0, len := 15, tstate := 0, closeSec := 0, closeNs := 0, dur := 0, imp := 0, exp := 0, chg := 0, dis := 0,
    dImp := 0, dExp := 0, audit := 0, swid := 0, crcOk := true }

/-- A stream that has received a frame out of order. -/
def rx1 : RxStream := { orig := 3, multi := false, cls := 2, twin := false, next := 0, recent := [], gap := true, lastNak := none, unackedRx := 1 }

/-- A stream with one frame sent and unacknowledged. -/
def tx1 (n : Nat) : TxStream :=
  { dest := 3, multi := false, cls := 2, twin := false, next := 1, firstDue := false, unacked := [frm 2 9 3 0 []], sent := n, rounds := 0, legs := 0, back := [],
    ackN := none, ackS := none }

/-- An event entry. -/
def entry1 : Entry := { src := 0x20, pos := 1, sev := 1, seq := 0, stamp := 0, lost := false, detail := [] }

/-- An event for the recorder. -/
def logIn1 : LogIn := { evid := 0x7A, sev := 3, payload := [], rep := 0, alarm := true, held := false }

/-- A command that waits. -/
def waiting1 : PCmd := { rq := ask .operator, opc := 0, params := [], tagC := none }

/-- A reply slot of a command to a position. -/
def slot1 (dev : Nat) : Slot :=
  { seq := 5, hdr := 0x50, dev := dev, tagC := none, reports := [], returned := false, reply := none, ownReply := false, released := false }

/-- A stimulus that runs. -/
def stim1 : Stim := { mask := 1, wave := 1, dur := 1, freq := 1000, bias := 10, amp := 10, running := true, sweep := false, t0 := 0, onAt := 0, offAt := none }

/-- A record of the recorder. -/
def rec1 : Rec := { seq := 7, opmin := 0, cyc := 0, evid := 0x20, sevFlags := 0, payload := [], rep := 0, shadowOk := true, crcOk := true }

/-- A repetition that still counts. -/
def cand1 : RepCand := { evid := 0x20, payload := [], slot := 3, seq := 7, atClk := 0, pending := 2, shadowAt := none }

/-! ## Well-formedness -/

/-- A cell reading in range. -/
def cellIn1 : CellIn := { uV := 3300000, ovr := false, und := false }

/-- A main sample and a limit sample have a reading for each of the sixteen cells (R362). -/
theorem test_wf_samples : (Instr.cellSample [cellIn1]).wf = false ∧ (Instr.limitSample []).wf = false ∧ (Instr.cellSample (List.replicate 16 cellIn1)).wf = true := by
  decide

/-- The sample of the auxiliary inputs has eight readings, a wake sixteen and eight, a load check sixteen four times, a sweep pass sixteen points. -/
theorem test_wf_readings :
    (Instr.auxSample [] 0).wf = false ∧ (Instr.sentinelWake [] [] 0 0).wf = false ∧ (Instr.sentinelWake (List.replicate 16 0) [] 0 0).wf = false ∧
    (Instr.loadCheck [] [] [] []).wf = false ∧ (Instr.loadCheck (List.replicate 16 0) (List.replicate 16 0) (List.replicate 16 0) [0]).wf = false ∧
    (Instr.balPeriod { quietBal with gateOffMV := [] }).wf = false ∧ (Instr.balPeriod quietBal).wf = true := by
  decide

/-- A boot meets four check-value units, slots of the recorder below 4112 and shadows below 4096. -/
theorem test_wf_boot :
    (Instr.powerUp { soundBoot with katOk := [true] }).wf = false ∧ (Instr.powerUp { soundBoot with logDamaged := [4112] }).wf = false ∧
    (Instr.powerUp { soundBoot with badShadows := [4096] }).wf = false ∧ (Instr.powerUp soundBoot).wf = true := by
  decide

/-- A proof measures four check-value units and sixteen cells. -/
theorem test_wf_proof :
    (Instr.proofStart { soundProof with katOk := [] }).wf = false ∧ (Instr.proofStart { soundProof with cellUV := [] }).wf = false ∧
    (Instr.proofStart { soundProof with hbBack := [] }).wf = false ∧ (Instr.proofStart { soundProof with pulse := { soundPulse with inLow := [] } }).wf = false ∧
    (Instr.proofStart { soundProof with logDamaged := [4112] }).wf = false ∧ (Instr.proofStart soundProof).wf = true := by
  decide

/-- A key has sixteen bytes. -/
theorem test_wf_key : (Instr.keyProvision (ask .operator) 0 []).wf = false := by decide

/-- The byte lists of the host commands fit their packets (R176). -/
theorem test_wf_bytes :
    (Instr.kernelLoad (ask .operator) 0 0 (List.replicate 510 0) true).wf = false ∧ (Instr.kernelLaunch (ask .operator) 0 0 (List.replicate 17 0)).wf = false ∧
    (Instr.safeParamWrite (ask .operator) 0 (List.replicate 257 0)).wf = false ∧ (Instr.mtrUpdate (ask .operator) 0 (List.replicate 509 0)).wf = false ∧
    (Instr.fwLoad (ask .operator) 0 (List.replicate 509 0)).wf = false ∧ (Instr.cfgWrite (ask .operator) 0 (List.replicate 511 0)).wf = false := by
  decide +kernel

/-- The clock checks of an alternate bit only; a crossing message has at least one byte. -/
theorem test_wf_checks :
    (Instr.clockCheck 1 false).wf = false ∧ (Instr.crossingMessage 0 0 0 []).wf = false := by
  decide

/-- Every field of a frame fits its place in the link header (R244). -/
theorem test_wf_frame :
    (∀ f ∈ [{ frm 2 9 1 0 [] with cls := 8 }, { frm 2 9 1 0 [] with blk := 16 }, { frm 2 9 1 0 [] with dest := 256 }, { frm 2 9 1 0 [] with orig := 64 },
      { frm 2 9 1 0 [] with kind := 16 }, { frm 2 9 1 0 [] with seq := 16384 }, { frm 2 9 1 0 [] with plen := 1024 }, { frm 2 9 1 0 [] with hops := 64 },
      { frm 2 9 1 0 [] with cred := [] }, { frm 2 9 1 0 [] with cred := [256, 0, 0, 0, 0, 0] }, { frm 2 9 1 0 [] with rxbad := 256 }],
      (Instr.transitFrame .north f .ok).wf = false) ∧ (Instr.transitFrame .north (frm 2 9 1 0 []) .ok).wf = true := by
  decide

/-- A row that names a frame kind takes no other kind (R245). -/
theorem test_wf_kind :
    let f := frm 2 15 1 0 []
    ([Instr.creditFrame .north f .ok, .linkUp .north f .ok, .breakFrame .north f .ok, .enumFrame .north f .ok, .enumEnd .north f .ok, .enumDone .north f .ok,
      .ack .north f .ok, .voidFrame .north f .ok, .commandFrame .north f .ok, .responseFrame .north f .ok, .eventFrame .north f .ok,
      .safetyFrame .north f .ok, .metro .north f .ok, .dataFrame .north f .ok, .beacon .north f .ok 0 0, .delayReq .north f .ok 0,
      .delayResp .north f .ok 0].any fun i => i.wf) = false := by
  decide

/-! ## Words the manual writes out -/

/-- Words of the worked example's listing (file 11), by its columns: index 3, 9, 10, 12, 14, 15 and 48. -/
theorem test_words_scalar :
    decodeI .te 0x0DC3FFFF = some (.addi 7 0 (-1)) ∧ decodeI .te 0x165C0008 = some (.lds 9 7 8) ∧ decodeI .te 0x0A802C00 = some (.lih 10 0x2C00) ∧
    decodeI .te 0x1CA8C02F = some (.br 2 10 3 47) ∧ decodeI .te 0x1266C006 = some (.sop 9 9 11 6) ∧ decodeI .te 0x1266C008 = some (.sop 9 9 11 8) ∧
    decodeI .te 0x28280000 = some (.endK 10) := by
  decide

/-- Words of the listing's tile instructions: index 21, 22, 28, 38, 41, 43, 46 and 47. -/
theorem test_words_tile :
    decodeI .te 0x5C44007F = some (.tcvt 1 1 3 31) ∧ decodeI .te 0x50C02402 = some (.tews 3 0 9 2) ∧ decodeI .te 0x455EC047 = some (.tld 5 7 11 0x047) ∧
    decodeI .te 0x5658C002 = some (.tmm 9 6 3 2) ∧ decodeI .te 0x52CC3C01 = some (.tews 11 3 15 1) ∧ decodeI .te 0x4F068001 = some (.tew 12 1 10 1) ∧
    decodeI .te 0x4A778000 = some (.tst 9 13 14) ∧ decodeI .te 0x30000001 = some (.ring 0 0 true false) := by
  decide

/-- No row of the command table has bits, so no word spells a command, and nothing is put into the queue for one. -/
theorem test_no_table_words (n w : Nat) : decodeTableWord n w = none ∧ State.reset.withFetchWord n w = State.reset := ⟨rfl, rfl⟩

/-! ## One step on a small state -/

/-- A command at the front of the queue is taken from it and executed: a host's NOP leaves the rest of the queue (R176). -/
theorem test_step_takes_front :
    (match step { awake with pending := [.nop (ask .operator), .idleEntry] } with | .next t => t.pending == [.idleEntry] | _ => false) = true := by
  decide +kernel

/-- On an empty queue the local clock counts one period of 10 ns. -/
theorem test_step_idle : (match step State.reset with | .next t => t.clk == 1 | _ => false) = true := by
  decide +kernel


section Witnesses

set_option Elab.async false

/-- A word differs from the next one. -/
theorem test_word_ne_succ (x : Word) : x ≠ x + 1 := by bv_omega

/-- An image of sixteen bytes with a sound header and an empty body passes every check of a firmware load once Oliqua verifies it (R843). -/
theorem test_sound_image (hv : Config.oliquaVerifies (sha256 []) [0x10, 0xC, 1, 0, 0, 0, 0, 0, 0xFF, 0xFF, 0xFF, 0xFF, 0, 0, 0, 0] = true) :
    fwResult (crc32c [0x10, 0xC, 1, 0, 0, 0, 0, 0, 0xFF, 0xFF, 0xFF, 0xFF, 0, 0, 0, 0])
      { awake with fw.busy := true, fw.rcvd := 16, fw.imgB := [(0, 0x10), (1, 0xC), (2, 1), (8, 0xFF), (9, 0xFF), (10, 0xFF), (11, 0xFF)], sys.bank := false,
                   fw.checking := [(crc32c [0x10, 0xC, 1, 0, 0, 0, 0, 0, 0xFF, 0xFF, 0xFF, 0xFF, 0, 0, 0, 0], 0, 5)] } = 0 := by
  unfold fwResult
  rw [if_neg (by decide +kernel), if_neg (by decide +kernel)]
  split
  · rename_i h
    have h2 : (!Config.oliquaVerifies (sha256 []) [0x10, 0xC, 1, 0, 0, 0, 0, 0, 0xFF, 0xFF, 0xFF, 0xFF, 0, 0, 0, 0]) = true := h
    rw [hv] at h2
    exact absurd h2 (by decide)
  · decide +kernel

/-- States that meet the hypotheses of `Obligations.StepRunsFront`, clause by clause. -/
theorem test_meets_StepRunsFront :
    ∃ (c : Instr) (rest : List Instr) (s : State), s.pending = c :: rest :=
  ⟨.idleEntry, [], { awake with pending := [.idleEntry] }, by decide +kernel⟩

/-- States that meet the hypotheses of `Obligations.IdleStep`, clause by clause. -/
theorem test_meets_IdleStep :
    ∃ (s : State), s.pending = [] :=
  ⟨{ awake with pending := [] }, by decide +kernel⟩

/-- States that meet the hypotheses of `Obligations.ResetState` (ResetValues), clause by clause. -/
theorem test_meets_ResetValues :
    (∃ (a : Nat),
      a ∈ [0x0014, 0x0018, 0x0020, 0x0044, 0x0048, 0x0068, 0x0408, 0x040C, 0x0804, 0x0808, 0x080C, 0x0810, 0x0814, 0x0818, 0x0820, 0x0824, 0x0828, 0x0C04, 0x0C08, 0x0C0C, 0x0C10, 0x0C14, 0x0C18, 0x0C1C, 0x0C20, 0x1004, 0x100C, 0x1010, 0x1014, 0x1018, 0x1020, 0x1080, 0x10C4, 0x10C8, 0x10CC, 0x10D0, 0x1104, 0x1108, 0x110C, 0x1444, 0x1448, 0x144C, 0x1804, 0x1850, 0x1854, 0x1858, 0x185C, 0x1860, 0x1864, 0x1868, 0x2004, 0x2020, 0x2024, 0x2028, 0x2030, 0x2034, 0x2038, 0x2040, 0x2048, 0x204C, 0x2080, 0x2408, 0x240C, 0x2808, 0x280C, 0x2810, 0x2814, 0x2C18, 0x300C, 0x3014, 0x3018, 0x301C, 0x3034, 0x3030, 0x3038, 0x3C08, 0x3C18, 0x3C0C, 0x3C14, 0x4004, 0x4010, 0x4014, 0x4018]) ∧
    (∃ (k : Nat), k < 16) ∧
    (∃ (k : Nat), k < 8) ∧
    (∃ (k : Nat), k < 20) ∧
    (∃ (k : Nat), k < 32) ∧
    (∃ (n : Nat), n < 4) ∧
    (∃ (n : Nat) (a : Nat), n < 4 ∧ a ∈ [0x3804, 0x3808, 0x380C, 0x3810, 0x3814, 0x3818]) :=
  ⟨⟨0x0014, by decide +kernel⟩,
   ⟨0, by decide +kernel⟩,
   ⟨0, by decide +kernel⟩,
   ⟨0, by decide +kernel⟩,
   ⟨0, by decide +kernel⟩,
   ⟨0, by decide +kernel⟩,
   ⟨0, 0x3804, by decide +kernel⟩⟩

/-- States that meet the hypotheses of `Obligations.AnsweringCommands`, clause by clause. -/
theorem test_meets_AnsweringCommands :
    (∃ (rq : Req) (s : State), Taken 0x00 rq s) ∧
    (∃ (rq : Req) (s : State), Taken 0x01 rq s) ∧
    (∃ (rq : Req) (s : State), Taken 0x21 rq s) ∧
    (∃ (rq : Req) (s : State), Taken 0x31 rq s) ∧
    (∃ (rq : Req) (s : State), Taken 0x40 rq s) ∧
    (∃ (rq : Req) (s : State), Taken 0x41 rq s) ∧
    (∃ (rq : Req) (s : State), Taken 0x42 rq s) ∧
    (∃ (rq : Req) (s : State), Taken 0x71 rq s) ∧
    (∃ (rq : Req) (s : State), Taken 0x84 rq s) :=
  ⟨⟨ask .operator, awake, by unfold Taken; decide +kernel⟩,
   ⟨ask .operator, awake, by unfold Taken; decide +kernel⟩,
   ⟨ask .operator, awake, by unfold Taken; decide +kernel⟩,
   ⟨ask .operator, awake, by unfold Taken; decide +kernel⟩,
   ⟨ask .operator, awake, by unfold Taken; decide +kernel⟩,
   ⟨ask .operator, awake, by unfold Taken; decide +kernel⟩,
   ⟨ask .operator, awake, by unfold Taken; decide +kernel⟩,
   ⟨ask .operator, awake, by unfold Taken; decide +kernel⟩,
   ⟨ask .operator, awake, by unfold Taken; decide +kernel⟩⟩

/-- States that meet the hypotheses of `Obligations.ReadingCommands`, clause by clause. -/
theorem test_meets_ReadingCommands :
    (∃ (rq : Req) (s : State) (addr : BitVec 16) (count : Byte), Taken 0x02 rq s ∧ (rq.auth = .meter → metersReadOk addr.toNat count.toNat = true) ∧
      readRange addr.toNat count.toNat = true) ∧
    (∃ (rq : Req) (s : State) (offset : BitVec 16) (count : BitVec 16), Taken 0x64 rq s ∧ rf s.regs.indigoRes 31 16 ≠ 0 ∧
      offset.toNat + count.toNat ≤ rf s.regs.indigoRes 31 16 ∧ resBase s + rf s.regs.indigoRes 31 16 ≤ 65536 ∧ count.toNat ≤ 512) ∧
    (∃ (rq : Req) (s : State), Taken 0x70 rq s) ∧
    (∃ (rq : Req) (s : State) (cursor : BitVec 16) (count : Byte) (c : Cursor), Taken 0x98 rq s ∧ 1 ≤ count.toNat ∧ count.toNat ≤ 15 ∧
      placeCursor s cursor.toNat (nth s.log.cursors rq.host.val {}) = some c) ∧
    (∃ (rq : Req) (s : State) (max : Byte), Taken 0x10 rq s ∧ 1 ≤ max.toNat ∧ max.toNat ≤ 16) ∧
    (∃ (rq : Req) (seq : BitVec 16) (s : State) (l : List Byte), Taken 0x13 rq s ∧ findResult rq seq.toNat s = .held l) :=
  ⟨⟨ask .operator, awake, 0, 1, by unfold Taken; decide +kernel⟩,
   ⟨ask .operator, { awake with regs.indigoRes := (State.reset.regs.indigoRes &&& ~~~4294901760) ||| 65536 }, 0, 0, by unfold Taken; decide +kernel⟩,
   ⟨ask .operator, awake, by unfold Taken; decide +kernel⟩,
   ⟨ask .operator, awake, 0, 1, { slot := 0, q := 0, byCode := true }, by unfold Taken; decide +kernel⟩,
   ⟨ask .operator, awake, 1, by unfold Taken; decide +kernel⟩,
   ⟨ask .operator, 0, { awake with cmd.results := [{ host := 0, seq := 0, running := false, result := some [1], returned := false, port := 0 }] }, [1],
     by unfold Taken; decide +kernel⟩⟩

/-- States that meet the hypotheses of `Obligations.SettingCommands`, clause by clause. -/
theorem test_meets_SettingCommands :
    (∃ (rq : Req) (s : State), Taken 0x05 rq s ∧ anyOutputOn s = false) ∧
    (∃ (rq : Req) (s : State) (code : Byte), Taken 0x07 rq s ∧ code.toNat ≤ 7) ∧
    (∃ (rq : Req) (s : State) (p : HPort), Taken 0x06 rq s ∧ rq.orig = .port p) ∧
    (∃ (rq : Req) (s : State) (src : Byte), Taken 0x11 rq s ∧ src.toNat ≤ 0x9F) ∧
    (∃ (rq : Req) (s : State), Taken 0x12 rq s) ∧
    (∃ (rq : Req) (s : State) (stream : Byte), Taken 0x44 rq s ∧ [0x00, 0x01, 0x10, 0x11, 0x12].contains stream.toNat = true) :=
  ⟨⟨ask .operator, awake, by unfold Taken; decide +kernel⟩,
   ⟨ask .operator, awake, 0, by unfold Taken; decide +kernel⟩,
   ⟨ask .meter, awake, .spi, by unfold Taken; decide +kernel⟩,
   ⟨ask .operator, awake, 0, by unfold Taken; decide +kernel⟩,
   ⟨ask .operator, awake, by unfold Taken; decide +kernel⟩,
   ⟨ask .operator, awake, 0, by unfold Taken; decide +kernel⟩⟩

/-- States that meet the hypotheses of `Obligations.SettingCommands` (PowerModeOrders), clause by clause. -/
theorem test_meets_PowerModeOrders :
    (∃ (rq : Req) (key : Byte) (s : State) (m : Mode), m = s.sys.mode ∧ Taken 0x04 rq s ∧ (m ≠ .ship → key = 0)) ∧
    (∃ (rq : Req) (s : State) (m : Mode), m = s.sys.mode ∧ Taken 0x03 rq s ∧ rq.auth ≠ .safety) ∧
    (∃ (rq : Req) (m : Mode) (key : Byte) (s : State), m ≠ s.sys.mode ∧ (m = .sentinel ∨ m = .ship) ∧ refuseCause m key.toNat s ≠ 0 ∧ Taken 0x04 rq s ∧
      (m ≠ .ship → key = 0)) ∧
    (∃ (rq : Req) (m : Mode) (key : Byte) (s : State), m ≠ s.sys.mode ∧ (m = .sentinel ∨ m = .ship) ∧ refuseCause m key.toNat s ≠ 0 ∧ Taken 0x03 rq s ∧
      rq.auth ≠ .safety) ∧
    (∃ (rq : Req) (m : Mode) (key : Byte) (s : State), m ≠ s.sys.mode ∧ ((m = .sentinel ∨ m = .ship) → refuseCause m key.toNat s = 0) ∧
      heldAgainst rq 21 (decide (modeCode s.sys.mode < modeCode m)) s = true ∧ Taken 0x04 rq s ∧ (m ≠ .ship → key = 0)) ∧
    (∃ (rq : Req) (m : Mode) (key : Byte) (s : State), m ≠ s.sys.mode ∧ ((m = .sentinel ∨ m = .ship) → refuseCause m key.toNat s = 0) ∧
      heldAgainst rq 21 (decide (modeCode s.sys.mode < modeCode m)) s = true ∧ Taken 0x03 rq s ∧ rq.auth ≠ .safety) ∧
    (∃ (rq : Req) (m : Mode) (key : Byte) (s : State), m = .active ∧ s.sys.mode = .idle ∧ heldAgainst rq 21 false s = false ∧ Taken 0x04 rq s ∧
      (m ≠ .ship → key = 0)) ∧
    (∃ (rq : Req) (m : Mode) (s : State), m = .active ∧ s.sys.mode = .idle ∧ heldAgainst rq 21 false s = false ∧ Taken 0x03 rq s ∧ rq.auth ≠ .safety) ∧
    (∃ (rq : Req) (m : Mode) (key : Byte) (s : State), m = .active ∧ (s.sys.mode = .sentinel ∨ s.sys.mode = .ship) ∧ heldAgainst rq 21 false s = false ∧
      Taken 0x04 rq s ∧ (m ≠ .ship → key = 0)) ∧
    (∃ (rq : Req) (m : Mode) (s : State), m = .active ∧ (s.sys.mode = .sentinel ∨ s.sys.mode = .ship) ∧ heldAgainst rq 21 false s = false ∧
      Taken 0x03 rq s ∧ rq.auth ≠ .safety) ∧
    (∃ (rq : Req) (m : Mode) (key : Byte) (s : State), m = .idle ∧ s.sys.mode = .active ∧ heldAgainst rq 21 true s = false ∧ Taken 0x04 rq s ∧
      (m ≠ .ship → key = 0)) ∧
    (∃ (rq : Req) (m : Mode) (s : State), m = .idle ∧ s.sys.mode = .active ∧ heldAgainst rq 21 true s = false ∧ Taken 0x03 rq s ∧ rq.auth ≠ .safety) ∧
    (∃ (rq : Req) (m : Mode) (key : Byte) (s : State), m = .idle ∧ (s.sys.mode = .sentinel ∨ s.sys.mode = .ship) ∧ heldAgainst rq 21 false s = false ∧
      Taken 0x04 rq s ∧ (m ≠ .ship → key = 0)) ∧
    (∃ (rq : Req) (m : Mode) (s : State), m = .idle ∧ (s.sys.mode = .sentinel ∨ s.sys.mode = .ship) ∧ heldAgainst rq 21 false s = false ∧ Taken 0x03 rq s ∧
      rq.auth ≠ .safety) ∧
    (∃ (rq : Req) (m : Mode) (key : Byte) (s : State), m = .sentinel ∧ s.sys.mode ≠ .sentinel ∧ refuseCause .sentinel key.toNat s = 0 ∧
      heldAgainst rq 21 (decide (modeCode s.sys.mode < 2)) s = false ∧ Taken 0x04 rq s ∧ (m ≠ .ship → key = 0)) ∧
    (∃ (rq : Req) (m : Mode) (key : Byte) (s : State), m = .sentinel ∧ s.sys.mode ≠ .sentinel ∧ refuseCause .sentinel key.toNat s = 0 ∧
      heldAgainst rq 21 (decide (modeCode s.sys.mode < 2)) s = false ∧ Taken 0x03 rq s ∧ rq.auth ≠ .safety) ∧
    (∃ (rq : Req) (m : Mode) (key : Byte) (s : State), m = .ship ∧ s.sys.mode ≠ .ship ∧ refuseCause .ship key.toNat s = 0 ∧
      heldAgainst rq 21 true s = false ∧ Taken 0x04 rq s ∧ (m ≠ .ship → key = 0)) ∧
    (∃ (rq : Req) (m : Mode) (key : Byte) (s : State), m = .ship ∧ s.sys.mode ≠ .ship ∧ refuseCause .ship key.toNat s = 0 ∧
      heldAgainst rq 21 true s = false ∧ Taken 0x03 rq s ∧ rq.auth ≠ .safety) ∧
    (∃ (rq : Req) (s : State), Taken 0x03 rq s ∧ rq.auth = .safety) :=
  ⟨⟨ask .operator, 0, awake, _, rfl, by unfold Taken; decide +kernel⟩,
   ⟨ask .operator, awake, _, rfl, by unfold Taken; decide +kernel⟩,
   ⟨ask .operator, .sentinel, 0, { awake with pins.wake := true }, by unfold Taken; decide +kernel⟩,
   ⟨ask .operator, .sentinel, 0, { awake with pins.wake := true }, by unfold Taken; decide +kernel⟩,
   ⟨ask .operator, .idle, 0, { awake with cmd.safetyHeld := [21] }, by unfold Taken; decide +kernel⟩,
   ⟨ask .operator, .idle, 0, { awake with cmd.safetyHeld := [21] }, by unfold Taken; decide +kernel⟩,
   ⟨ask .operator, _, 0, { awake with sys.mode := .idle }, rfl, by unfold Taken; decide +kernel⟩,
   ⟨ask .operator, _, { awake with sys.mode := .idle }, rfl, by unfold Taken; decide +kernel⟩,
   ⟨ask .operator, _, 0, { awake with sys.mode := .sentinel }, rfl, by unfold Taken; decide +kernel⟩,
   ⟨ask .operator, _, { awake with sys.mode := .sentinel }, rfl, by unfold Taken; decide +kernel⟩,
   ⟨ask .operator, _, 0, { awake with sys.mode := .active }, rfl, by unfold Taken; decide +kernel⟩,
   ⟨ask .operator, _, { awake with sys.mode := .active }, rfl, by unfold Taken; decide +kernel⟩,
   ⟨ask .operator, _, 0, { awake with sys.mode := .sentinel }, rfl, by unfold Taken; decide +kernel⟩,
   ⟨ask .operator, _, { awake with sys.mode := .sentinel }, rfl, by unfold Taken; decide +kernel⟩,
   ⟨ask .operator, _, 0, { awake with sys.mode := .active }, rfl, by unfold Taken; decide +kernel⟩,
   ⟨ask .operator, _, 0, { awake with sys.mode := .active }, rfl, by unfold Taken; decide +kernel⟩,
   ⟨ask .operator, _, 0x5A, awake, rfl, by unfold Taken; decide +kernel⟩,
   ⟨ask .operator, _, 0x5A, awake, rfl, by unfold Taken; decide +kernel⟩,
   ⟨ask .safety, awake, by unfold Taken; decide +kernel⟩⟩

/-- States that meet the hypotheses of `Obligations.RegisterWrites`, clause by clause. -/
theorem test_meets_RegisterWrites :
    (∃ (rq : Req) (addr : BitVec 16) (s : State), Taken 0x03 rq s ∧ (rq.auth = .safety → safetyWriteOk addr.toNat = true) ∧ addr.toNat % 4 = 0 ∧
      addr.toNat ≠ 0x0010 ∧ addr.toNat ≠ 0x2C18) ∧
    (∃ (addr : BitVec 16), 0x8000 ≤ addr.toNat ∧ addr.toNat % 4 = 0) ∧
    (∃ (rq : Req) (mask : Word) (value : Word) (s : State), Taken 0x03 rq s ∧ rq.auth ≠ .safety ∧ rf mask 1 0 ≠ 0 ∧
      (modeOrder rq (rf (value &&& mask) 1 0) (rf (value &&& mask) 31 24) s).status = stOk) ∧
    (∃ (rq : Req) (mask : Word) (value : Word) (s : State), Taken 0x03 rq s ∧ (value &&& mask).getLsbD 0 = true) ∧
    (∃ (sd : Side) (s : State), ((port s sd).st = .active ∨ (port s sd).st = .degraded)) ∧
    (∃ (sd : Side) (s : State), (port s sd).st = .linkDead) ∧
    (∃ (sd : Side) (s : State), ((port s sd).st = .portOff ∨ (port s sd).st = .offLatched)) ∧
    (∃ (s : State), s.cell.ow = none ∧ measuring s = true ∧ sweepBusy s = false ∧ stimRuns s = false) ∧
    (∃ (s : State), s.cell.ow = none ∧ measuring s = true ∧ (sweepBusy s = true ∨ stimRuns s = true)) ∧
    (∃ (s : State), (s.cell.ow ≠ none ∨ measuring s = false)) :=
  ⟨⟨ask .operator, 0, awake, by unfold Taken; decide +kernel⟩,
   ⟨32768, by decide +kernel⟩,
   ⟨ask .operator, 3, 1, awake, by unfold Taken; decide +kernel⟩,
   ⟨ask .operator, 1, 1, awake, by unfold Taken; decide +kernel⟩,
   ⟨.north, { awake with chain.north.st := .active }, by decide +kernel⟩,
   ⟨.north, { awake with chain.north.st := .linkDead }, by decide +kernel⟩,
   ⟨.north, { awake with chain.north.st := .portOff }, by decide +kernel⟩,
   ⟨{ awake with cell.ow := none }, by decide +kernel⟩,
   ⟨{ awake with sweep.st := .waiting }, by decide +kernel⟩,
   ⟨asleep, by decide +kernel⟩⟩

/-- States that meet the hypotheses of `Obligations.LatchingReads`, clause by clause. -/
theorem test_meets_LatchingReads :
    (∃ (code : BitVec 16) (c : Cursor) (s : State), placeCursor s code.toNat (nth s.log.cursors 4 {}) = some c) ∧
    (∃ (code : BitVec 16) (s : State), placeCursor s code.toNat (nth s.log.cursors 4 {}) = none) :=
  ⟨⟨0, { slot := 0, q := 0, byCode := true }, awake, by decide +kernel⟩,
   ⟨0x2000, awake, by decide +kernel⟩⟩

/-- States that meet the hypotheses of `Obligations.TimeChainAndStreams` (TimeAndChainCommands), clause by clause. -/
theorem test_meets_TimeAndChainCommands :
    (∃ (rq : Req) (s : State) (ns : Word), Taken 0x30 rq s ∧ s.sys.anchor = true ∧ ns.toNat < 1000000000 ∧ syncEn s = true) ∧
    (∃ (rq : Req) (s : State) (ns : Word), Taken 0x30 rq s ∧ s.sys.anchor = true ∧ ns.toNat < 1000000000 ∧ syncEn s = false) ∧
    (∃ (rq : Req) (s : State) (ns : Word), Taken 0x30 rq s ∧ (1000000000 ≤ ns.toNat ∨ s.sys.anchor = false)) ∧
    (∃ (rq : Req) (s : State) (p : HPort), Taken 0x20 rq s ∧ rq.orig = .port p ∧ s.sys.anchor = true ∧ s.chain.enumBusy = false) :=
  ⟨⟨ask .operator, { awake with sys.anchor := true }, 0, by unfold Taken; decide +kernel⟩,
   ⟨ask .operator, { awake with sys.anchor := true, regs.timeCfg := 0 }, 0, by unfold Taken; decide +kernel⟩,
   ⟨ask .operator, awake, 0, by unfold Taken; decide +kernel⟩,
   ⟨ask .operator, { awake with sys.anchor := true, chain.enumBusy := false }, .spi, by unfold Taken; decide +kernel⟩⟩

/-- States that meet the hypotheses of `Obligations.TimeChainAndStreams` (StreamOpening), clause by clause. -/
theorem test_meets_StreamOpening :
    (∃ (rq : Req) (s : State) (rate : Byte) (r : Nat), Taken 0x43 rq s ∧ if rate = 0xFF then r = cellRate s else r = rate.toNat ∧ r ≤ 6 ∧
      s.cell.cellRing.isOpen = false ∧ ringFits s.regs.cellRbCfg 80 = true ∧ (r = cellRate s ∨ (streamIsOpen s 0x10 = false ∧ sweepBusy s = false))) ∧
    (∃ (rq : Req) (s : State), Taken 0x43 rq s ∧ s.cell.auxRing.isOpen = false ∧ ringFits s.regs.auxRbCfg 32 = true) ∧
    (∃ (rq : Req) (s : State) (rate : Byte) (slots : Byte) (r : Nat), Taken 0x43 rq s ∧ if rate = 0xFF then r = cellRate s else r = rate.toNat ∧ r ≤ 2 ∧
      r ≤ cellRate s ∧ streamIsOpen s 0x10 = false ∧ slots.toNat ≠ 0 ∧ (s.cell.cellRing.isOpen = true ∨ sweepBusy s = true)) ∧
    (∃ (rq : Req) (s : State) (rate : Byte) (slots : Byte) (r : Nat), Taken 0x43 rq s ∧ if rate = 0xFF then r = cellRate s else r = rate.toNat ∧ r ≤ 2 ∧
      r ≤ cellRate s ∧ streamIsOpen s 0x10 = false ∧ slots.toNat ≠ 0 ∧ s.cell.cellRing.isOpen = false ∧ sweepBusy s = false) ∧
    (∃ (rq : Req) (s : State) (slots : Byte) (stream : Byte), Taken 0x43 rq s ∧ (stream = 0x11 ∨ stream = 0x12) ∧ streamIsOpen s stream.toNat = false ∧
      slots.toNat ≠ 0) ∧
    (∃ (rq : Req) (s : State) (slots : Byte) (stream : Byte), Taken 0x43 rq s ∧
      ((stream = 0x00 ∧ s.cell.cellRing.isOpen = true) ∨ (stream = 0x01 ∧ s.cell.auxRing.isOpen = true) ∨ ((stream = 0x10 ∨ stream = 0x11 ∨ stream = 0x12) ∧ (streamIsOpen s stream.toNat = true ∨ slots.toNat = 0)) ∨ (stream ≠ 0x00 ∧ stream ≠ 0x01 ∧ stream ≠ 0x10 ∧ stream ≠ 0x11 ∧ stream ≠ 0x12))) :=
  ⟨⟨ask .operator, { awake with cell.cellRing.isOpen := false }, 1, 1, by unfold Taken; decide +kernel⟩,
   ⟨ask .operator, { awake with cell.auxRing.isOpen := false }, by unfold Taken; decide +kernel⟩,
   ⟨ask .operator, { awake with cell.cellRing.isOpen := true }, 0, 1, 0, by unfold Taken; decide +kernel⟩,
   ⟨ask .operator, { awake with cell.cellRing.isOpen := false }, 0, 1, 0, by unfold Taken; decide +kernel⟩,
   ⟨ask .operator, awake, 1, 0x11, by unfold Taken; decide +kernel⟩,
   ⟨ask .operator, { awake with cell.cellRing.isOpen := true }, 0, 0, by unfold Taken; decide +kernel⟩⟩

/-- States that meet the hypotheses of `Obligations.BalanceCommands`, clause by clause. -/
theorem test_meets_BalanceCommands :
    (∃ (rq : Req) (mask : BitVec 16) (s : State) (onTime : BitVec 16), Taken 0x50 rq s ∧ onTime.toNat / 2 ≤ balMaxOn s ∧ namesUnused s mask = false ∧
      ((ones mask).any fun k => heldAgainst rq (5 + k) (nth s.bal.onT k 0 < onTime.toNat / 2) s) = false) ∧
    (∃ (rq : Req) (mask : BitVec 16) (s : State) (onTime : BitVec 16), Taken 0x50 rq s ∧ onTime.toNat / 2 ≤ balMaxOn s ∧ namesUnused s mask = false ∧
      ((ones mask).any fun k => heldAgainst rq (5 + k) (nth s.bal.onT k 0 < onTime.toNat / 2) s) = true) ∧
    (∃ (rq : Req) (mask : BitVec 16) (s : State) (onTime : BitVec 16), Taken 0x50 rq s ∧ (balMaxOn s < onTime.toNat / 2 ∨ namesUnused s mask = true)) ∧
    (∃ (rq : Req) (mask : BitVec 16) (s : State), Taken 0x51 rq s ∧ (s.sweep.st = .idle ∨ s.sweep.st = .fitting ∨ s.sweep.mask &&& mask = 0)) ∧
    (∃ (rq : Req) (mask : BitVec 16) (s : State), Taken 0x51 rq s ∧ s.sweep.st ≠ .idle ∧ s.sweep.st ≠ .fitting ∧ s.sweep.mask &&& mask ≠ 0) ∧
    (∃ (rq : Req) (mask : BitVec 16) (s : State) (wave : Byte) (dur : Byte) (freq : Word) (bias : BitVec 16) (amp : BitVec 16), Taken 0x52 rq s ∧
      stimBad s mask wave.toNat dur.toNat freq.toNat bias.toNat amp.toNat = false ∧ wave ≠ 0 ∧ mask ≠ 0 ∧
      ((ones mask).any fun k => heldAgainst rq (5 + k) (!stimOn s false k) s) = false) ∧
    (∃ (rq : Req) (mask : BitVec 16) (s : State) (wave : Byte) (dur : Byte) (freq : Word) (bias : BitVec 16) (amp : BitVec 16), Taken 0x52 rq s ∧
      stimBad s mask wave.toNat dur.toNat freq.toNat bias.toNat amp.toNat = false ∧ wave ≠ 0 ∧
      ((ones mask).any fun k => heldAgainst rq (5 + k) (!stimOn s false k) s) = true) ∧
    (∃ (rq : Req) (mask : BitVec 16) (s : State) (dur : Byte) (freq : Word) (bias : BitVec 16) (amp : BitVec 16), Taken 0x52 rq s ∧
      stimBad s mask 0 dur.toNat freq.toNat bias.toNat amp.toNat = false ∧ (s.sweep.st = .idle ∨ s.sweep.st = .fitting ∨ s.sweep.mask &&& mask = 0)) ∧
    (∃ (rq : Req) (mask : BitVec 16) (s : State) (dur : Byte) (freq : Word) (bias : BitVec 16) (amp : BitVec 16), Taken 0x52 rq s ∧
      stimBad s mask 0 dur.toNat freq.toNat bias.toNat amp.toNat = false ∧ s.sweep.st ≠ .idle ∧ s.sweep.st ≠ .fitting ∧ s.sweep.mask &&& mask ≠ 0) ∧
    (∃ (rq : Req) (mask : BitVec 16) (s : State) (wave : Byte) (dur : Byte) (freq : Word) (bias : BitVec 16) (amp : BitVec 16), Taken 0x52 rq s ∧
      stimBad s mask wave.toNat dur.toNat freq.toNat bias.toNat amp.toNat = true) :=
  ⟨⟨ask .operator, 0, awake, 0, by unfold Taken; decide +kernel⟩,
   ⟨ask .operator, 1, { awake with cmd.safetyHeld := [5] }, 8, by unfold Taken; decide +kernel⟩,
   ⟨ask .operator, 1, awake, 1000, by unfold Taken; decide +kernel⟩,
   ⟨ask .operator, 0, { awake with sweep.st := .idle }, by unfold Taken; decide +kernel⟩,
   ⟨ask .operator, 1, { awake with sweep.st := .running, sweep.mask := 1 }, by unfold Taken; decide +kernel⟩,
   ⟨ask .operator, 1, awake, 2, 1, 1000, 10, 10, by unfold Taken; decide +kernel⟩,
   ⟨ask .operator, 1, { awake with cmd.safetyHeld := [5] }, 2, 1, 1000, 10, 10, by unfold Taken; decide +kernel⟩,
   ⟨ask .operator, 1, awake, 1, 1000, 10, 10, by unfold Taken; decide +kernel⟩,
   ⟨ask .operator, 1, { awake with sweep.st := .running, sweep.mask := 1 }, 0, 1000, 0, 0, by unfold Taken; decide +kernel⟩,
   ⟨ask .operator, 0, awake, 0, 0, 0, 0, 0, by unfold Taken; decide +kernel⟩⟩

/-- States that meet the hypotheses of `Obligations.KernelCommands`, clause by clause. -/
theorem test_meets_KernelCommands :
    (∃ (rq : Req) (s : State) (t : State) (slot : Byte) (offset : BitVec 16) (code : List Byte), t = settleCopies s ∧ Taken 0x60 rq s ∧ slot.toNat < 8 ∧
      offset.toNat + code.length ≤ 8192 ∧ (t.indigo.te.slot ≠ slot.toNat ∨ t.indigo.te.st = .idle) ∧
      (t.indigo.se.slot ≠ slot.toNat ∨ t.indigo.se.st = .idle)) ∧
    (∃ (rq : Req) (s : State) (t : State) (slot : Byte) (offset : BitVec 16) (code : List Byte) (u : State), t = settleCopies s ∧
      u = { t with indigo.store := memWrite t.indigo.store (8192 * slot.toNat + offset.toNat) ((List.range code.length).map (Config.failedStoreByte t.freeCtr)), freeCtr := t.freeCtr + 1, indigo.valid := setBit t.indigo.valid slot.toNat false, indigo.dirty := setBit t.indigo.dirty slot.toNat true, indigo.te := { t.indigo.te with loaded := setBit t.indigo.te.loaded slot.toNat true, progSlot := if t.indigo.te.progSlot == some slot.toNat then none else t.indigo.te.progSlot }, indigo.se := { t.indigo.se with loaded := setBit t.indigo.se.loaded slot.toNat true, progSlot := if t.indigo.se.progSlot == some slot.toNat then none else t.indigo.se.progSlot } } ∧
      Taken 0x60 rq s ∧ slot.toNat < 8 ∧ offset.toNat + code.length ≤ 8192 ∧ (t.indigo.te.slot ≠ slot.toNat ∨ t.indigo.te.st = .idle) ∧
      (t.indigo.se.slot ≠ slot.toNat ∨ t.indigo.se.st = .idle)) ∧
    (∃ (rq : Req) (s : State) (t : State) (slot : Byte) (crc : Word), t = settleCopies s ∧ Taken 0x61 rq s ∧ slot.toNat < 8 ∧
      crc32c (memRead t.indigo.store (8192 * slot.toNat) (min (16 + 4 * slotField t slot.toNat 2 2) 8192)) = crc ∧ headerOk t slot.toNat = true) ∧
    (∃ (rq : Req) (s : State) (t : State) (slot : Byte) (crc : Word), t = settleCopies s ∧ Taken 0x61 rq s ∧ slot.toNat < 8 ∧
      crc32c (memRead t.indigo.store (8192 * slot.toNat) (min (16 + 4 * slotField t slot.toNat 2 2) 8192)) ≠ crc) ∧
    (∃ (rq : Req) (s : State) (t : State) (slot : Byte) (engine : Byte) (args : List Byte), t = settleCopies s ∧ Taken 0x62 rq s ∧ engine.toNat ≤ 1 ∧
      args.length ≤ 16 ∧ slot.toNat ≠ 0xFF ∧ heldAgainst rq (22 + engine.toNat) ((eng t (engOf engine.toNat)).st != .running) t = false ∧
      launchBad t (engOf engine.toNat) slot.toNat args.length = false ∧ t.indigo.selfTest = false) ∧
    (∃ (rq : Req) (s : State) (t : State) (slot : Byte) (engine : Byte) (args : List Byte), t = settleCopies s ∧ Taken 0x62 rq s ∧ engine.toNat ≤ 1 ∧
      args.length ≤ 16 ∧ slot.toNat ≠ 0xFF ∧ heldAgainst rq (22 + engine.toNat) ((eng t (engOf engine.toNat)).st != .running) t = false ∧
      launchBad t (engOf engine.toNat) slot.toNat args.length = false ∧ t.indigo.selfTest = true) ∧
    (∃ (rq : Req) (s : State) (t : State) (engine : Byte) (args : List Byte), t = settleCopies s ∧ Taken 0x62 rq s ∧ engine.toNat ≤ 1 ∧ args.length ≤ 16 ∧
      heldAgainst rq (22 + engine.toNat) true t = false ∧ (eng t (engOf engine.toNat)).st = .suspended ∧ t.indigo.off = false ∧
      contextOk (engOf engine.toNat) t = true ∧ t.indigo.selfTest = false ∧
      resident (engOf engine.toNat) (field (memRead t.indigo.pad (ctxBase t (engOf engine.toNat)) 4) 2 1) (setEng (engOf engine.toNat) (fun g => { g with st := .loading, pendingResume := true }) (leaveIdle 7 t)) = false) ∧
    (∃ (rq : Req) (s : State) (t : State) (engine : Byte) (args : List Byte), t = settleCopies s ∧ Taken 0x62 rq s ∧ engine.toNat ≤ 1 ∧ args.length ≤ 16 ∧
      heldAgainst rq (22 + engine.toNat) true t = false ∧ (eng t (engOf engine.toNat)).st = .suspended ∧ t.indigo.off = false ∧
      contextOk (engOf engine.toNat) t = true ∧ t.indigo.selfTest = true) ∧
    (∃ (rq : Req) (s : State) (t : State), t = settleCopies s ∧ Taken 0x63 rq s) ∧
    (∃ (rq : Req) (s : State) (t : State) (sec : BitVec 48) (ns : Word) (mask : BitVec 16) (amp : Byte) (imax : Byte) (imin : Byte) (step : Byte),
      t = settleCopies s ∧ Taken 0x65 rq s ∧ sweepBad s sec.toNat ns.toNat mask amp.toNat imax.toNat imin.toNat step.toNat = false ∧
      ((ones mask).any fun k => heldAgainst rq (5 + k) (!stimOn s false k) s) = false) ∧
    (∃ (rq : Req) (s : State) (t : State) (sec : BitVec 48) (ns : Word) (mask : BitVec 16) (amp : Byte) (imax : Byte) (imin : Byte) (step : Byte),
      t = settleCopies s ∧ Taken 0x65 rq s ∧ sweepBad s sec.toNat ns.toNat mask amp.toNat imax.toNat imin.toNat step.toNat = true) :=
  ⟨⟨ask .operator, awake, _, 0, 0, [], rfl, by unfold Taken; decide +kernel⟩,
   ⟨ask .operator, awake, _, 0, 0, [], _, rfl, rfl, by unfold Taken; decide +kernel⟩,
   ⟨ask .operator, { awake with indigo.store := [(0, 1), (2, 1)] }, _, 0, crc32c (memRead [(0, 1), (2, 1)] 0 20), rfl, by unfold Taken; decide +kernel⟩,
   ⟨ask .operator, awake, _, 0, 0, rfl, by unfold Taken; decide +kernel⟩,
   ⟨ask .operator, { awake with indigo.store := [(0, 1), (2, 1)], indigo.valid := 1 }, _, 0, 0, [], rfl, by unfold Taken; decide +kernel⟩,
   ⟨ask .operator, { awake with indigo.store := [(0, 1), (2, 1)], indigo.valid := 1, indigo.selfTest := true }, _, 0, 0, [], rfl,
     by unfold Taken; decide +kernel⟩,
   ⟨ask .operator,
     { awake with indigo.valid := 1, indigo.store := [(0, 1), (2, 1)], indigo.pad := [(0, 1), (3, 1)], regs.ctxTe := 0, indigo.te.st := .suspended },
     _, 0, [], rfl, by unfold Taken; decide +kernel⟩,
   ⟨ask .operator,
     { awake with indigo.valid := 1, indigo.store := [(0, 1), (2, 1)], indigo.pad := [(0, 1), (3, 1)], regs.ctxTe := 0, indigo.selfTest := true, indigo.te.st := .suspended },
     _, 0, [], rfl, by unfold Taken; decide +kernel⟩,
   ⟨ask .operator, awake, _, rfl, by unfold Taken; decide +kernel⟩,
   ⟨ask .operator, { awake with cell.cellRing.isOpen := true, time.st := .locked, regs.indigoRes := 0xFFFF0000 }, _, 1, 0, 1, 50, 10, 0, 10, rfl,
     by unfold Taken; decide +kernel⟩,
   ⟨ask .operator, awake, _, 0, 0, 0, 0, 0, 0, 0, rfl, by unfold Taken; decide +kernel⟩⟩

/-- States that meet the hypotheses of `Obligations.FirmwareAndConfiguration`, clause by clause. -/
theorem test_meets_FirmwareAndConfiguration :
    (∃ (rq : Req) (s : State) (image : List Byte), Taken 0xA0 rq s ∧ s.fw.checking = [] ∧ image.length < 8) ∧
    (∃ (rq : Req) (s : State) (offset : Word) (image : List Byte), Taken 0xA0 rq s ∧ s.fw.checking = [] ∧ offset ≠ 0 ∧ offset.toNat = s.fw.rcvd ∧
      8 ≤ offset.toNat ∧ offset.toNat + image.length ≤ 131072 ∧
      offset.toNat + image.length ≤ field (memRead (memWrite (if s.sys.bank then s.fw.imgA else s.fw.imgB) offset.toNat image) 4 4) 0 4) ∧
    (∃ (rq : Req) (s : State), Taken 0xA0 rq s ∧ s.fw.checking ≠ []) ∧
    (∃ (rq : Req) (s : State), Taken 0xA1 rq s ∧ imageComplete s = true ∧ anyOutputOn s = false ∧ sweepBusy s = false ∧ proofRuns s = false ∧
      s.watch.level ≠ .preAlarm ∧ s.watch.level ≠ .alarm) ∧
    (∃ (rq : Req) (s : State), Taken 0xA1 rq s ∧
      (imageComplete s = false ∨ anyOutputOn s = true ∨ sweepBusy s = true ∨ proofRuns s = true ∨ s.watch.level = .preAlarm ∨ s.watch.level = .alarm)) ∧
    (∃ (rq : Req) (s : State) (offset : BitVec 16) (bytes : List Byte), Taken 0xC0 rq s ∧ offset.toNat + bytes.length ≤ 2048) ∧
    (∃ (rq : Req) (s : State), Taken 0xC1 rq s) ∧
    (∃ (rq : Req) (s : State) (host : Byte) (position : Byte) (port : Byte) (authority : Byte), Taken 0xB0 rq s ∧
      bindSealed host.toNat authority.toNat s = false ∧ bindRefused host.toNat position.toNat port.toNat authority.toNat s = false) ∧
    (∃ (rq : Req) (s : State) (host : Byte) (authority : Byte), Taken 0xB0 rq s ∧ bindSealed host.toNat authority.toNat s = true) ∧
    (∃ (rq : Req) (s : State) (host : Byte) (key : List Byte) (b : Binding), Taken 0xB1 rq s ∧ binding s host.toNat = some b ∧
      (b.auth = .meter ∨ b.auth = .safety) ∧ sealedFor [some b.auth] s = false ∧ host.toNat ≤ 3 ∧ key.length = 16 ∧ key.all (· == 0) = false) ∧
    (∃ (rq : Req) (s : State) (host : Byte) (b : Binding), Taken 0xB1 rq s ∧ binding s host.toNat = some b ∧ sealedFor [some b.auth] s = true) ∧
    (∃ (rq : Req) (s : State), Taken 0x72 rq s ∧ proofRuns s = false) ∧
    (∃ (rq : Req) (s : State), Taken 0x72 rq s ∧ proofRuns s = true) :=
  ⟨⟨ask .operator, { awake with fw.checking := [] }, [], by unfold Taken; decide +kernel⟩,
   ⟨ask .operator, { awake with fw.rcvd := 8, fw.busy := true, sys.bank := false, fw.imgB := [(5, 4)] }, 8, [0], by unfold Taken; decide +kernel⟩,
   ⟨ask .operator, { awake with fw.busy := true, fw.checking := [(0, 0, 5)] }, by unfold Taken; decide +kernel⟩,
   ⟨ask .operator, { awake with fw.busy := true, fw.declared := some 1024, fw.rcvd := 1024 }, by unfold Taken; decide +kernel⟩,
   ⟨ask .operator, awake, by unfold Taken; decide +kernel⟩,
   ⟨ask .operator, awake, 0, [], by unfold Taken; decide +kernel⟩,
   ⟨ask .operator, awake, by unfold Taken; decide +kernel⟩,
   ⟨ask .operator, awake, 0, 0, 0, 0, by unfold Taken; decide +kernel⟩,
   ⟨ask .operator, { awake with verm.isSealed := true }, 1, 3, by unfold Taken; decide +kernel⟩,
   ⟨ask .operator,
     { awake with nv.bindings := [some { uart := false, auth := .operator, pos := 0 }, some { uart := true, auth := .meter, pos := 0 }, none, none] },
     1, List.replicate 16 1, { uart := true, auth := .meter, pos := 0 }, by unfold Taken; decide +kernel⟩,
   ⟨ask .operator, { awake with verm.isSealed := true, nv.bindings := [some { uart := false, auth := .safety, pos := 0 }, none, none, none] }, 0,
     { uart := false, auth := .safety, pos := 0 }, by unfold Taken; decide +kernel⟩,
   ⟨ask .operator, awake, by unfold Taken; decide +kernel⟩,
   ⟨ask .operator, { awake with watch.pst := .running }, by unfold Taken; decide +kernel⟩⟩

/-- States that meet the hypotheses of `Obligations.SafetyCommands`, clause by clause. -/
theorem test_meets_SafetyCommands :
    (∃ (rq : Req) (s : State), Taken 0x80 rq s) ∧
    (∃ (rq : Req) (s : State) (o : Fin 3), Taken 0x80 rq s ∧ driven (nth s.verm.outs o.val {}) = true) ∧
    (∃ (rq : Req) (s : State) (o : Fin 3), Taken 0x80 rq s ∧ driven (nth s.verm.outs o.val {}) = false ∧ closeRefused o.val s = 0 ∧ vermRuns s = true ∧
      heldAgainst rq o.val true s = false ∧ s.verm.strobeLost = false) ∧
    (∃ (rq : Req) (s : State) (o : Fin 3), Taken 0x80 rq s ∧ driven (nth s.verm.outs o.val {}) = false ∧ closeRefused o.val s ≠ 0) ∧
    (∃ (rq : Req) (s : State) (o : Fin 3), Taken 0x80 rq s ∧ driven (nth s.verm.outs o.val {}) = false ∧ closeRefused o.val s = 0 ∧ vermRuns s = true ∧
      heldAgainst rq o.val true s = true) ∧
    (∃ (rq : Req) (s : State) (charge : BitVec 16) (discharge : BitVec 16), Taken 0x81 rq s ∧
      heldAgainst rq 3 (decide (s.verm.cmdChg < charge.toNat)) s = false ∧ heldAgainst rq 4 (decide (s.verm.cmdDis < discharge.toNat)) s = false) ∧
    (∃ (rq : Req) (s : State) (charge : BitVec 16) (discharge : BitVec 16), Taken 0x81 rq s ∧
      heldAgainst rq 3 (decide (s.verm.cmdChg < charge.toNat)) s = true ∧ heldAgainst rq 4 (decide (s.verm.cmdDis < discharge.toNat)) s = true) ∧
    (∃ (rq : Req) (s : State), Taken 0x82 rq s ∧ (s.verm.faultA ≠ 0 ∨ s.verm.inps.any (·.latch) = true)) ∧
    (∃ (rq : Req) (s : State), Taken 0x82 rq s ∧ s.verm.faultA = 0 ∧ s.verm.inps.any (·.latch) = false) ∧
    (∃ (rq : Req) (s : State) (offset : Byte) (bytes : List Byte), Taken 0x83 rq s ∧ s.verm.isSealed = false ∧ offset.toNat + bytes.length ≤ 256 ∧
      anyOutputOn s = false) ∧
    (∃ (rq : Req) (s : State), Taken 0x83 rq s ∧ s.verm.isSealed = true) ∧
    (∃ (rq : Req) (s : State), Taken 0x85 rq s ∧ s.verm.isSealed = false ∧ anyOutputOn s = false) ∧
    (∃ (rq : Req) (s : State), Taken 0x85 rq s ∧ s.verm.isSealed = true) ∧
    (∃ (rq : Req) (s : State), Taken 0x03 rq s ∧ s.watch.level = .alarm ∧ (itemsNow s).isEmpty = true ∧ s.watch.own = 0 ∧ (seenNow s).isEmpty = true) ∧
    (∃ (rq : Req) (s : State) (key : Byte), Taken 0x03 rq s ∧
      (key ≠ 0xC3 ∨ s.watch.level ≠ .alarm ∨ (itemsNow s).isEmpty = false ∨ s.watch.own ≠ 0 ∨ (seenNow s).isEmpty = false)) ∧
    (∃ (rq : Req) (s : State), rq.auth = .operator ∧ s.verm.outs.all (·.st == .off) = true ∧ s.verm.isSealed = true) ∧
    (∃ (rq : Req) (s : State) (key : Byte), (key ≠ 0x5E ∨ rq.auth ≠ .operator ∨ s.verm.outs.all (·.st == .off) = false ∨ s.verm.isSealed = false)) :=
  ⟨⟨ask .operator, awake, by unfold Taken; decide +kernel⟩,
   ⟨ask .operator, { awake with verm.outs := [{}, {}, { st := .hold }] }, 2, by unfold Taken; decide +kernel⟩,
   ⟨ask .operator, { awake with verm.isSealed := true }, 2, by unfold Taken; decide +kernel⟩,
   ⟨ask .operator, awake, 0, by unfold Taken; decide +kernel⟩,
   ⟨ask .operator, { awake with verm.isSealed := true, cmd.safetyHeld := [2] }, 2, by unfold Taken; decide +kernel⟩,
   ⟨ask .operator, awake, 0, 0, by unfold Taken; decide +kernel⟩,
   ⟨ask .operator, { awake with cmd.safetyHeld := [3, 4], verm.cmdChg := 0, verm.cmdDis := 0 }, 5, 5, by unfold Taken; decide +kernel⟩,
   ⟨ask .operator, { awake with verm.faultA := 1 }, by unfold Taken; decide +kernel⟩,
   ⟨ask .operator, { awake with verm.faultA := 0 }, by unfold Taken; decide +kernel⟩,
   ⟨ask .operator, { awake with verm.isSealed := false }, 0, [], by unfold Taken; decide +kernel⟩,
   ⟨ask .operator, { awake with verm.isSealed := true }, by unfold Taken; decide +kernel⟩,
   ⟨ask .operator, { awake with verm.isSealed := false }, by unfold Taken; decide +kernel⟩,
   ⟨ask .operator, { awake with verm.isSealed := true }, by unfold Taken; decide +kernel⟩,
   ⟨ask .operator, { awake with watch.level := .alarm, watch.own := 0 }, by unfold Taken; decide +kernel⟩,
   ⟨ask .operator, awake, 0, by unfold Taken; decide +kernel⟩,
   ⟨ask .operator, { awake with verm.isSealed := true }, by decide +kernel⟩,
   ⟨ask .operator, awake, 0, by decide +kernel⟩⟩

/-- States that meet the hypotheses of `Obligations.MeterCommands`, clause by clause. -/
theorem test_meets_MeterCommands :
    (∃ (rq : Req) (s : State), Taken 0x90 rq s ∧ umbTalks s = true) ∧
    (∃ (rq : Req) (s : State) (slots : Byte), Taken 0x91 rq s ∧ slots.toNat ≠ 0) ∧
    (∃ (rq : Req) (s : State), Taken 0x91 rq s) ∧
    (∃ (rq : Req) (s : State) (interval : Byte), Taken 0x92 rq s ∧ umbTalks s = true ∧ s.umber.st ≠ .sealed ∧ s.umber.st ≠ .fault ∧
      lengthOk interval.toNat = true ∧ interval.toNat ≠ s.umber.len) ∧
    (∃ (rq : Req) (s : State) (interval : Byte), Taken 0x92 rq s ∧ umbTalks s = true ∧ s.umber.st ≠ .sealed ∧ s.umber.st ≠ .fault ∧
      lengthOk interval.toNat = true ∧ interval.toNat = s.umber.len) ∧
    (∃ (rq : Req) (s : State), Taken 0x92 rq s ∧ umbTalks s = true ∧ s.umber.st = .sealed) ∧
    (∃ (rq : Req) (s : State), Taken 0x93 rq s ∧ umbTalks s = true) ∧
    (∃ (rq : Req) (s : State), Taken 0x94 rq s ∧ umbTalks s = true) ∧
    (∃ (rq : Req) (s : State) (image : List Byte), Taken 0x95 rq s ∧ umbTalks s = true ∧ s.pins.sealN = false ∧ s.umber.updBy = none ∧ image.length < 8) ∧
    (∃ (rq : Req) (s : State) (offset : Word) (image : List Byte), Taken 0x95 rq s ∧ umbTalks s = true ∧ s.pins.sealN = false ∧ s.umber.updBy = none ∧
      offset ≠ 0 ∧ offset.toNat = s.umber.upd.length ∧ 8 ≤ offset.toNat ∧ (s.umber.upd ++ image).length = field (s.umber.upd ++ image) 4 4 ∧
      (s.umber.upd ++ image).length ≤ 49152) ∧
    (∃ (rq : Req) (s : State), Taken 0x95 rq s ∧ umbTalks s = true ∧ s.pins.sealN = true) ∧
    (∃ (h : Fin 4) (q : Nat) (s : State), s.umber.updBy = some (h, q)) ∧
    (∃ (s : State), s.umber.updBy = none) :=
  ⟨⟨ask .operator, awake, by unfold Taken; decide +kernel⟩,
   ⟨ask .operator, awake, 1, by unfold Taken; decide +kernel⟩,
   ⟨ask .operator, awake, by unfold Taken; decide +kernel⟩,
   ⟨ask .meter, { awake with umber.st := .opened }, 1, by unfold Taken; decide +kernel⟩,
   ⟨ask .meter, { awake with umber.st := .opened, umber.len := 15 }, 15, by unfold Taken; decide +kernel⟩,
   ⟨ask .meter, { awake with umber.st := .sealed }, by unfold Taken; decide +kernel⟩,
   ⟨ask .operator, awake, by unfold Taken; decide +kernel⟩,
   ⟨ask .operator, awake, by unfold Taken; decide +kernel⟩,
   ⟨ask .operator, { awake with pins.sealN := false, umber.updBy := none }, [], by unfold Taken; decide +kernel⟩,
   ⟨ask .operator, { awake with pins.sealN := false, umber.upd := [0, 0, 0, 0, 9, 0, 0, 0] }, 8, [0], by unfold Taken; decide +kernel⟩,
   ⟨ask .operator, { awake with pins.sealN := true }, by unfold Taken; decide +kernel⟩,
   ⟨0, 0, { awake with umber.updBy := some ((0), (0)) }, by decide +kernel⟩,
   ⟨{ awake with umber.updBy := none }, by decide +kernel⟩⟩

/-- States that meet the hypotheses of `Obligations.RecorderRows`, clause by clause. -/
theorem test_meets_RecorderRows :
    (∃ (rq : Req) (seconds : Byte) (s : State), (∀ last, s.log.lastFreeze = some last → last + 10 * Config.sec ≤ s.clk) ∧ Taken 0x99 rq s ∧
      seconds.toNat ≠ 0 ∧ seconds.toNat ≤ 10 ∧ s.log.freezeEnd = none) ∧
    (∃ (rq : Req) (seconds : Byte) (begun : Nat) (ends : Nat) (s : State), Taken 0x99 rq s ∧ seconds.toNat ≠ 0 ∧ seconds.toNat ≤ 10 ∧
      s.log.freezeEnd = some (begun, ends)) ∧
    (∃ (rq : Req) (s : State), Taken 0x99 rq s ∧ s.log.freezeEnd.isSome = true) ∧
    (∃ (rq : Req) (s : State), Taken 0x99 rq s ∧ s.log.freezeEnd = none) ∧
    (∃ (rq : Req) (seconds : Byte) (last : Nat) (s : State), Taken 0x99 rq s ∧
      (10 < seconds.toNat ∨ (seconds.toNat ≠ 0 ∧ s.log.freezeEnd = none ∧ s.log.lastFreeze = some last ∧ s.clk < last + 10 * Config.sec))) ∧
    (∃ (s : State), (s.log.scanDone = false ∨ waitingEntry s = none)) ∧
    (∃ (e : LogIn) (s : State) (t : State), s.log.scanDone = true ∧ waitingEntry s = some (e, t) ∧ t.log.dead = true) ∧
    (∃ (e : LogIn) (c : RepCand) (s : State) (t : State), s.log.scanDone = true ∧ waitingEntry s = some (e, t) ∧ t.log.dead = false ∧ repeatOf e t = some c) ∧
    (∃ (e : LogIn) (s : State) (t : State), s.log.scanDone = true ∧ waitingEntry s = some (e, t) ∧ t.log.dead = false ∧ repeatOf e t = none ∧
      t.log.freezeEnd.isSome = true ∧ t.log.holdq.length < 32) ∧
    (∃ (e : LogIn) (s : State) (t : State), s.log.scanDone = true ∧ waitingEntry s = some (e, t) ∧ t.log.dead = false ∧ repeatOf e t = none ∧
      t.log.freezeEnd = none ∧ t.log.next ≤ 0xFFFFFFFF ∧ 2 ≤ e.sev) ∧
    (∃ (e : LogIn) (s : State) (t : State), s.log.scanDone = true ∧ waitingEntry s = some (e, t) ∧ t.log.dead = false ∧ repeatOf e t = none ∧
      t.log.freezeEnd = none ∧ t.log.next ≤ 0xFFFFFFFF ∧ e.sev ≤ 1 ∧ t.log.tokens ≠ 0) ∧
    (∃ (e : LogIn) (s : State) (t : State), s.log.scanDone = true ∧ waitingEntry s = some (e, t) ∧ t.log.dead = false ∧ repeatOf e t = none ∧
      t.log.freezeEnd = none ∧ t.log.next ≤ 0xFFFFFFFF ∧ e.sev ≤ 1 ∧ t.log.tokens = 0) ∧
    (∃ (src : Byte) (c : RepCand) (r : Rec) (s : State), s.log.cands.lookup src.toNat = some c ∧ logSlot s c.slot = some r ∧ c.pending ≠ 0 ∧
      (secondPassed s c.shadowAt = true ∨ c.atClk + 60 * Config.sec ≤ s.clk) ∧ r.seq = c.seq ∧ s.log.freezeEnd = none ∧ c.slot < 4096 ∧
      s.log.dead = false) ∧
    (∃ (src : Byte) (s : State), (s.log.cands.lookup src.toNat = none ∨ s.log.freezeEnd.isSome = true ∨ s.log.dead = true)) ∧
    (∃ (s : State), s.log.freezeEnd.isSome = true) ∧
    (∃ (s : State), s.log.freezeEnd = none) ∧
    (∃ (s : State), s.sys.mode ≠ .ship ∧ s.sys.powered = true) ∧
    (∃ (s : State), (s.sys.mode = .ship ∨ s.sys.powered = false)) :=
  ⟨⟨ask .operator, 1, { awake with log.freezeEnd := none }, (fun _ h => nomatch h), by unfold Taken; decide +kernel⟩,
   ⟨ask .operator, 1, 0, 0, { awake with log.freezeEnd := some ((0), (0)) }, by unfold Taken; decide +kernel⟩,
   ⟨ask .operator, { awake with log.freezeEnd := some 0 }, by unfold Taken; decide +kernel⟩,
   ⟨ask .operator, { awake with log.freezeEnd := none }, by unfold Taken; decide +kernel⟩,
   ⟨ask .operator, 1, 0, { awake with log.freezeEnd := none, log.lastFreeze := some (0) }, by unfold Taken; decide +kernel⟩,
   ⟨{ awake with log.scanDone := false }, by decide +kernel⟩,
   ⟨logIn1, { awake with log.scanDone := true, log.queue := [logIn1], log.dead := true },
     { { awake with log.scanDone := true, log.queue := [logIn1], log.dead := true } with log.queue := [] }, by decide +kernel⟩,
   ⟨{ logIn1 with alarm := false, sev := 1, evid := 0x20 }, { cand1 with atClk := 6000000000 },
     { awake with log.scanDone := true, log.queue := [{ logIn1 with alarm := false, sev := 1, evid := 0x20 }], clk := 6000000000, log.cands := [(0x20, { cand1 with atClk := 6000000000 })], log.slots := [(3, rec1)] },
     { { awake with log.scanDone := true, log.queue := [{ logIn1 with alarm := false, sev := 1, evid := 0x20 }], clk := 6000000000, log.cands := [(0x20, { cand1 with atClk := 6000000000 })], log.slots := [(3, rec1)] } with log.queue := [] },
     by decide +kernel⟩,
   ⟨logIn1, { awake with log.scanDone := true, log.queue := [logIn1], log.freezeEnd := some (0, 100) },
     { { awake with log.scanDone := true, log.queue := [logIn1], log.freezeEnd := some (0, 100) } with log.queue := [] }, by decide +kernel⟩,
   ⟨logIn1, { awake with log.scanDone := true, log.queue := [logIn1] },
     { { awake with log.scanDone := true, log.queue := [logIn1] } with log.queue := [] }, by decide +kernel⟩,
   ⟨{ logIn1 with alarm := false, sev := 1, evid := 0x20 },
     { awake with log.scanDone := true, log.queue := [{ logIn1 with alarm := false, sev := 1, evid := 0x20 }], log.tokens := 1 },
     { { awake with log.scanDone := true, log.queue := [{ logIn1 with alarm := false, sev := 1, evid := 0x20 }], log.tokens := 1 } with log.queue := [] },
     by decide +kernel⟩,
   ⟨{ logIn1 with alarm := false, sev := 1, evid := 0x20 },
     { awake with log.scanDone := true, log.queue := [{ logIn1 with alarm := false, sev := 1, evid := 0x20 }], log.tokens := 0 },
     { { awake with log.scanDone := true, log.queue := [{ logIn1 with alarm := false, sev := 1, evid := 0x20 }], log.tokens := 0 } with log.queue := [] },
     by decide +kernel⟩,
   ⟨0x20, cand1, rec1, { awake with clk := 6000000000, log.cands := [(0x20, cand1)], log.slots := [(3, rec1)] }, by decide +kernel⟩,
   ⟨0, awake, by decide +kernel⟩,
   ⟨{ awake with log.freezeEnd := some 0 }, by decide +kernel⟩,
   ⟨{ awake with log.freezeEnd := none }, by decide +kernel⟩,
   ⟨{ awake with sys.mode := .active, sys.powered := true }, by decide +kernel⟩,
   ⟨{ awake with sys.mode := .ship }, by decide +kernel⟩⟩

/-- States that meet the hypotheses of `Obligations.HostPortRows`, clause by clause. -/
theorem test_meets_HostPortRows :
    (∃ (s : State), (rf s.regs.hostCfg 4 4 = 0 ∨ s.pins.vddio = false)) ∧
    (∃ (s : State), rf s.regs.hostCfg 4 4 ≠ 0 ∧ s.pins.vddio = true ∧ portsAwake s = false) ∧
    (∃ (s : State), rf s.regs.hostCfg 4 4 ≠ 0 ∧ s.pins.vddio = true ∧ portsAwake s = true) ∧
    (∃ (op : Byte) (s : State), rf s.regs.hostCfg 4 4 ≠ 0 ∧ s.pins.vddio = true ∧ portsAwake s = true ∧ op ≠ 0xA5 ∧ op ≠ 0x5A) ∧
    (∃ (s : State), rf s.regs.hostCfg 4 4 ≠ 0 ∧ s.pins.vddio = true ∧ portsAwake s = true ∧ spiItem s ≠ []) ∧
    (∃ (s : State), rf s.regs.hostCfg 4 4 ≠ 0 ∧ s.pins.vddio = true ∧ portsAwake s = true ∧ spiItem s = []) ∧
    (∃ (s : State), rf s.regs.hostCfg 5 5 ≠ 0 ∧ portsAwake s = true ∧ s.host.breakStuck = false) ∧
    (∃ (s : State), (rf s.regs.hostCfg 5 5 = 0 ∨ portsAwake s = false ∨ s.host.breakStuck = true)) ∧
    (∃ (s : State), s.host.baudPending = true) ∧
    (∃ (s : State), s.host.baudPending = false) :=
  ⟨⟨{ awake with regs.hostCfg := (State.reset.regs.hostCfg &&& ~~~16) ||| 0 }, by decide +kernel⟩,
   ⟨{ asleep with pins.vddio := true, regs.hostCfg := (State.reset.regs.hostCfg &&& ~~~16) ||| 16 }, by decide +kernel⟩,
   ⟨{ awake with pins.vddio := true, regs.hostCfg := (State.reset.regs.hostCfg &&& ~~~16) ||| 16 }, by decide +kernel⟩,
   ⟨0, { awake with pins.vddio := true, regs.hostCfg := (State.reset.regs.hostCfg &&& ~~~16) ||| 16 }, by decide +kernel⟩,
   ⟨{ awake with host.spi.outq := [(true, { hdr := 0x50, status := 0, replay := false, more := false, data := [], tag := none })] }, by decide +kernel⟩,
   ⟨{ awake with pins.vddio := true, regs.hostCfg := (State.reset.regs.hostCfg &&& ~~~16) ||| 16 }, by decide +kernel⟩,
   ⟨{ awake with host.breakStuck := false, regs.hostCfg := (State.reset.regs.hostCfg &&& ~~~32) ||| 32 }, by decide +kernel⟩,
   ⟨{ awake with regs.hostCfg := (State.reset.regs.hostCfg &&& ~~~32) ||| 0 }, by decide +kernel⟩,
   ⟨{ awake with host.baudPending := true }, by decide +kernel⟩,
   ⟨{ awake with host.baudPending := false }, by decide +kernel⟩⟩

/-- States that meet the hypotheses of `Obligations.HostPortRows` (DispatchRows), clause by clause. -/
theorem test_meets_DispatchRows :
    (∃ (c : PCmd) (t : List PCmd) (s : State), s.cmd.waiting = c :: t) ∧
    (∃ (s : State), s.cmd.waiting = []) ∧
    (∃ (s : State), tickEnds s = true) ∧
    (∃ (s : State), tickEnds s = false) ∧
    (∃ (p : HPort) (seq : BitVec 12) (sl : Slot) (s : State), (portBuf s p).slots[waitingSlot (portBuf s p) seq.toNat]? = some sl ∧ sl.dev ≠ 0xFE ∧
      sl.dev ≠ 0xFF) ∧
    (∃ (p : HPort) (seq : BitVec 12) (sl : Slot) (s : State), (portBuf s p).slots[waitingSlot (portBuf s p) seq.toNat]? = some sl ∧
      (sl.dev = 0xFE ∨ sl.dev = 0xFF)) ∧
    (∃ (p : HPort) (seq : BitVec 12) (s : State), (portBuf s p).slots[waitingSlot (portBuf s p) seq.toNat]? = none) :=
  ⟨⟨waiting1, [], { awake with cmd.waiting := (waiting1) :: ([]) }, by decide +kernel⟩,
   ⟨{ awake with cmd.waiting := [] }, by decide +kernel⟩,
   ⟨awake, by decide +kernel⟩,
   ⟨{ awake with time.st := .locked, time.sec := 0, time.ns := 0, cmd.tickNo := 0 }, by decide +kernel⟩,
   ⟨.spi, 5, slot1 0, { awake with host.spi.slots := [slot1 0] }, by decide +kernel⟩,
   ⟨.spi, 5, slot1 0xFF, { awake with host.spi.slots := [slot1 0xFF] }, by decide +kernel⟩,
   ⟨.spi, 0, awake, by decide +kernel⟩⟩

/-- States that meet the hypotheses of `Obligations.ResetRows`, clause by clause. -/
theorem test_meets_ResetRows :
    (∃ (lowUs : Nat) (s : State), s.sys.mode ≠ .ship ∧ 1 ≤ lowUs ∧ lowUs < 10000) ∧
    (∃ (lowUs : Nat) (s : State), s.sys.mode ≠ .ship ∧ 10000 ≤ lowUs) ∧
    (∃ (lowUs : Nat) (s : State), s.sys.mode = .ship ∧ 1 ≤ lowUs) ∧
    (∃ (s : State), s.sys.resetPending = true) ∧
    (∃ (s : State), s.sys.resetPending = false) ∧
    (∃ (s : State), s.fw.restartDue = true) ∧
    (∃ (s : State), s.fw.restartDue = false) ∧
    (∃ (s : State), s.fw.trial = true ∧ s.sys.ready = false) ∧
    (∃ (s : State), (s.fw.trial = false ∨ s.sys.ready = true)) :=
  ⟨⟨1, { awake with sys.mode := .active }, by decide +kernel⟩,
   ⟨10000, { awake with sys.mode := .active }, by decide +kernel⟩,
   ⟨1, { awake with sys.mode := .ship }, by decide +kernel⟩,
   ⟨{ awake with sys.resetPending := true }, by decide +kernel⟩,
   ⟨{ awake with sys.resetPending := false }, by decide +kernel⟩,
   ⟨{ awake with fw.restartDue := true }, by decide +kernel⟩,
   ⟨{ awake with fw.restartDue := false }, by decide +kernel⟩,
   ⟨{ awake with fw.trial := true, sys.ready := false }, by decide +kernel⟩,
   ⟨{ awake with fw.trial := false }, by decide +kernel⟩⟩

/-- States that meet the hypotheses of `Obligations.BootRows`, clause by clause. -/
theorem test_meets_BootRows :
    (∃ (s : State), s.sys.powered = false) ∧
    (∃ (s : State), s.sys.powered = true) ∧
    (∃ (s : State), s.sys.powered = true ∧ s.sys.ready = false ∧ s.chain.enumHeld = none) ∧
    (∃ (n : Nat) (s : State), s.sys.powered = true ∧ s.sys.ready = false ∧ s.chain.enumHeld = some n) ∧
    (∃ (s : State), (s.sys.powered = false ∨ s.sys.ready = true)) ∧
    (∃ (s : State), s.sys.xtalOk = true) ∧
    (∃ (s : State), s.sys.xtalOk = false) :=
  ⟨⟨{ awake with sys.powered := false }, by decide +kernel⟩,
   ⟨{ awake with sys.powered := true }, by decide +kernel⟩,
   ⟨{ awake with sys.powered := true, sys.ready := false, chain.enumHeld := none }, by decide +kernel⟩,
   ⟨0, { awake with sys.powered := true, sys.ready := false, chain.enumHeld := some (0) }, by decide +kernel⟩,
   ⟨{ awake with sys.powered := false }, by decide +kernel⟩,
   ⟨{ awake with sys.xtalOk := true }, by decide +kernel⟩,
   ⟨{ awake with sys.xtalOk := false }, by decide +kernel⟩⟩

/-- States that meet the hypotheses of `Obligations.SupplyAndFabricRows` (SupplyRows), clause by clause. -/
theorem test_meets_SupplyRows :
    (∃ (s : State), s.sys.vstkLow = false ∧ s.sys.powered = true) ∧
    (∃ (s : State), (s.sys.vstkLow = true ∨ s.sys.powered = false)) ∧
    (∃ (s : State), s.sys.vstkLow = true) ∧
    (∃ (s : State), s.sys.vstkLow = false) ∧
    (∃ (a : Bool) (b : Bool) (s : State), ((a = true ∧ s.sys.vregFault = false) ∨ (b = true ∧ s.sys.vdd33Fault = false))) ∧
    (∃ (a : Bool) (b : Bool) (s : State), (a = true → s.sys.vregFault = true) ∧ (b = true → s.sys.vdd33Fault = true)) ∧
    (∃ (s : State), measuring s = true) ∧
    (∃ (s : State), measuring s = false) ∧
    (∃ (s : State), anyOutputOn s = true) ∧
    (∃ (s : State), anyOutputOn s = false) :=
  ⟨⟨{ awake with sys.vstkLow := false, sys.powered := true }, by decide +kernel⟩,
   ⟨{ awake with sys.vstkLow := true }, by decide +kernel⟩,
   ⟨{ awake with sys.vstkLow := true }, by decide +kernel⟩,
   ⟨{ awake with sys.vstkLow := false }, by decide +kernel⟩,
   ⟨true, false, { awake with sys.vregFault := false }, by decide +kernel⟩,
   ⟨false, false, awake, by decide +kernel⟩,
   ⟨awake, by decide +kernel⟩,
   ⟨asleep, by decide +kernel⟩,
   ⟨{ awake with verm.outs := [{ st := .hold }, {}, {}] }, by decide +kernel⟩,
   ⟨awake, by decide +kernel⟩⟩

/-- States that meet the hypotheses of `Obligations.SupplyAndFabricRows` (FabricRows), clause by clause. -/
theorem test_meets_FabricRows :
    ∃ (dst : Fin 28) (s : State), canRead s dst.val = false :=
  ⟨1, { asleep with sys.clkDown := 2 }, by decide +kernel⟩

/-- States that meet the hypotheses of `Obligations.SleepAndWakeRows` (SleepRows), clause by clause. -/
theorem test_meets_SleepRows :
    (∃ (s : State), MayIdle s) ∧
    (∃ (m : Mode) (s : State), s.sys.pendingMode = some m ∧ refuseCause m 0x5A s = 0) ∧
    (∃ (m : Mode) (s : State), s.sys.pendingMode = some m ∧ refuseCause m 0x5A s ≠ 0) ∧
    (∃ (s : State), s.sys.pendingMode = none) ∧
    (∃ (s : State), s.sys.mode = .sentinel ∧ s.sys.waking = false) ∧
    (∃ (s : State), (s.sys.mode ≠ .sentinel ∨ s.sys.waking = true)) ∧
    (∃ (s : State), s.sys.mode = .sentinel ∧ rf s.regs.pwrCtrl 22 22 ≠ 0) ∧
    (∃ (s : State), (s.sys.mode ≠ .sentinel ∨ rf s.regs.pwrCtrl 22 22 = 0)) ∧
    (∃ (port : Fin 2) (s : State), (spPort s port.val).burst = true) ∧
    (∃ (port : Fin 2) (s : State), (spPort s port.val).burst = false) ∧
    (∃ (s : State), s.sys.mode = .sentinel ∧ s.sys.waking = true) ∧
    (∃ (s : State), (s.sys.mode ≠ .sentinel ∨ s.sys.waking = false)) :=
  ⟨⟨awake, by unfold MayIdle; decide +kernel⟩,
   ⟨.sentinel, { awake with sys.pendingMode := some (.sentinel) }, by decide +kernel⟩,
   ⟨.sentinel, { awake with sys.pendingMode := some .sentinel, pins.wake := true }, by decide +kernel⟩,
   ⟨{ awake with sys.pendingMode := none }, by decide +kernel⟩,
   ⟨{ awake with sys.mode := .sentinel, sys.waking := false }, by decide +kernel⟩,
   ⟨{ awake with sys.mode := .active }, by decide +kernel⟩,
   ⟨{ awake with sys.mode := .sentinel, regs.pwrCtrl := (State.reset.regs.pwrCtrl &&& ~~~4194304) ||| 4194304 }, by decide +kernel⟩,
   ⟨{ awake with sys.mode := .active }, by decide +kernel⟩,
   ⟨0, { awake with sp1.burst := true }, by decide +kernel⟩,
   ⟨0, { awake with sp1.burst := false }, by decide +kernel⟩,
   ⟨{ awake with sys.mode := .sentinel, sys.waking := true }, by decide +kernel⟩,
   ⟨{ awake with sys.mode := .active }, by decide +kernel⟩⟩

/-- States that meet the hypotheses of `Obligations.SleepAndWakeRows` (WakeRows), clause by clause. -/
theorem test_meets_WakeRows :
    (∃ (us : Nat) (s : State), us ≠ 0 ∧ s.sys.mode ≠ .ship ∧ (s.sys.mode = .sentinel → 100 ≤ us)) ∧
    (∃ (us : Nat) (s : State), us ≠ 0 ∧ us < 100 ∧ s.sys.mode = .sentinel) ∧
    (∃ (us : Nat) (s : State), 1000 ≤ us ∧ s.sys.mode = .ship) ∧
    (∃ (us : Nat) (s : State), us ≠ 0 ∧ us < 1000 ∧ s.sys.mode = .ship) ∧
    (∃ (s : State), s.pins.vddio = true ∧ (s.sys.mode = .sentinel ∨ s.sys.pendingMode = some .sentinel)) ∧
    (∃ (s : State), (s.pins.vddio = false ∨ (s.sys.mode ≠ .sentinel ∧ s.sys.pendingMode ≠ some .sentinel))) ∧
    (∃ (sd : Side) (s : State), (toneEnds sd s).sys.waking = true) ∧
    (∃ (sd : Side) (s : State), (toneEnds sd s).sys.waking = false ∧ (toneEnds sd s).sys.mode = .sentinel) ∧
    (∃ (sd : Side) (s : State), (toneEnds sd s).sys.waking = false ∧ (toneEnds sd s).sys.mode = .ship) ∧
    (∃ (sd : Side) (s : State), (toneEnds sd s).sys.waking = false ∧ ((toneEnds sd s).sys.mode = .active ∨ (toneEnds sd s).sys.mode = .idle)) ∧
    (∃ (sd : Side) (s : State), (port s sd).tones ≠ 0 ∧ (port s sd).tones < 4 ∧ (port s sd).gotFrame = false) ∧
    (∃ (sd : Side) (s : State), ((port s sd).tones = 0 ∨ 4 ≤ (port s sd).tones ∨ (port s sd).gotFrame = true)) :=
  ⟨⟨1, awake, by decide +kernel⟩,
   ⟨1, { awake with sys.mode := .sentinel }, by decide +kernel⟩,
   ⟨1000, { awake with sys.mode := .ship }, by decide +kernel⟩,
   ⟨1, { awake with sys.mode := .ship }, by decide +kernel⟩,
   ⟨{ awake with pins.vddio := true, sys.mode := .sentinel }, by decide +kernel⟩,
   ⟨{ awake with pins.vddio := false }, by decide +kernel⟩,
   ⟨.north, { asleep with sys.waking := true }, by decide +kernel⟩,
   ⟨.north, asleep, by decide +kernel⟩,
   ⟨.north, { awake with sys.mode := .ship }, by decide +kernel⟩,
   ⟨.north, awake, by decide +kernel⟩,
   ⟨.north, { awake with chain.north.tones := 1, chain.north.gotFrame := false }, by decide +kernel⟩,
   ⟨.north, { awake with chain.north.tones := 0 }, by decide +kernel⟩⟩

/-- States that meet the hypotheses of `Obligations.CheckDoneRows`, clause by clause. -/
theorem test_meets_CheckDoneRows :
    (Config.oliquaVerifies (sha256 []) [0x10, 0xC, 1, 0, 0, 0, 0, 0, 0xFF, 0xFF, 0xFF, 0xFF, 0, 0, 0, 0] = true → ∃ (crc : Word) (h : Fin 4) (q : Nat) (rest : List (Word × Fin 4 × Nat)) (s : State),
      s.fw.checking = (crc, h, q) :: rest ∧ s.fw.busy = true ∧ fwResult crc s = 0) ∧
    (∃ (crc : Word) (h : Fin 4) (q : Nat) (rest : List (Word × Fin 4 × Nat)) (s : State), s.fw.checking = (crc, h, q) :: rest ∧ s.fw.busy = true ∧
      fwResult crc s ≠ 0) ∧
    (∃ (crc : Word) (h : Fin 4) (q : Nat) (rest : List (Word × Fin 4 × Nat)) (s : State), s.fw.checking = (crc, h, q) :: rest ∧ s.fw.busy = false) ∧
    (∃ (s : State), s.fw.checking = []) ∧
    (∃ (s : State), s.fw.busy = true ∧ s.fw.checking = []) ∧
    (∃ (s : State), (s.fw.busy = false ∨ s.fw.checking ≠ [])) ∧
    (∃ (crc : Word) (h : Fin 4) (q : Nat) (rest : List (Word × Fin 4 × Nat)) (s : State), s.nv.cfgChecking = (crc, h, q) :: rest ∧
      crc32c (cfgWorkBytes s) ≠ crc) ∧
    (∃ (crc : Word) (h : Fin 4) (q : Nat) (rest : List (Word × Fin 4 × Nat)) (s : State) (off : Nat), s.nv.cfgChecking = (crc, h, q) :: rest ∧
      crc32c (cfgWorkBytes s) = crc ∧ cfgInvalid 0 341 (cfgWorkBytes s) = some off) ∧
    (∃ (crc : Word) (h : Fin 4) (q : Nat) (rest : List (Word × Fin 4 × Nat)) (ok : Bool) (s : State), s.nv.cfgChecking = (crc, h, q) :: rest ∧
      crc32c (cfgWorkBytes s) = crc ∧ cfgInvalid 0 341 (cfgWorkBytes s) = none ∧ ok = true) ∧
    (∃ (crc : Word) (h : Fin 4) (q : Nat) (rest : List (Word × Fin 4 × Nat)) (ok : Bool) (s : State), s.nv.cfgChecking = (crc, h, q) :: rest ∧
      crc32c (cfgWorkBytes s) = crc ∧ cfgInvalid 0 341 (cfgWorkBytes s) = none ∧ ok = false) ∧
    (∃ (s : State), s.nv.cfgChecking = []) ∧
    (∃ (m : Word) (h : Fin 4) (q : Nat) (rest : List (Word × Fin 4 × Nat)) (s : State) (off : Nat), s.verm.sealing = (m, h, q) :: rest ∧
      firstInvalid s = some off) ∧
    (∃ (m : Word) (h : Fin 4) (q : Nat) (rest : List (Word × Fin 4 × Nat)) (s : State), s.verm.sealing = (m, h, q) :: rest ∧
      crc32c (slice s.verm.block 0 256) ≠ m ∧ firstInvalid s = none) ∧
    (∃ (m : Word) (h : Fin 4) (q : Nat) (rest : List (Word × Fin 4 × Nat)) (ok : Bool) (s : State), s.verm.sealing = (m, h, q) :: rest ∧
      crc32c (slice s.verm.block 0 256) = m ∧ firstInvalid s = none ∧ ok = true) ∧
    (∃ (m : Word) (h : Fin 4) (q : Nat) (rest : List (Word × Fin 4 × Nat)) (ok : Bool) (s : State), s.verm.sealing = (m, h, q) :: rest ∧
      crc32c (slice s.verm.block 0 256) = m ∧ firstInvalid s = none ∧ ok = false) ∧
    (∃ (s : State), s.verm.sealing = []) :=
  ⟨fun hv => ⟨crc32c [0x10, 0xC, 1, 0, 0, 0, 0, 0, 0xFF, 0xFF, 0xFF, 0xFF, 0, 0, 0, 0], 0, 5, [], { awake with fw.busy := true, fw.rcvd := 16, fw.imgB := [(0, 0x10), (1, 0xC), (2, 1), (8, 0xFF), (9, 0xFF), (10, 0xFF), (11, 0xFF)], sys.bank := false, fw.checking := [(crc32c [0x10, 0xC, 1, 0, 0, 0, 0, 0, 0xFF, 0xFF, 0xFF, 0xFF, 0, 0, 0, 0], 0, 5)] }, rfl, rfl, test_sound_image hv⟩,
   ⟨1, 0, 0, [], { awake with fw.checking := [(1, 0, 0)], fw.busy := true }, by decide +kernel⟩,
   ⟨0, 0, 0, [], { awake with fw.checking := ((0), (0), (0)) :: ([]), fw.busy := false }, by decide +kernel⟩,
   ⟨{ awake with fw.checking := [] }, by decide +kernel⟩,
   ⟨{ awake with fw.busy := true, fw.checking := [] }, by decide +kernel⟩,
   ⟨{ awake with fw.busy := false }, by decide +kernel⟩,
   ⟨crc32c (memRead [] 0 2048) + 1, 0, 0, [], { awake with nv.cfgChecking := [(crc32c (memRead [] 0 2048) + 1, 0, 0)] }, rfl,
     (show crc32c (memRead [] 0 2048) ≠ _ from test_word_ne_succ _)⟩,
   ⟨crc32c (memRead [] 0 2048), 0, 5, [], { awake with nv.cfgChecking := [(crc32c (memRead [] 0 2048), 0, 5)] }, 0, rfl, rfl, by decide +kernel⟩,
   ⟨crc32c (memRead [(0, 0xFF), (1, 0xFF)] 0 2048), 0, 5, [], true,
     { awake with nv.cfgWork := [(0, 0xFF), (1, 0xFF)], nv.cfgChecking := [(crc32c (memRead [(0, 0xFF), (1, 0xFF)] 0 2048), 0, 5)] }, rfl, rfl,
     by decide +kernel⟩,
   ⟨crc32c (memRead [(0, 0xFF), (1, 0xFF)] 0 2048), 0, 5, [], false,
     { awake with nv.cfgWork := [(0, 0xFF), (1, 0xFF)], nv.cfgChecking := [(crc32c (memRead [(0, 0xFF), (1, 0xFF)] 0 2048), 0, 5)] }, rfl, rfl,
     by decide +kernel⟩,
   ⟨{ awake with nv.cfgChecking := [] }, by decide +kernel⟩,
   ⟨0, 0, 5, [], { awake with verm.sealing := [(0, 0, 5)] }, 2, by decide +kernel⟩,
   ⟨crc32c (slice (State.reset.verm.block.set 2 1) 0 256) + 1, 0, 5, [],
     { onChain with verm.block := State.reset.verm.block.set 2 1, verm.sealing := [(crc32c (slice (State.reset.verm.block.set 2 1) 0 256) + 1, 0, 5)] },
     rfl, (show crc32c (slice (State.reset.verm.block.set 2 1) 0 256) ≠ _ from test_word_ne_succ _), by decide +kernel⟩,
   ⟨crc32c (slice (State.reset.verm.block.set 2 1) 0 256), 0, 5, [], true,
     { onChain with verm.block := State.reset.verm.block.set 2 1, verm.sealing := [(crc32c (slice (State.reset.verm.block.set 2 1) 0 256), 0, 5)] },
     rfl, rfl, by decide +kernel⟩,
   ⟨crc32c (slice (State.reset.verm.block.set 2 1) 0 256), 0, 5, [], false,
     { onChain with verm.block := State.reset.verm.block.set 2 1, verm.sealing := [(crc32c (slice (State.reset.verm.block.set 2 1) 0 256), 0, 5)] },
     rfl, rfl, by decide +kernel⟩,
   ⟨{ awake with verm.sealing := [] }, by decide +kernel⟩⟩

/-- States that meet the hypotheses of `Obligations.FrameSending`, clause by clause. -/
theorem test_meets_FrameSending :
    (∃ (sd : Side) (k : Nat) (n : Nat) (x : TxItem) (s : State) (t : State), t = linesDone s ∧ chainOn s = true ∧
      pick (rf t.regs.fabCfg 3 0) (port t sd) = some (.inl k, n) ∧ (port t sd).txq[k]? = some x ∧ mayStart (port t sd) t.clk x.frame.cls = true) ∧
    (∃ (sd : Side) (k : Nat) (n : Nat) (f : Frame) (s : State) (t : State), t = linesDone s ∧ chainOn s = true ∧
      pick (rf t.regs.fabCfg 3 0) (port t sd) = some (.inr k, n) ∧ (port t sd).linkq[k]? = some f ∧ mayStart (port t sd) t.clk f.cls = true) ∧
    (∃ (sd : Side) (s : State), chainOn s = true ∧ pick (rf (linesDone s).regs.fabCfg 3 0) (port (linesDone s) sd) = none) ∧
    (∃ (sd : Side) (k : Nat) (n : Nat) (x : TxItem) (s : State) (t : State), t = linesDone s ∧ chainOn s = true ∧
      pick (rf t.regs.fabCfg 3 0) (port t sd) = some (.inl k, n) ∧ (port t sd).txq[k]? = some x ∧ mayStart (port t sd) t.clk x.frame.cls = false) ∧
    (∃ (sd : Side) (k : Nat) (n : Nat) (f : Frame) (s : State) (t : State), t = linesDone s ∧ chainOn s = true ∧
      pick (rf t.regs.fabCfg 3 0) (port t sd) = some (.inr k, n) ∧ (port t sd).linkq[k]? = some f ∧ mayStart (port t sd) t.clk f.cls = false) ∧
    (∃ (sd : Side) (i : TxItem) (s : State) (t : State),
      t = setPort sd (fun p => { lineEnds (sd == .south) s.clk p with tec := satAdd 255 p.tec 8, line := none, aborted := true }) s ∧
      chainOn s = true ∧ lineIdle (port s sd) s.clk = false ∧ (port s sd).sentLast = true ∧ (port s sd).line = some i) ∧
    (∃ (sd : Side) (i : TxItem) (s : State) (t : State),
      t = setPort sd (fun p => { lineEnds (sd == .south) s.clk p with tec := satAdd 255 p.tec 8, line := none, aborted := true }) s ∧
      chainOn s = true ∧ lineIdle (port s sd) s.clk = false ∧ (port s sd).sentLast = true ∧ (port s sd).line = some i ∧ i.frame.cls ≤ 5) ∧
    (∃ (sd : Side) (i : TxItem) (s : State) (t : State),
      t = setPort sd (fun p => { lineEnds (sd == .south) s.clk p with tec := satAdd 255 p.tec 8, line := none, aborted := true }) s ∧
      chainOn s = true ∧ lineIdle (port s sd) s.clk = false ∧ (port s sd).sentLast = true ∧ (port s sd).line = some i ∧ i.frame.cls = 7) ∧
    (∃ (sd : Side) (i : TxItem) (s : State) (t : State),
      t = setPort sd (fun p => { lineEnds (sd == .south) s.clk p with tec := satAdd 255 p.tec 8, line := none, aborted := true }) s ∧
      chainOn s = true ∧ lineIdle (port s sd) s.clk = false ∧ (port s sd).sentLast = true ∧ (port s sd).line = some i ∧ i.frame.cls = 6 ∧
      (port t sd).linkq.length < 4) ∧
    (∃ (sd : Side) (i : TxItem) (s : State) (t : State),
      t = setPort sd (fun p => { lineEnds (sd == .south) s.clk p with tec := satAdd 255 p.tec 8, line := none, aborted := true }) s ∧
      chainOn s = true ∧ lineIdle (port s sd) s.clk = false ∧ (port s sd).sentLast = true ∧ (port s sd).line = some i ∧ i.frame.cls = 6 ∧
      4 ≤ (port t sd).linkq.length) ∧
    (∃ (sd : Side) (s : State), chainOn s = true ∧ lineIdle (port s sd) s.clk = true) ∧
    (∃ (sd : Side) (s : State), chainOn s = true ∧ portUp (port s sd) = true) ∧
    (∃ (sd : Side) (s : State), chainOn s = true ∧ (port s sd).st = .linkDead) ∧
    (∃ (sd : Side) (off : Nat) (l : List Nat) (s : State), chainOn s = true ∧ (port s sd).st = .portOff ∧ (port s sd).offTimes = off :: l ∧
      off + Config.sec ≤ s.clk) ∧
    (∃ (sd : Side) (s : State), chainOn s = true ∧ s.chain.addr = true ∧ portUp (port s sd) = true) ∧
    (∃ (sd : Side) (h : Held) (s : State) (i : Nat), i = (if (port s sd).turn < s.evt.hold.length then (port s sd).turn else 0) ∧
      (∀ c, (port s sd).offTurnAt = some c → c + Config.ms ≤ s.clk) ∧ chainOn s = true ∧ s.chain.addr = true ∧
      ((port s sd).st = .portOff ∨ (port s sd).st = .offLatched) ∧ s.evt.hold[i]? = some h) ∧
    (∃ (sd : Side) (c : Nat) (s : State), portUp (port s sd) = false ∧ (s.evt.hold = [] ∨ ((port s sd).offTurnAt = some c ∧ s.clk < c + Config.ms))) ∧
    (∃ (sd : Side) (s : State),
      (portUp (port s sd) = true ∨ (port s sd).st = .offLatched ∨ ((port s sd).st = .portOff ∧ ∃ off l, (port s sd).offTimes = off :: l ∧ s.clk < off + Config.sec))) ∧
    (∃ (dest : Nat) (q : List Entry) (s : State) (t : State),
      t = { s with evt.outq := (dest, q.drop (frameEntries q).length) :: s.evt.outq.filter (fun x => x.1 != dest) } ∧
      s.evt.outq.lookup dest = some q ∧ q ≠ [] ∧ s.chain.addr = true ∧ returnsAtOnce t dest = false) ∧
    (∃ (dest : Nat) (q : List Entry) (s : State) (t : State),
      t = { s with evt.outq := (dest, q.drop (frameEntries q).length) :: s.evt.outq.filter (fun x => x.1 != dest) } ∧
      s.evt.outq.lookup dest = some q ∧ q ≠ [] ∧ s.chain.addr = true ∧ returnsAtOnce t dest = true) ∧
    (∃ (s : State), chainOn s = false) ∧
    (∃ (sd : Side) (s : State), (lineIdle (port s sd) s.clk = true ∨ (port s sd).sentLast = false)) ∧
    (∃ (sd : Side) (s : State), lineIdle (port s sd) s.clk = false) ∧
    (∃ (sd : Side) (s : State), portUp (port s sd) = false) ∧
    (∃ (sd : Side) (s : State), ((port s sd).st = .linkDead ∨ s.chain.addr = false)) ∧
    (∃ (dest : Nat) (s : State), (s.evt.outq.lookup dest = none ∨ s.evt.outq.lookup dest = some [] ∨ s.chain.addr = false)) :=
  ⟨⟨.north, 0, 0, { frame := frm 2 9 3 0 [], transit := false, holds := none, came := none },
     { onChain with chain.north.anyTime := true, chain.north.txq := [{ frame := frm 2 9 3 0 [], transit := false, holds := none, came := none }] }, _,
     rfl, by decide +kernel⟩,
   ⟨.north, 0, 0, frm 6 1 0xFC 8 [], { onChain with chain.north.anyTime := true, chain.north.linkq := [frm 6 1 0xFC 8 []] }, _, rfl, by decide +kernel⟩,
   ⟨.north, awake, by decide +kernel⟩,
   ⟨.north, 0, 0, { frame := frm 2 9 3 0 [], transit := false, holds := none, came := none },
     { onChain with chain.north.txq := [{ frame := frm 2 9 3 0 [], transit := false, holds := none, came := none }] }, _, rfl, by decide +kernel⟩,
   ⟨.north, 0, 0, frm 6 1 0xFC 8 [], { onChain with chain.north.linkq := [frm 6 1 0xFC 8 []] }, _, rfl, by decide +kernel⟩,
   ⟨.north, { frame := frm 2 9 3 0 [], transit := false, holds := none, came := none },
     { onChain with chain.north.lineEnd := some 100, chain.north.sentLast := true, chain.north.line := some ({ frame := frm 2 9 3 0 [], transit := false, holds := none, came := none }) },
     _, rfl, by decide +kernel⟩,
   ⟨.north, { frame := frm 2 9 3 0 [], transit := false, holds := none, came := none },
     { onChain with chain.north.lineEnd := some 100, chain.north.sentLast := true, chain.north.line := some ({ frame := frm 2 9 3 0 [], transit := false, holds := none, came := none }) },
     _, rfl, by decide +kernel⟩,
   ⟨.north, { frame := frm 7 9 3 0 [], transit := false, holds := none, came := none },
     { onChain with chain.north.lineEnd := some 100, chain.north.sentLast := true, chain.north.line := some ({ frame := frm 7 9 3 0 [], transit := false, holds := none, came := none }) },
     _, rfl, by decide +kernel⟩,
   ⟨.north, { frame := frm 6 9 3 0 [], transit := false, holds := none, came := none },
     { onChain with chain.north.lineEnd := some 100, chain.north.sentLast := true, chain.north.line := some ({ frame := frm 6 9 3 0 [], transit := false, holds := none, came := none }) },
     _, rfl, by decide +kernel⟩,
   ⟨.north, { frame := frm 6 9 3 0 [], transit := false, holds := none, came := none },
     { onChain with chain.north.lineEnd := some 100, chain.north.sentLast := true, chain.north.line := some ({ frame := frm 6 9 3 0 [], transit := false, holds := none, came := none }), chain.north.linkq := List.replicate 4 (frm 6 1 0xFC 8 []) },
     _, rfl, by decide +kernel⟩,
   ⟨.north, awake, by decide +kernel⟩,
   ⟨.north, onChain, by decide +kernel⟩,
   ⟨.north, { awake with chain.north.st := .linkDead }, by decide +kernel⟩,
   ⟨.north, 0, [], { onChain with clk := 200000000, chain.north.st := .portOff, chain.north.offTimes := [0] }, by decide +kernel⟩,
   ⟨.north, { onChain with chain.addr := true }, by decide +kernel⟩,
   ⟨.north, { src := 0x20, seq := 0, frame := frm 0 10 255 0 [], returned := false, lastN := none, lastS := none },
     { onChain with chain.north.st := .portOff, evt.hold := [{ src := 0x20, seq := 0, frame := frm 0 10 255 0 [], returned := false, lastN := none, lastS := none }] },
     _, rfl, (fun _ h => nomatch h), by decide +kernel⟩,
   ⟨.north, 0, { awake with evt.hold := [] }, by decide +kernel⟩,
   ⟨.north, onChain, .inl (by decide +kernel)⟩,
   ⟨3, [entry1], { onChain with evt.outq := [(3, [entry1])] }, _, rfl, by decide +kernel⟩,
   ⟨9, [entry1], { onChain with chain.dead := 1, evt.outq := [(9, [entry1])] }, _, rfl, by decide +kernel⟩,
   ⟨asleep, by decide +kernel⟩,
   ⟨.north, awake, by decide +kernel⟩,
   ⟨.north, { onChain with chain.north.lineEnd := some 100 }, by decide +kernel⟩,
   ⟨.north, awake, by decide +kernel⟩,
   ⟨.north, { awake with chain.north.st := .linkDead }, by decide +kernel⟩,
   ⟨0, awake, by decide +kernel⟩⟩

/-- States that meet the hypotheses of `Obligations.LinkFrames`, clause by clause. -/
theorem test_meets_LinkFrames :
    (∃ (sd : Side) (f : Frame) (lq : LineQ) (g : Frame) (s : State) (t : State) (u : State), g = (arrived f lq).1 ∧ t = hopState sd f lq s ∧
      u = cutCopy (otherSide sd) g (cutAt g t) t ∧ Arrives sd f lq s ∧ g.cls = 6 ∧ g.kind = 0 ∧ g.dest = 0xFC) ∧
    (∃ (sd : Side) (f : Frame) (lq : LineQ) (g : Frame) (s : State) (t : State) (u : State), g = (arrived f lq).1 ∧ t = hopState sd f lq s ∧
      u = cutCopy (otherSide sd) g (cutAt g t) t ∧ Arrives sd f lq s ∧ g.cls = 6 ∧ g.kind = 1 ∧ g.dest = 0xFC) ∧
    (∃ (sd : Side) (f : Frame) (lq : LineQ) (g : Frame) (s : State) (t : State) (u : State), g = (arrived f lq).1 ∧ t = hopState sd f lq s ∧
      u = cutCopy (otherSide sd) g (cutAt g t) t ∧ Arrives sd f lq s ∧ g.cls = 6 ∧ g.kind = 2 ∧ g.dest = 0xFC) ∧
    (∃ (sd : Side) (f : Frame) (lq : LineQ) (g : Frame) (s : State) (t : State) (u : State), g = (arrived f lq).1 ∧ t = hopState sd f lq s ∧
      u = cutCopy (otherSide sd) g (cutAt g t) t ∧ Arrives sd f lq s ∧ g.cls = 6 ∧ g.kind = 3 ∧ IsFor g t) ∧
    (∃ (sd : Side) (f : Frame) (lq : LineQ) (g : Frame) (s : State) (t : State) (u : State), g = (arrived f lq).1 ∧ t = hopState sd f lq s ∧
      u = cutCopy (otherSide sd) g (cutAt g t) t ∧ Arrives sd f lq s ∧ g.cls = 6 ∧ g.kind = 4 ∧ g.dest = 0xFF ∧ t.chain.addr = true ∧
      t.chain.pos < 64 ∧ g.orig ≠ t.chain.pos) ∧
    (∃ (sd : Side) (f : Frame) (lq : LineQ) (g : Frame) (s : State) (t : State) (u : State), g = (arrived f lq).1 ∧ t = hopState sd f lq s ∧
      u = cutCopy (otherSide sd) g (cutAt g t) t ∧ Arrives sd f lq s ∧ g.cls = 6 ∧ g.kind = 5 ∧ IsFor g t) ∧
    (∃ (sd : Side) (f : Frame) (lq : LineQ) (g : Frame) (s : State) (t : State) (u : State), g = (arrived f lq).1 ∧ t = hopState sd f lq s ∧
      u = cutCopy (otherSide sd) g (cutAt g t) t ∧ Arrives sd f lq s ∧ g.cls = 6 ∧ g.kind = 6 ∧ g.dest = 0xFF ∧ t.chain.addr = true ∧
      t.chain.pos < 64 ∧ g.orig ≠ t.chain.pos) ∧
    (∃ (sd : Side) (f : Frame) (lq : LineQ) (g : Frame) (s : State) (t : State) (u : State), g = (arrived f lq).1 ∧ t = hopState sd f lq s ∧
      u = cutCopy (otherSide sd) g (cutAt g t) t ∧ chainOn s = true ∧ (hopIn sd g (arrived f lq).2 s).2 = false ∧ (arrived f lq).2 ≠ .crcBad ∧
      (arrived f lq).2 ≠ .codeBad) :=
  ⟨⟨.north, frm 6 0 252 0 [], .ok, _, onChain, _, _, rfl, rfl, rfl, by unfold Arrives; decide +kernel⟩,
   ⟨.north, frm 6 1 252 8 [2, 2, 8, 18, 18, 18, 14, 1], .ok, _, onChain, _, _, rfl, rfl, rfl, by unfold Arrives; decide +kernel⟩,
   ⟨.north, frm 6 2 252 2 [1, 0], .ok, _, onChain, _, _, rfl, rfl, rfl, by unfold Arrives; decide +kernel⟩,
   ⟨.north, frm 6 3 1 2 [1, 0], .ok, _, onChain, _, _, rfl, rfl, rfl, by unfold Arrives; unfold IsFor; decide +kernel⟩,
   ⟨.north, frm 6 4 255 2 [4, 1], .ok, _, onChain, _, _, rfl, rfl, rfl, by unfold Arrives; decide +kernel⟩,
   ⟨.north, frm 6 5 1 3 [2, 0, 0], .ok, _, onChain, _, _, rfl, rfl, rfl, by unfold Arrives; unfold IsFor; decide +kernel⟩,
   ⟨.north, frm 6 6 255 2 [2, 1], .ok, _, onChain, _, _, rfl, rfl, rfl, by unfold Arrives; decide +kernel⟩,
   ⟨.north, frm 2 9 1 0 [], .ok, _, awake, _, _, rfl, rfl, rfl, by decide +kernel⟩⟩

/-- States that meet the hypotheses of `Obligations.ContentFrames`, clause by clause. -/
theorem test_meets_ContentFrames :
    (∃ (sd : Side) (f : Frame) (lq : LineQ) (g : Frame) (s : State) (t : State) (u : State), g = (arrived f lq).1 ∧ t = hopState sd f lq s ∧
      u = cutCopy (otherSide sd) g (cutAt g t) t ∧ Arrives sd f lq s ∧ g.cls ≤ 5 ∧ IsFor g t ∧ t.sys.ready = true ∧ (streamIn sd g u).2 = true ∧
      g.kind = 0x8) ∧
    (∃ (sd : Side) (f : Frame) (lq : LineQ) (g : Frame) (s : State) (t : State) (u : State), g = (arrived f lq).1 ∧ t = hopState sd f lq s ∧
      u = cutCopy (otherSide sd) g (cutAt g t) t ∧ Arrives sd f lq s ∧ g.cls ≤ 5 ∧ IsFor g t ∧ t.sys.ready = true ∧ (streamIn sd g u).2 = true ∧
      g.kind = 0x9) ∧
    (∃ (sd : Side) (f : Frame) (lq : LineQ) (g : Frame) (s : State) (t : State) (u : State), g = (arrived f lq).1 ∧ t = hopState sd f lq s ∧
      u = cutCopy (otherSide sd) g (cutAt g t) t ∧ Arrives sd f lq s ∧ g.cls ≤ 5 ∧ IsFor g t ∧ t.sys.ready = true ∧ (streamIn sd g u).2 = true ∧
      g.kind = 0xA) ∧
    (∃ (sd : Side) (f : Frame) (lq : LineQ) (g : Frame) (s : State) (t : State) (u : State), g = (arrived f lq).1 ∧ t = hopState sd f lq s ∧
      u = cutCopy (otherSide sd) g (cutAt g t) t ∧ Arrives sd f lq s ∧ g.cls ≤ 5 ∧ IsFor g t ∧ t.sys.ready = true ∧ (streamIn sd g u).2 = true ∧
      g.kind = 0xB) ∧
    (∃ (sd : Side) (f : Frame) (lq : LineQ) (g : Frame) (s : State) (t : State) (u : State), g = (arrived f lq).1 ∧ t = hopState sd f lq s ∧
      u = cutCopy (otherSide sd) g (cutAt g t) t ∧ Arrives sd f lq s ∧ g.cls ≤ 5 ∧ IsFor g t ∧ t.sys.ready = true ∧ (streamIn sd g u).2 = true ∧
      g.kind = 0xC) ∧
    (∃ (sd : Side) (f : Frame) (lq : LineQ) (g : Frame) (s : State) (t : State) (u : State), g = (arrived f lq).1 ∧ t = hopState sd f lq s ∧
      u = cutCopy (otherSide sd) g (cutAt g t) t ∧ Arrives sd f lq s ∧ g.cls ≤ 5 ∧ IsFor g t ∧ t.sys.ready = true ∧ (streamIn sd g u).2 = true ∧
      g.kind = 0xD) ∧
    (∃ (sd : Side) (f : Frame) (lq : LineQ) (g : Frame) (s : State) (t : State) (u : State), g = (arrived f lq).1 ∧ t = hopState sd f lq s ∧
      u = cutCopy (otherSide sd) g (cutAt g t) t ∧ Arrives sd f lq s ∧ g.cls ≤ 5 ∧ IsFor g t ∧ t.sys.ready = true ∧ (streamIn sd g u).2 = true ∧
      g.kind = 0xE) ∧
    (∃ (sd : Side) (f : Frame) (lq : LineQ) (g : Frame) (s : State) (t : State) (u : State) (i : Instr), g = (arrived f lq).1 ∧ t = hopState sd f lq s ∧
      u = cutCopy (otherSide sd) g (cutAt g t) t ∧
      i ∈ [Instr.commandFrame sd f lq, .responseFrame sd f lq, .eventFrame sd f lq, .safetyFrame sd f lq, .metro sd f lq, .dataFrame sd f lq, .voidFrame sd f lq] ∧
      Arrives sd f lq s ∧ g.cls ≤ 5 ∧ IsFor g t ∧ t.sys.ready = true ∧ (streamIn sd g u).2 = false) ∧
    (∃ (sd : Side) (f : Frame) (lq : LineQ) (g : Frame) (s : State) (t : State) (u : State), g = (arrived f lq).1 ∧ t = hopState sd f lq s ∧
      u = cutCopy (otherSide sd) g (cutAt g t) t ∧ Arrives sd f lq s ∧ g.cls ≠ 6 ∧ g.dest < 0xFC ∧ g.dest ≠ t.chain.pos ∧ g.orig ≠ t.chain.pos ∧
      passes t (otherSide sd) g = true ∧ (cutsThrough t (otherSide sd) g && credited (port t (otherSide sd)) g) = false) ∧
    (∃ (sd : Side) (f : Frame) (lq : LineQ) (g : Frame) (s : State) (t : State) (u : State), g = (arrived f lq).1 ∧ t = hopState sd f lq s ∧
      u = cutCopy (otherSide sd) g (cutAt g t) t ∧ Arrives sd f lq s ∧ g.cls ≠ 6 ∧ g.dest < 0xFC ∧ g.dest ≠ t.chain.pos ∧ g.orig ≠ t.chain.pos ∧
      passes t (otherSide sd) g = true ∧ (cutsThrough t (otherSide sd) g && credited (port t (otherSide sd)) g) = true) :=
  ⟨⟨.north, frm 2 8 1 0 (List.replicate 10 0), .ok, _, onChain, _, _, rfl, rfl, rfl, by unfold Arrives; unfold IsFor; decide +kernel⟩,
   ⟨.north, frm 2 9 1 0 (List.replicate 9 0), .ok, _, onChain, _, _, rfl, rfl, rfl, by unfold Arrives; unfold IsFor; decide +kernel⟩,
   ⟨.north, frm 2 10 1 0 (List.replicate 0 0), .ok, _, onChain, _, _, rfl, rfl, rfl, by unfold Arrives; unfold IsFor; decide +kernel⟩,
   ⟨.north, frm 2 11 1 0 (List.replicate 3 0), .ok, _, onChain, _, _, rfl, rfl, rfl, by unfold Arrives; unfold IsFor; decide +kernel⟩,
   ⟨.north, frm 2 12 1 0 (List.replicate 0 0), .ok, _, onChain, _, _, rfl, rfl, rfl, by unfold Arrives; unfold IsFor; decide +kernel⟩,
   ⟨.north, frm 2 13 1 0 (List.replicate 0 0), .ok, _, onChain, _, _, rfl, rfl, rfl, by unfold Arrives; unfold IsFor; decide +kernel⟩,
   ⟨.north, frm 2 14 1 0 (List.replicate 0 0), .ok, _, onChain, _, _, rfl, rfl, rfl, by unfold Arrives; unfold IsFor; decide +kernel⟩,
   ⟨.north, { frm 2 8 1 0 (List.replicate 10 0) with seq := 5 }, .ok, _, { onChain with chain.rx := [rx1] }, _, _,
     .commandFrame .north ({ frm 2 8 1 0 (List.replicate 10 0) with seq := 5 }) .ok, rfl, rfl, rfl, by simp,
     by unfold Arrives; unfold IsFor; decide +kernel⟩,
   ⟨.north, frm 2 9 0 0 (List.replicate 9 0), .ok, _, onChain, _, _, rfl, rfl, rfl, by unfold Arrives; decide +kernel⟩,
   ⟨.north, frm 2 9 0 0 (List.replicate 9 0), .ok, _, { onChain with clk := 100000, chain.south.lineEnd := some 0 }, _, _, rfl, rfl, rfl,
     by unfold Arrives; decide +kernel⟩⟩

/-- States that meet the hypotheses of `Obligations.LinkAndStreamRows` (LinkLosses), clause by clause. -/
theorem test_meets_LinkLosses :
    (∃ (sd : Side) (s : State), chainOn s = true ∧ portUp (port s sd) = true) ∧
    (∃ (sd : Side) (s : State), (chainOn s = false ∨ portUp (port s sd) = false)) ∧
    (∃ (sd : Side) (s : State), chainOn s = true ∧ portUp (port s sd) = true ∧ (port s sd).healDue.isSome = true ∧ s.chain.addr = true ∧ s.chain.n ≠ 0) ∧
    (∃ (sd : Side) (s : State), chainOn s = true ∧ portUp (port s sd) = true ∧ (port s sd).healDue.isSome = true ∧ (s.chain.addr = false ∨ s.chain.n = 0)) ∧
    (∃ (sd : Side) (s : State), (port s sd).healDue = none) ∧
    (∃ (s : State), s.chain.enumWaitTop = true ∧ s.sys.anchor = false) ∧
    (∃ (s : State), s.chain.enumWaitTop = true ∧ s.sys.anchor = true ∧ s.chain.enumBusy = true) ∧
    (∃ (s : State), s.chain.enumWaitTop = true ∧ s.sys.anchor = true ∧ s.chain.enumBusy = false) ∧
    (∃ (s : State), s.chain.enumWaitTop = false) ∧
    (∃ (s : State), s.chain.enumBusy = true ∧ s.chain.enumTries < 3) ∧
    (∃ (h : Fin 4) (q : Nat) (s : State) (t : State),
      t = { s with chain.enumBusy := false, chain.enumWaitTop := false, chain.n := 0, chain.ring := .notEnumerated, chain.enumBy := none } ∧
      s.chain.enumBusy = true ∧ 3 ≤ s.chain.enumTries ∧ s.chain.enumBy = some (h, q) ∧ s.chain.ring = .notEnumerated) ∧
    (∃ (h : Fin 4) (q : Nat) (s : State) (t : State),
      t = { s with chain.enumBusy := false, chain.enumWaitTop := false, chain.n := 0, chain.ring := .notEnumerated, chain.enumBy := none } ∧
      s.chain.enumBusy = true ∧ 3 ≤ s.chain.enumTries ∧ s.chain.enumBy = some (h, q) ∧ s.chain.ring ≠ .notEnumerated) ∧
    (∃ (s : State), s.chain.enumBusy = false) :=
  ⟨⟨.north, onChain, by decide +kernel⟩,
   ⟨.north, awake, by decide +kernel⟩,
   ⟨.north, { onChain with chain.north.healDue := some 0, chain.addr := true, chain.n := 1 }, by decide +kernel⟩,
   ⟨.north, { onChain with chain.north.healDue := some 0, chain.addr := false }, by decide +kernel⟩,
   ⟨.north, { awake with chain.north.healDue := none }, by decide +kernel⟩,
   ⟨{ awake with chain.enumWaitTop := true, sys.anchor := false }, by decide +kernel⟩,
   ⟨{ awake with chain.enumWaitTop := true, sys.anchor := true, chain.enumBusy := true }, by decide +kernel⟩,
   ⟨{ awake with chain.enumWaitTop := true, sys.anchor := true, chain.enumBusy := false }, by decide +kernel⟩,
   ⟨{ awake with chain.enumWaitTop := false }, by decide +kernel⟩,
   ⟨{ awake with chain.enumBusy := true }, by decide +kernel⟩,
   ⟨0, 5, { onChain with chain.enumBusy := true, chain.enumTries := 3, chain.enumBy := some (0, 5), chain.ring := .notEnumerated }, _, rfl,
     by decide +kernel⟩,
   ⟨0, 5,
     { { onChain with chain.enumBusy := true, chain.enumTries := 3, chain.enumBy := some (0, 5), chain.ring := .notEnumerated } with chain.enumBusy := true, chain.enumBy := some ((0), (5)), chain.ring := .closed },
     _, rfl, by decide +kernel⟩,
   ⟨{ awake with chain.enumBusy := false }, by decide +kernel⟩⟩

/-- States that meet the hypotheses of `Obligations.LinkAndStreamRows` (StreamRows), clause by clause. -/
theorem test_meets_StreamRows :
    (∃ (orig : Nat) (multi : Bool) (cls : Nat) (twin : Bool) (r : RxStream) (s : State), rxGet orig multi cls twin s = some r ∧ r.unackedRx ≠ 0) ∧
    (∃ (orig : Nat) (multi : Bool) (cls : Nat) (twin : Bool) (s : State), (∀ r, rxGet orig multi cls twin s = some r → r.unackedRx = 0)) ∧
    (∃ (orig : Nat) (multi : Bool) (cls : Nat) (twin : Bool) (r : RxStream) (s : State), rxGet orig multi cls twin s = some r ∧ r.gap = true) ∧
    (∃ (orig : Nat) (multi : Bool) (cls : Nat) (twin : Bool) (s : State), (∀ r, rxGet orig multi cls twin s = some r → r.gap = false)) ∧
    (∃ (dest : Nat) (multi : Bool) (cls : Nat) (twin : Bool) (s : State) (x : TxStream), x = txGet s dest multi cls twin ∧
      s.chain.tx.any (txIs dest multi cls twin) = true ∧ (multi && (x.unacked.take x.sent).any (fun f => x.back.contains f.seq)) = false ∧ x.sent ≠ 0) ∧
    (∃ (dest : Nat) (multi : Bool) (cls : Nat) (twin : Bool) (s : State) (x : TxStream), x = txGet s dest multi cls twin ∧
      s.chain.tx.any (txIs dest multi cls twin) = true ∧ (multi && (x.unacked.take x.sent).any (fun f => x.back.contains f.seq)) = false ∧ x.sent = 0) ∧
    (∃ (dest : Nat) (cls : Nat) (twin : Bool) (s : State) (x : TxStream), x = txGet s dest true cls twin ∧
      s.chain.tx.any (txIs dest true cls twin) = true ∧ (x.unacked.take x.sent).any (fun f => x.back.contains f.seq) = true) ∧
    (∃ (dest : Nat) (multi : Bool) (cls : Nat) (twin : Bool) (s : State), s.chain.tx.any (txIs dest multi cls twin) = false) ∧
    (∃ (peer : Fin 24) (a : Nat) (d : List Byte) (l : List (Nat × List Byte)) (s : State), s.chain.ring ≠ .closed ∧
      (nth s.verm.peers peer.val {}).firsts = (a, d) :: l) ∧
    (∃ (peer : Fin 24) (a : Nat) (d : List Byte) (l : List (Nat × List Byte)) (s : State), s.chain.ring = .closed ∧
      (nth s.verm.peers peer.val {}).firsts = (a, d) :: l ∧ s.verm.missRow < 2) ∧
    (∃ (peer : Fin 24) (a : Nat) (d : List Byte) (l : List (Nat × List Byte)) (s : State), s.chain.ring = .closed ∧
      (nth s.verm.peers peer.val {}).firsts = (a, d) :: l ∧ 2 ≤ s.verm.missRow) ∧
    (∃ (peer : Fin 24) (s : State), (nth s.verm.peers peer.val {}).firsts = []) ∧
    (∃ (s : State), rf s.regs.chainCfg 1 1 ≠ 0 ∧ chainOn s = true) ∧
    (∃ (p : Nat) (c : Nat) (parity : Bool) (s : State) (l : List (Option (Nat × Nat))), parity = true ∧
      l = ((if parity then some (p % 64, c % 16) else none) :: s.chain.hbWords).take 128 ∧ rf s.regs.chainCfg 1 1 ≠ 0 ∧ chainOn s = true ∧
      2 ≤ l.count (some (p % 64, c % 16))) ∧
    (∃ (p : Nat) (c : Nat) (parity : Bool) (s : State) (l : List (Option (Nat × Nat))),
      l = ((if parity then some (p % 64, c % 16) else none) :: s.chain.hbWords).take 128 ∧ rf s.regs.chainCfg 1 1 ≠ 0 ∧ chainOn s = true) ∧
    (∃ (high : Nat) (len : Nat) (s : State) (l : List Nat), l = (dutyClass high len :: s.chain.hbDuty).take 16 ∧ rf s.regs.chainCfg 1 1 ≠ 0 ∧
      chainOn s = true ∧ l.take 2 = [2, 2]) ∧
    (∃ (high : Nat) (len : Nat) (s : State) (l : List Nat), l = (dutyClass high len :: s.chain.hbDuty).take 16 ∧ rf s.regs.chainCfg 1 1 ≠ 0 ∧
      chainOn s = true ∧ l.take 2 ≠ [2, 2] ∧ wordOf l = none) ∧
    (∃ (high : Nat) (len : Nat) (s : State) (l : List Nat) (p : Nat) (c : Nat) (ok : Bool), l = (dutyClass high len :: s.chain.hbDuty).take 16 ∧
      rf s.regs.chainCfg 1 1 ≠ 0 ∧ chainOn s = true ∧ l.take 2 ≠ [2, 2] ∧ wordOf l = some (p, c, ok)) ∧
    (∃ (s : State), (rf s.regs.chainCfg 1 1 = 0 ∨ chainOn s = false)) :=
  ⟨⟨3, false, 2, false, rx1, { onChain with chain.rx := [rx1] }, by decide +kernel⟩,
   ⟨0, false, 0, false, awake, (fun _ h => nomatch h)⟩,
   ⟨3, false, 2, false, rx1, { onChain with chain.rx := [rx1] }, by decide +kernel⟩,
   ⟨0, false, 0, false, awake, (fun _ h => nomatch h)⟩,
   ⟨3, false, 2, false, { onChain with chain.tx := [tx1 1] }, _, rfl, by decide +kernel⟩,
   ⟨3, false, 2, false, { onChain with chain.tx := [tx1 0] }, _, rfl, by decide +kernel⟩,
   ⟨3, 1, false, { onChain with chain.tx := [{ tx1 1 with multi := true, cls := 1, back := [0], unacked := [{ frm 1 11 3 0 [] with seq := 0 }] }] }, _,
     rfl, by decide +kernel⟩,
   ⟨0, false, 0, false, awake, by decide +kernel⟩,
   ⟨0, 0, [], [], { awake with verm.peers := [{ firsts := [(0, [])] }] }, by decide +kernel⟩,
   ⟨0, 0, [], [], { { awake with verm.peers := [{ firsts := [(0, [])] }] } with chain.ring := .closed }, by decide +kernel⟩,
   ⟨0, 0, [], [], { onChain with verm.missRow := 2, verm.peers := [{ firsts := [(0, [])] }] }, by decide +kernel⟩,
   ⟨0, awake, by decide +kernel⟩,
   ⟨{ awake with regs.chainCfg := (State.reset.regs.chainCfg &&& ~~~2) ||| 2 }, by decide +kernel⟩,
   ⟨3, 5, _, { onChain with regs.chainCfg := 2, chain.hbWords := [(3, 5)] }, _, rfl, rfl, by decide +kernel⟩,
   ⟨0, 0, false, { awake with regs.chainCfg := (State.reset.regs.chainCfg &&& ~~~2) ||| 2 }, _, rfl, by decide +kernel⟩,
   ⟨5000, 10000, { onChain with regs.chainCfg := 2, chain.hbDuty := [2] }, _, rfl, by decide +kernel⟩,
   ⟨0, 0, { awake with regs.chainCfg := (State.reset.regs.chainCfg &&& ~~~2) ||| 2 }, _, rfl, by decide +kernel⟩,
   ⟨0, 10000, { onChain with regs.chainCfg := 2, chain.hbDuty := [1, 1, 1, 1, 1, 1, 1, 1, 1, 1, 1, 3, 3, 3, 3] }, _, 0, 0, true, rfl, by decide +kernel⟩,
   ⟨{ awake with regs.chainCfg := 0 }, by decide +kernel⟩⟩

/-- States that meet the hypotheses of `Obligations.TimeRows`, clause by clause. -/
theorem test_meets_TimeRows :
    (∃ (frac : Nat) (high : Nat) (v : Int) (s : State),
      ((∃ a n, s.time.armed = some (a, n) ∧ s.time.armedThisTick = false ∧ v = ((a * 1000000000 + n : Nat) : Int) * 16) ∨ ((s.time.armed = none ∨ s.time.armedThisTick = true) ∧ v = nearestSec (captured frac s) * 16000000000)) ∧
      timeOn s = true ∧ s.sys.anchor = true ∧ syncEn s = true ∧ 1000 ≤ high ∧ edgeOk s = true) ∧
    (∃ (high : Nat) (s : State), timeOn s = true ∧ s.sys.anchor = true ∧ syncEn s = true ∧ 1000 ≤ high ∧ edgeOk s = false) ∧
    (∃ (high : Nat) (s : State), (timeOn s = false ∨ s.sys.anchor = false ∨ syncEn s = false ∨ high < 1000)) ∧
    (∃ (s : State), s.time.armed.isSome = true) ∧
    (∃ (s : State), s.time.armed = none) ∧
    (∃ (s : State), timeOn s = true ∧ s.sys.anchor = true ∧ (s.time.st = .locked ∨ s.time.st = .acquiring)) ∧
    (∃ (s : State), (timeOn s = false ∨ s.sys.anchor = false ∨ (s.time.st ≠ .locked ∧ s.time.st ≠ .acquiring))) ∧
    (∃ (s : State), s.time.st = .holdover ∧ s.time.holdLimit = false) ∧
    (∃ (s : State), (s.time.st ≠ .holdover ∨ s.time.holdLimit = true)) ∧
    (∃ (s : State) (f : Frame) (t : State),
      f = mkFrame s 7 0xFF 0x7 20 false false (List.replicate 17 0 ++ le 2 s.time.beaconNum ++ le 1 (b2n (syncEn s))) ∧
      t = { s with time.beaconNum := (s.time.beaconNum + 1) % 65536 } ∧ timeOn s = true ∧ s.sys.anchor = true ∧ s.time.st ≠ .unset ∧
      s.chain.ring = .closed) ∧
    (∃ (s : State) (f : Frame) (t : State),
      f = mkFrame s 7 0xFF 0x7 20 false false (List.replicate 17 0 ++ le 2 s.time.beaconNum ++ le 1 (b2n (syncEn s))) ∧
      t = { s with time.beaconNum := (s.time.beaconNum + 1) % 65536 } ∧ timeOn s = true ∧ s.sys.anchor = true ∧ s.time.st ≠ .unset ∧
      s.chain.ring ≠ .closed ∧ portUp s.chain.north = false) ∧
    (∃ (s : State) (f : Frame) (t : State),
      f = mkFrame s 7 0xFF 0x7 20 false false (List.replicate 17 0 ++ le 2 s.time.beaconNum ++ le 1 (b2n (syncEn s))) ∧
      t = { s with time.beaconNum := (s.time.beaconNum + 1) % 65536 } ∧ timeOn s = true ∧ s.sys.anchor = true ∧ s.time.st ≠ .unset ∧
      s.chain.ring ≠ .closed ∧ portUp s.chain.north = true) ∧
    (∃ (s : State), (timeOn s = false ∨ s.sys.anchor = false ∨ s.time.st = .unset)) ∧
    (∃ (s : State), timeOn s = true ∧ s.sys.anchor = false ∧ s.time.st ≠ .unset) ∧
    (∃ (s : State), (timeOn s = false ∨ s.sys.anchor = true ∨ s.time.st = .unset)) ∧
    (∃ (sd : Side) (s : State) (n : Nat) (t : State), n = ((hopDelay s sd).reqNum + 1) % 65536 ∧
      t = (if (hopDelay s sd).t1.isSome then discardResult sd s else s) ∧ timeOn s = true ∧ portUp (port s sd) = true) ∧
    (∃ (sd : Side) (s : State) (n : Nat) (t : State), n = ((hopDelay s sd).reqNum + 1) % 65536 ∧
      t = (if (hopDelay s sd).t1.isSome then discardResult sd s else s) ∧ timeOn s = true ∧ portUp (port s sd) = false) ∧
    (∃ (s : State), timeOn s = false) ∧
    (∃ (now : Nat) (d : Int) (s : State) (t : State), umbTalks s = true ∧ s.time.st ≠ .unset ∧ now = s.time.sec.toNat * 1000000000 + s.time.ns ∧
      d = (now : Int) - (s.umber.tNs : Int) ∧
      ((-2000000000 ≤ d ∧ d ≤ 2000000000 ∧ t = { s with umber.timeOk := true, umber.tstate := s.time.st.code, umber.slew := d, umber.flags := if metering s = true ∧ 100000000 < |d| then s.umber.flags ||| 1024 else s.umber.flags }) ∨ (d < -2000000000 ∧ t = raiseUmb 0x91 0 (stepBackward now { s with umber.timeOk := true, umber.tstate := s.time.st.code })) ∨ (2000000000 < d ∧ t = raiseUmb 0x91 0 (stepForward now { s with umber.timeOk := true, umber.tstate := s.time.st.code })))) ∧
    (∃ (s : State), (umbTalks s = false ∨ s.time.st = .unset)) :=
  ⟨⟨0, 1000, 0, { onChain with sys.anchor := true, time.firstEdge := true }, .inr ⟨.inl rfl, rfl⟩, by decide +kernel⟩,
   ⟨1000, { awake with sys.anchor := true }, by decide +kernel⟩,
   ⟨0, awake, by decide +kernel⟩,
   ⟨{ awake with time.armed := some 0 }, by decide +kernel⟩,
   ⟨{ awake with time.armed := none }, by decide +kernel⟩,
   ⟨{ awake with sys.anchor := true, time.st := .locked }, by decide +kernel⟩,
   ⟨awake, by decide +kernel⟩,
   ⟨{ awake with time.st := .holdover, time.holdLimit := false }, by decide +kernel⟩,
   ⟨{ awake with time.st := .unset }, by decide +kernel⟩,
   ⟨{ awake with sys.anchor := true, time.st := .free, chain.ring := .closed }, _, _, rfl, rfl, by decide +kernel⟩,
   ⟨{ awake with sys.anchor := true, time.st := .free, chain.ring := .notEnumerated }, _, _, rfl, rfl, by decide +kernel⟩,
   ⟨{ onChain with sys.anchor := true, time.st := .free, chain.ring := .notEnumerated }, _, _, rfl, rfl, by decide +kernel⟩,
   ⟨awake, by decide +kernel⟩,
   ⟨{ awake with sys.anchor := false, time.st := .free }, by decide +kernel⟩,
   ⟨awake, by decide +kernel⟩,
   ⟨.north, onChain, _, _, rfl, rfl, by decide +kernel⟩,
   ⟨.north, awake, _, _, rfl, rfl, by decide +kernel⟩,
   ⟨asleep, by decide +kernel⟩,
   ⟨0, 0, { awake with time.st := .locked, time.sec := 0, umber.tNs := 0 },
     { { awake with time.st := .locked, time.sec := 0, umber.tNs := 0 } with umber.timeOk := true, umber.tstate := ({ awake with time.st := .locked, time.sec := 0, umber.tNs := 0 }).time.st.code, umber.slew := 0, umber.flags := if metering { awake with time.st := .locked, time.sec := 0, umber.tNs := 0 } = true ∧ 100000000 < |(0 : Int)| then ({ awake with time.st := .locked, time.sec := 0, umber.tNs := 0 }).umber.flags ||| 1024 else ({ awake with time.st := .locked, time.sec := 0, umber.tNs := 0 }).umber.flags },
     by decide +kernel⟩,
   ⟨awake, by decide +kernel⟩⟩

/-- States that meet the hypotheses of `Obligations.TimeRows` (TimeFrames), clause by clause. -/
theorem test_meets_TimeFrames :
    (∃ (sd : Side) (f : Frame) (lq : LineQ) (g : Frame) (frac : Nat) (s : State) (t : State) (residence : Nat) (old : Nat) (b : Nat → Frame) (u : State),
      g = (arrived f lq).1 ∧ t = hopState sd f lq s ∧ old = field g.body 11 4 + (hopDelay s sd).delay ∧
      u = (forwardAs sd (b old) (b (old + residence)) (some (localFine s (- sinceSd g) frac)) t).1 ∧
      (∀ c, b c = { g with body := slice g.body 0 11 ++ le 4 (c % 2 ^ 32) ++ slice g.body 15 5 }) ∧ (hopIn sd g (arrived f lq).2 s).2 = true ∧
      g.kind = 7 ∧ field g.body 0 1 = 0 ∧ g.plen = 20 ∧ s.sys.anchor = false ∧ (s.chain.addr = false ∨ g.orig ≠ s.chain.pos) ∧
      (hopDelay s sd).unusable = false ∧ timeStOf (field g.body 15 1) ≠ .unset ∧ bestPath sd (field g.body 17 2) g.hops s = true) ∧
    (∃ (sd : Side) (f : Frame) (lq : LineQ) (g : Frame) (frac : Nat) (s : State) (t : State) (residence : Nat) (old : Nat) (b : Nat → Frame) (u : State),
      g = (arrived f lq).1 ∧ t = hopState sd f lq s ∧ old = field g.body 11 4 + (hopDelay s sd).delay ∧
      u = (forwardAs sd (b old) (b (old + residence)) (some (localFine s (- sinceSd g) frac)) t).1 ∧
      (∀ c, b c = { g with body := slice g.body 0 11 ++ le 4 (c % 2 ^ 32) ++ slice g.body 15 5 }) ∧ (hopIn sd g (arrived f lq).2 s).2 = true ∧
      g.kind = 7 ∧ field g.body 0 1 = 0 ∧ g.plen = 20 ∧ s.sys.anchor = false ∧ (s.chain.addr = false ∨ g.orig ≠ s.chain.pos) ∧
      ((hopDelay s sd).unusable = true ∨ timeStOf (field g.body 15 1) = .unset ∨ bestPath sd (field g.body 17 2) g.hops s = false)) ∧
    (∃ (sd : Side) (f : Frame) (lq : LineQ) (g : Frame) (s : State) (t : State), g = (arrived f lq).1 ∧ t = hopState sd f lq s ∧
      (hopIn sd g (arrived f lq).2 s).2 = true ∧ g.kind = 7 ∧ field g.body 0 1 = 0 ∧ g.plen = 20 ∧
      (s.sys.anchor = true ∨ (s.chain.addr = true ∧ g.orig = s.chain.pos))) ∧
    (∃ (sd : Side) (f : Frame) (lq : LineQ) (g : Frame) (s : State) (t : State), g = (arrived f lq).1 ∧ t = hopState sd f lq s ∧
      (hopIn sd g (arrived f lq).2 s).2 = true ∧ g.kind = 7 ∧ field g.body 0 1 = 1 ∧ g.dest = 0xFC) ∧
    (∃ (sd : Side) (f : Frame) (lq : LineQ) (g : Frame) (frac : Nat) (t1 : Int) (s : State) (t : State) (d : Int), g = (arrived f lq).1 ∧
      t = hopState sd f lq s ∧ d = divFree (localFine s (- sinceSd g) frac - t1 - field g.body 3 4) 2 ∧ (hopIn sd g (arrived f lq).2 s).2 = true ∧
      g.kind = 7 ∧ field g.body 0 1 = 2 ∧ g.dest = 0xFC ∧ field g.body 1 2 = (hopDelay s sd).reqNum ∧ (hopDelay s sd).t1 = some t1 ∧ 0 ≤ d ∧ d ≤ 3200) ∧
    (∃ (sd : Side) (f : Frame) (lq : LineQ) (g : Frame) (frac : Nat) (t1 : Int) (s : State) (t : State) (d : Int), g = (arrived f lq).1 ∧
      t = hopState sd f lq s ∧ d = divFree (localFine s (- sinceSd g) frac - t1 - field g.body 3 4) 2 ∧ (hopIn sd g (arrived f lq).2 s).2 = true ∧
      g.kind = 7 ∧ field g.body 0 1 = 2 ∧ g.dest = 0xFC ∧ field g.body 1 2 = (hopDelay s sd).reqNum ∧ (hopDelay s sd).t1 = some t1 ∧
      (d < 0 ∨ 3200 < d)) ∧
    (∃ (sd : Side) (f : Frame) (lq : LineQ) (g : Frame) (s : State) (t : State), g = (arrived f lq).1 ∧ t = hopState sd f lq s ∧
      (hopIn sd g (arrived f lq).2 s).2 = true ∧ g.kind = 7 ∧
      (field g.body 0 1 ≠ 2 ∨ g.dest ≠ 0xFC ∨ field g.body 1 2 ≠ (hopDelay s sd).reqNum ∨ (hopDelay s sd).t1 = none)) :=
  ⟨⟨.north, frm 7 7 0xFF 20 [0, 0, 0, 0, 0, 0, 0, 0, 0, 0, 0, 0, 0, 0, 0, 3, 0, 1, 0, 1], .ok, _, 0, { onChain with time.hopN := { unusable := false } },
     _, 0, _,
     fun c => { (arrived (frm 7 7 0xFF 20 [0, 0, 0, 0, 0, 0, 0, 0, 0, 0, 0, 0, 0, 0, 0, 3, 0, 1, 0, 1]) .ok).1 with body := slice (arrived (frm 7 7 0xFF 20 [0, 0, 0, 0, 0, 0, 0, 0, 0, 0, 0, 0, 0, 0, 0, 3, 0, 1, 0, 1]) .ok).1.body 0 11 ++ le 4 (c % 2 ^ 32) ++ slice (arrived (frm 7 7 0xFF 20 [0, 0, 0, 0, 0, 0, 0, 0, 0, 0, 0, 0, 0, 0, 0, 3, 0, 1, 0, 1]) .ok).1.body 15 5 },
     _, rfl, rfl, rfl, rfl, (fun _ => rfl), by decide +kernel⟩,
   ⟨.north, frm 7 7 0xFF 20 [0, 0, 0, 0, 0, 0, 0, 0, 0, 0, 0, 0, 0, 0, 0, 3, 0, 1, 0, 1], .ok, _, 0, { onChain with time.hopN := { unusable := true } },
     _, 0, _,
     fun c => { (arrived (frm 7 7 0xFF 20 [0, 0, 0, 0, 0, 0, 0, 0, 0, 0, 0, 0, 0, 0, 0, 3, 0, 1, 0, 1]) .ok).1 with body := slice (arrived (frm 7 7 0xFF 20 [0, 0, 0, 0, 0, 0, 0, 0, 0, 0, 0, 0, 0, 0, 0, 3, 0, 1, 0, 1]) .ok).1.body 0 11 ++ le 4 (c % 2 ^ 32) ++ slice (arrived (frm 7 7 0xFF 20 [0, 0, 0, 0, 0, 0, 0, 0, 0, 0, 0, 0, 0, 0, 0, 3, 0, 1, 0, 1]) .ok).1.body 15 5 },
     _, rfl, rfl, rfl, rfl, (fun _ => rfl), by decide +kernel⟩,
   ⟨.north, frm 7 7 0xFF 20 ([0, 0, 0, 0, 0, 0, 0, 0, 0, 0, 0, 0, 0, 0, 0, 3, 0, 1, 0, 1]), .ok, _,
     { { onChain with chain.addr := false } with sys.anchor := true }, _, rfl, rfl, by decide +kernel⟩,
   ⟨.north, frm 7 7 0xFC 3 [1, 4, 0], .ok, _, onChain, _, rfl, rfl, by decide +kernel⟩,
   ⟨.north, frm 7 7 0xFC 7 [2, 4, 0, 0, 0, 0, 0], .ok, _, 0, -437000, { onChain with time.hopN := { reqNum := 4, t1 := some (-437000) } }, _, _, rfl,
     rfl, rfl, by decide +kernel⟩,
   ⟨.north, frm 7 7 0xFC 7 [2, 4, 0, 0, 0, 0, 0], .ok, _, 0, 0, { onChain with time.hopN := { reqNum := 4, t1 := some 0 } }, _, _, rfl, rfl, rfl,
     by decide +kernel⟩,
   ⟨.north, frm 7 7 0xFF 20 ([0, 0, 0, 0, 0, 0, 0, 0, 0, 0, 0, 0, 0, 0, 0, 3, 0, 1, 0, 1]), .ok, _, { onChain with chain.addr := false }, _, rfl, rfl,
     by decide +kernel⟩⟩

/-- States that meet the hypotheses of `Obligations.CellRows`, clause by clause. -/
theorem test_meets_CellRows :
    (∃ (s : State), measuring s = true ∧ s.cell.mainSkip ≠ 0) ∧
    (∃ (ins : List CellIn) (s : State) (t : State),
      t = noteRange (maskOf 16 fun k => cellUsed s k && bitN (readingOf ins s.cell.mainRec k).2.1 0) (maskOf 16 fun k => cellUsed s k && bitN (readingOf ins s.cell.mainRec k).2.1 1) (mainResults ins s) ∧
      measuring s = true ∧ s.cell.mainSkip = 0) ∧
    (∃ (s : State), measuring s = true ∧ s.cell.limSkip = 0 ∧ s.cell.ow = none ∧ s.watch.owDue = false ∧ proofPhase s 10 31 = false) ∧
    (∃ (s : State), measuring s = true ∧ s.cell.limSkip = 0 ∧ s.cell.ow = none ∧ s.watch.owDue = false ∧ proofPhase s 10 31 = true) ∧
    (∃ (o : Owt) (s : State), measuring s = true ∧ s.cell.limSkip = 0 ∧ s.cell.ow = some o) ∧
    (∃ (s : State), measuring s = true ∧ s.cell.limSkip ≠ 0) ∧
    (∃ (s : State), measuring s = true) ∧
    (∃ (pin : Fin 17) (s : State), measuring s = true ∧ s.cell.clamp.getLsbD pin.val = false) ∧
    (∃ (pin : Fin 17) (s : State), s.cell.clamp.getLsbD pin.val = true) ∧
    (∃ (s : State), s.sys.powered = true ∧ s.sys.mode = .active ∧ sumSkipped s = false ∧ 1500000 < |usedSum s - 10000 * (s.sys.vstk10mV.toNat : Int)| ∧
      (s.cell.sumBad = 0 ∨ s.cell.sumErr = true)) ∧
    (∃ (s : State), s.sys.powered = true ∧ s.sys.mode = .active ∧ sumSkipped s = false ∧ 1500000 < |usedSum s - 10000 * (s.sys.vstk10mV.toNat : Int)| ∧
      s.cell.sumBad ≠ 0 ∧ s.cell.sumErr = false) ∧
    (∃ (s : State), s.sys.powered = true ∧ s.sys.mode = .active ∧ sumSkipped s = false ∧ |usedSum s - 10000 * (s.sys.vstk10mV.toNat : Int)| ≤ 1500000) ∧
    (∃ (s : State), (s.sys.powered = false ∨ s.sys.mode ≠ .active ∨ sumSkipped s = true)) ∧
    (∃ (s : State), measuring s = false) :=
  ⟨⟨{ awake with cell.mainSkip := 1 }, by decide +kernel⟩,
   ⟨[], { awake with cell.mainSkip := 0 }, _, rfl, by decide +kernel⟩,
   ⟨{ awake with cell.limSkip := 0, cell.ow := none, watch.owDue := false }, by decide +kernel⟩,
   ⟨{ awake with clk := 1500000, watch.pst := .running, cell.limSkip := 0, watch.owDue := false }, by decide +kernel⟩,
   ⟨{ phase := 0, left := 0, refs := [], clamped := 0, judged := 0, fails := 0 },
     { awake with cell.limSkip := 0, cell.ow := some { phase := 0, left := 0, refs := [], clamped := 0, judged := 0, fails := 0 } },
     by decide +kernel⟩,
   ⟨{ awake with cell.limSkip := 1 }, by decide +kernel⟩,
   ⟨awake, by decide +kernel⟩,
   ⟨0, { awake with cell.clamp := 0 }, by decide +kernel⟩,
   ⟨0, { awake with cell.clamp := (-1) }, by decide +kernel⟩,
   ⟨{ { awake with cell.sumBad := 1, sys.vstk10mV := 5000 } with sys.powered := true, sys.mode := .active, cell.sumBad := 0 }, by decide +kernel⟩,
   ⟨{ awake with cell.sumBad := 1, sys.vstk10mV := 5000 }, by decide +kernel⟩,
   ⟨{ awake with sys.powered := true, sys.mode := .active }, by decide +kernel⟩,
   ⟨{ awake with sys.powered := false }, by decide +kernel⟩,
   ⟨asleep, by decide +kernel⟩⟩

/-- States that meet the hypotheses of `Obligations.CurrentAndAuxRows`, clause by clause. -/
theorem test_meets_CurrentAndAuxRows :
    (∃ (uv : List Nat) (v : Nat) (s : State) (t : State) (e : Nat → List Byte) (r : RingSt × State × Bool), e = auxEntry t (auxInstant t) ∧
      t = auxConvert uv v s ∧ r = ringEntry t.regs.auxRbCfg 32 1 e t.cell.auxRing t ∧ measuring s = true) ∧
    (∃ (s : State), s.cell.vtrefBad = true) ∧
    (∃ (s : State), s.cell.vtrefBad = false) ∧
    (∃ (nv : Int) (s : State) (v : Int) (f : Nat), v = (localCurrent nv s).1 ∧ f = (localCurrent nv s).2.1 + currentStamp s ∧ measuring s = true ∧
      bitN (blk s 0x01 1) 3 = false) ∧
    (∃ (s : State) (v : Int) (f : Nat), v = s.cell.remote.1 ∧
      f = (s.cell.remote.2.toNat &&& 0x0B) ||| 4 ||| (if remoteIsStale s then 8 else 0) ||| currentStamp s ∧ measuring s = true ∧
      bitN (blk s 0x01 1) 3 = true) ∧
    (∃ (s : State), measuring s = true) ∧
    (∃ (s : State), bitN (blk s 0x01 1) 3 = true ∧ s.cell.isnsFlags.getLsbD 3 = false) ∧
    (∃ (s : State), bitN (blk s 0x01 1) 3 = true ∧ s.cell.isnsFlags.getLsbD 3 = true) ∧
    (∃ (s : State), bitN (blk s 0x01 1) 3 = false) ∧
    (∃ (stream : Byte) (x : StreamSt) (s : State) (i : Nat), i = (s.cell.streams.findIdx fun x => x.code == stream.toNat) ∧ s.cell.streams[i]? = some x ∧
      x.buf.isEmpty = false ∧ x.slots ≠ 0) ∧
    (∃ (stream : Byte) (x : StreamSt) (s : State) (i : Nat), i = (s.cell.streams.findIdx fun x => x.code == stream.toNat) ∧ s.cell.streams[i]? = some x ∧
      (x.buf.isEmpty = true ∨ x.slots = 0)) ∧
    (∃ (stream : Byte) (s : State), s.cell.streams[s.cell.streams.findIdx fun x => x.code == stream.toNat]? = none) ∧
    (∃ (s : State), measuring s = false) :=
  ⟨⟨[], 0, awake, _, _, _, rfl, rfl, rfl, by decide +kernel⟩,
   ⟨{ awake with cell.vtrefBad := true }, by decide +kernel⟩,
   ⟨{ awake with cell.vtrefBad := false }, by decide +kernel⟩,
   ⟨0, awake, _, _, rfl, rfl, by decide +kernel⟩,
   ⟨{ awake with verm.block := State.reset.verm.block.set 1 8 }, _, _, rfl, rfl, by decide +kernel⟩,
   ⟨awake, by decide +kernel⟩,
   ⟨{ awake with verm.block := State.reset.verm.block.set 1 8 }, by decide +kernel⟩,
   ⟨{ { awake with verm.block := State.reset.verm.block.set 1 8 } with cell.isnsFlags := (-1) }, by decide +kernel⟩,
   ⟨awake, by decide +kernel⟩,
   ⟨0x11, { code := 0x11, buf := [[0]], slots := 1 }, { awake with cell.streams := [{ code := 0x11, buf := [[0]], slots := 1 }] }, _, rfl,
     by decide +kernel⟩,
   ⟨0x11, { code := 0x11 }, { awake with cell.streams := [{ code := 0x11 }] }, _, rfl, by decide +kernel⟩,
   ⟨0, awake, by decide +kernel⟩,
   ⟨asleep, by decide +kernel⟩⟩

/-- States that meet the hypotheses of `Obligations.BalanceRows`, clause by clause. -/
theorem test_meets_BalanceRows :
    (∃ (x : Stim) (s : State), measuring s = true ∧ s.bal.stim = some x ∧ x.running = false ∧ x.t0 ≤ counterNs s) ∧
    (∃ (s : State), (measuring s = false ∨ s.bal.stim = none)) ∧
    (∃ (x : Stim) (s : State), s.bal.stim = some x ∧ (x.running = true ∨ counterNs s < x.t0)) ∧
    (∃ (x : Stim) (s : State), s.bal.stim = some x ∧ x.running = true ∧ x.sweep = false) ∧
    (∃ (s : State), (∀ x, s.bal.stim = some x → x.running = false ∨ x.sweep = true)) ∧
    (∃ (s : State), rf s.regs.balCfg 15 8 ≠ 0 ∧ s.bal.onT.all (· == 0) = false) ∧
    (∃ (s : State), (rf s.regs.balCfg 15 8 = 0 ∨ s.bal.onT.all (· == 0) = true)) ∧
    (∃ (ch : Fin 16) (s : State), nth s.bal.diag ch.val .untested = .ok) ∧
    (∃ (ch : Fin 16) (s : State), nth s.bal.diag ch.val .untested ≠ .ok) ∧
    (∃ (s : State), measuring s = true ∧ balExternal s = true ∧ rf s.regs.balCfg 31 24 ≠ 0) ∧
    (∃ (s : State), (measuring s = false ∨ balExternal s = false ∨ rf s.regs.balCfg 31 24 = 0)) ∧
    (∃ (s : State), measuring s = true ∧ s.bal.inPeriod = false) ∧
    (∃ (s : State), measuring s = true ∧ s.bal.inPeriod = true ∧ balExternal s = true) ∧
    (∃ (s : State), measuring s = true ∧ s.bal.inPeriod = true ∧ balExternal s = false) ∧
    (∃ (s : State), measuring s = false) :=
  ⟨⟨{ stim1 with running := false }, { awake with bal.stim := some { stim1 with running := false } }, by decide +kernel⟩,
   ⟨awake, by decide +kernel⟩,
   ⟨stim1, { awake with bal.stim := some (stim1) }, by decide +kernel⟩,
   ⟨stim1, { awake with bal.stim := some (stim1) }, by decide +kernel⟩,
   ⟨awake, (fun _ h => nomatch h)⟩,
   ⟨{ awake with bal.onT := [4] }, by decide +kernel⟩,
   ⟨{ awake with regs.balCfg := (State.reset.regs.balCfg &&& ~~~65280) ||| 0 }, by decide +kernel⟩,
   ⟨0, { awake with bal.diag := List.replicate 16 (.ok) }, by decide +kernel⟩,
   ⟨0, { awake with bal.diag := List.replicate 16 (.untested) }, by decide +kernel⟩,
   ⟨{ awake with regs.balCfg := 0x3C323C03 }, by decide +kernel⟩,
   ⟨awake, by decide +kernel⟩,
   ⟨{ awake with bal.inPeriod := false }, by decide +kernel⟩,
   ⟨{ { awake with regs.balCfg := 0x3C323C03 } with bal.inPeriod := true }, by decide +kernel⟩,
   ⟨{ awake with bal.inPeriod := true }, by decide +kernel⟩,
   ⟨asleep, by decide +kernel⟩⟩

/-- States that meet the hypotheses of `Obligations.ScalarRows`, clause by clause. -/
theorem test_meets_ScalarRows :
    (∃ (e : Engine) (s : State), Issued e .nop 1 s) ∧
    (∃ (e : Engine) (s : State) (d : Fin 16) (k : BitVec 18), Issued e (.li d k) 1 s) ∧
    (∃ (e : Engine) (s : State) (d : Fin 16) (k : BitVec 18), Issued e (.lih d k) 1 s) ∧
    (∃ (e : Engine) (s : State) (d : Fin 16) (a : Fin 16) (k : BitVec 18), Issued e (.addi d a k) 1 s) ∧
    (∃ (e : Engine) (s : State) (d : Fin 16) (a : Fin 16) (b : Fin 16) (op : Fin 12), Issued e (.sop d a b op) 1 s) ∧
    (∃ (e : Engine) (s : State) (d : Fin 16) (a : Fin 16) (k : BitVec 18) (ecc : Ecc), Issued e (.lds d a k) 3 s ∧
      accessFault s e false (scalarAddr e a k s % 4 == 0) (scalarAddr e a k s) [(scalarAddr e a k s, 4)] ecc.bad = none) ∧
    (∃ (e : Engine) (s : State) (d : Fin 16) (a : Fin 16) (k : BitVec 18), Issued e (.sts d a k) 3 s ∧
      accessFault s e true (scalarAddr e a k s % 4 == 0) (scalarAddr e a k s) [(scalarAddr e a k s, 4)] [] = none) ∧
    (∃ (e : Engine) (s : State) (d : Fin 16) (a : Fin 16), Issued e (.stw d a true) 1 s) ∧
    (∃ (e : Engine) (s : State) (d : Fin 16) (a : Fin 16), Issued e (.stw d a false) 1 s) ∧
    (∃ (e : Engine) (s : State) (d : Fin 16) (a : Fin 16) (aux : Bool), Issued e (.ring d a false aux) 1 s) ∧
    (∃ (e : Engine) (s : State) (d : Fin 16) (a : Fin 16) (aux : Bool), Issued e (.ring d a true aux) 1 s) :=
  ⟨⟨.te, teAt (.nop), by unfold Issued; decide +kernel⟩,
   ⟨.te, teAt (.li 1 5), 1, 5, by unfold Issued; decide +kernel⟩,
   ⟨.te, teAt (.lih 1 5), 1, 5, by unfold Issued; decide +kernel⟩,
   ⟨.te, teAt (.addi 1 2 5), 1, 2, 5, by unfold Issued; decide +kernel⟩,
   ⟨.te, teAt (.sop 1 2 3 0), 1, 2, 3, 0, by unfold Issued; decide +kernel⟩,
   ⟨.te, { teAt (.lds 1 2 8) with indigo.te.page := 0xFFFFFFFF }, 1, 2, 8, { corr := [], bad := [] }, by unfold Issued; decide +kernel⟩,
   ⟨.te, { teAt (.sts 1 2 8) with indigo.te.page := 0xFFFFFFFF }, 1, 2, 8, by unfold Issued; decide +kernel⟩,
   ⟨.te, teAt (.stw 1 2 true), 1, 2, by unfold Issued; decide +kernel⟩,
   ⟨.te, teAt (.stw 1 2 false), 1, 2, by unfold Issued; decide +kernel⟩,
   ⟨.te, teAt (.ring 1 2 false true), 1, 2, true, by unfold Issued; decide +kernel⟩,
   ⟨.te, teAt (.ring 1 2 true true), 1, 2, true, by unfold Issued; decide +kernel⟩⟩

/-- States that meet the hypotheses of `Obligations.ScalarRows` (ControlRows), clause by clause. -/
theorem test_meets_ControlRows :
    (∃ (e : Engine) (s : State) (c : Fin 7) (a : Fin 16) (b : Fin 16) (t : BitVec 11), Issued e (.br c a b t) 3 s ∧
      condHolds c (scalar (eng s e) a) (scalar (eng s e) b) = true ∧ t.toNat < (eng s e).prog.length) ∧
    (∃ (e : Engine) (s : State) (c : Fin 7) (a : Fin 16) (b : Fin 16) (t : BitVec 11), Issued e (.br c a b t) 1 s ∧
      condHolds c (scalar (eng s e) a) (scalar (eng s e) b) = false) ∧
    (∃ (e : Engine) (s : State) (count : BitVec 11) (last : BitVec 11), Issued e (.loopi count last) 1 s ∧ count ≠ 0 ∧ (eng s e).lc0 = none ∧
      (eng s e).lc1 = none ∧ (eng s e).pc < last.toNat ∧ last.toNat < (eng s e).prog.length) ∧
    (∃ (e : Engine) (a : Fin 16) (last : BitVec 11) (s : State) (l : Loop), Issued e (.loopr a last) 1 s ∧ 1 ≤ (scalar (eng s e) a).toNat ∧
      (scalar (eng s e) a).toNat ≤ 65535 ∧ (eng s e).lc0 = some l ∧ (eng s e).lc1 = none ∧ last.toNat ≤ l.last ∧ (eng s e).pc < last.toNat ∧
      last.toNat < (eng s e).prog.length) ∧
    (∃ (e : Engine) (s : State) (a : Fin 16), Issued e (.endK a) 2 s) ∧
    (∃ (e : Engine) (s : State) (w : Word), (eng s e).st = .running ∧ serviceSlot (eng s e).slot = false ∧ (eng s e).prog[(eng s e).pc]? = some w ∧
      decodeI e w = none) :=
  ⟨⟨.te, teAt (.br 0 2 3 2), 0, 2, 3, 2, by unfold Issued; decide +kernel⟩,
   ⟨.te, teAt (.br 2 2 3 2), 2, 2, 3, 2, by unfold Issued; decide +kernel⟩,
   ⟨.te, teAt (.loopi 4 2), 4, 2, by unfold Issued; decide +kernel⟩,
   ⟨.te, 2, 2,
     { awake with indigo.te := { runs [encodeI (.loopr 2 2), 0, 0, 0] with a := [0, 0, 5], lc0 := some { count := 2, first := 0, last := 3 } } },
     { count := 2, first := 0, last := 3 }, by unfold Issued; decide +kernel⟩,
   ⟨.te, teAt (.endK 2), 2, by unfold Issued; decide +kernel⟩,
   ⟨.te, { awake with indigo.te := runs [0xFFFFFFFF] }, 0xFFFFFFFF, by decide +kernel⟩⟩

/-- States that meet the hypotheses of `Obligations.TileMoveRows`, clause by clause. -/
theorem test_meets_TileMoveRows :
    (∃ (s : State) (d : Fin 16) (p : BitVec 10), Issued .te (.tshp d p) 1 s ∧
      shapeValid (bits p.toNat 1 0) (bits p.toNat 5 2 + 1) (bits p.toNat 9 6 + 1) = true) ∧
    (∃ (s : State) (d : Fin 16) (a : Fin 16) (b : Fin 16) (p : BitVec 10),
      Issued .te (.tld d a b p) (moveCost ((bits p.toNat 5 2 + 1) * (bits p.toNat 9 6 + 1) * tySize (bits p.toNat 1 0))) s ∧
      shapeValid (bits p.toNat 1 0) (bits p.toNat 5 2 + 1) (bits p.toNat 9 6 + 1) = true ∧
      accessFault s .te false (tileAligned (bits p.toNat 1 0) (scalar s.indigo.te a).toNat (scalar s.indigo.te b).toNat) (scalar s.indigo.te a).toNat (tileRuns (bits p.toNat 1 0) (bits p.toNat 5 2 + 1) (bits p.toNat 9 6 + 1) (scalar s.indigo.te a).toNat (scalar s.indigo.te b).toNat) [] = none) ∧
    (∃ (s : State) (d : Fin 16) (a : Fin 16) (b : Fin 16) (t : Tile),
      Issued .te (.tst d a b) (moveCost (t.rows * t.cols * tySize t.ty) + (readTiles [d] s).1) s ∧ tile s d = some t ∧
      accessFault s .te true (tileAligned t.ty (scalar s.indigo.te a).toNat (scalar s.indigo.te b).toNat) (scalar s.indigo.te a).toNat (tileRuns t.ty t.rows t.cols (scalar s.indigo.te a).toNat (scalar s.indigo.te b).toNat) [] = none) ∧
    (∃ (s : State) (d : Fin 16) (a : Fin 16) (t : Tile), Issued .te (.tmov d a) (2 + (readTiles [a] s).1) s ∧ tile s a = some t) ∧
    (∃ (s : State) (d : Fin 16) (a : Fin 16) (row : Fin 16) (col : Fin 16) (t : Tile), Issued .te (.tget d a row col) (2 + (readTiles [a] s).1) s ∧
      tile s a = some t ∧ row.val < t.rows ∧ col.val < t.cols) ∧
    (∃ (s : State) (d : Fin 16) (a : Fin 16) (row : Fin 16) (col : Fin 16) (t : Tile), Issued .te (.tput d a row col) (2 + (readTiles [d] s).1) s ∧
      tile s d = some t ∧ row.val < t.rows ∧ col.val < t.cols) ∧
    (∃ (s : State) (a : Fin 16) (t : Tile), Issued .te (.txs a) (8 + (readTiles [a] s).1) s ∧ tile s a = some t ∧ s.indigo.ts.length < 2) ∧
    (∃ (s : State) (d : Fin 16) (l : List Nat) (rest : List (List Nat)), Issued .te (.txr d) 8 s ∧ s.indigo.st = l :: rest ∧ l.length ≤ 128) :=
  ⟨⟨teAt (.tshp 1 0x41), 1, 0x41, by unfold Issued; decide +kernel⟩,
   ⟨{ teAt (.tld 1 2 3 0x41) with indigo.te.page := 0xFFFFFFFF }, 1, 2, 3, 0x41, by unfold Issued; decide +kernel⟩,
   ⟨{ teAt (.tst 1 2 3) with indigo.te.page := 0xFFFFFFFF }, 1, 2, 3, { ty := 1, rows := 1, cols := 2, elems := [1, 2] },
     by unfold Issued; decide +kernel⟩,
   ⟨teAt (.tmov 3 1), 3, 1, { ty := 1, rows := 1, cols := 2, elems := [1, 2] }, by unfold Issued; decide +kernel⟩,
   ⟨teAt (.tget 3 1 0 1), 3, 1, 0, 1, { ty := 1, rows := 1, cols := 2, elems := [1, 2] }, by unfold Issued; decide +kernel⟩,
   ⟨teAt (.tput 1 3 0 1), 1, 3, 0, 1, { ty := 1, rows := 1, cols := 2, elems := [1, 2] }, by unfold Issued; decide +kernel⟩,
   ⟨teAt (.txs 1), 1, { ty := 1, rows := 1, cols := 2, elems := [1, 2] }, by unfold Issued; decide +kernel⟩,
   ⟨{ teAt (.txr 1) with indigo.st := [[1, 2]] }, 1, [1, 2], [], by unfold Issued; decide +kernel⟩⟩

/-- States that meet the hypotheses of `Obligations.TileArithmeticRows`, clause by clause. -/
theorem test_meets_TileArithmeticRows :
    (∃ (s : State) (d : Fin 16) (a : Fin 16) (b : Fin 16) (op : Fin 5) (x : Tile) (y : Tile), tile s a = some x ∧ tile s b = some y ∧ x.ty = y.ty ∧
      x.rows = y.rows ∧ x.cols = y.cols ∧ Issued .te (.tew d a b op) (2 + (readTiles [a, b] s).1) s) ∧
    (∃ (s : State) (d : Fin 16) (a : Fin 16) (c : Fin 16) (op : Fin 3) (x : Tile), tile s a = some x ∧
      Issued .te (.tews d a c op) (2 + (readTiles [a] s).1) s) ∧
    (∃ (s : State) (d : Fin 16) (a : Fin 16) (b : Fin 16) (op : Fin 3) (x : Tile) (y : Tile) (z : Tile), tile s a = some x ∧ tile s b = some y ∧
      x.cols = y.rows ∧ x.ty = y.ty ∧ shapeValid (productTy op x) x.rows y.cols = true ∧ (op = 2 → tile s d = some z) ∧ z.ty = productTy op x ∧
      z.rows = x.rows ∧ z.cols = y.cols ∧
      Issued .te (.tmm d a b op) (2 + (x.rows * x.cols * y.cols + macRate x.ty - 1) / macRate x.ty + (readTiles (productReads op d a b) s).1) s) ∧
    (∃ (s : State) (d : Fin 16) (a : Fin 16) (x : Tile), tile s a = some x ∧ shapeValid x.ty x.cols x.rows = true ∧
      Issued .te (.ttr d a) (6 + (readTiles [a] s).1) s) ∧
    (∃ (s : State) (d : Fin 16) (a : Fin 16) (ty : Fin 4) (ex : Byte) (x : Tile), tile s a = some x ∧ shapeValid ty x.rows x.cols = true ∧
      Issued .te (.tcvt d a ty ex) (2 + (readTiles [a] s).1) s) ∧
    (∃ (s : State) (d : Fin 16) (a : Fin 16) (x : Tile), tile s a = some x ∧ Issued .te (.tred d a 0) (4 + (readTiles [a] s).1) s) ∧
    (∃ (s : State) (d : Fin 16) (a : Fin 16) (x : Tile), tile s a = some x ∧ Issued .te (.tred d a 1) (4 + (readTiles [a] s).1) s) ∧
    (∃ (s : State) (d : Fin 16) (a : Fin 16) (x : Tile), tile s a = some x ∧ Issued .te (.tred d a 2) (4 + (readTiles [a] s).1) s) ∧
    (∃ (s : State) (d : Fin 16) (a : Fin 16) (x : Tile), tile s a = some x ∧ Issued .te (.tred d a 3) (4 + (readTiles [a] s).1) s) ∧
    (∃ (s : State) (d : Fin 16) (a : Fin 16) (c : Fin 16) (op : Fin 5) (x : Tile), tile s a = some x ∧ x.ty = 1 ∧
      Issued .te (.tunpk d a c op) (2 + (readTiles [a] s).1) s) :=
  ⟨⟨teAt (.tew 3 1 2 0), 3, 1, 2, 0, { ty := 1, rows := 1, cols := 2, elems := [1, 2] }, { ty := 1, rows := 1, cols := 2, elems := [3, 4] },
     by unfold Issued; decide +kernel⟩,
   ⟨teAt (.tews 3 1 5 0), 3, 1, 5, 0, { ty := 1, rows := 1, cols := 2, elems := [1, 2] }, by unfold Issued; decide +kernel⟩,
   ⟨{ awake with indigo.te := { runs [encodeI (.tmm 3 1 1 0), 0] with tiles := [none, some { ty := 1, rows := 1, cols := 1, elems := [1] }] } }, 3, 1, 1,
     0, { ty := 1, rows := 1, cols := 1, elems := [1] }, { ty := 1, rows := 1, cols := 1, elems := [1] },
     { ty := productTy 0 { ty := 1, rows := 1, cols := 1, elems := [1] }, rows := 1, cols := 1, elems := [1] }, by unfold Issued; decide +kernel⟩,
   ⟨teAt (.ttr 3 1), 3, 1, { ty := 1, rows := 1, cols := 2, elems := [1, 2] }, by unfold Issued; decide +kernel⟩,
   ⟨teAt (.tcvt 3 1 3 0), 3, 1, 3, 0, { ty := 1, rows := 1, cols := 2, elems := [1, 2] }, by unfold Issued; decide +kernel⟩,
   ⟨teAt (.tred 3 1 0), 3, 1, { ty := 1, rows := 1, cols := 2, elems := [1, 2] }, by unfold Issued; decide +kernel⟩,
   ⟨teAt (.tred 3 1 1), 3, 1, { ty := 1, rows := 1, cols := 2, elems := [1, 2] }, by unfold Issued; decide +kernel⟩,
   ⟨teAt (.tred 3 1 2), 3, 1, { ty := 1, rows := 1, cols := 2, elems := [1, 2] }, by unfold Issued; decide +kernel⟩,
   ⟨teAt (.tred 3 1 3), 3, 1, { ty := 1, rows := 1, cols := 2, elems := [1, 2] }, by unfold Issued; decide +kernel⟩,
   ⟨teAt (.tunpk 3 1 5 0), 3, 1, 5, 0, { ty := 1, rows := 1, cols := 2, elems := [1, 2] }, by unfold Issued; decide +kernel⟩⟩

/-- States that meet the hypotheses of `Obligations.SpectralRows`, clause by clause. -/
theorem test_meets_SpectralRows :
    (∃ (s : State) (d : Fin 8) (len : BitVec 9), Issued .se (.sshp d len) 1 s) ∧
    (∃ (s : State) (d : Fin 8) (a : Fin 16) (len : BitVec 9), Issued .se (.sld d a len) (moveCost (4 * (len.toNat + 1))) s ∧
      accessFault s .se false ((scalar s.indigo.se a).toNat % 4 == 0) (scalar s.indigo.se a).toNat [((scalar s.indigo.se a).toNat, 4 * (len.toNat + 1))] [] = none) ∧
    (∃ (s : State) (d : Fin 8) (a : Fin 16) (l : List Nat), spec s d = some l ∧ Issued .se (.sst d a) (moveCost (4 * l.length)) s ∧
      accessFault s .se true ((scalar s.indigo.se a).toNat % 4 == 0) (scalar s.indigo.se a).toNat [((scalar s.indigo.se a).toNat, 4 * l.length)] [] = none) ∧
    (∃ (s : State) (d : Fin 8) (a : Fin 8) (b : Fin 8) (op : Fin 4) (x : List Nat) (y : List Nat), spec s a = some x ∧ spec s b = some y ∧
      x.length = y.length ∧ Issued .se (.sew d a b op) (2 + (x.length + 3) / 4) s) ∧
    (∃ (s : State) (d : Fin 8) (a : Fin 8) (c : Fin 16) (x : List Nat), spec s a = some x ∧ Issued .se (.sscl d a c) (2 + (x.length + 3) / 4) s) ∧
    (∃ (s : State) (d : Fin 15) (a : Fin 8) (b : Fin 8) (h : Fin 16) (x : List Nat) (y : List Nat), spec s a = some x ∧ spec s b = some y ∧
      x.length = y.length ∧ Issued .se (.sdot d a b h) (3 + (x.length + 3) / 4) s) ∧
    (∃ (s : State) (d : Fin 8) (a : Fin 8) (inverse : Bool) (x : List Nat), spec s a = some x ∧ [4, 8, 16, 32, 64, 128, 256].contains x.length = true ∧
      Issued .se (.sfft d a inverse) (4 + (x.length * Nat.log2 x.length + 7) / 8) s) ∧
    (∃ (s : State) (d : Fin 16) (a : Fin 8) (idx : Byte) (x : List Nat), spec s a = some x ∧ idx.toNat < x.length ∧ Issued .se (.sget d a idx) 2 s) ∧
    (∃ (s : State) (d : Fin 8) (a : Fin 16) (idx : Byte) (x : List Nat), spec s d = some x ∧ idx.toNat < x.length ∧ Issued .se (.sput d a idx) 2 s) ∧
    (∃ (s : State) (a : Fin 8) (x : List Nat), spec s a = some x ∧ s.indigo.st.length < 2 ∧ Issued .se (.sxs a) 8 s) ∧
    (∃ (s : State) (d : Fin 8) (rows : Nat) (cols : Nat) (el : List Nat) (rest : List (Nat × Nat × Nat × List Nat)),
      s.indigo.ts = (0, rows, cols, el) :: rest ∧ rows * cols ≤ 256 ∧ Issued .se (.sxr d) 8 s) :=
  ⟨⟨seAt (.sshp 1 255), 1, 255, by unfold Issued; decide +kernel⟩,
   ⟨{ seAt (.sld 1 2 3) with indigo.se.page := 0xFFFFFFFF }, 1, 2, 3, by unfold Issued; decide +kernel⟩,
   ⟨{ seAt (.sst 1 2) with indigo.se.page := 0xFFFFFFFF }, 1, 2, [1, 2, 3, 4], by unfold Issued; decide +kernel⟩,
   ⟨seAt (.sew 3 1 2 0), 3, 1, 2, 0, [1, 2, 3, 4], [5, 6, 7, 8], by unfold Issued; decide +kernel⟩,
   ⟨seAt (.sscl 3 1 2), 3, 1, 2, [1, 2, 3, 4], by unfold Issued; decide +kernel⟩,
   ⟨seAt (.sdot 3 1 2 0), 3, 1, 2, 0, [1, 2, 3, 4], [5, 6, 7, 8], by unfold Issued; decide +kernel⟩,
   ⟨seAt (.sfft 3 1 true), 3, 1, true, [1, 2, 3, 4], by unfold Issued; decide +kernel⟩,
   ⟨seAt (.sget 3 1 3), 3, 1, 3, [1, 2, 3, 4], by unfold Issued; decide +kernel⟩,
   ⟨seAt (.sput 1 3 3), 1, 3, 3, [1, 2, 3, 4], by unfold Issued; decide +kernel⟩,
   ⟨seAt (.sxs 1), 1, [1, 2, 3, 4], by unfold Issued; decide +kernel⟩,
   ⟨{ seAt (.sxr 1) with indigo.ts := [(0, 1, 2, [1, 2])] }, 1, 1, 2, [1, 2], [], by unfold Issued; decide +kernel⟩⟩

/-- States that meet the hypotheses of `Obligations.SweepAndEngineRows` (EngineRows), clause by clause. -/
theorem test_meets_EngineRows :
    (∃ (e : Engine) (s : State) (code : List Word) (u : State),
      code = (if resident e (eng s e).slot s then (eng s e).prog else imageCode s (eng s e).slot) ∧
      u = setEng e (fun g => { g with st := .running, prog := code, progSlot := some g.slot, pc := g.entryIdx, cycles := 0, status := 0, lc0 := none, lc1 := none, a := (List.range 16).map (fun i => if i < 4 then nth g.pendingArgs i 0 else 0), tiles := List.replicate 16 none, spec := List.replicate 8 none, cache := [], page := s.regs.indigoPage }) s ∧
      s.indigo.selfTest = false ∧ (eng s e).st = .loading ∧ (eng s e).pendingResume = false ∧ serviceSlot (eng s e).slot = false ∧
      (eng s e).entryIdx < code.length) ∧
    (∃ (e : Engine) (s : State) (code : List Word) (u : State),
      code = (if resident e (eng s e).slot s then (eng s e).prog else imageCode s (eng s e).slot) ∧
      u = setEng e (fun g => { g with st := .running, prog := code, progSlot := some g.slot, pc := g.entryIdx, cycles := 0, status := 0, lc0 := none, lc1 := none, a := (List.range 16).map (fun i => if i < 4 then nth g.pendingArgs i 0 else 0), tiles := List.replicate 16 none, spec := List.replicate 8 none, cache := [], page := s.regs.indigoPage }) s ∧
      s.indigo.selfTest = false ∧ (eng s e).st = .loading ∧ (eng s e).pendingResume = false ∧ serviceSlot (eng s e).slot = false ∧
      code.length ≤ (eng s e).entryIdx) ∧
    (∃ (e : Engine) (s : State), s.indigo.selfTest = false ∧ (eng s e).st = .loading ∧ (eng s e).pendingResume = false ∧ serviceSlot (eng s e).slot = true) ∧
    (∃ (e : Engine) (s : State), s.indigo.selfTest = false ∧ (eng s e).st = .loading ∧ (eng s e).pendingResume = true ∧ contextOk e s = true ∧
      serviceSlot (eng (startEngine e s) e).slot = false ∧ (eng (startEngine e s) e).pc < (eng (startEngine e s) e).prog.length) ∧
    (∃ (e : Engine) (s : State), s.indigo.selfTest = false ∧ (eng s e).st = .loading ∧ (eng s e).pendingResume = true ∧ contextOk e s = true ∧
      serviceSlot (eng (startEngine e s) e).slot = false ∧ (eng (startEngine e s) e).prog.length ≤ (eng (startEngine e s) e).pc) ∧
    (∃ (e : Engine) (s : State) (u : State), u = setEng e (fun g => { g with st := .suspended, pendingResume := false }) s ∧ s.indigo.selfTest = false ∧
      (eng s e).st = .loading ∧ (eng s e).pendingResume = true ∧ contextOk e s = false) ∧
    (∃ (e : Engine) (s : State), s.indigo.selfTest = false ∧ (eng s e).st ≠ .loading) ∧
    (∃ (e : Engine) (s : State) (u : State), u = triggerCounted e s ∧ Triggered e s ∧ triggerLaunches e s = false) ∧
    (∃ (e : Engine) (s : State) (u : State), u = triggerCounted e s ∧ Triggered e s ∧ triggerLaunches e s = true ∧ s.indigo.selfTest = true) ∧
    (∃ (e : Engine) (s : State) (u : State), u = triggerCounted e s ∧ Triggered e s ∧ triggerLaunches e s = true ∧ s.indigo.selfTest = false ∧
      (eng s e).st = .idle) ∧
    (∃ (e : Engine) (s : State) (u : State), u = triggerCounted e s ∧ Triggered e s ∧ triggerLaunches e s = true ∧ s.indigo.selfTest = false ∧
      (eng s e).st ≠ .idle) ∧
    (∃ (e : Engine) (s : State) (n : Nat) (u : State), n = max (eng s e).cycles (eng s e).budget ∧
      u = takeFault e 8 (eng s e).pc (n / 1024) (setEng e (fun g => { g with cycles := n }) s) ∧ (eng s e).st = .running ∧
      (e = .te ∨ (eng s e).slot ≠ 0x81)) ∧
    (∃ (e : Engine) (s : State) (n : Nat) (u : State), n = max (eng s e).cycles (eng s e).budget ∧
      u = takeFault e 8 (eng s e).pc (n / 1024) (setEng e (fun g => { g with cycles := n }) s) ∧ (eng s e).st = .running ∧ e = .se ∧
      (eng s e).slot = 0x81) ∧
    (∃ (e : Engine) (s : State), (eng s e).st ≠ .running) ∧
    (∃ (s : State), s.sweep.st = .fitting ∧ s.indigo.te.st = .idle ∧ s.indigo.off = false ∧ measuring s = true) ∧
    (∃ (s : State), (s.sweep.st ≠ .fitting ∨ s.indigo.te.st ≠ .idle ∨ s.indigo.off = true ∨ measuring s = false)) :=
  ⟨⟨.te, { awake with indigo.te := { runs [0, 0] with st := .loading, progSlot := some 0 } }, _, _, rfl, rfl, by decide +kernel⟩,
   ⟨.te, { awake with indigo.selfTest := false, indigo.te.st := .loading, indigo.te.pendingResume := false }, _, _, rfl, rfl, by decide +kernel⟩,
   ⟨.te, { awake with indigo.te := { runs [0] with st := .loading, slot := 0x80 } }, by decide +kernel⟩,
   ⟨.te,
     { awake with indigo.valid := 1, indigo.store := [(0, 1), (2, 1)], indigo.pad := [(0, 1), (3, 1)], regs.ctxTe := 0, indigo.te := { runs [0, 0] with st := .loading, pendingResume := true, progSlot := some 0 } },
     by decide +kernel⟩,
   ⟨.te,
     { awake with indigo.valid := 1, indigo.store := [(0, 1), (2, 1)], indigo.pad := [(0, 1), (3, 1)], regs.ctxTe := 0, indigo.te := { runs [] with st := .loading, pendingResume := true, progSlot := some 0 } },
     by decide +kernel⟩,
   ⟨.te, { awake with indigo.selfTest := false, indigo.te.st := .loading, indigo.te.pendingResume := true }, _, rfl, by decide +kernel⟩,
   ⟨.te, { awake with indigo.selfTest := false, indigo.te.st := .idle }, by decide +kernel⟩,
   ⟨.te, { awake with cell.trigCount := (1, 0), regs.trigTe := 1 }, _, rfl, by unfold Triggered; decide +kernel⟩,
   ⟨.te, { { awake with cell.trigCount := (1, 0), regs.trigTe := 1, indigo.valid := 1, indigo.store := [(0, 1), (2, 1)] } with indigo.selfTest := true },
     _, rfl, by unfold Triggered; decide +kernel⟩,
   ⟨.te, { awake with cell.trigCount := (1, 0), regs.trigTe := 1, indigo.valid := 1, indigo.store := [(0, 1), (2, 1)] }, _, rfl,
     by unfold Triggered; decide +kernel⟩,
   ⟨.te,
     { { awake with cell.trigCount := (1, 0), regs.trigTe := 1, indigo.valid := 1, indigo.store := [(0, 1), (2, 1)] } with indigo.selfTest := false, indigo.te.st := .loading },
     _, rfl, by unfold Triggered; decide +kernel⟩,
   ⟨.te, { awake with indigo.te.st := .running }, _, _, rfl, rfl, by decide +kernel⟩,
   ⟨.se, { awake with indigo.se := { runs [0] with slot := 0x81 } }, _, _, rfl, rfl, by decide +kernel⟩,
   ⟨.te, { awake with indigo.te.st := .idle }, by decide +kernel⟩,
   ⟨{ awake with sweep.st := .fitting, indigo.te.st := .idle, indigo.off := false }, by decide +kernel⟩,
   ⟨{ awake with sweep.st := .idle }, by decide +kernel⟩⟩

/-- States that meet the hypotheses of `Obligations.SweepAndEngineRows` (SweepRows), clause by clause. -/
theorem test_meets_SweepRows :
    (∃ (s : State), s.sweep.st = .waiting ∧ s.indigo.se.st = .idle) ∧
    (∃ (s : State), s.sweep.st = .waiting ∧ s.indigo.se.st ≠ .idle) ∧
    (∃ (s : State) (p : Nat × Bool), s.sweep.st = .running ∧ nextPass s = some p ∧ passFault s = none) ∧
    (∃ (s : State) (p : Nat × Bool) (f : Nat × Nat), s.sweep.st = .running ∧ nextPass s = some p ∧ passFault s = some f) ∧
    (∃ (s : State), s.sweep.st = .running ∧ nextPass s = none) ∧
    (∃ (s : State), s.sweep.st ≠ .waiting ∧ s.sweep.st ≠ .running) ∧
    (∃ (s : State), s.sweep.st = .running ∧ nextPass s = none ∧ passFault s = none) ∧
    (∃ (s : State) (f : Nat × Nat), s.sweep.st = .running ∧ nextPass s = none ∧ passFault s = some f) ∧
    (∃ (s : State), (s.sweep.st ≠ .running ∨ nextPass s ≠ none)) ∧
    (∃ (s : State), measuring s = true ∧ stateServiceOn s = true ∧ s.indigo.off = false) ∧
    (∃ (s : State), (measuring s = false ∨ stateServiceOn s = false ∨ s.indigo.off = true)) :=
  ⟨⟨{ awake with sweep.st := .waiting, indigo.se.st := .idle }, by decide +kernel⟩,
   ⟨{ awake with sweep.st := .waiting, indigo.se.st := .loading }, by decide +kernel⟩,
   ⟨{ awake with sweep.st := .running, sweep.mask := 1, sweep.imax := 10, sweep.step := 1, indigo.se.page := 0xFFFFFFFF }, (1, false), by decide +kernel⟩,
   ⟨{ awake with sweep.st := .running, sweep.mask := 1, sweep.imax := 10, sweep.step := 1, regs.indigoRes := 1 }, (1, false), (4, 1), by decide +kernel⟩,
   ⟨{ awake with sweep.st := .running }, by decide +kernel⟩,
   ⟨{ awake with sweep.st := .idle }, by decide +kernel⟩,
   ⟨{ awake with sweep.st := .running }, by decide +kernel⟩,
   ⟨{ awake with sweep.st := .running, sweep.mask := 1, regs.indigoRes := 1 }, (4, 1), by decide +kernel⟩,
   ⟨{ awake with sweep.st := .idle }, by decide +kernel⟩,
   ⟨{ awake with cell.trigCount := (1, 0), regs.trigTe := 0x8001 }, by decide +kernel⟩,
   ⟨awake, by decide +kernel⟩⟩

/-- States that meet the hypotheses of `Obligations.HeatRows`, clause by clause. -/
theorem test_meets_HeatRows :
    (∃ (s : State), measuring s = true) ∧
    (∃ (s : State), measuring s = true ∧ (s.therm.level = .shutdown ∨ s.therm.level = .cooling)) ∧
    (∃ (s : State), measuring s = true ∧ s.therm.level ≠ .shutdown ∧ s.therm.level ≠ .cooling ∧ s.therm.broken = true) ∧
    (∃ (s : State), measuring s = true ∧ s.therm.level = .throttle ∧ s.therm.broken = false ∧ dieFalling s = false) ∧
    (∃ (s : State), measuring s = true ∧ s.therm.level = .throttle ∧ s.therm.broken = false ∧ dieFalling s = true) ∧
    (∃ (s : State), measuring s = true ∧ s.therm.level = .normal ∧ s.therm.broken = false ∧ s.therm.rise = false) ∧
    (∃ (s : State), measuring s = true ∧ s.therm.level = .normal ∧ s.therm.broken = false ∧ s.therm.rise = true) ∧
    (∃ (s : State), measuring s = true ∧ s.therm.grp.contains 3 = true) ∧
    (∃ (s : State), measuring s = true ∧ s.therm.grp.contains 3 = false ∧ packHot s = true) ∧
    (∃ (s : State), measuring s = true ∧ s.therm.grp.contains 3 = false ∧ packHot s = false) ∧
    (∃ (s : State), measuring s = true ∧ 10 ≤ s.therm.xBad) ∧
    (∃ (s : State), s.therm.xBad < 10) ∧
    (∃ (s : State), measuring s = true ∧ s.umber.linkUp = true ∧ s.sys.variant = .m) ∧
    (∃ (s : State), (s.umber.linkUp = false ∨ s.sys.variant = .s)) ∧
    (∃ (s : State), s.therm.latched = false) ∧
    (∃ (s : State), s.therm.latched = true) ∧
    (∃ (s : State) (t : Int) (b : Bool) (i : Instr),
      (i = .dieMeasure t ∨ i = .comparatorTrip ∨ i = .throttleStepTimer b ∨ i = .dieSensorFault b ∨ i = .umberTempRead t ∨ i = .rorEval ∨ i = .thermalReport) ∧
      measuring s = false) :=
  ⟨⟨awake, by decide +kernel⟩,
   ⟨{ awake with therm.level := .shutdown }, by decide +kernel⟩,
   ⟨{ awake with therm.level := .normal, therm.broken := true }, by decide +kernel⟩,
   ⟨{ awake with therm.level := .throttle, therm.broken := false }, by decide +kernel⟩,
   ⟨{ awake with clk := 200000000, therm.level := .throttle, therm.temp := 0, therm.hist := [(0, 100)] }, by decide +kernel⟩,
   ⟨{ awake with therm.level := .normal, therm.broken := false, therm.rise := false }, by decide +kernel⟩,
   ⟨{ awake with therm.level := .normal, therm.broken := false, therm.rise := true }, by decide +kernel⟩,
   ⟨{ awake with therm.grp := [3, 0, 0, 0] }, by decide +kernel⟩,
   ⟨{ awake with therm.grp := [2, 0, 0, 0] }, by decide +kernel⟩,
   ⟨awake, by decide +kernel⟩,
   ⟨{ awake with therm.xBad := 10 }, by decide +kernel⟩,
   ⟨awake, by decide +kernel⟩,
   ⟨{ awake with umber.linkUp := true, sys.variant := .m }, by decide +kernel⟩,
   ⟨{ awake with umber.linkUp := false }, by decide +kernel⟩,
   ⟨{ awake with therm.latched := false }, by decide +kernel⟩,
   ⟨{ awake with therm.latched := true }, by decide +kernel⟩,
   ⟨asleep, 0, false, .dieMeasure (0), .inl rfl, by decide +kernel⟩⟩

/-- States that meet the hypotheses of `Obligations.SensorPortRows`, clause by clause. -/
theorem test_meets_SensorPortRows :
    (∃ (port : Fin 2) (s : State) (cal : Nat) (pulses : List Nat) (ticks : List Nat) (pause : Option Nat) (bad : Bool),
      ticks = pulses.map (pulseTicks cal) ∧
      bad = (ticks.any (fun t => t < 12 || 27 < t) || pulses.length != spNib s port.val + 2 || !(match pause with | some t => rf (spCfg s port.val) 2 2 == 1 && decide (12 ≤ pulseTicks cal t) && decide (pulseTicks cal t ≤ 768) | none => true)) ∧
      spAccepts s port.val = true ∧ calOk s port.val cal = false) ∧
    (∃ (port : Fin 2) (s : State) (cal : Nat) (pulses : List Nat) (ticks : List Nat) (pause : Option Nat) (bad : Bool),
      ticks = pulses.map (pulseTicks cal) ∧
      bad = (ticks.any (fun t => t < 12 || 27 < t) || pulses.length != spNib s port.val + 2 || !(match pause with | some t => rf (spCfg s port.val) 2 2 == 1 && decide (12 ≤ pulseTicks cal t) && decide (pulseTicks cal t ≤ 768) | none => true)) ∧
      spAccepts s port.val = true ∧ calOk s port.val cal = true ∧ bad = true) ∧
    (∃ (port : Fin 2) (s : State) (cal : Nat) (pulses : List Nat) (ticks : List Nat) (pause : Option Nat) (bad : Bool),
      ticks = pulses.map (pulseTicks cal) ∧
      bad = (ticks.any (fun t => t < 12 || 27 < t) || pulses.length != spNib s port.val + 2 || !(match pause with | some t => rf (spCfg s port.val) 2 2 == 1 && decide (12 ≤ pulseTicks cal t) && decide (pulseTicks cal t ≤ 768) | none => true)) ∧
      spAccepts s port.val = true ∧ calOk s port.val cal = true ∧ bad = false ∧
      crc4 (((ticks.map (· - 12)).drop 1).take (spNib s port.val)) ≠ nth (ticks.map (· - 12)) (spNib s port.val + 1) 0) ∧
    (∃ (port : Fin 2) (s : State) (cal : Nat) (pulses : List Nat) (ticks : List Nat) (pause : Option Nat) (bad : Bool),
      ticks = pulses.map (pulseTicks cal) ∧
      bad = (ticks.any (fun t => t < 12 || 27 < t) || pulses.length != spNib s port.val + 2 || !(match pause with | some t => rf (spCfg s port.val) 2 2 == 1 && decide (12 ≤ pulseTicks cal t) && decide (pulseTicks cal t ≤ 768) | none => true)) ∧
      spAccepts s port.val = true ∧ calOk s port.val cal = true ∧ bad = false ∧
      crc4 (((ticks.map (· - 12)).drop 1).take (spNib s port.val)) = nth (ticks.map (· - 12)) (spNib s port.val + 1) 0) ∧
    (∃ (port : Fin 2) (s : State), spAccepts s port.val = true) ∧
    (∃ (port : Fin 2) (s : State) (fmt : Bool) (ident : Byte) (value : BitVec 16) (u : State),
      u = setSp port.val (fun p => { p with esmId := ident.toNat, esmData := value.toNat, esmFmt := fmt }) s ∧ spAccepts s port.val = true ∧
      (fmt = true ∨ (ident ≠ 0x01 ∧ (ident ≠ 0x09 ∨ (spPort s port.val).awaiting = false ∨ requestSent s port.val = false)))) ∧
    (∃ (port : Fin 2) (s : State) (fmt : Bool) (ident : Byte) (value : BitVec 16) (u : State), fmt = false ∧ ident = 0x01 ∧
      u = setSp port.val (fun p => { p with esmId := ident.toNat, esmData := value.toNat, esmFmt := fmt }) s ∧ spAccepts s port.val = true) ∧
    (∃ (port : Fin 2) (s : State) (fmt : Bool) (ident : Byte) (value : BitVec 16) (u : State), fmt = false ∧ value = 0 ∧
      u = setSp port.val (fun p => { p with esmId := ident.toNat, esmData := value.toNat, esmFmt := fmt }) s ∧ spAccepts s port.val = true ∧
      ident = 0x09 ∧ (spPort s port.val).awaiting = true ∧ requestSent s port.val = true) ∧
    (∃ (port : Fin 2) (s : State) (fmt : Bool) (ident : Byte) (value : BitVec 16) (u : State), fmt = false ∧
      u = setSp port.val (fun p => { p with esmId := ident.toNat, esmData := value.toNat, esmFmt := fmt }) s ∧ spAccepts s port.val = true ∧
      ident = 0x09 ∧ (spPort s port.val).awaiting = true ∧ requestSent s port.val = true ∧ value ≠ 0) ∧
    (∃ (port : Fin 2) (s : State), spAccepts s port.val = false) ∧
    (∃ (port : Fin 2) (s : State), measuring s = true ∧ spMode s port.val ≠ 0) ∧
    (∃ (port : Fin 2) (s : State), (measuring s = false ∨ spMode s port.val = 0)) ∧
    (∃ (port : Fin 2) (s : State) (u : State), u = setSp port.val (fun p => { p with stale := true }) s ∧ (spPort s port.val).stale = false ∧
      measuring s = true) ∧
    (∃ (port : Fin 2) (s : State) (u : State), u = setSp port.val (fun p => { p with stale := true }) s ∧ (spPort s port.val).stale = false ∧
      measuring s = false) ∧
    (∃ (port : Fin 2) (s : State), (spPort s port.val).stale = true) ∧
    (∃ (port : Fin 2) (s : State) (u : State), u = setSp port.val (fun p => { p with st := .lineLow, linePwr := false }) s ∧ spListens s port.val = true ∧
      (spPort s port.val).st ≠ .lineLow) ∧
    (∃ (port : Fin 2) (s : State), spListens s port.val = true ∧ (spPort s port.val).st = .lineLow) ∧
    (∃ (port : Fin 2) (s : State), spListens s port.val = false) ∧
    (∃ (port : Fin 2) (s : State), (spPort s port.val).st = .lineLow ∧ spPowers s port.val = true ∧ spListens s port.val = true) ∧
    (∃ (port : Fin 2) (s : State), ((spPort s port.val).st ≠ .lineLow ∨ spPowers s port.val = false ∨ spListens s port.val = false)) ∧
    (∃ (port : Fin 2) (s : State) (u : State), u = setSp port.val (fun p => { p with awaiting := false, satFailed := true }) s ∧
      (spPort s port.val).awaiting = true) ∧
    (∃ (port : Fin 2) (s : State), (spPort s port.val).awaiting = false) :=
  ⟨⟨0, { awake with regs.sp1Cfg := 2, sp1 := { st := .searching, stale := false } }, 0, [], _, none, _, rfl, rfl, by decide +kernel⟩,
   ⟨0, { awake with regs.sp1Cfg := 2, sp1 := { st := .searching, stale := false } }, 16800, [], _, none, _, rfl, rfl, by decide +kernel⟩,
   ⟨0, { awake with regs.sp1Cfg := 2, sp1 := { st := .searching, stale := false } }, 16800, [3600, 3600, 3600 + 300 * ((crc4 [0] + 1) % 16)], _, none, _,
     rfl, rfl, by decide +kernel⟩,
   ⟨0, { awake with regs.sp1Cfg := 2, sp1 := { st := .searching, stale := false } }, 16800, [3600, 3600, 3600 + 300 * crc4 [0]], _, none, _, rfl, rfl,
     by decide +kernel⟩,
   ⟨0, { awake with regs.sp1Cfg := 2, sp1 := { st := .searching, stale := false } }, by decide +kernel⟩,
   ⟨0, { awake with regs.sp1Cfg := 2, sp1 := { st := .searching, stale := false } }, false, 0, 0, _, rfl, by decide +kernel⟩,
   ⟨0, { awake with regs.sp1Cfg := 2, sp1 := { st := .searching, stale := false } }, _, _, 0, _, rfl, rfl, rfl, by decide +kernel⟩,
   ⟨0, { awake with clk := 600000, regs.sp1Cfg := 2, sp1 := { st := .searching, stale := false, awaiting := true, testAt := some 0 } }, _, 9, _, _, rfl,
     rfl, rfl, by decide +kernel⟩,
   ⟨0, { awake with clk := 600000, regs.sp1Cfg := 2, sp1 := { st := .searching, stale := false, awaiting := true, testAt := some 0 } }, _, 9, 1, _, rfl,
     rfl, by decide +kernel⟩,
   ⟨0, awake, by decide +kernel⟩,
   ⟨0, { awake with regs.sp1Cfg := 2, sp1 := { st := .searching, stale := false } }, by decide +kernel⟩,
   ⟨0, awake, by decide +kernel⟩,
   ⟨0, { awake with sp1.stale := false }, _, rfl, by decide +kernel⟩,
   ⟨0, { asleep with sp1.stale := false }, _, rfl, by decide +kernel⟩,
   ⟨0, { awake with sp1.stale := true }, by decide +kernel⟩,
   ⟨0, { awake with regs.sp1Cfg := 2, sp1 := { st := .searching, stale := false } }, _, rfl, by decide +kernel⟩,
   ⟨0, { { awake with regs.sp1Cfg := 2, sp1 := { st := .searching, stale := false } } with sp1.st := .lineLow }, by decide +kernel⟩,
   ⟨0, awake, by decide +kernel⟩,
   ⟨0, { { awake with regs.sp1Cfg := 2, sp1 := { st := .searching, stale := false } } with sp1.st := .lineLow }, by decide +kernel⟩,
   ⟨0, { awake with sp1.st := .off }, by decide +kernel⟩,
   ⟨0, { awake with sp1.awaiting := true }, _, rfl, by decide +kernel⟩,
   ⟨0, { awake with sp1.awaiting := false }, by decide +kernel⟩⟩

/-- States that meet the hypotheses of `Obligations.WatchRows`, clause by clause. -/
theorem test_meets_WatchRows :
    (∃ (s : State), measuring s = true) ∧
    (∃ (s : State), s.sys.sentinelAlarm = true ∧ measuring s = true) ∧
    (∃ (s : State), (s.sys.sentinelAlarm = false ∨ measuring s = false)) ∧
    (∃ (s : State) (c : Fin 6), s.watch.unavail.getLsbD c.val = true) ∧
    (∃ (s : State) (c : Fin 6), (s.watch.unavail.getLsbD c.val = false ∨ stillLearns c s)) ∧
    (∃ (s : State), coreGives s = true) ∧
    (∃ (s : State), coreGives s = false) ∧
    (∃ (port : Fin 2) (sum : Int) (n : Nat) (s : State), nth s.watch.learn port.val true = true ∧ nth s.watch.learnSum port.val (0, 0) = (sum, n) ∧ n ≠ 0) ∧
    (∃ (s : State) (port : Fin 2), (nth s.watch.learn port.val true = false ∨ (nth s.watch.learnSum port.val (0, 0)).2 = 0)) ∧
    (∃ (port : Fin 2) (sum : Int) (n : Nat) (s : State) (base : Rat) (u : State), base = nth s.watch.gasBase port.val 0 ∧
      u = { s with watch.minSum := s.watch.minSum.set port.val (0, 0), watch.minNone := s.watch.minNone.set port.val (s.watch.level == .none) } ∧
      nth s.watch.minSum port.val (0, 0) = (sum, n) ∧ nth s.watch.learn port.val true = false ∧ n ≠ 0 ∧ nth s.watch.minNone port.val false = true ∧
      s.watch.level = .none ∧ (sum : Rat) / (n : Rat) < base + (gThr s : Rat) / 2) ∧
    (∃ (port : Fin 2) (sum : Int) (n : Nat) (s : State) (base : Rat) (u : State), base = nth s.watch.gasBase port.val 0 ∧
      u = { s with watch.minSum := s.watch.minSum.set port.val (0, 0), watch.minNone := s.watch.minNone.set port.val (s.watch.level == .none) } ∧
      nth s.watch.minSum port.val (0, 0) = (sum, n) ∧
      (nth s.watch.learn port.val true = true ∨ n = 0 ∨ nth s.watch.minNone port.val false = false ∨ s.watch.level ≠ .none ∨ base + (gThr s : Rat) / 2 ≤ (sum : Rat) / (n : Rat))) ∧
    (∃ (s : State), measuring s = false) :=
  ⟨⟨awake, by decide +kernel⟩,
   ⟨{ awake with sys.sentinelAlarm := true }, by decide +kernel⟩,
   ⟨{ awake with sys.sentinelAlarm := false }, by decide +kernel⟩,
   ⟨{ awake with watch.unavail := (-1) }, 0, by decide +kernel⟩,
   ⟨{ awake with watch.unavail := 0 }, 0, by unfold stillLearns; decide +kernel⟩,
   ⟨awake, by decide +kernel⟩,
   ⟨asleep, by decide +kernel⟩,
   ⟨0, 0, 1, { awake with watch.learn := List.replicate 16 (true), watch.learnSum := List.replicate 16 (((0), (1))) }, by decide +kernel⟩,
   ⟨{ awake with watch.learn := List.replicate 16 (false) }, 0, by decide +kernel⟩,
   ⟨0, 0, 1,
     { awake with watch.minSum := List.replicate 16 (((0), (1))), watch.learn := List.replicate 16 (false), watch.minNone := List.replicate 16 (true), watch.level := .none },
     _, _, rfl, rfl, by decide +kernel⟩,
   ⟨0, 0, 0, { awake with watch.minSum := List.replicate 16 (((0), (0))), watch.learn := List.replicate 16 (true) }, _, _, rfl, rfl, by decide +kernel⟩,
   ⟨asleep, by decide +kernel⟩⟩

/-- States that meet the hypotheses of `Obligations.ProofRows`, clause by clause. -/
theorem test_meets_ProofRows :
    (∃ (s : State), proofRuns s = false ∧ s.sys.powered = true) ∧
    (∃ (s : State), (proofRuns s = true ∨ s.sys.powered = false)) ∧
    (∃ (s : State) (m : ProofIn) (u : State), u = proofSteps m (proofBegun s) ∧ s.watch.dueSince.isSome = true ∧ proofRuns s = false ∧ proofCause s = 0) ∧
    (∃ (s : State), s.watch.dueSince.isSome = true ∧ proofRuns s = false ∧ proofCause s ≠ 0) ∧
    (∃ (s : State), (s.watch.dueSince = none ∨ proofRuns s = true)) ∧
    (∃ (s : State) (u : State) (failed : Bool) (n : Nat) (v : State), u = reportFailed [6, 7] (finishSat 1 (finishSat 0 s)) ∧
      v = endSelfTest { u with watch.pst := .idle, watch.plast := 2, watch.pnum := n, watch.poverdue := false, watch.pby := [], watch.dueAt := some (s.watch.pstartAt + 3600 * Config.sec) } ∧
      failed = ((List.range 13).any fun k => bits u.watch.pres.toNat (2 * k + 1) (2 * k) == 2) ∧ n = (s.watch.pnum + 1) % 65536 ∧ proofRuns s = true ∧
      s.sp1.awaiting = false ∧ s.sp2.awaiting = false ∧ s.watch.owDue = false ∧ failed = true) ∧
    (∃ (s : State) (u : State) (failed : Bool) (n : Nat) (v : State), u = reportFailed [6, 7] (finishSat 1 (finishSat 0 s)) ∧
      v = endSelfTest { u with watch.pst := .idle, watch.plast := 1, watch.pnum := n, watch.poverdue := false, watch.pby := [] } ∧
      failed = ((List.range 13).any fun k => bits u.watch.pres.toNat (2 * k + 1) (2 * k) == 2) ∧ n = (s.watch.pnum + 1) % 65536 ∧ proofRuns s = true ∧
      s.sp1.awaiting = false ∧ s.sp2.awaiting = false ∧ s.watch.owDue = false ∧ failed = false) ∧
    (∃ (s : State), (proofRuns s = false ∨ s.sp1.awaiting = true ∨ s.sp2.awaiting = true ∨ s.watch.owDue = true)) ∧
    (∃ (s : State), s.watch.pst = .deferred ∧ s.watch.poverdue = false) ∧
    (∃ (s : State), (s.watch.pst ≠ .deferred ∨ s.watch.poverdue = true)) :=
  ⟨⟨{ awake with sys.powered := true }, by decide +kernel⟩,
   ⟨{ awake with sys.powered := false }, by decide +kernel⟩,
   ⟨{ awake with watch.dueSince := some 0 }, soundProof, _, rfl, by decide +kernel⟩,
   ⟨{ asleep with watch.dueSince := some 0 }, by decide +kernel⟩,
   ⟨{ awake with watch.dueSince := none }, by decide +kernel⟩,
   ⟨{ awake with watch.pst := .running, watch.pres := 2 }, _, _, _, _, rfl, rfl, rfl, rfl, by decide +kernel⟩,
   ⟨{ awake with watch.pst := .running, watch.pres := 0x5555555 }, _, _, _, _, rfl, rfl, rfl, rfl, by decide +kernel⟩,
   ⟨awake, by decide +kernel⟩,
   ⟨{ awake with watch.pst := .deferred, watch.poverdue := false }, by decide +kernel⟩,
   ⟨{ awake with watch.pst := .idle }, by decide +kernel⟩⟩

/-- States that meet the hypotheses of `Obligations.SafetyInputRows`, clause by clause. -/
theorem test_meets_SafetyInputRows :
    (∃ (s : State) (k : Fin 4) (chB : Bool) (high : Bool) (n : Nat) (i : InpS),
      i = (if chB then { nth s.verm.inps k.val {} with b := high } else { nth s.verm.inps k.val {} with a := high }) ∧ vermRuns s = true ∧
      levelHeld (inpType s k.val) high n = true ∧ underTest s k.val = false) ∧
    (∃ (s : State) (k : Fin 4) (chB : Bool) (high : Bool) (n : Nat) (i : InpS),
      i = (if chB then { nth s.verm.inps k.val {} with b := high } else { nth s.verm.inps k.val {} with a := high }) ∧ vermRuns s = true ∧
      levelHeld (inpType s k.val) high n = true ∧ underTest s k.val = true) ∧
    (∃ (s : State), vermRuns s = true) ∧
    (∃ (s : State) (k : Fin 4), vermRuns s = true ∧ inpType s k.val ≠ 0 ∧ inpType s k.val < 5 ∧
      disagrees (inpType s k.val) (nth s.verm.inps k.val {}) = true ∧ (nth s.verm.inps k.val {}).st ≠ .cross ∧
      (nth s.verm.inps k.val {}).st ≠ .discrepancy) ∧
    (∃ (s : State) (k : Fin 4),
      (inpType s k.val = 0 ∨ 5 ≤ inpType s k.val ∨ disagrees (inpType s k.val) (nth s.verm.inps k.val {}) = false ∨ (nth s.verm.inps k.val {}).st = .cross ∨ (nth s.verm.inps k.val {}).st = .discrepancy)) ∧
    (∃ (s : State) (ms : Nat) (u : State), (presentA s ≠ 0 ∨ s.verm.newA = true → u = resetFails 1 s) ∧
      (presentA s = 0 → s.verm.newA = false → estopInDemand s = true → u = resetFails 2 s) ∧
      (presentA s = 0 → s.verm.newA = false → estopInDemand s = false → u = resetSucceeds s) ∧ vermRuns s = true ∧ 100 ≤ ms ∧ ms ≤ 3000 ∧
      pulseCounts ms s.verm.armReset s = true ∧ pulseCounts ms s.verm.armUnseal s = false) ∧
    (∃ (s : State) (ms : Nat) (u : State), (presentA s ≠ 0 ∨ s.verm.newA = true → u = resetFails 1 s) ∧
      (presentA s = 0 → s.verm.newA = false → estopInDemand s = true → u = resetFails 2 s) ∧
      (presentA s = 0 → s.verm.newA = false → estopInDemand s = false → u = resetSucceeds s) ∧ vermRuns s = true ∧ 100 ≤ ms ∧ ms ≤ 3000 ∧
      pulseCounts ms s.verm.armReset s = true ∧ pulseCounts ms s.verm.armUnseal s = true) ∧
    (∃ (s : State) (ms : Nat), vermRuns s = true ∧ (ms < 100 ∨ 3000 < ms) ∧ pulseCounts ms s.verm.armReset s = true) ∧
    (∃ (s : State) (ms : Nat), vermRuns s = true ∧ 100 ≤ ms ∧ ms ≤ 3000 ∧ pulseCounts ms s.verm.armReset s = false ∧
      pulseCounts ms s.verm.armUnseal s = true) ∧
    (∃ (s : State) (ms : Nat), pulseCounts ms s.verm.armReset s = false ∧ (pulseCounts ms s.verm.armUnseal s = false ∨ ms < 100 ∨ 3000 < ms)) ∧
    (∃ (s : State) (t : Nat) (u : Option Nat), (∃ v, u = some v ∧ v < t) ∧ s.verm.armReset = some t ∧ s.verm.armUnseal = u) ∧
    (∃ (s : State) (t : Nat) (u : Option Nat), (∀ v, u = some v → t ≤ v) ∧ s.verm.armReset = some t ∧ s.verm.armUnseal = u) ∧
    (∃ (s : State), s.verm.armReset = none) ∧
    (∃ (s : State) (ch : Fin 8) (alive : Byte) (d : List Byte) (crc : Byte) (u : State) (ok : Bool), vermRuns s = true ∧
      aliveCheck ch.val alive.toNat d crc { s with chk.sent := takeSent ch.val s.chk.sent } = (u, ok) ∧ ok = true) ∧
    (∃ (s : State) (ch : Fin 8) (alive : Byte) (d : List Byte) (crc : Byte) (u : State) (ok : Bool), vermRuns s = true ∧
      aliveCheck ch.val alive.toNat d crc { s with chk.sent := takeSent ch.val s.chk.sent } = (u, ok) ∧ ok = false) ∧
    (∃ (s : State), vermRuns s = false) ∧
    (∃ (s : State) (k : Fin 4) (high : Bool) (n : Nat), levelHeld (inpType s k.val) high n = false) ∧
    (∃ (s : State) (k : Fin 4) (b : Bool) (high : Bool) (n : Nat) (levels : List (Bool × Bool)) (ms : Nat) (i : Instr),
      (i = .inputChange k b high n ∨ i = .testPulse b levels ∨ i = .discrepancy k ∨ i = .resetPulse ms) ∧ vermRuns s = false) :=
  ⟨⟨awake, 0, false, false, 48, _, rfl, by decide +kernel⟩,
   ⟨{ awake with clk := 14000000, watch.pst := .running, verm.block := State.reset.verm.block.set 0x14 1 }, 0, false, false, 48, _, rfl,
     by decide +kernel⟩,
   ⟨awake, by decide +kernel⟩,
   ⟨{ awake with verm.block := State.reset.verm.block.set 0x14 1, verm.inps := [{ st := .run, a := true, b := false }, {}, {}, {}] }, 0,
     by decide +kernel⟩,
   ⟨awake, 0, by decide +kernel⟩,
   ⟨{ awake with clk := 400000000, verm.armReset := some 0 }, 100, _, (fun h => absurd h (by decide +kernel)),
     (fun _ _ h => absurd h (by decide +kernel)), (fun _ _ _ => rfl), by decide +kernel⟩,
   ⟨{ awake with clk := 400000000, verm.armReset := some 0, verm.armUnseal := some 0 }, 100, _, (fun h => absurd h (by decide +kernel)),
     (fun _ _ h => absurd h (by decide +kernel)), (fun _ _ _ => rfl), by decide +kernel⟩,
   ⟨{ awake with clk := 400000000, verm.armReset := some 0 }, 99, by decide +kernel⟩,
   ⟨{ awake with clk := 400000000, verm.armUnseal := some 0 }, 3000, by decide +kernel⟩,
   ⟨awake, 0, by decide +kernel⟩,
   ⟨{ awake with verm.armReset := some 1, verm.armUnseal := some 0 }, 1, some 0, ⟨0, rfl, by decide⟩, by decide +kernel⟩,
   ⟨{ awake with verm.armReset := some 1, verm.armUnseal := some 1 }, 1, some 1, (fun _ h => by cases h; decide), by decide +kernel⟩,
   ⟨{ awake with verm.armReset := none }, by decide +kernel⟩,
   ⟨awake, 0, 0, [], crc8 [0, 0], (aliveCheck 0 0 [] (crc8 [0, 0]) { awake with chk.sent := takeSent 0 awake.chk.sent }).1,
     (aliveCheck 0 0 [] (crc8 [0, 0]) { awake with chk.sent := takeSent 0 awake.chk.sent }).2, by decide +kernel⟩,
   ⟨awake, 0, 0, [], 1, (aliveCheck 0 0 [] 1 { awake with chk.sent := takeSent 0 awake.chk.sent }).1,
     (aliveCheck 0 0 [] 1 { awake with chk.sent := takeSent 0 awake.chk.sent }).2, by decide +kernel⟩,
   ⟨asleep, by decide +kernel⟩,
   ⟨awake, 0, false, 0, by decide +kernel⟩,
   ⟨asleep, 0, false, false, 0, [], 0, .testPulse false [], .inr (.inl rfl), by decide +kernel⟩⟩

/-- States that meet the hypotheses of `Obligations.OutputRows`, clause by clause. -/
theorem test_meets_OutputRows :
    (∃ (o : Fin 3) (s : State), (nth s.verm.outs o.val {}).st = .ramp) ∧
    (∃ (o : Fin 3) (s : State), (nth s.verm.outs o.val {}).st ≠ .ramp) ∧
    (∃ (o : Fin 3) (s : State), (nth s.verm.outs o.val {}).st = .pullin) ∧
    (∃ (o : Fin 3) (s : State), (nth s.verm.outs o.val {}).st ≠ .pullin) ∧
    (∃ (o : Fin 3) (s : State) (mV : BitVec 16), ((nth s.verm.outs o.val {}).st = .pullin ∨ (nth s.verm.outs o.val {}).st = .hold) ∧ mV.toNat < 2000) ∧
    (∃ (o : Fin 3) (s : State) (mV : BitVec 16), ((nth s.verm.outs o.val {}).st = .pullin ∨ (nth s.verm.outs o.val {}).st = .hold) ∧ 2000 ≤ mV.toNat ∧
      (nth s.verm.outs o.val {}).offFails = 0) ∧
    (∃ (o : Fin 3) (s : State) (mV : BitVec 16), ((nth s.verm.outs o.val {}).st = .pullin ∨ (nth s.verm.outs o.val {}).st = .hold) ∧ 2000 ≤ mV.toNat ∧
      (nth s.verm.outs o.val {}).offFails ≠ 0) ∧
    (∃ (o : Fin 3) (s : State), (nth s.verm.outs o.val {}).st ≠ .pullin ∧ (nth s.verm.outs o.val {}).st ≠ .hold) ∧
    (∃ (o : Fin 3) (s : State), driven (nth s.verm.outs o.val {}) = true ∧ s.verm.vcoilLow = false) ∧
    (∃ (o : Fin 3) (s : State), (driven (nth s.verm.outs o.val {}) = false ∨ s.verm.vcoilLow = true)) ∧
    (∃ (o : Fin 3) (s : State), driven (nth s.verm.outs o.val {}) = false ∧ vermRuns s = true) ∧
    (∃ (o : Fin 3) (s : State), (driven (nth s.verm.outs o.val {}) = true ∨ vermRuns s = false)) ∧
    (∃ (o : Fin 3) (s : State), (nth s.verm.outs o.val {}).st = .hold) ∧
    (∃ (o : Fin 3) (s : State), (nth s.verm.outs o.val {}).st ≠ .hold) ∧
    (∃ (s : State) (v : BitVec 12) (limit : Nat), limit = (if bitN (blk s 0x01 1) 1 then 1700 else 850) ∧ vermRuns s = true ∧ s.verm.vcoilLow = false ∧
      v.toNat < limit) ∧
    (∃ (s : State) (v : BitVec 12) (limit : Nat), limit = (if bitN (blk s 0x01 1) 1 then 1700 else 850) ∧ vermRuns s = true ∧ s.verm.vcoilLow = true ∧
      limit + 100 < v.toNat) ∧
    (∃ (s : State) (v : BitVec 12) (limit : Nat), limit = (if bitN (blk s 0x01 1) 1 then 1700 else 850) ∧ vermRuns s = true ∧
      ((s.verm.vcoilLow = true ∧ v.toNat ≤ limit + 100) ∨ (s.verm.vcoilLow = false ∧ limit ≤ v.toNat))) ∧
    (∃ (s : State), vermRuns s = false) ∧
    (∃ (s : State), driven (nth s.verm.outs 2 {}) = true) ∧
    (∃ (s : State), driven (nth s.verm.outs 2 {}) = false) :=
  ⟨⟨0, { awake with verm.outs := List.replicate 4 { st := .ramp } }, by decide +kernel⟩,
   ⟨0, { awake with verm.outs := List.replicate 4 { st := .off } }, by decide +kernel⟩,
   ⟨0, { awake with verm.outs := List.replicate 4 { st := .pullin } }, by decide +kernel⟩,
   ⟨0, { awake with verm.outs := List.replicate 4 { st := .off } }, by decide +kernel⟩,
   ⟨0, { awake with verm.outs := List.replicate 4 { st := .pullin } }, 0, by decide +kernel⟩,
   ⟨0, { awake with verm.outs := List.replicate 4 { st := .pullin, offFails := 0 } }, 2000, by decide +kernel⟩,
   ⟨0, { awake with verm.outs := List.replicate 4 { st := .pullin, offFails := 1 } }, 2000, by decide +kernel⟩,
   ⟨0, { awake with verm.outs := List.replicate 4 { st := .off } }, by decide +kernel⟩,
   ⟨0, { awake with verm.outs := [{ st := .ramp, offFails := 1 }, {}, {}] }, by decide +kernel⟩,
   ⟨0, awake, by decide +kernel⟩,
   ⟨0, awake, by decide +kernel⟩,
   ⟨0, asleep, by decide +kernel⟩,
   ⟨0, { awake with verm.outs := List.replicate 4 { st := .hold } }, by decide +kernel⟩,
   ⟨0, { awake with verm.outs := List.replicate 4 { st := .off } }, by decide +kernel⟩,
   ⟨{ awake with verm.vcoilLow := false }, 0, _, rfl, by decide +kernel⟩,
   ⟨{ awake with verm.vcoilLow := true }, 2000, _, rfl, by decide +kernel⟩,
   ⟨{ awake with verm.vcoilLow := true }, 0, _, rfl, by decide +kernel⟩,
   ⟨asleep, by decide +kernel⟩,
   ⟨{ awake with verm.outs := [{}, {}, { st := .hold }] }, by decide +kernel⟩,
   ⟨awake, by decide +kernel⟩⟩

/-- States that meet the hypotheses of `Obligations.FaultClassRows`, clause by clause. -/
theorem test_meets_FaultClassRows :
    (∃ (s : State), vermRuns s = true) ∧
    (∃ (s : State) (peer : Fin 24), vermRuns s = true ∧ peerRole s peer.val 0 = true ∧ (nth s.verm.peers peer.val {}).lost = false) ∧
    (∃ (s : State) (peer : Fin 24), (vermRuns s = false ∨ peerRole s peer.val 0 = false ∨ (nth s.verm.peers peer.val {}).lost = true)) ∧
    (∃ (s : State) (ch : Fin 8), vermRuns s = true ∧ [0, 1, 3, 6, 7].contains ch.val = true) ∧
    (∃ (s : State) (ch : Fin 8), (vermRuns s = false ∨ [0, 1, 3, 6, 7].contains ch.val = false)) ∧
    (∃ (s : State), vermRuns s = true ∧ aboveHard s s.verm.curMsg.1 = true) ∧
    (∃ (s : State), (vermRuns s = false ∨ aboveHard s s.verm.curMsg.1 = false)) ∧
    (∃ (s : State) (c : Fin 11), s.verm.faultB.getLsbD c.val = true) ∧
    (∃ (s : State) (c : Fin 11), s.verm.faultB.getLsbD c.val = false) ∧
    (∃ (s : State) (c : Fin 11), s.verm.faultB.getLsbD c.val = false ∧ vermRuns s = true) ∧
    (∃ (s : State) (c : Fin 11), (s.verm.faultB.getLsbD c.val = true ∨ vermRuns s = false)) ∧
    (∃ (s : State), vermRuns s = false) :=
  ⟨⟨awake, by decide +kernel⟩,
   ⟨{ awake with verm.block := (State.reset.verm.block.set 0x74 2).set 0x75 1 }, 0, by decide +kernel⟩,
   ⟨awake, 0, by decide +kernel⟩,
   ⟨awake, 0, by decide +kernel⟩,
   ⟨asleep, 0, by decide +kernel⟩,
   ⟨{ awake with verm.block := (State.reset.verm.block.set 0x0A 1).set 0x0B 0, verm.curMsg := (101, 0) }, by decide +kernel⟩,
   ⟨awake, by decide +kernel⟩,
   ⟨{ awake with verm.faultB := (-1) }, 0, by decide +kernel⟩,
   ⟨{ awake with verm.faultB := 0 }, 0, by decide +kernel⟩,
   ⟨{ awake with verm.faultB := 0 }, 0, by decide +kernel⟩,
   ⟨{ awake with verm.faultB := (-1) }, 0, by decide +kernel⟩,
   ⟨asleep, by decide +kernel⟩⟩

/-- States that meet the hypotheses of `Obligations.MeterRows`, clause by clause. -/
theorem test_meets_MeterRows :
    (∃ (s : State), s.umber.powered = true ∧ s.sys.variant = .m ∧ metering s = false) ∧
    (∃ (s : State) (nv : Int) (uv : Int) (n : Int) (v : Int), n = clampI (-100000000) 100000000 nv ∧ v = clampI 0 1200000 uv ∧ s.umber.powered = true ∧
      s.sys.variant = .m ∧ metering s = true) ∧
    (∃ (s : State), (s.umber.powered = false ∨ s.sys.variant = .s)) ∧
    (∃ (s : State), s.umber.powered = true ∧ metering s = true ∧ s.sys.variant = .m) ∧
    (∃ (s : State), (s.umber.powered = false ∨ metering s = false ∨ s.sys.variant = .s)) ∧
    (∃ (s : State) (u : State),
      u = { s with umber.saved := { acc := s.umber.acc, flags := s.umber.flags, start := s.umber.start, dur := s.umber.dur, accAtOpen := s.umber.accAtOpen, tNs := s.umber.tNs } } ∧
      s.umber.powered = true) ∧
    (∃ (s : State) (u : State),
      u = { s with umber.saved := { acc := s.umber.acc, flags := s.umber.flags, start := s.umber.start, dur := s.umber.dur, accAtOpen := s.umber.accAtOpen, tNs := s.umber.tNs } } ∧
      s.umber.powered = false) ∧
    (∃ (s : State) (pin : Bool) (w : Word) (t : State) (u : State), w = s.nv.swid ∧
      t = { s with pins.sealN := pin, umber.powered := true, umber.timeOk := false, umber.acc := s.umber.saved.acc, umber.start := s.umber.saved.start, umber.dur := s.umber.saved.dur, umber.accAtOpen := s.umber.saved.accAtOpen, umber.tNs := s.umber.saved.tNs, umber.flags := s.umber.saved.flags ||| 0x10 } ∧
      (s.umber.st = .fault → u = t) ∧ (s.umber.st ≠ .fault → u = { t with umber.st := soundState t }) ∧ s.umber.powered = false ∧ s.sys.variant = .m) ∧
    (∃ (s : State) (pin : Bool) (w : Word) (t : State) (u : State),
      t = { s with pins.sealN := pin, umber.powered := true, umber.timeOk := false, umber.acc := s.umber.saved.acc, umber.start := s.umber.saved.start, umber.dur := s.umber.saved.dur, umber.accAtOpen := s.umber.saved.accAtOpen, umber.tNs := s.umber.saved.tNs, umber.flags := s.umber.saved.flags ||| 0x10 } ∧
      (s.umber.st = .fault → u = t) ∧ (s.umber.st ≠ .fault → u = { t with umber.st := soundState t }) ∧ s.umber.powered = false ∧ s.sys.variant = .m ∧
      w ≠ s.nv.swid) ∧
    (∃ (s : State), (s.umber.powered = true ∨ s.sys.variant = .s)) ∧
    (∃ (s : State) (w : Word), s.umber.powered = true ∧ s.sys.variant = .m ∧ w ≠ s.nv.swid) ∧
    (∃ (s : State) (w : Word), (s.umber.powered = false ∨ s.sys.variant = .s ∨ w = s.nv.swid)) ∧
    (∃ (s : State), s.umber.powered = true ∧ s.sys.variant = .m ∧ s.pins.sealN = true) ∧
    (∃ (s : State), (s.umber.powered = false ∨ s.sys.variant = .s ∨ s.pins.sealN = false)) ∧
    (∃ (s : State), s.umber.powered = true ∧ s.sys.variant = .m) :=
  ⟨⟨{ awake with umber.powered := true, sys.variant := .m }, by decide +kernel⟩,
   ⟨{ awake with umber.st := .sealed }, 80000, 0, _, _, rfl, rfl, by decide +kernel⟩,
   ⟨{ awake with umber.powered := false }, by decide +kernel⟩,
   ⟨{ awake with umber.st := .sealed }, by decide +kernel⟩,
   ⟨{ awake with umber.powered := false }, by decide +kernel⟩,
   ⟨{ awake with umber.powered := true }, _, rfl, by decide +kernel⟩,
   ⟨{ awake with umber.powered := false }, _, rfl, by decide +kernel⟩,
   ⟨{ awake with umber.powered := false, sys.variant := .m, umber.st := .uncalibrated }, false, _, _, _, rfl, rfl,
     (fun h => absurd h (by decide +kernel)), (fun _ => rfl), by decide +kernel⟩,
   ⟨{ awake with umber.powered := false, sys.variant := .m, umber.st := .uncalibrated }, false, 1, _, _, rfl, (fun h => absurd h (by decide +kernel)),
     (fun _ => rfl), by decide +kernel⟩,
   ⟨{ awake with umber.powered := true }, by decide +kernel⟩,
   ⟨awake, 1, by decide +kernel⟩,
   ⟨{ awake with umber.powered := false }, 0, by decide +kernel⟩,
   ⟨{ awake with umber.powered := true, sys.variant := .m, pins.sealN := true }, by decide +kernel⟩,
   ⟨{ awake with umber.powered := false }, by decide +kernel⟩,
   ⟨{ awake with umber.powered := true, sys.variant := .m }, by decide +kernel⟩⟩

/-- States that meet the hypotheses of `Obligations.MeterRows` (MeterLinkRows), clause by clause. -/
theorem test_meets_MeterLinkRows :
    (∃ (s : State), s.umber.powered = true ∧ s.sys.variant = .m) ∧
    (∃ (s : State), (s.umber.powered = false ∨ s.sys.variant = .s)) ∧
    (∃ (h : Fin 4) (again : Bool) (s : State) (q : Nat), q = (if again then 0 else nth s.nv.cursor h.val 0) ∧ umbTalks s = true ∧
      nth s.umber.slots h.val 0 ≠ 0 ∧ nth s.umber.inflight h.val none = none ∧ nth s.umber.restart h.val false = again ∧ recordAfter s q = none) ∧
    (∃ (s : State) (h : Fin 4) (again : Bool) (q : Nat) (r : URec) (u : State),
      u = { s with umber.restart := s.umber.restart.set h.val false, umber.inflight := s.umber.inflight.set h.val (some r) } ∧ umbTalks s = true ∧
      nth s.umber.slots h.val 0 ≠ 0 ∧ nth s.umber.inflight h.val none = none ∧ nth s.umber.restart h.val false = again ∧
      q = (if again then 0 else nth s.nv.cursor h.val 0) ∧ recordAfter s q = some r ∧ (again = true ∨ r.seq = q + 1)) ∧
    (∃ (s : State) (h : Fin 4) (again : Bool) (q : Nat) (r : URec) (u : State),
      u = { s with umber.restart := s.umber.restart.set h.val false, umber.inflight := s.umber.inflight.set h.val (some r) } ∧ umbTalks s = true ∧
      nth s.umber.slots h.val 0 ≠ 0 ∧ nth s.umber.inflight h.val none = none ∧ nth s.umber.restart h.val false = again ∧
      q = (if again then 0 else nth s.nv.cursor h.val 0) ∧ recordAfter s q = some r ∧ again = false ∧ r.seq ≠ q + 1) ∧
    (∃ (s : State) (h : Fin 4), (umbTalks s = false ∨ nth s.umber.slots h.val 0 = 0 ∨ nth s.umber.inflight h.val none ≠ none)) ∧
    (∃ (h : Fin 4) (r : URec) (s : State) (u : State), u = { s with umber.inflight := s.umber.inflight.set h.val none } ∧
      nth s.umber.inflight h.val none = some r ∧ nth s.umber.slots h.val 0 ≠ 0) ∧
    (∃ (h : Fin 4) (r : URec) (s : State) (u : State), u = { s with umber.inflight := s.umber.inflight.set h.val none } ∧
      nth s.umber.inflight h.val none = some r ∧ nth s.umber.slots h.val 0 = 0) ∧
    (∃ (s : State) (h : Fin 4), nth s.umber.inflight h.val none = none) ∧
    (∃ (s : State), umbTalks s = true) ∧
    (∃ (s : State), umbTalks s = false) ∧
    (∃ (s : State), s.sys.variant = .m ∧ s.sys.powered = true ∧ s.umber.linkUp = true) ∧
    (∃ (s : State), (s.sys.variant = .s ∨ s.sys.powered = false ∨ s.umber.linkUp = false)) ∧
    (∃ (s : State), s.sys.variant = .m ∧ s.sys.powered = true ∧ s.umber.powered = true ∧ s.umber.linkUp = false) ∧
    (∃ (s : State), (s.sys.variant = .s ∨ s.sys.powered = false ∨ s.umber.powered = false ∨ s.umber.linkUp = true)) :=
  ⟨⟨{ awake with umber.powered := true, sys.variant := .m }, by decide +kernel⟩,
   ⟨{ awake with umber.powered := false }, by decide +kernel⟩,
   ⟨0, false,
     { awake with umber.slots := List.replicate 16 (1), umber.inflight := List.replicate 16 (none), umber.restart := List.replicate 16 ((false)) }, _,
     rfl, by decide +kernel⟩,
   ⟨{ awake with umber.slots := [1, 0, 0, 0], umber.store := [record1] }, 0, false, 0, record1, _, rfl, by decide +kernel⟩,
   ⟨{ awake with umber.slots := [1, 0, 0, 0], umber.store := [{ record1 with seq := 5 }] }, 0, false, 0, { record1 with seq := 5 }, _, rfl,
     by decide +kernel⟩,
   ⟨awake, 0, by decide +kernel⟩,
   ⟨0, record1, { awake with umber.inflight := List.replicate 16 (some (record1)), umber.slots := List.replicate 16 (1) }, _, rfl, by decide +kernel⟩,
   ⟨0, record1, { awake with umber.inflight := List.replicate 16 (some (record1)), umber.slots := List.replicate 16 (0) }, _, rfl, by decide +kernel⟩,
   ⟨{ awake with umber.inflight := List.replicate 16 (none) }, 0, by decide +kernel⟩,
   ⟨awake, by decide +kernel⟩,
   ⟨State.reset, by decide +kernel⟩,
   ⟨{ awake with sys.variant := .m, sys.powered := true, umber.linkUp := true }, by decide +kernel⟩,
   ⟨{ awake with sys.variant := .s }, by decide +kernel⟩,
   ⟨{ awake with sys.variant := .m, sys.powered := true, umber.powered := true, umber.linkUp := false }, by decide +kernel⟩,
   ⟨{ awake with sys.variant := .s }, by decide +kernel⟩⟩

/-- States that meet the hypotheses of `Obligations.CheckUnitRows`, clause by clause. -/
theorem test_meets_CheckUnitRows :
    (∃ (n : Fin 4) (s : State), (chkU s n.val).busy = true ∧ (chkU s n.val).ended = false) ∧
    (∃ (n : Fin 4) (s : State), ((chkU s n.val).busy = false ∨ (chkU s n.val).ended = true)) ∧
    (∃ (n : Fin 4) (s : State) (i : Instr) (t : State), t = updChk n.val (fun u => { u with ended := true, val := chkFinal n.val u.run }) s ∧
      (i = .chkEnd n ∨ i = .chkJobEnd n) ∧ (chkU s n.val).busy = true ∧ (chkU s n.val).ended = false ∧ (chkU s n.val).jobMode = false) ∧
    (∃ (n : Fin 4) (s : State) (i : Instr) (t : State), t = updChk n.val (fun u => { u with ended := true, val := chkFinal n.val u.run }) s ∧
      (i = .chkEnd n ∨ i = .chkJobEnd n) ∧ (chkU s n.val).busy = true ∧ (chkU s n.val).ended = false ∧ (chkU s n.val).jobMode = true) ∧
    (∃ (n : Fin 4) (s : State) (i : Instr), (i = .chkEnd n ∨ i = .chkJobEnd n) ∧ ((chkU s n.val).busy = false ∨ (chkU s n.val).ended = true)) ∧
    (∃ (n : Fin 4) (s : State), (chkU s n.val).busy = true) ∧
    (∃ (n : Fin 4) (s : State), (chkU s n.val).busy = false) ∧
    (∃ (n : Fin 4) (s : State), (chkU s n.val).susp = true) ∧
    (∃ (n : Fin 4) (s : State), (chkU s n.val).susp = false) ∧
    (∃ (n : Fin 4) (s : State) (ctx1 : Word) (ok : Bool),
      ok = (((le 4 (chkU s n.val).ctx0.toNat ++ le 3 ctx1.toNat).foldl (· ^^^ ·) (0xA5 : Byte)).toNat == rf ctx1 31 24 && rf ctx1 17 16 == n.val) ∧
      (chkU s n.val).busy = false ∧ ok = true) ∧
    (∃ (n : Fin 4) (s : State) (ctx1 : Word) (ok : Bool) (t : State),
      ok = (((le 4 (chkU s n.val).ctx0.toNat ++ le 3 ctx1.toNat).foldl (· ^^^ ·) (0xA5 : Byte)).toNat == rf ctx1 31 24 && rf ctx1 17 16 == n.val) ∧
      t = updChk n.val (fun u => { u with ctx1 := ctx1, owner := false, busy := true, susp := false, ended := false, jobMode := rf ctx1 18 18 == 1, taint := true, run := chkInit n.val, count := 0, ctxErr := true }) s ∧
      (chkU s n.val).busy = false ∧ ok = false) :=
  ⟨⟨0, { awake with chk.units := List.replicate 4 { nth State.reset.chk.units 0 {} with busy := true, ended := false } }, by decide +kernel⟩,
   ⟨0, { awake with chk.units := List.replicate 4 { nth State.reset.chk.units 0 {} with busy := false } }, by decide +kernel⟩,
   ⟨0, { awake with chk.units := List.replicate 4 { nth State.reset.chk.units 0 {} with busy := true, ended := false, jobMode := false } }, .chkEnd (0),
     _, rfl, .inl rfl, by decide +kernel⟩,
   ⟨0, { awake with chk.units := List.replicate 4 { nth State.reset.chk.units 0 {} with busy := true, ended := false, jobMode := true } }, .chkEnd (0),
     _, rfl, .inl rfl, by decide +kernel⟩,
   ⟨0, { awake with chk.units := List.replicate 4 { nth State.reset.chk.units 0 {} with busy := false } }, .chkEnd (0), .inl rfl, by decide +kernel⟩,
   ⟨0, { awake with chk.units := List.replicate 4 { nth State.reset.chk.units 0 {} with busy := true } }, by decide +kernel⟩,
   ⟨0, { awake with chk.units := List.replicate 4 { nth State.reset.chk.units 0 {} with busy := false } }, by decide +kernel⟩,
   ⟨0, { awake with chk.units := List.replicate 4 { nth State.reset.chk.units 0 {} with susp := true } }, by decide +kernel⟩,
   ⟨0, { awake with chk.units := List.replicate 4 { nth State.reset.chk.units 0 {} with susp := false } }, by decide +kernel⟩,
   ⟨0, awake, 0xA5000000, _, rfl, by decide +kernel⟩,
   ⟨0, { awake with chk.units := List.replicate 4 { nth State.reset.chk.units 0 {} with busy := false } }, 0, _, _, rfl, rfl, by decide +kernel⟩⟩

/-- States that meet the hypotheses of `Obligations.IndigoRoundTrip`, clause by clause. -/
theorem test_meets_IndigoRoundTrip :
    ∃ (e : Engine) (i : IInstr), fitsEngine e i = true :=
  ⟨.te, .li 1 5, by decide +kernel⟩

/-- States that meet the hypotheses of `Obligations.IndigoWordsExact`, clause by clause. -/
theorem test_meets_IndigoWordsExact :
    ∃ (e : Engine) (w : Word) (i : IInstr), decodeI e w = some i :=
  ⟨.te, 0x05004000, .li 4 0x4000, by decide +kernel⟩

/-- States that meet the hypotheses of `Obligations.CheckJob`, clause by clause. -/
theorem test_meets_CheckJob :
    ∃ (n : Fin 4) (s : State), s.chk.units.length = 4 ∧ (chkU s n.val).mode = false ∧ (chkU s n.val).nb = 0 :=
  ⟨0, awake, by decide +kernel⟩

/-- States that meet the hypotheses of `Obligations.RunningValue`, clause by clause. -/
theorem test_meets_RunningValue :
    ∃ (n : Fin 4) (s : State), s.chk.units.length = 4 ∧ (chkU s n.val).busy = true ∧ (chkU s n.val).ended = false :=
  ⟨0, { awake with chk.units := List.replicate 4 { busy := true } }, by decide +kernel⟩

/-- States that meet the hypotheses of `Obligations.AbortedJob`, clause by clause. -/
theorem test_meets_AbortedJob :
    ∃ (s : State), s.chk.units.length = 4 :=
  ⟨awake, by decide +kernel⟩

/-- States that meet the hypotheses of `Obligations.InvalidCrc8`, clause by clause. -/
theorem test_meets_InvalidCrc8 :
    ∃ (ch : Fin 8) (a : Byte) (d : List Byte) (crc : Byte) (s : State), vermRuns s = true ∧ chk3Failed s = false ∧
      crc8 (BitVec.ofNat 8 ch.val :: a :: d) ≠ crc :=
  ⟨0, 0, [], 0, awake, by decide +kernel⟩

/-- States that meet the hypotheses of `Obligations.NoMeterOnS`, clause by clause. -/
theorem test_meets_NoMeterOnS :
    (∃ (rq : Req) (s : State), s.sys.variant = .s ∧ s.sys.recovery = false ∧ outsideGroup rq s = false) ∧
    (∃ (rq : Req) (s : State), s.sys.variant = .s ∧ s.sys.recovery = false ∧ outsideGroup rq s = false ∧ (rq.auth = .operator ∨ rq.auth = .meter)) ∧
    (∃ (rq : Req) (s : State), s.sys.variant = .s ∧ s.sys.recovery = false ∧ outsideGroup rq s = false ∧ rq.auth = .meter) ∧
    (∃ (rq : Req) (s : State), s.sys.variant = .s ∧ s.sys.recovery = false ∧ outsideGroup rq s = false ∧ rq.auth = .operator) :=
  ⟨⟨ask .operator, { awake with sys.variant := .s, sys.recovery := false }, by decide +kernel⟩,
   ⟨ask .operator, { awake with sys.variant := .s, sys.recovery := false }, by decide +kernel⟩,
   ⟨ask .meter, { awake with sys.variant := .s }, by decide +kernel⟩,
   ⟨ask .operator, { awake with sys.variant := .s, sys.recovery := false }, by decide +kernel⟩⟩

/-- States that meet the hypotheses of `Obligations.EnumerationGoesOn`, clause by clause. -/
theorem test_meets_EnumerationGoesOn :
    ∃ (rq : Req) (s : State), (s.chain.enumBusy = true ∨ s.sys.anchor = false ∨ (∃ pos, rq.orig = .chain pos)) ∧ Taken 0x20 rq s :=
  ⟨ask .operator, { awake with chain.enumBusy := true }, .inr (.inl rfl), by unfold Taken; decide +kernel⟩

/-- States that meet the hypotheses of `Obligations.AnswerFrame`, clause by clause. -/
theorem test_meets_AnswerFrame :
    ∃ (n : Nat), n ≠ 0 :=
  ⟨1, by decide +kernel⟩

/-- States that meet the hypotheses of `Obligations.ByteStores`, clause by clause. -/
theorem test_meets_ByteStores :
    (∃ (addr : BitVec 16) (s : State), 0x8000 ≤ addr.toNat ∧ addr.toNat % 4 = 0 ∧ windowOff s addr.toNat + 4 ≤ 65536 ∧ Memory.wf s.indigo.pad = true) ∧
    (∃ (e : Engine) (d a : Fin 16) (k : BitVec 18) (s t : State), Memory.wf s.indigo.pad = true ∧ rf s.regs.indigoCfg 16 16 = 0 ∧
      exec (.sts e d a k) s = .next t) ∧
    (∃ (rq : Req) (offset : BitVec 16) (bytes : List Byte) (s : State), Taken 0xC0 rq s ∧ offset.toNat + bytes.length ≤ 2048 ∧
      Memory.wf s.nv.cfgWork = true) ∧
    (∃ (rq : Req) (slot : Byte) (offset : BitVec 16) (code : List Byte) (s : State), Taken 0x60 rq s ∧ settleCopies s = s ∧ slot.toNat < 8 ∧
      offset.toNat + code.length ≤ 8192 ∧ s.indigo.te.st = .idle ∧ s.indigo.se.st = .idle ∧ Memory.wf s.indigo.store = true) :=
  ⟨⟨32768, awake, by decide +kernel⟩,
   ⟨.te, 0, 0, 0, { teAt (.sts 0 0 0) with regs.indigoCfg := 0 }, _, by decide +kernel, by decide +kernel, rfl⟩,
   ⟨ask .operator, 0, [], awake, by unfold Taken; decide +kernel⟩,
   ⟨ask .operator, 0, 0, [], { awake with indigo.te.st := .idle, indigo.se.st := .idle }, by unfold Taken; decide +kernel⟩⟩

/-- States that meet the hypotheses of `Obligations.ScalarFrame`, clause by clause. -/
theorem test_meets_ScalarFrame :
    (∃ (e : Engine) (d : Fin 16) (k : BitVec 18) (s : State) (t : State), exec (.li e d k) s = .next t ∧ (eng s e).lc0 = none ∧ (eng s e).lc1 = none ∧
      (eng s e).pc + 1 < (eng s e).prog.length ∧ Issued e (.li d k) 1 s) ∧
    (∃ (e : Engine) (d : Fin 16) (k : BitVec 18) (s : State) (t : State), exec (.lih e d k) s = .next t ∧ (eng s e).lc0 = none ∧ (eng s e).lc1 = none ∧
      (eng s e).pc + 1 < (eng s e).prog.length ∧ Issued e (.lih d k) 1 s) ∧
    (∃ (e : Engine) (d : Fin 16) (a : Fin 16) (k : BitVec 18) (s : State) (t : State), exec (.addi e d a k) s = .next t ∧ (eng s e).lc0 = none ∧
      (eng s e).lc1 = none ∧ (eng s e).pc + 1 < (eng s e).prog.length ∧ Issued e (.addi d a k) 1 s) ∧
    (∃ (e : Engine) (d : Fin 16) (a : Fin 16) (b : Fin 16) (op : Fin 12) (s : State) (t : State), exec (.sop e d a b op) s = .next t ∧
      (eng s e).lc0 = none ∧ (eng s e).lc1 = none ∧ (eng s e).pc + 1 < (eng s e).prog.length ∧ Issued e (.sop d a b op) 1 s) :=
  ⟨⟨.te, 1, 5, teAt (.li 1 5), _, rfl, by unfold Issued; decide +kernel⟩,
   ⟨.te, 1, 5, teAt (.lih 1 5), _, rfl, by unfold Issued; decide +kernel⟩,
   ⟨.te, 1, 2, 5, teAt (.addi 1 2 5), _, rfl, by unfold Issued; decide +kernel⟩,
   ⟨.te, 1, 2, 3, 0, teAt (.sop 1 2 3 0), _, rfl, by unfold Issued; decide +kernel⟩⟩

/-- A run's invariant holds at a state from which a step is taken (`Obligations.InvariantKept`). -/
theorem test_meets_InvariantKept : ∃ s t : State, Machine.Inv s ∧ step s = .next t := by
  refine ⟨State.reset, clockTick State.reset, ⟨?_, rfl, ?_⟩, rfl⟩
  · unfold RegsLegal storedWords
    simp only [List.forall_mem_cons]
    refine ⟨?_, ?_, ?_, ?_, ?_, ?_, ?_, ?_, ?_, ?_, ?_, ?_, ?_, ?_, ?_, ?_, ?_, ?_, ?_, ?_, ?_, ?_, ?_, ?_⟩
    all_goals simp [State.reset]
  · intro m hm
    have h : m = BitVec.allOnes 160 := List.eq_of_mem_replicate hm
    subst h
    exact BitVec.allOnes_and

end Witnesses

end Sys2Proof.Tests
end

section
/-! The metrology commands on an NV16-S (R25): the shared check that turns all six of them away with `NOT_FITTED`, whatever each of them would do. -/

namespace Sys2Proof.Machine

open Sys2Proof

/-- The opcode table permits an authority for an opcode (step 12 of R153, R176). -/
def Permitted (opc : Nat) (a : Auth) : Prop := ∃ r, opRow opc = some r ∧ r.auth.testBit (authCode a) = true

/-- `MTR_READ`, `MTR_PUBKEY` and `MTR_SWID` are open to every authority. -/
theorem permitted_openMetrology {opc : Nat} (h : opc = 0x90 ∨ opc = 0x93 ∨ opc = 0x94) (a : Auth) : Permitted opc a := by
  refine ⟨⟨15, false, 0, 0⟩, ?_, ?_⟩
  · rcases h with rfl | rfl | rfl <;> rfl
  · cases a <;> rfl

theorem permitted_mtrRecords {a : Auth} (h : a = .operator ∨ a = .meter) : Permitted 0x91 a := by
  rcases h with rfl | rfl <;> exact ⟨⟨5, true, 1, 1⟩, rfl, rfl⟩

theorem permitted_mtrConfig : Permitted 0x92 .meter := ⟨⟨4, true, 1, 1⟩, rfl, rfl⟩

theorem permitted_mtrUpdate : Permitted 0x95 .operator := ⟨⟨1, false, 4, 512⟩, rfl, rfl⟩

/-- Once the authority check has passed, step 13 of R153 turns a metrology opcode away on an NV16-S. -/
theorem precheck_metrology_notFitted {opc : Nat} {rq : Req} {s : State} (hs : s.sys.variant = .s) (hr : s.sys.recovery = false)
    (hm : 0x90 ≤ opc ∧ opc ≤ 0x95) (ha : Permitted opc rq.auth) : precheck opc rq s = some stNotFitted := by
  obtain ⟨row, hrow, hauth⟩ := ha
  simp [precheck, hr, hrow, hauth, hm, hs]

/-- The command's own effect plays no part in the answer: whatever it is, the member answers `NOT_FITTED` without data from the state as it stood. -/
theorem runCmd_metrology_notFitted {opc : Nat} {rq : Req} {f : State → Res} {s : State} (hs : s.sys.variant = .s) (hr : s.sys.recovery = false)
    (ho : outsideGroup rq s = false) (hm : 0x90 ≤ opc ∧ opc ≤ 0x95) (ha : Permitted opc rq.auth) :
    runCmd opc rq f s = answered rq stNotFitted [] s :=
  runCmd_turned ho (precheck_metrology_notFitted hs hr hm ha)

/-- Settles O53: `exec` of each metrology command is `runCmd` at its opcode, and every opcode from 0x90 to 0x95 is turned away. -/
theorem noMeterOnS : Obligations.NoMeterOnS := by
  intro rq s hs hr ho
  have turned {opc : Nat} (f : State → Res) (hm : 0x90 ≤ opc ∧ opc ≤ 0x95) (ha : Permitted opc rq.auth) :
      Host.Outcome.next (runCmd opc rq f s) = (.next (answered rq stNotFitted [] s) : Out) :=
    congrArg Host.Outcome.next (runCmd_metrology_notFitted hs hr ho hm ha)
  refine ⟨?mtrRead, fun n h => ?mtrRecords, fun n h => ?mtrConfig, ?mtrPubkey, ?mtrSwid, fun o l h => ?mtrUpdate⟩
  case mtrRead => exact turned cmdMtrRead (by decide) (permitted_openMetrology (by decide) _)
  case mtrRecords => exact turned (cmdMtrRecords rq n) (by decide) (permitted_mtrRecords h)
  case mtrConfig => exact turned (cmdMtrConfig n) (by decide) (h ▸ permitted_mtrConfig)
  case mtrPubkey => exact turned cmdMtrPubkey (by decide) (permitted_openMetrology (by decide) _)
  case mtrSwid => exact turned cmdMtrSwid (by decide) (permitted_openMetrology (by decide) _)
  case mtrUpdate => exact turned (cmdMtrUpdate rq o l) (by decide) (h ▸ permitted_mtrUpdate)

end Sys2Proof.Machine
end

section
/-! What raising an event leaves alone, said once for every part of the state: the parts that an event may change are blanked out, and every operation on the
way of an event keeps the rest (R796 to R811, R65, R88). -/

namespace Sys2Proof.Machine

open Sys2Proof

/-- The state with all that an event may change blanked out: the event block, the log, the notices to a UART host, and what an event wakes or calls off. -/
def sansEvents (s : State) : State :=
  { s with evt := {}, log := {}, host.txd := [], sys.mode := .active, sys.wakeSrc := 0, sys.waking := false, sys.pendingMode := none, sys.refuse := 0,
           sys.idleReq := false, cmd.safetyHeld := [], chain.hbDecided := false, chain.hbWords := [], chain.hbPass := [], chain.hbDuty := [] }

@[simp] theorem eventNotice_sansEvents (h : Nat) (s : State) : sansEvents (eventNotice h s) = sansEvents s := by
  unfold eventNotice
  split <;> rfl

@[simp] theorem storeEntry_sansEvents (e : Entry) (h : Nat) (p : State × Due) : sansEvents (storeEntry e h p).1 = sansEvents p.1 := by
  unfold storeEntry
  dsimp only
  split
  · rfl
  split
  · split
    · exact eventNotice_sansEvents h _
    · rfl
  · split <;> rfl

@[simp] theorem queueEntry_sansEvents (e : Entry) (pos : Nat) (p : State × Due) : sansEvents (queueEntry e pos p).1 = sansEvents p.1 := by
  unfold queueEntry
  dsimp only
  split
  · rfl
  · split <;> rfl

@[simp] theorem endFreeze_sansEvents (broken : Bool) (p : State × Due) : sansEvents (endFreeze broken p).1 = sansEvents p.1 := by
  unfold endFreeze
  dsimp only
  split <;> rfl

@[simp] theorem queueLog_sansEvents (e : LogIn) (s : State) : sansEvents (queueLog e s).1 = sansEvents s := by
  unfold queueLog
  dsimp only
  split <;> rfl

@[simp] theorem logIntake_sansEvents (src : Nat) (d : List Byte) (p : State × Due) : sansEvents (logIntake src d p).1 = sansEvents p.1 := by
  unfold logIntake
  dsimp only
  rw [apply_ite Prod.fst, apply_ite sansEvents, endFreeze_sansEvents, ite_self]
  split
  · split <;> rfl
  split
  · rfl
  · exact queueLog_sansEvents _ _

@[simp] theorem leaveIdleDue_sansEvents (bit : Nat) (p : State × Due) : sansEvents (leaveIdleDue bit p).1 = sansEvents p.1 := by
  unfold leaveIdleDue
  dsimp only
  split <;> rfl

@[simp] theorem abandonEntry_sansEvents (p : State × Due) : sansEvents (abandonEntry p).1 = sansEvents p.1 := by
  unfold abandonEntry
  dsimp only
  split <;> rfl

@[simp] theorem noteWake_sansEvents (bit : Nat) (s : State) : sansEvents (noteWake bit s) = sansEvents s := by
  unfold noteWake
  split <;> rfl

@[simp] theorem eventWake_sansEvents (src : Nat) (p : State × Due) : sansEvents (eventWake src p).1 = sansEvents p.1 := by
  unfold eventWake
  dsimp only
  (repeat' split) <;> simp

/-- A fold of operations that each keep all but the event parts keeps all but them. -/
theorem foldl_sansEvents {α : Type} (f : State × Due → α → State × Due) (h : ∀ p a, sansEvents (f p a).1 = sansEvents p.1) (l : List α) (p : State × Due) :
    sansEvents (l.foldl f p).1 = sansEvents p.1 :=
  List.foldlRecOn l f (motive := fun q => sansEvents q.1 = sansEvents p.1) rfl fun q hq a _ => (h q a).trans hq

@[simp] theorem raiseCore_sansEvents (src : Nat) (only : Option Nat) (d : List Byte) (s : State) : sansEvents (raiseCore src only d s).1 = sansEvents s := by
  unfold raiseCore
  dsimp only
  rw [eventWake_sansEvents, apply_ite Prod.fst, apply_ite sansEvents, logIntake_sansEvents, ite_self,
    foldl_sansEvents _ fun p pos => queueEntry_sansEvents _ pos p, foldl_sansEvents _ fun p h => storeEntry_sansEvents _ h p]
  rfl

@[simp] theorem raiseDue_sansEvents (n : Nat) (l : Due) (s : State) : sansEvents (raiseDue n l s) = sansEvents s := by
  induction n generalizing l s with
  | zero => rfl
  | succ n ih =>
    cases l with
    | nil => rfl
    | cons x t => exact (ih _ _).trans (raiseCore_sansEvents x.1 x.2.1 x.2.2 s)

/-- Raising an event changes nothing but the event parts. -/
@[simp] theorem raise_sansEvents (src : Nat) (d : List Byte) (s : State) : sansEvents (raise src d s) = sansEvents s := raiseDue_sansEvents _ _ _

@[simp] theorem raise_chk (src : Nat) (d : List Byte) (s : State) : (raise src d s).chk = s.chk := (congrArg State.chk (raise_sansEvents src d s) :)

@[simp] theorem raise_verm (src : Nat) (d : List Byte) (s : State) : (raise src d s).verm = s.verm := (congrArg State.verm (raise_sansEvents src d s) :)

end Sys2Proof.Machine
end

section
/-! The check-value units (R205 to R240): what the end of a compare-mode job leaves alone, the value a running job reads and ends with (R230), and the
job that is aborted (R236). -/

namespace Sys2Proof.Machine

open Sys2Proof

@[simp] theorem noteOcc_chk (a : Nat) (bits : Word) (s : State) : (noteOcc a bits s).chk = s.chk := by
  unfold noteOcc
  split <;> rfl

@[simp] theorem noteOcc_verm (a : Nat) (bits : Word) (s : State) : (noteOcc a bits s).verm = s.verm := by
  unfold noteOcc
  split <;> rfl

/-- The outcome of a compare-mode job is written to the unit's owner and flags, and to nothing else of the check-value cluster. -/
theorem compareDone_chk (n : Nat) (ok hw : Bool) (s : State) : (compareDone n ok hw s).chk =
    { s.chk with units := upd (upd s.chk.units n fun u => { u with owner := hw && !u.busy }) n fun u =>
        { u with matched := ok, mismatched := !ok, misCnt := if ok then u.misCnt else satAdd 255 u.misCnt 1 } } := by
  simp [compareDone, noteOwner]

@[simp] theorem compareDone_alv (n : Nat) (ok hw : Bool) (s : State) : (compareDone n ok hw s).chk.alv = s.chk.alv := by rw [compareDone_chk]

@[simp] theorem compareDone_verm (n : Nat) (ok hw : Bool) (s : State) : (compareDone n ok hw s).verm = s.verm := by
  simp [compareDone, noteOwner]

@[simp] theorem length_units_compareDone (n : Nat) (ok hw : Bool) (s : State) : (compareDone n ok hw s).chk.units.length = s.chk.units.length := by
  simp [compareDone_chk]

theorem chkU_compareDone_val {n : Nat} (ok hw : Bool) {s : State} (h : n < s.chk.units.length) : (chkU (compareDone n ok hw s) n).val = (chkU s n).val := by
  simp [chkU, compareDone_chk, nth_upd, h]

theorem chkU_raise (src : Nat) (d : List Byte) (s : State) (n : Nat) : chkU (raise src d s) n = chkU s n := by simp [chkU]

/-- Whether and how a compare-mode job is decided, its value stays. -/
theorem chkU_decideChk_val {n : Nat} {s : State} (h : n < s.chk.units.length) : (chkU (decideChk n s) n).val = (chkU s n).val := by
  unfold decideChk
  dsimp only
  split
  · rw [apply_ite (chkU · n), chkU_raise, ite_self, chkU_updChk _ _ _ (by simpa using h)]
    exact chkU_compareDone_val _ _ h
  · rfl

/-- The end of a running job's input leaves the job's value in `VAL`, in either mode (R211). -/
theorem chkU_endChk_val {n : Nat} {s : State} (h : n < s.chk.units.length) (hb : (chkU s n).busy = true) (he : (chkU s n).ended = false) :
    (chkU (endChk n s) n).val = chkFinal n (chkU s n).run := by
  have hlen (f : ChkU → ChkU) : n < (updChk n f s).chk.units.length := by simpa [updChk] using h
  simp only [endChk, hb, he, Bool.not_false, Bool.and_self, if_true]
  split
  · rw [chkU_decideChk_val (hlen _), chkU_updChk _ _ _ h]
  · rw [chkU_updChk _ _ _ (hlen _), chkU_updChk _ _ _ h]

/-- The addresses of the CHECK block read its registers (R875). -/
theorem regVal_check {s : State} {a : Nat} (h : 0x3800 ≤ a) (h' : a < 0x3C00) : regVal s a = regCheck s (a - 0x3800) := by
  unfold regVal
  iterate 14 rw [if_neg (by omega)]
  exact if_pos h'

/-- Unit n has the 32 bytes of registers from 0x3800 + 0x20 n (R237). -/
theorem regVal_unit (s : State) (n : Fin 4) {o : Nat} (ho : o < 0x20) : regVal s (0x3800 + o + 0x20 * n.val) = regUnit s n.val o := by
  have hunit : (0x3800 + o + 0x20 * n.val - 0x3800) / 0x20 = n.val := by omega
  have hreg : (0x3800 + o + 0x20 * n.val - 0x3800) % 0x20 = o := by omega
  rw [regVal_check (by omega) (by omega), regCheck, if_pos (by omega), hunit, hreg]

/-- `CHK_n_VAL` of a running job reads the value of what it has taken so far. -/
theorem regUnit_val_running {s : State} {n : Nat} (hb : (chkU s n).busy = true) (he : (chkU s n).ended = false) :
    regUnit s n 0x08 = (chkFinal n (chkU s n).run).toNat := by
  simp [regUnit, hb, he]

/-- Bit 0 of `CHK_n_STAT` is `BUSY` (R238). -/
theorem regUnit_stat_busy (s : State) (n : Nat) : regUnit s n 0x18 % 2 = b2n (chkU s n).busy := by
  have hb : b2n (chkU s n).busy < 2 := by cases (chkU s n).busy <;> decide
  simp only [regUnit, flagWord, List.zipIdx_cons, List.zipIdx_nil, List.map_cons, List.map_nil, List.foldl_cons, List.foldl_nil]
  omega

/-- Settles O50: both sides are the value of the bytes taken so far, which reading presents at once and END leaves in `VAL` in either mode. -/
theorem runningValue : Obligations.RunningValue := by
  intro n s hlen hb he
  have hn : n.val < s.chk.units.length := n.isLt.trans_eq hlen.symm
  refine ⟨⟨endChk n.val s, rfl, ?val⟩, ?busy⟩
  case val =>
    calc regVal s (0x3808 + 0x20 * n.val)
        = regUnit s n.val 0x08 := regVal_unit s n (o := 0x08) (by decide)
      _ = (chkFinal n.val (chkU s n.val).run).toNat := regUnit_val_running hb he
      _ = (chkU (endChk n.val s) n.val).val.toNat := by rw [chkU_endChk_val hn hb he]
  case busy =>
    calc regVal s (0x3818 + 0x20 * n.val) % 2
        = regUnit s n.val 0x18 % 2 := by rw [← regVal_unit s n (o := 0x18) (by decide)]
      _ = b2n (chkU s n.val).busy := regUnit_stat_busy s n.val
      _ = 1 := by rw [hb]; rfl

/-- Settles O51: ABORT is one update of the unit's job, which touches neither its outcome flags nor anything outside the unit. -/
theorem abortedJob : Obligations.AbortedJob := by
  intro n s hlen
  have hn : n.val < s.chk.units.length := n.isLt.trans_eq hlen.symm
  refine ⟨_, rfl, ?_⟩
  rw [chkU_updChk _ _ _ hn]
  exact ⟨rfl, rfl, rfl, rfl, rfl, rfl, rfl, rfl, fun m hm => chkU_updChk_other _ _ _ _ hm.symm⟩

end Sys2Proof.Machine
end

section
/-! Safety messages on the on-die channels (R219 to R225): a message whose CRC-8 is wrong. -/

namespace Sys2Proof.Machine

open Sys2Proof

/-- A message with a wrong CRC-8 is not accepted: `CHK_3` ends its check as a mismatch, and event 0x3B is raised (R222). -/
theorem aliveCheck_invalidCrc {ch a : Nat} {d : List Byte} {crc : Byte} {s : State} (h3 : chk3Failed s = false)
    (hc : crc8 (BitVec.ofNat 8 ch :: BitVec.ofNat 8 a :: d) ≠ crc) :
    aliveCheck ch a d crc s = (raise 0x3B (chkDetail ch a s) (compareDone 3 false true s), false) := by
  simp [aliveCheck, h3, hc]

/-- While Vermilion runs, a message that is not accepted counts as discarded and has no effect but that of its check (R664). -/
theorem execSafetyMessage_rejected {ch : Fin 8} {a : Byte} {d : List Byte} {crc : Byte} {s u : State} (hv : vermRuns s = true)
    (hr : aliveCheck ch.val a.toNat d crc { s with chk.sent := takeSent ch.val s.chk.sent } = (u, false)) :
    execSafetyMessage ch a d crc s = .next { u with verm.discard := satAdd 255 u.verm.discard 1 } := by
  simp [execSafetyMessage, hv, hr]

/-- Settles O52: the check turns the message away, and neither it nor the event touches the alive channels or Vermilion. -/
theorem invalidCrc8 : Obligations.InvalidCrc8 := by
  intro ch a d crc s hv h3 hc
  have hc' : crc8 (BitVec.ofNat 8 ch.val :: BitVec.ofNat 8 a.toNat :: d) ≠ crc := by rwa [BitVec.ofNat_toNat, BitVec.setWidth_eq]
  refine ⟨_, execSafetyMessage_rejected hv (aliveCheck_invalidCrc h3 hc'), ?alv, ?verm, rfl⟩
  case alv => simp
  case verm => simp

end Sys2Proof.Machine
end

section
/-! `ENUMERATE` where no enumeration may start (R299, R905). -/

namespace Sys2Proof.Machine

open Sys2Proof

/-- Where an enumeration may not start: one runs already (R905), the member is not the anchor, or the host is attached to another member (R299). -/
def EnumRefused (rq : Req) (s : State) : Prop := s.chain.enumBusy = true ∨ s.sys.anchor = false ∨ ∃ pos, rq.orig = .chain pos

/-- `ENUMERATE` where none may start draws `BAD_PARAM` from the state as it stood, so a running enumeration goes on. -/
theorem cmdEnumerate_refused {rq : Req} {s : State} (h : EnumRefused rq s) : cmdEnumerate rq s = Res.of stBadParam s := by
  unfold cmdEnumerate
  cases ho : rq.orig with
  | chain pos => rfl
  | port p =>
    have hc : (!s.sys.anchor) = true ∨ s.chain.enumBusy = true := by
      rcases h with hbusy | hanchor | ⟨pos, hpos⟩
      · exact .inr hbusy
      · exact .inl (by rw [hanchor]; rfl)
      · exact nomatch ho.symm.trans hpos
    exact if_pos hc

/-- Settles O54: the refusal leaves the state as it was, and a command taken up and refused is only answered. -/
theorem enumerationGoesOn : Obligations.EnumerationGoesOn := by
  intro rq s ht h
  have hrun : runCmd 0x20 rq (cmdEnumerate rq) s = answered rq stBadParam [] s :=
    runCmd_taken ht (cmdEnumerate_refused h) stBadParam_ne_stQueued (by decide)
  exact congrArg Host.Outcome.next hrun

end Sys2Proof.Machine
end

section
/-! The machine after reset (R876, log entry 66): the invariant of registers and masks, and what reading registers gives. A register that stands for one entry of
an array reads a function of that entry, whatever the state; after reset every entry of these arrays is the same. -/

namespace Sys2Proof.Machine

open Sys2Proof

/-! ## The invariant -/

/-- The Reset columns set no bit outside a register's RW fields (R876). -/
theorem regsLegal_reset : RegsLegal State.reset := by
  simp [RegsLegal, storedWords, State.reset]

/-- Every host mask is all ones after reset, so none hides any source at all (R805). -/
theorem masksLegal_reset : MasksLegal State.reset :=
  ⟨rfl, fun m hm => by rw [List.eq_of_mem_replicate hm, BitVec.allOnes_and]⟩

theorem inv_reset : Inv State.reset := ⟨regsLegal_reset, masksLegal_reset⟩

/-! ## The blocks of the register space (R875) -/

theorem regVal_cell (s : State) {o : Nat} (ho : o < 0x400) : regVal s (0x1000 + o) = regCell s o := by
  unfold regVal
  iterate 4 rw [if_neg (by omega)]
  rw [if_pos (by omega), Nat.add_sub_cancel_left]

theorem regVal_aux (s : State) {o : Nat} (ho : o < 0x400) : regVal s (0x1400 + o) = regAux s o := by
  unfold regVal
  iterate 5 rw [if_neg (by omega)]
  rw [if_pos (by omega), Nat.add_sub_cancel_left]

theorem regVal_bal (s : State) {o : Nat} (ho : o < 0x800) : regVal s (0x1800 + o) = regBal s o := by
  unfold regVal
  iterate 6 rw [if_neg (by omega)]
  rw [if_pos (by omega), Nat.add_sub_cancel_left]

theorem regVal_therm (s : State) {o : Nat} (ho : o < 0x400) : regVal s (0x2400 + o) = regTherm s o := by
  unfold regVal
  iterate 8 rw [if_neg (by omega)]
  rw [if_pos (by omega), Nat.add_sub_cancel_left]

theorem regVal_log (s : State) {o : Nat} (ho : o < 0x400) : regVal s (0x3C00 + o) = regLog s o := by
  unfold regVal
  iterate 15 rw [if_neg (by omega)]
  rw [if_pos (by omega), Nat.add_sub_cancel_left]

theorem regVal_event (s : State) {o : Nat} (ho : o < 0x800) : regVal s (0x4000 + o) = regEvent s o := by
  unfold regVal
  iterate 16 rw [if_neg (by omega)]
  rw [if_pos (by omega), Nat.add_sub_cancel_left]

/-! ## Registers that stand for one entry of an array -/

/-- `CELL_DATA_01` to `_16` (R399). -/
theorem regVal_cellData (s : State) {k : Nat} (hk : k < 16) :
    regVal s (0x1040 + 4 * k) = (nth s.cell.latVal k 0).toNat + 2 ^ 24 * (nth s.cell.latFlags k 0).toNat := by
  have haddr : 0x1040 + 4 * k = 0x1000 + (0x40 + 4 * k) := by omega
  have hidx : (0x40 + 4 * k - 0x40) / 4 = k := by omega
  rw [haddr, regVal_cell s (by omega)]
  unfold regCell
  dsimp only
  rw [if_pos (by omega), hidx]

/-- `AUX_DATA_1` to `_8` (R400). -/
theorem regVal_auxData (s : State) {k : Nat} (hk : k < 8) :
    regVal s (0x1410 + 4 * k) = (nth s.cell.auxLat k 0).toNat + 65536 * (nth s.cell.auxLatFlags k 0).toNat := by
  have haddr : 0x1410 + 4 * k = 0x1400 + (0x10 + 4 * k) := by omega
  have hidx : (0x10 + 4 * k - 0x10) / 4 = k := by omega
  rw [haddr, regVal_aux s (by omega)]
  unfold regAux
  dsimp only
  rw [if_pos (by omega), hidx]

/-- `BAL_ONT_01` to `_16` (R435). -/
theorem regVal_balOnTime (s : State) {k : Nat} (hk : k < 16) : regVal s (0x1810 + 4 * k) = nth s.bal.onT k 0 % 256 + 256 * (balEff s k % 256) := by
  have haddr : 0x1810 + 4 * k = 0x1800 + (0x10 + 4 * k) := by omega
  have hidx : (0x10 + 4 * k - 0x10) / 4 = k := by omega
  rw [haddr, regVal_bal s (by omega)]
  unfold regBal
  dsimp only
  rw [if_pos (by omega), hidx]

/-- `BAL_ACC_01` to `_16` (R435). -/
theorem regVal_balAcc (s : State) {k : Nat} (hk : k < 16) : regVal s (0x1880 + 4 * k) = nth (settleAcc s).bal.acc k 0 / 100000 % 2 ^ 32 := by
  have haddr : 0x1880 + 4 * k = 0x1800 + (0x80 + 4 * k) := by omega
  have hidx : (0x80 + 4 * k - 0x80) / 4 = k := by omega
  rw [haddr, regVal_bal s (by omega)]
  unfold regBal
  dsimp only
  rw [if_neg (by omega), if_pos (by omega), hidx]

/-- `THERM_AUX_T_1` to `_8` (R602). -/
theorem regVal_auxTemp (s : State) {k : Nat} (hk : k < 8) : regVal s (0x2460 + 4 * k) = auxTempWord s k := by
  have haddr : 0x2460 + 4 * k = 0x2400 + (0x60 + 4 * k) := by omega
  have hidx : (0x60 + 4 * k - 0x60) / 4 = k := by omega
  rw [haddr, regVal_therm s (by omega)]
  unfold regTherm
  dsimp only
  rw [if_neg (by omega), if_neg (by omega), if_pos (by omega), hidx]

/-- `CHK_ALV_0` to `_31` (R239). -/
theorem regVal_alive (s : State) {k : Nat} (hk : k < 32) : regVal s (0x3900 + 4 * k) =
    (nth s.chk.alv k {}).tx % 256 + 256 * ((nth s.chk.alv k {}).last % 256) + 65536 * (nth s.chk.alv k {}).rep +
      2 ^ 20 * (nth s.chk.alv k {}).seq + 2 ^ 24 * (nth s.chk.alv k {}).lost + 2 ^ 28 * b2n (nth s.chk.alv k {}).init := by
  have hidx : (0x3900 + 4 * k - 0x3800 - 0x100) / 4 = k := by omega
  rw [regVal_check (by omega) (by omega), regCheck, if_neg (by omega), if_pos (by omega), hidx]

/-- `LOG_WIN_0` to `_7` (R794). -/
theorem regVal_logWindow (s : State) {k : Nat} (hk : k < 8) : regVal s (0x3C20 + 4 * k) = field s.log.win (4 * k) 4 := by
  have haddr : 0x3C20 + 4 * k = 0x3C00 + (0x20 + 4 * k) := by omega
  have hidx : 0x20 + 4 * k - 0x20 = 4 * k := by omega
  rw [haddr, regVal_log s (by omega)]
  unfold regLog
  dsimp only
  rw [if_pos (by omega), hidx]

/-- `EVT_MASK_0_0` to `EVT_MASK_3_4`: five words of each host's mask (R822). -/
theorem regVal_eventMask (s : State) {k : Nat} (hk : k < 20) :
    regVal s (0x4040 + 4 * k) = (nth s.evt.masks (k / 5) 0).toNat / 2 ^ (32 * (k % 5)) % 2 ^ 32 := by
  have haddr : 0x4040 + 4 * k = 0x4000 + (0x40 + 4 * k) := by omega
  have hhost : (0x40 + 4 * k - 0x40) / 0x14 = k / 5 := by omega
  have hword : (0x40 + 4 * k - 0x40) % 0x14 / 4 = k % 5 := by omega
  rw [haddr, regVal_event s (by omega)]
  unfold regEvent
  dsimp only
  rw [if_pos (by omega), hhost, hword]

/-! ## What those arrays hold after reset -/

/-- An array of copies of the value that is read past its end holds that value at every index. -/
theorem nth_replicate_self {α : Type} (n k : Nat) (d : α) : nth (List.replicate n d) k d = d := List.getElem?_getD_replicate_default_eq _ n k

theorem regVal_cellData_reset {k : Nat} (hk : k < 16) : regVal State.reset (0x1040 + 4 * k) = 0 := by
  have hval : nth State.reset.cell.latVal k 0 = 0 := nth_replicate_self 16 k 0
  have hflags : nth State.reset.cell.latFlags k 0 = 0 := nth_replicate_self 16 k 0
  rw [regVal_cellData _ hk, hval, hflags]
  rfl

theorem regVal_auxData_reset {k : Nat} (hk : k < 8) : regVal State.reset (0x1410 + 4 * k) = 0 := by
  have hval : nth State.reset.cell.auxLat k 0 = 0 := nth_replicate_self 8 k 0
  have hflags : nth State.reset.cell.auxLatFlags k 0 = 0 := nth_replicate_self 8 k 0
  rw [regVal_auxData _ hk, hval, hflags]
  rfl

theorem regVal_balOnTime_reset {k : Nat} (hk : k < 16) : regVal State.reset (0x1810 + 4 * k) = 0 := by
  have hon : nth State.reset.bal.onT k 0 = 0 := nth_replicate_self 16 k 0
  rw [regVal_balOnTime _ hk, balEff, hon]
  rfl

/-- No switch has been on yet, so settling adds nothing (R410). -/
theorem settleAcc_reset : (settleAcc State.reset).bal.acc = List.replicate 16 0 := by decide

theorem regVal_balAcc_reset {k : Nat} (hk : k < 16) : regVal State.reset (0x1880 + 4 * k) = 0 := by
  rw [regVal_balAcc _ hk, settleAcc_reset, nth_replicate_self]
  rfl

/-- No channel has a temperature, a rate or a fault: the word is the code 0x8000 for no value (R602). -/
theorem auxTempWord_reset {k : Nat} (hk : k < 8) : auxTempWord State.reset k = 0x8000 := by
  have hbad : ∀ k < 8, auxBad State.reset k = false := by decide
  have htemp : nth State.reset.therm.auxT k none = none := nth_replicate_self 8 k none
  have hrate : nth State.reset.therm.auxRate k none = none := nth_replicate_self 8 k none
  have hdis : State.reset.therm.disagree.getLsbD k = false := BitVec.getLsbD_zero
  have hror : State.reset.therm.ror.getLsbD k = false := BitVec.getLsbD_zero
  rw [auxTempWord, htemp, hrate, hbad k hk, hdis, hror]
  rfl

theorem regVal_auxTemp_reset {k : Nat} (hk : k < 8) : regVal State.reset (0x2460 + 4 * k) = 0x8000 :=
  (regVal_auxTemp _ hk).trans (auxTempWord_reset hk)

/-- An alive channel is in its initial state, with every count 0 (R239). -/
theorem regVal_alive_reset {k : Nat} (hk : k < 32) : regVal State.reset (0x3900 + 4 * k) = 0x10000000 := by
  have hch : nth State.reset.chk.alv k {} = {} := nth_replicate_self 32 k ({} : Alv)
  rw [regVal_alive _ hk, hch]
  rfl

theorem regVal_logWindow_reset {k : Nat} (hk : k < 8) : regVal State.reset (0x3C20 + 4 * k) = 0 := by
  have hwin : ∀ k < 8, field State.reset.log.win (4 * k) 4 = 0 := by decide
  exact (regVal_logWindow _ hk).trans (hwin k hk)

theorem regVal_eventMask_reset {k : Nat} (hk : k < 20) : regVal State.reset (0x4040 + 4 * k) = 0xFFFFFFFF := by
  have hmask : ∀ h < 4, nth State.reset.evt.masks h 0 = BitVec.allOnes 160 := by decide
  have hword : ∀ j < 5, (2 ^ 160 - 1) / 2 ^ (32 * j) % 2 ^ 32 = 0xFFFFFFFF := by decide
  rw [regVal_eventMask _ hk, hmask _ (by omega), BitVec.toNat_allOnes, hword _ (Nat.mod_lt _ (by decide))]

/-- The mirror holds no snapshot yet and the link is down (R747). -/
theorem regVal_mirror_reset : ∀ k < 20, regVal State.reset (0x4800 + 4 * k) = 0 := by decide

/-- A unit has its events enabled and has run no job (R237). -/
theorem chkU_reset (n : Nat) : chkU State.reset n = {} := nth_replicate_self 4 n ({} : ChkU)

theorem regVal_unit_reset {n : Nat} (hn : n < 4) : regVal State.reset (0x3800 + 0x20 * n) = 2 ∧
    ∀ a ∈ [0x3804, 0x3808, 0x380C, 0x3810, 0x3814, 0x3818], regVal State.reset (a + 0x20 * n) = 0 := by
  have hread : ∀ o < 0x20, regVal State.reset (0x3800 + o + 0x20 * n) = regUnit State.reset n o := fun o ho => regVal_unit _ ⟨n, hn⟩ ho
  refine ⟨(hread 0 (by decide)).trans ?cfg, fun a ha => ?zero⟩
  case cfg => rw [regUnit, chkU_reset]; rfl
  case zero =>
    obtain ⟨o, ho, rfl⟩ : ∃ o ∈ [0x04, 0x08, 0x0C, 0x10, 0x14, 0x18], 0x3800 + o = a := List.mem_map.1 ha
    have hzero : ∀ o ∈ [0x04, 0x08, 0x0C, 0x10, 0x14, 0x18], o < 0x20 ∧ regUnit State.reset n o = 0 := by
      simp [regUnit, chkU_reset, flagWord, b2n]
    exact (hread o (hzero o ho).1).trans (hzero o ho).2

/-! ## Single registers, one lemma for each table of R876 -/

theorem zeroAtReset_sys : ∀ a ∈ [0x0014, 0x0018, 0x0020, 0x0044, 0x0048, 0x0068], regVal State.reset a = 0 := by decide

theorem zeroAtReset_hostChainTime : ∀ a ∈ [0x0408, 0x040C, 0x0804, 0x0808, 0x080C, 0x0810, 0x0814, 0x0818, 0x0820, 0x0824, 0x0828, 0x0C04, 0x0C08, 0x0C0C,
    0x0C10, 0x0C14, 0x0C18, 0x0C1C, 0x0C20], regVal State.reset a = 0 := by decide

theorem zeroAtReset_cellAuxBal : ∀ a ∈ [0x1004, 0x100C, 0x1010, 0x1014, 0x1018, 0x1020, 0x1080, 0x10C4, 0x10C8, 0x10CC, 0x10D0, 0x1104, 0x1108, 0x110C, 0x1444,
    0x1448, 0x144C, 0x1804, 0x1850, 0x1854, 0x1858, 0x185C, 0x1860, 0x1864, 0x1868], regVal State.reset a = 0 := by decide

theorem zeroAtReset_indigoThermSport : ∀ a ∈ [0x2004, 0x2020, 0x2024, 0x2028, 0x2030, 0x2034, 0x2038, 0x2040, 0x2048, 0x204C, 0x2080, 0x2408, 0x240C, 0x2808,
    0x280C, 0x2810, 0x2814], regVal State.reset a = 0 := by decide

theorem zeroAtReset_watchVerm : ∀ a ∈ [0x2C18, 0x300C, 0x3014, 0x3018, 0x301C, 0x3034, 0x3030, 0x3038], regVal State.reset a = 0 := by decide

theorem zeroAtReset_logEvent : ∀ a ∈ [0x3C08, 0x3C18, 0x3C0C, 0x3C14, 0x4004, 0x4010, 0x4014, 0x4018], regVal State.reset a = 0 := by decide

/-- The registers whose Reset column states a value other than 0. -/
theorem namedAtReset :
    regVal State.reset 0x0040 = 1 ∧ regVal State.reset 0x081C = 0xF ∧ regVal State.reset 0x10C0 = 0x00400000 ∧ regVal State.reset 0x1440 = 0x00400000 ∧
    regVal State.reset 0x2804 = 0xFFFF0008 ∧ regVal State.reset 0x2824 = 0xFFFF0008 ∧ regVal State.reset 0x3020 = 0xFFFFFFFF ∧
    regVal State.reset 0x3024 = 0xFFFFFFFF := by decide

/-- The configuration registers, whose NV fields hold their factory values. -/
theorem factoryAtReset :
    regVal State.reset 0x0010 = 0x004A1404 ∧ regVal State.reset 0x0400 = 0x00000A30 ∧ regVal State.reset 0x0800 = 0x00081402 ∧
    regVal State.reset 0x0C00 = 0x00C86401 ∧ regVal State.reset 0x1000 = 0x004FFFF5 ∧ regVal State.reset 0x1800 = 0x3C323C02 ∧
    regVal State.reset 0x2800 = 0x00281E64 ∧ regVal State.reset 0x4000 = 1 := by decide

/-- Settles O5: the invariant holds because the Reset columns stay within the RW fields and the masks are all ones; an array's registers read what each of its
equal entries gives, and the other registers are read table by table. -/
theorem resetState : Obligations.ResetState := by
  refine ⟨inv_reset, ?zero, fun k hk => ⟨regVal_cellData_reset hk, regVal_balOnTime_reset hk, regVal_balAcc_reset hk⟩,
    fun k hk => ⟨regVal_auxData_reset hk, regVal_auxTemp_reset hk, regVal_logWindow_reset hk⟩,
    fun k hk => ⟨regVal_mirror_reset k hk, regVal_eventMask_reset hk⟩, fun k hk => regVal_alive_reset hk, fun n hn => regVal_unit_reset hn, ?single⟩
  case zero =>
    exact List.forall_mem_append.2 ⟨zeroAtReset_sys,
      List.forall_mem_append.2 ⟨zeroAtReset_hostChainTime,
      List.forall_mem_append.2 ⟨zeroAtReset_cellAuxBal,
      List.forall_mem_append.2 ⟨zeroAtReset_indigoThermSport,
      List.forall_mem_append.2 ⟨zeroAtReset_watchVerm, zeroAtReset_logEvent⟩⟩⟩⟩⟩
  case single => simpa only [and_assoc] using And.intro namedAtReset factoryAtReset

end Sys2Proof.Machine
end

section
/-! The invariant of registers and masks along a step (R16 to R18, R805, R863), and what every command leaves alone: the queue and the local clock. -/

namespace Sys2Proof.Machine

open Sys2Proof

/-! ## Stored register words -/

/-- The addresses of the registers whose stored words the invariant speaks of, in its order. -/
def storedAddrs : List Nat :=
  [0x0010, 0x004C, 0x0400, 0x0800, 0x0C00, 0x1000, 0x1008, 0x10C0, 0x1400, 0x1440, 0x1800, 0x2000, 0x2004, 0x2010, 0x2014, 0x202C, 0x203C, 0x2084, 0x2800,
   0x2820, 0x3980, 0x4000, 0x4004]

/-- Each of these registers reads its stored word, and its bits there are those the register table calls RW. -/
theorem storedWords_eq (s : State) : storedWords s.regs = storedAddrs.map fun a => (rwVal s a, rwMask a) := by
  simp [storedWords, storedAddrs, rwVal, regVal, regSys, regHost, regChain, regTime, regCell, regAux, regBal, regIndigo, regPort, spCfg, regCheck, regEvent, rwMask,
    rwTable, List.lookup]

theorem rwVal_legal {s : State} (h : RegsLegal s) {a : Nat} (ha : a ∈ storedAddrs) : rwVal s a &&& ~~~rwMask a = 0 :=
  h (rwVal s a, rwMask a) (storedWords_eq s ▸ List.mem_map_of_mem ha)

theorem RegsLegal.congr {s t : State} (h : RegsLegal s) (he : t.regs = s.regs) : RegsLegal t := by
  rwa [RegsLegal, he]

/-- One stored word replaced by a legal one. -/
theorem RegsLegal.set {s t : State} (h : RegsLegal s) (k : Nat) {w M : Word} (hw : w &&& ~~~M = 0)
    (he : storedWords t.regs = (storedWords s.regs).set k (w, M)) : RegsLegal t := by
  intro p hp
  rw [he] at hp
  rcases List.mem_or_eq_of_mem_set hp with hold | rfl
  · exact h p hold
  · exact hw

/-- A merge under a mask of RW bits sets no other bit. -/
theorem merged_legal {old m v M : Word} (ho : old &&& ~~~M = 0) (hm : m &&& ~~~M = 0) : merged old m v &&& ~~~M = 0 := by
  have h : merged old m v &&& ~~~M = ((old &&& ~~~M) &&& ~~~m) ||| (v &&& (m &&& ~~~M)) := by
    unfold merged
    ext i
    simp
    grind
  rw [h, ho, hm]
  simp

theorem and_rwMask_legal (m M : Word) : (m &&& M) &&& ~~~M = 0 := by
  rw [BitVec.and_assoc, BitVec.and_not_self]
  exact BitVec.and_zero

/-! ## Writes of stored words -/

/-- A legal word stored at the k-th of these addresses. -/
theorem storeReg_regsLegal {a : Nat} {w : Word} {s : State} (h : RegsLegal s) (hw : a ∈ storedAddrs → w &&& ~~~rwMask a = 0) : RegsLegal (storeReg a w s) := by
  unfold storeReg storeA
  split
  case h_1 => exact h.set 0 (hw (by decide)) rfl
  case h_2 => exact h.set 1 (hw (by decide)) rfl
  case h_3 => exact h.set 2 (hw (by decide)) rfl
  case h_4 => exact h.set 3 (hw (by decide)) rfl
  case h_5 => exact h.set 4 (hw (by decide)) rfl
  case h_6 => exact h.set 5 (hw (by decide)) rfl
  case h_7 => exact h.set 6 (hw (by decide)) rfl
  case h_8 => exact h.set 7 (hw (by decide)) rfl
  case h_9 => exact h.congr (writeRp_regs _ _ _)
  case h_10 => exact h.set 8 (hw (by decide)) rfl
  case h_11 => exact h.set 9 (hw (by decide)) rfl
  case h_12 => exact h.congr (writeRp_regs _ _ _)
  case h_13 => exact h.set 10 (hw (by decide)) rfl
  case h_14 =>
    unfold storeB
    simp only [Option.getD_none]
    split
    case h_1 => exact h.set 11 (hw (by decide)) rfl
    case h_2 => exact h.set 12 (hw (by decide)) rfl
    case h_3 => exact h
    case h_4 => exact h
    case h_5 => exact h.set 13 (hw (by decide)) rfl
    case h_6 => exact h.set 14 (hw (by decide)) rfl
    case h_7 => exact h.set 15 (hw (by decide)) rfl
    case h_8 => exact h.set 16 (hw (by decide)) rfl
    case h_9 => exact h.set 17 (hw (by decide)) rfl
    case h_10 => exact h
    case h_11 => exact h.set 18 (hw (by decide)) rfl
    case h_12 => exact h.set 19 (hw (by decide)) rfl
    case h_13 => exact h.set 20 (hw (by decide)) rfl
    case h_14 => exact h.set 21 (hw (by decide)) rfl
    case h_15 => exact h.set 22 (hw (by decide)) rfl
    case h_16 => exact h
    case h_17 => exact h

/-- Of a register's own word, a merge under its RW bits is legal. -/
theorem merged_rwVal_legal {a : Nat} {m v : Word} {s : State} (h : RegsLegal s) (hm : m &&& ~~~rwMask a = 0) (ha : a ∈ storedAddrs) :
    merged (rwVal s a) m v &&& ~~~rwMask a = 0 := merged_legal (rwVal_legal h ha) hm

/-- The three lowest bits of a word replaced, by numbers and by a mask. -/
theorem lowThree_merged (w : Word) (n : Nat) : BitVec.ofNat 32 (w.toNat / 8 * 8 + n % 8) = merged w 7 (BitVec.ofNat 32 n) := by
  have hmask : ∀ i < 32, (7 : Word).getLsbD i = decide (i < 3) := by decide
  have hsum : w.toNat / 8 * 8 + n % 8 = 2 ^ 3 * (w.toNat / 2 ^ 3) + n % 2 ^ 3 := by omega
  refine BitVec.eq_of_getLsbD_eq fun i hi => ?_
  rw [hsum, BitVec.getLsbD_ofNat, Nat.testBit_two_pow_mul_add _ (Nat.mod_lt _ (by decide)), Nat.testBit_div_two_pow, Nat.testBit_mod_two_pow]
  rw [merged, BitVec.getLsbD_or, BitVec.getLsbD_and, BitVec.getLsbD_and, BitVec.getLsbD_not, hmask i hi, BitVec.getLsbD_ofNat, ← BitVec.testBit_toNat]
  rcases lt_or_ge i 3 with h | h
  · simp [hi, h]
  · simp [hi, Nat.not_lt.mpr h, Nat.sub_add_cancel h]

theorem setRate_regsLegal {code : Nat} {s : State} (h : RegsLegal s) : RegsLegal (setRate code s) := by
  unfold setRate
  split
  · exact h
  · dsimp only
    refine RegsLegal.congr (s := { s with regs.cellCfg := BitVec.ofNat 32 (s.regs.cellCfg.toNat / 8 * 8 + code % 8) }) ?_ (raise_regs _ _ _)
    have hcfg : s.regs.cellCfg &&& ~~~0x00FFFFF7 = 0 := h (s.regs.cellCfg, 0x00FFFFF7) (by simp [storedWords])
    refine h.set 5 (M := 0x00FFFFF7) ?_ rfl
    rw [lowThree_merged]
    exact merged_legal hcfg (by decide)

theorem writeCellCfg_regsLegal {w : Word} {s : State} (h : RegsLegal s) (hw : w &&& ~~~0x00FFFFF7 = 0) : RegsLegal (writeCellCfg w s) := by
  unfold writeCellCfg
  dsimp only
  have hrate (code : Nat) : RegsLegal (if min code 6 = cellRate s then s else setRate code s) := by
    split
    · exact h
    · exact setRate_regsLegal h
  have hset (code : Nat) :
      RegsLegal { (if min code 6 = cellRate s then s else setRate code s) with regs.cellCfg := merged w 7 (BitVec.ofNat 32 code) } :=
    (hrate code).set 5 (merged_legal hw (by decide)) rfl
  split
  · exact hset _
  · exact (hset _).congr (usedChanged_regs _ _ _)

theorem writeBalCfg_regsLegal {w : Word} {s : State} (h : RegsLegal s) (hw : w &&& ~~~0xFFFFFF03 = 0) : RegsLegal (writeBalCfg w s) := by
  have hbal : s.regs.balCfg &&& ~~~0xFFFFFF03 = 0 := h (s.regs.balCfg, 0xFFFFFF03) (by simp [storedWords])
  unfold writeBalCfg
  dsimp only
  have hset (c : Prop) [Decidable c] : RegsLegal { s with regs.balCfg := if c then merged w 1 s.regs.balCfg else w } := by
    refine h.set 10 (M := 0xFFFFFF03) ?_ rfl
    split
    · exact merged_legal hw (by decide)
    · exact hw
  refine iteInduction (motive := RegsLegal) (fun _ => ?_) fun _ => iteInduction (motive := RegsLegal) (fun _ => ?_) fun _ => ?_
  · exact (hset _).congr (untestAll_regs _)
  · exact (hset _).congr (fold_regs _ (fun s k => setDiag_regs k .untested s) _ _)
  · exact hset _

theorem writeChainCfg_regsLegal {w : Word} {s : State} (h : RegsLegal s) (hw : w &&& ~~~0x000FFF03 = 0) : RegsLegal (writeChainCfg w s) := by
  have hset : RegsLegal { s with regs.chainCfg := w } := h.set 3 hw rfl
  unfold writeChainCfg
  split
  · exact hset
  · exact hset.congr (classB_regs _ _ _)

theorem writeSpCfg_regsLegal (n : Nat) (v : Word) {s : State} (h : RegsLegal s) : RegsLegal (writeSpCfg n v s) := by
  unfold writeSpCfg
  refine RegsLegal.congr ?_ (startPort_regs _ _)
  split
  · exact h.set 18 (and_rwMask_legal v 0x03FFFF77) rfl
  · exact h.set 19 (and_rwMask_legal v 0x03FFFF77) rfl

/-- A register's own word merged under its RW bits, with all that its write brings about. -/
theorem applyRw_regsLegal {a : Nat} {w : Word} {s : State} (h : RegsLegal s) (hw : a ∈ storedAddrs → w &&& ~~~rwMask a = 0) : RegsLegal (applyRw a w s) := by
  unfold applyRw
  split
  case h_1 => exact h.set 2 (hw (by decide)) rfl
  case h_2 => exact writeChainCfg_regsLegal h (hw (by decide))
  case h_3 => exact writeCellCfg_regsLegal h (hw (by decide))
  case h_4 => exact RegsLegal.congr (h.set 8 (t := { s with regs.auxCfg := w }) (hw (by decide)) rfl) (settleAux_regs _ _)
  case h_5 => exact writeBalCfg_regsLegal h (hw (by decide))
  case h_6 =>
    split
    · exact h
    · exact storeReg_regsLegal h hw
  case h_7 =>
    split
    · exact h
    · exact storeReg_regsLegal h hw
  case h_8 => exact writeSpCfg_regsLegal 0 w h
  case h_9 => exact writeSpCfg_regsLegal 1 w h
  case h_10 => exact storeReg_regsLegal h hw

theorem writeRw_regsLegal (a : Nat) (mask value : Word) {s : State} (h : RegsLegal s) : RegsLegal (writeRw a mask value s) := by
  unfold writeRw
  dsimp only
  split
  · exact h
  · exact applyRw_regsLegal h (merged_rwVal_legal h (and_rwMask_legal _ _))

theorem writePlain_regsLegal (rq : Req) (a : Nat) (mask value : Word) {s : State} (h : RegsLegal s) : RegsLegal (writePlain rq a mask value s) := by
  unfold writePlain
  split
  · exact h
  split
  · exact h.congr (writeWindow_regs _ _ _ _)
  split
  · exact h.congr (writeUnit_regs _ _ _ _ _)
  · exact ((writeRw_regsLegal a mask value h).congr (clearW1c_regs _ _ _)).congr (actWo_regs _ _ _ _ _)

/-- Every bit of a register that a configuration image sets is an RW bit (R832, R833). -/
theorem nvMask_legal {a : Nat} (ha : a ∈ storedAddrs) : nvMask a &&& ~~~rwMask a = 0 := by
  revert a
  decide

theorem loadConfig_regsLegal {s : State} (h : RegsLegal s) : RegsLegal (loadConfig s) := by
  have hfold : RegsLegal ((cfgEntries 341 s.nv.cfgImage).foldl (fun s e => storeReg e.1 (merged (rwVal s e.1) (nvMask e.1) e.2) s) s) :=
    List.foldlRecOn _ _ h fun _ hs e _ => storeReg_regsLegal hs fun ha => merged_rwVal_legal hs (nvMask_legal ha) ha
  exact hfold.congr rfl

end Sys2Proof.Machine
end

section
/-! The hosts' event masks (R805). -/

namespace Sys2Proof.Machine

open Sys2Proof

theorem MasksLegal.congr {s t : State} (h : MasksLegal s) (he : t.evt.masks = s.evt.masks) : MasksLegal t := by
  rwa [MasksLegal, he]

/-- One host's mask replaced by one that shows the severity-3 sources. -/
theorem MasksLegal.set {s t : State} (h : MasksLegal s) (k : Nat) {m : BitVec 160} (hm : m &&& severeBits = severeBits)
    (he : t.evt.masks = s.evt.masks.set k m) : MasksLegal t := by
  obtain ⟨hlen, hall⟩ := h
  refine ⟨by rw [he, List.length_set, hlen], fun x hx => ?_⟩
  rw [he] at hx
  rcases List.mem_or_eq_of_mem_set hx with hold | rfl
  · exact hall x hold
  · exact hm

theorem severe_shows : severe &&& severeBits = severeBits := by decide

/-- A mask with the severity-3 sources added shows them. -/
theorem or_severe_shows (m : BitVec 160) : (m ||| severe) &&& severeBits = severeBits := by
  have h : (m ||| severe) &&& severeBits = (m &&& severeBits) ||| (severe &&& severeBits) := by ext i; simp; grind
  rw [h, severe_shows]
  ext i; simp

end Sys2Proof.Machine
end

section
/-! What every command leaves alone: the queue, the local clock, and the invariant of registers and masks. -/

namespace Sys2Proof.Machine

open Sys2Proof

/-- From one state to the next the queue and the local clock stay, and the invariant is kept. -/
def Steady (s t : State) : Prop := (t.pending = s.pending ∧ t.clk = s.clk) ∧ (Inv s → Inv t)

theorem Inv.congr {s t : State} (h : Inv s) (hr : t.regs = s.regs) (hm : t.evt.masks = s.evt.masks) : Inv t := ⟨h.1.congr hr, h.2.congr hm⟩

theorem Keeps.inv {s t : State} (k : Keeps s t) (h : Inv s) : Inv t := h.congr k.2.2.1 k.2.2.2

theorem Keeps.steady {s t : State} (k : Keeps s t) : Steady s t := ⟨⟨k.1, k.2.1⟩, k.inv⟩

/-- The answer to a command keeps what its own effect keeps. -/
theorem runCmd_inv {opc : Nat} {rq : Req} {f : State → Res} {s : State} (h : Inv s) (hf : Inv (f s).st) : Inv (runCmd opc rq f s) := by
  unfold runCmd
  split
  · exact h.congr (respond_regs _ _ _ _) (respond_masks _ _ _ _)
  split
  · exact h.congr (respond_regs _ _ _ _) (respond_masks _ _ _ _)
  · dsimp only
    refine Inv.congr ?_ (respond_regs _ _ _ _) (respond_masks _ _ _ _)
    split
    · exact hf.congr (keepQueued_regs _ _) (keepQueued_masks _ _)
    · exact hf

/-! ## Commands that write registers or masks -/

theorem cmdWriteReg_inv (rq : Req) (addr : BitVec 16) (mask value : Word) {s : State} (h : Inv s) : Inv (cmdWriteReg rq addr mask value s).st := by
  have hmasks : MasksLegal (cmdWriteReg rq addr mask value s).st := h.2.congr (cmdWriteReg_masks _ _ _ _ _)
  refine ⟨?_, hmasks⟩
  unfold cmdWriteReg
  dsimp only
  split
  · exact h.1
  split
  · exact h.1
  split
  · split
    · exact writeRw_regsLegal _ _ _ (h.1.congr (modeOrder_regs _ _ _ _))
    · exact h.1.congr (modeOrder_regs _ _ _ _)
  split
  · exact h.1.congr (cmdAlarmClr_regs _ _)
  · exact writePlain_regsLegal _ _ _ _ h.1

theorem cmdSetBaud_inv (code : Byte) {s : State} (h : Inv s) : Inv (cmdSetBaud code s).st := by
  refine ⟨?_, h.2.congr (cmdSetBaud_masks _ _)⟩
  unfold cmdSetBaud
  split
  · exact h.1
  · exact writeRw_regsLegal _ _ _ h.1

theorem cmdEvtMask_inv (rq : Req) (mask : BitVec 160) {s : State} (h : Inv s) : Inv (cmdEvtMask rq mask s).st :=
  ⟨h.1.congr (cmdEvtMask_regs _ _ _), h.2.set rq.host.val (or_severe_shows mask) rfl⟩

theorem regsLegal_ite {c : Prop} [Decidable c] {a b : Res} (ha : RegsLegal a.st) (hb : RegsLegal b.st) : RegsLegal (if c then a else b).st := by
  split
  · exact ha
  · exact hb

theorem cmdStreamOpen_inv (rq : Req) (stream rate slots : Byte) {s : State} (h : Inv s) : Inv (cmdStreamOpen rq stream rate slots s).st := by
  refine ⟨?_, h.2.congr (cmdStreamOpen_masks _ _ _ _ _)⟩
  have hrate (r : Nat) : RegsLegal (setRate r s) := setRate_regsLegal h.1
  have hbad : RegsLegal (Res.of stBadParam s).st := h.1
  refine regsLegal_ite (regsLegal_ite hbad ((hrate _).congr rfl)) <| regsLegal_ite (regsLegal_ite hbad (h.1.congr rfl)) <|
    regsLegal_ite (regsLegal_ite hbad ?free) <| regsLegal_ite (regsLegal_ite hbad (h.1.congr rfl)) hbad
  case free => exact iteInduction (motive := RegsLegal) (fun _ => (hrate _).congr rfl) fun _ => h.1.congr rfl

theorem bindHost_masks (h pos port auth : Nat) (s : State) : (bindHost h pos port auth s).evt.masks = s.evt.masks.set h (BitVec.allOnes 160) := by
  unfold bindHost
  dsimp only
  split <;> simp

theorem cmdBindHost_inv (rq : Req) (host position port authority : Byte) {s : State} (h : Inv s) : Inv (cmdBindHost rq host position port authority s).st := by
  refine ⟨h.1.congr (cmdBindHost_regs _ _ _ _ _ _), ?_⟩
  unfold cmdBindHost
  dsimp only
  split
  · exact h.2
  split
  · exact h.2
  · exact h.2.set host.toNat BitVec.allOnes_and ((raise_masks _ _ _).trans (bindHost_masks _ _ _ _ _))

/-! ## The dispatch tick -/

theorem meaningA_inv (ecc : Ecc) (rq : Req) (opc : Nat) (p : List Byte) {s : State} (h : Inv s) : Inv (meaningA ecc rq opc p s).st := by
  unfold meaningA
  split
  case h_4 => exact cmdWriteReg_inv _ _ _ _ h
  case h_8 => exact cmdSetBaud_inv _ h
  case h_11 => exact cmdEvtMask_inv _ _ h
  case h_20 => exact cmdStreamOpen_inv _ _ _ _ h
  all_goals exact h.congr (by simp [Res.of]) (by simp [Res.of])

theorem meaningB_inv (ecc : Ecc) (winC winD : Bool) (rq : Req) (opc : Nat) (p : List Byte) {s : State} (h : Inv s) :
    Inv (meaningB ecc winC winD rq opc p s).st := by
  refine ⟨h.1.congr (meaningB_regs _ _ _ _ _ _ _), ?_⟩
  unfold meaningB
  split
  case h_26 => exact (cmdBindHost_inv _ _ _ _ _ h).2
  all_goals exact h.2.congr (by simp [Res.of])

theorem meaning_inv (ecc : Ecc) (winC winD : Bool) (c : PCmd) {s : State} (h : Inv s) : Inv (meaning ecc winC winD c s).st := by
  unfold meaning
  split
  · exact (malformed_keeps c s).inv h
  split
  · exact meaningA_inv _ _ _ _ h
  · exact meaningB_inv _ _ _ _ _ _ h

theorem dispatchOne_inv (ecc : Ecc) (all : List Order) (i : Nat) (c : PCmd) {s : State} (h : Inv s) : Inv (dispatchOne ecc all i c s) := by
  refine runCmd_inv h ?_
  split
  · exact meaning_inv _ _ _ _ h
  split
  · exact (overruled_keeps _ _).inv h
  · exact meaning_inv _ _ _ _ h

theorem dispatchAll_inv (ecc : Ecc) (all : List Order) (i : Nat) (l : List PCmd) {s : State} (h : Inv s) : Inv (dispatchAll ecc all i l s) := by
  induction l generalizing i s with
  | nil => exact h
  | cons c t ih => exact ih (i + 1) (dispatchOne_inv ecc all i c h)

/-! ## Resets and the boot -/

/-- The stored words and the masks of a reset state are the factory's. -/
theorem resetTo_inv (cause : Nat) (s : State) : Inv (resetTo cause s) := by
  have hz (z : State) (hr : z.regs = State.reset.regs) (hm : z.evt.masks = State.reset.evt.masks) : Inv z := inv_reset.congr hr hm
  refine hz _ ?_ ?_
  · unfold resetTo
    dsimp only
    (repeat' split) <;> simp <;> rfl
  · unfold resetTo
    dsimp only
    (repeat' split) <;> simp <;> rfl

theorem leaveShip_inv (bit : Nat) (s : State) : Inv (leaveShip bit s) := (noteWake_keeps _ _).inv (resetTo_inv 0 s)

/-! ## The rows of these operations -/

theorem execWriteReg_steady (rq : Req) (addr : BitVec 16) (mask value : Word) (s : State) {t : State} (h : execWriteReg rq addr mask value s = .next t) :
    Steady s t := by
  obtain ⟨hp, hc, -⟩ := execWriteReg_keeps _ _ _ _ _ h
  cases h
  exact ⟨⟨hp, hc⟩, fun hs => runCmd_inv hs (cmdWriteReg_inv _ _ _ _ hs)⟩

theorem execSetBaud_steady (rq : Req) (code : Byte) (s : State) {t : State} (h : execSetBaud rq code s = .next t) : Steady s t := by
  obtain ⟨hp, hc, -⟩ := execSetBaud_keeps _ _ _ h
  cases h
  exact ⟨⟨hp, hc⟩, fun hs => runCmd_inv hs (cmdSetBaud_inv _ hs)⟩

theorem execEvtMask_steady (rq : Req) (mask : BitVec 160) (s : State) {t : State} (h : execEvtMask rq mask s = .next t) : Steady s t := by
  obtain ⟨hp, hc, -⟩ := execEvtMask_keeps _ _ _ h
  cases h
  exact ⟨⟨hp, hc⟩, fun hs => runCmd_inv hs (cmdEvtMask_inv _ _ hs)⟩

theorem execStreamOpen_steady (rq : Req) (stream rate slots : Byte) (s : State) {t : State} (h : execStreamOpen rq stream rate slots s = .next t) :
    Steady s t := by
  obtain ⟨hp, hc, -⟩ := execStreamOpen_keeps _ _ _ _ _ h
  cases h
  exact ⟨⟨hp, hc⟩, fun hs => runCmd_inv hs (cmdStreamOpen_inv _ _ _ _ hs)⟩

theorem execBindHost_steady (rq : Req) (host position port authority : Byte) (s : State) {t : State}
    (h : execBindHost rq host position port authority s = .next t) : Steady s t := by
  obtain ⟨hp, hc, -⟩ := execBindHost_keeps _ _ _ _ _ _ h
  cases h
  exact ⟨⟨hp, hc⟩, fun hs => runCmd_inv hs (cmdBindHost_inv _ _ _ _ _ hs)⟩

theorem execSportCfgWrite_steady (port : Fin 2) (value : Word) (s : State) {t : State} (h : execSportCfgWrite port value s = .next t) : Steady s t := by
  obtain ⟨hp, hc, hm⟩ := execSportCfgWrite_keeps _ _ _ h
  cases h
  exact ⟨⟨hp, hc⟩, fun hs => ⟨writeSpCfg_regsLegal _ _ hs.1, hs.2.congr hm⟩⟩

theorem execDispatchTickEnd_steady (ecc : Ecc) (s : State) {t : State} (h : execDispatchTickEnd ecc s = .next t) : Steady s t := by
  refine ⟨execDispatchTickEnd_keeps _ _ h, fun hs => ?_⟩
  unfold execDispatchTickEnd at h
  split at h <;> cases h
  · exact dispatchAll_inv _ _ _ _ ((beginTick_keeps s).inv hs)
  · exact hs

theorem execPowerUp_steady (boot : BootIn) (s : State) {t : State} (h : execPowerUp boot s = .next t) : Steady s t := by
  obtain ⟨hp, hc, hm⟩ := execPowerUp_keeps _ _ h
  refine ⟨⟨hp, hc⟩, fun hs => ⟨?_, hs.2.congr hm⟩⟩
  unfold execPowerUp at h
  split at h <;> cases h
  · exact hs.1
  · have hload (u : State) (hu : u.regs = s.regs) : RegsLegal (loadConfig u) := loadConfig_regsLegal (hs.1.congr hu)
    exact (hload (selectCopy boot (selectBank boot (knownAnswer boot.katOk (latchAnchor boot.anchorPin
      { s with sys.powered := true, sys.mode := .active, sys.vstk10mV := boot.vstk10mV, sys.vspMV := boot.vspMV })))) (by simp)).congr (by simp)

theorem execPowerOnReset_steady (s : State) {t : State} (h : execPowerOnReset s = .next t) : Steady s t := by
  refine ⟨execPowerOnReset_keeps _ h, fun _ => ?_⟩
  cases h
  exact resetTo_inv 0 s

theorem execRstNPulse_steady (lowUs : Nat) (s : State) {t : State} (h : execRstNPulse lowUs s = .next t) : Steady s t := by
  refine ⟨execRstNPulse_keeps _ _ h, fun hs => ?_⟩
  unfold execRstNPulse at h
  dsimp only at h
  split at h
  · cases h; exact hs
  split at h
  · cases h; exact (resetTo_inv 0 s).congr rfl rfl
  · cases h; exact resetTo_inv _ s

theorem execMemberReset_steady (s : State) {t : State} (h : execMemberReset s = .next t) : Steady s t := by
  refine ⟨execMemberReset_keeps _ h, fun hs => ?_⟩
  unfold execMemberReset at h
  split at h <;> cases h
  · exact resetTo_inv 3 s
  · exact hs

theorem execFwRestart_steady (s : State) {t : State} (h : execFwRestart s = .next t) : Steady s t := by
  refine ⟨execFwRestart_keeps _ h, fun hs => ?_⟩
  unfold execFwRestart at h
  split at h <;> cases h
  · exact resetTo_inv 4 s
  · exact hs

theorem execTrialBootFail_steady (s : State) {t : State} (h : execTrialBootFail s = .next t) : Steady s t := by
  refine ⟨execTrialBootFail_keeps _ h, fun hs => ?_⟩
  unfold execTrialBootFail at h
  split at h <;> cases h
  · exact resetTo_inv 4 s
  · exact hs

theorem execWakePin_steady (highUs : Nat) (s : State) {t : State} (h : execWakePin highUs s = .next t) : Steady s t := by
  refine ⟨execWakePin_keeps _ _ h, fun hs => ?_⟩
  unfold execWakePin at h
  dsimp only at h
  split at h
  · cases h; exact hs.congr rfl rfl
  split at h
  · cases h
    split
    · exact ((sendTone_keeps _ _).trans (sendTone_keeps _ _)).inv (leaveShip_inv _ _)
    · exact hs.congr rfl rfl
  split at h
  · cases h; exact hs.congr rfl rfl
  · cases h; exact hs.congr (by simp) (by simp)

theorem execWakeTone_steady (sd : Side) (s : State) {t : State} (h : execWakeTone sd s = .next t) : Steady s t := by
  refine ⟨execWakeTone_keeps _ _ h, fun hs => ?_⟩
  unfold execWakeTone at h
  dsimp only at h
  split at h
  · cases h; exact hs.congr (by simp) (by simp)
  split at h <;> cases h
  · exact hs.congr (by simp) (by simp)
  · exact ((sendTone_keeps _ _).inv (leaveShip_inv _ _)).congr rfl rfl
  · exact hs.congr (by simp) (by simp)
  · exact hs.congr (by simp) (by simp)

/-! ## Every row -/

theorem execBaudChange_total (s : State) : ∃ t, execBaudChange s = .next t := by
  unfold execBaudChange
  (repeat' split) <;> exact ⟨_, rfl⟩

theorem execMeterUpdateDone_total (s : State) : ∃ t, execMeterUpdateDone s = .next t := by
  unfold execMeterUpdateDone
  (repeat' split) <;> exact ⟨_, rfl⟩

theorem execFwCheckDone_total (s : State) : ∃ t, execFwCheckDone s = .next t := by
  unfold execFwCheckDone
  (repeat' split) <;> exact ⟨_, rfl⟩

theorem execFwRestart_total (s : State) : ∃ t, execFwRestart s = .next t := by
  unfold execFwRestart
  (repeat' split) <;> exact ⟨_, rfl⟩

theorem execTrialBootFail_total (s : State) : ∃ t, execTrialBootFail s = .next t := by
  unfold execTrialBootFail
  (repeat' split) <;> exact ⟨_, rfl⟩

theorem execFwPartialTimeout_total (s : State) : ∃ t, execFwPartialTimeout s = .next t := by
  unfold execFwPartialTimeout
  (repeat' split) <;> exact ⟨_, rfl⟩

theorem execCfgCheckDone_total (writeOk : Bool) (s : State) : ∃ t, execCfgCheckDone writeOk s = .next t := by
  unfold execCfgCheckDone
  (repeat' split) <;> exact ⟨_, rfl⟩

theorem execSealCheckDone_total (writeOk : Bool) (s : State) : ∃ t, execSealCheckDone writeOk s = .next t := by
  unfold execSealCheckDone
  (repeat' split) <;> exact ⟨_, rfl⟩

theorem execOwPeriodic_total (s : State) : ∃ t, execOwPeriodic s = .next t := by
  unfold execOwPeriodic
  (repeat' split) <;> exact ⟨_, rfl⟩

theorem execContextRestore_total (n : Fin 4) (ctx1 : Word) (s : State) : ∃ t, execContextRestore n ctx1 s = .next t := by
  unfold execContextRestore
  dsimp only
  (repeat' split) <;> exact ⟨_, rfl⟩

theorem execUnseal_total (rq : Req) (key : Byte) (s : State) : ∃ t, execUnseal rq key s = .next t := by
  unfold execUnseal
  (repeat' split) <;> exact ⟨_, rfl⟩

theorem execLogCursorSet_total (code : BitVec 16) (s : State) : ∃ t, execLogCursorSet code s = .next t := by
  unfold execLogCursorSet
  (repeat' split) <;> exact ⟨_, rfl⟩

theorem execWindowWrite_total (addr : BitVec 16) (mask value : Word) (s : State) : ∃ t, execWindowWrite addr mask value s = .next t := by
  unfold execWindowWrite
  (repeat' split) <;> exact ⟨_, rfl⟩

theorem execSpiTransaction_total (sdi : List Byte) (s : State) : ∃ t, execSpiTransaction sdi s = .next t := by
  unfold execSpiTransaction
  (repeat' split) <;> exact ⟨_, rfl⟩

theorem execUartFrame_total (rxd : List Bool) (s : State) : ∃ t, execUartFrame rxd s = .next t := by
  unfold execUartFrame
  (repeat' split) <;> exact ⟨_, rfl⟩

theorem execCommandDispatchable_total (s : State) : ∃ t, execCommandDispatchable s = .next t := by
  unfold execCommandDispatchable
  (repeat' split) <;> exact ⟨_, rfl⟩

theorem execDispatchTickEnd_total (ecc : Ecc) (s : State) : ∃ t, execDispatchTickEnd ecc s = .next t := by
  unfold execDispatchTickEnd
  (repeat' split) <;> exact ⟨_, rfl⟩

theorem execNoReply_total (p : HPort) (seq : BitVec 12) (s : State) : ∃ t, execNoReply p seq s = .next t := by
  unfold execNoReply
  dsimp only
  (repeat' split) <;> exact ⟨_, rfl⟩

theorem execGroupReplyTimeout_total (p : HPort) (seq : BitVec 12) (s : State) : ∃ t, execGroupReplyTimeout p seq s = .next t := by
  unfold execGroupReplyTimeout
  dsimp only
  (repeat' split) <;> exact ⟨_, rfl⟩

theorem execPowerUp_total (boot : BootIn) (s : State) : ∃ t, execPowerUp boot s = .next t := by
  unfold execPowerUp
  (repeat' split) <;> exact ⟨_, rfl⟩

theorem execBootComplete_total (s : State) : ∃ t, execBootComplete s = .next t := by
  unfold execBootComplete
  (repeat' split) <;> exact ⟨_, rfl⟩

theorem execRstNPulse_total (lowUs : Nat) (s : State) : ∃ t, execRstNPulse lowUs s = .next t := by
  unfold execRstNPulse
  (repeat' split) <;> exact ⟨_, rfl⟩

theorem execMemberReset_total (s : State) : ∃ t, execMemberReset s = .next t := by
  unfold execMemberReset
  (repeat' split) <;> exact ⟨_, rfl⟩

theorem execVstkLowSet_total (s : State) : ∃ t, execVstkLowSet s = .next t := by
  unfold execVstkLowSet
  (repeat' split) <;> exact ⟨_, rfl⟩

theorem execVstkLowClear_total (s : State) : ∃ t, execVstkLowClear s = .next t := by
  unfold execVstkLowClear
  (repeat' split) <;> exact ⟨_, rfl⟩

theorem execRailFault_total (vregBad vdd33Bad : Bool) (s : State) : ∃ t, execRailFault vregBad vdd33Bad s = .next t := by
  unfold execRailFault
  (repeat' split) <;> exact ⟨_, rfl⟩

theorem execSupplyUpdate_total (vstk10mV vspMV : BitVec 16) (s : State) : ∃ t, execSupplyUpdate vstk10mV vspMV s = .next t := by
  unfold execSupplyUpdate
  (repeat' split) <;> exact ⟨_, rfl⟩

theorem execXtalStop_total (s : State) : ∃ t, execXtalStop s = .next t := by
  unfold execXtalStop
  (repeat' split) <;> exact ⟨_, rfl⟩

theorem execClockCheck_total (dev : BitVec 25) (mosc : Bool) (s : State) : ∃ t, execClockCheck dev mosc s = .next t := by
  unfold execClockCheck
  dsimp only
  (repeat' split) <;> exact ⟨_, rfl⟩

theorem execCoreStall_total (s : State) : ∃ t, execCoreStall s = .next t := by
  unfold execCoreStall
  (repeat' split) <;> exact ⟨_, rfl⟩

theorem execFabricStall_total (cls : Fin 6) (wait100ns : Nat) (s : State) : ∃ t, execFabricStall cls wait100ns s = .next t := by
  unfold execFabricStall
  (repeat' split) <;> exact ⟨_, rfl⟩

theorem execIdleEntry_total (s : State) : ∃ t, execIdleEntry s = .next t := by
  unfold execIdleEntry
  dsimp only
  (repeat' split) <;> exact ⟨_, rfl⟩

theorem execModeEntry_total (s : State) : ∃ t, execModeEntry s = .next t := by
  unfold execModeEntry
  dsimp only
  (repeat' split) <;> exact ⟨_, rfl⟩

theorem execSentinelWake_total (cellUV : List Int) (auxUV : List Nat) (vtrefUV : Nat) (dieTenths : Int) (s : State) : ∃ t, execSentinelWake cellUV auxUV vtrefUV dieTenths s = .next t := by
  unfold execSentinelWake
  dsimp only
  (repeat' split) <;> exact ⟨_, rfl⟩

theorem execSentinelBurst_total (vspOk : Bool) (s : State) : ∃ t, execSentinelBurst vspOk s = .next t := by
  unfold execSentinelBurst
  (repeat' split) <;> exact ⟨_, rfl⟩

theorem execWakePin_total (highUs : Nat) (s : State) : ∃ t, execWakePin highUs s = .next t := by
  unfold execWakePin
  (repeat' split) <;> exact ⟨_, rfl⟩

theorem execHostWakeEdge_total (p : HPort) (s : State) : ∃ t, execHostWakeEdge p s = .next t := by
  unfold execHostWakeEdge
  (repeat' split) <;> exact ⟨_, rfl⟩

theorem execWakeTone_total (sd : Side) (s : State) : ∃ t, execWakeTone sd s = .next t := by
  unfold execWakeTone
  dsimp only
  (repeat' split) <;> exact ⟨_, rfl⟩

theorem execWakeToneRepeat_total (sd : Side) (s : State) : ∃ t, execWakeToneRepeat sd s = .next t := by
  unfold execWakeToneRepeat
  dsimp only
  (repeat' split) <;> exact ⟨_, rfl⟩

theorem execWakeComplete_total (s : State) : ∃ t, execWakeComplete s = .next t := by
  unfold execWakeComplete
  (repeat' split) <;> exact ⟨_, rfl⟩

theorem execFrameTransmit_total (sd : Side) (frac : Nat) (s : State) : ∃ t, execFrameTransmit sd frac s = .next t := by
  unfold execFrameTransmit
  dsimp only
  (repeat' split) <;> exact ⟨_, rfl⟩

theorem execCollision_total (sd : Side) (s : State) : ∃ t, execCollision sd s = .next t := by
  unfold execCollision
  dsimp only
  (repeat' split) <;> exact ⟨_, rfl⟩

theorem execCreditFrameSend_total (sd : Side) (s : State) : ∃ t, execCreditFrameSend sd s = .next t := by
  unfold execCreditFrameSend
  (repeat' split) <;> exact ⟨_, rfl⟩

theorem execLinkUpResend_total (sd : Side) (s : State) : ∃ t, execLinkUpResend sd s = .next t := by
  unfold execLinkUpResend
  dsimp only
  (repeat' split) <;> exact ⟨_, rfl⟩

theorem execLinkDead_total (sd : Side) (s : State) : ∃ t, execLinkDead sd s = .next t := by
  unfold execLinkDead
  (repeat' split) <;> exact ⟨_, rfl⟩

theorem execBreakHealed_total (sd : Side) (s : State) : ∃ t, execBreakHealed sd s = .next t := by
  unfold execBreakHealed
  dsimp only
  (repeat' split) <;> exact ⟨_, rfl⟩

theorem execEnumTopTimeout_total (s : State) : ∃ t, execEnumTopTimeout s = .next t := by
  unfold execEnumTopTimeout
  (repeat' split) <;> exact ⟨_, rfl⟩

theorem execEnumRetry_total (s : State) : ∃ t, execEnumRetry s = .next t := by
  unfold execEnumRetry
  (repeat' split) <;> exact ⟨_, rfl⟩

theorem execAckTimer_total (orig : Nat) (multi : Bool) (cls : Nat) (twin : Bool) (s : State) : ∃ t, execAckTimer orig multi cls twin s = .next t := by
  unfold execAckTimer
  (repeat' split) <;> exact ⟨_, rfl⟩

theorem execNakRepeat_total (orig : Nat) (multi : Bool) (cls : Nat) (twin : Bool) (s : State) : ∃ t, execNakRepeat orig multi cls twin s = .next t := by
  unfold execNakRepeat
  (repeat' split) <;> exact ⟨_, rfl⟩

theorem execRetransmit_total (dest : Nat) (multi : Bool) (cls : Nat) (twin : Bool) (s : State) : ∃ t, execRetransmit dest multi cls twin s = .next t := by
  unfold execRetransmit
  dsimp only
  (repeat' split) <;> exact ⟨_, rfl⟩

theorem execAlarmResend_total (sd : Side) (s : State) : ∃ t, execAlarmResend sd s = .next t := by
  unfold execAlarmResend
  dsimp only
  (repeat' split) <;> exact ⟨_, rfl⟩

theorem execEventFrameSend_total (dest : Nat) (s : State) : ∃ t, execEventFrameSend dest s = .next t := by
  unfold execEventFrameSend
  dsimp only
  (repeat' split) <;> exact ⟨_, rfl⟩

theorem execTwinWindow_total (peer : Fin 24) (s : State) : ∃ t, execTwinWindow peer s = .next t := by
  unfold execTwinWindow
  dsimp only
  (repeat' split) <;> exact ⟨_, rfl⟩

theorem execHopTimeout_total (sd : Side) (s : State) : ∃ t, execHopTimeout sd s = .next t := by
  unfold execHopTimeout
  (repeat' split) <;> exact ⟨_, rfl⟩

theorem execHbInDecode_total (pat : HbPat) (s : State) : ∃ t, execHbInDecode pat s = .next t := by
  unfold execHbInDecode
  (repeat' split) <;> exact ⟨_, rfl⟩

theorem execSyncInEdge_total (frac highNs : Nat) (s : State) : ∃ t, execSyncInEdge frac highNs s = .next t := by
  unfold execSyncInEdge
  (repeat' split) <;> exact ⟨_, rfl⟩

theorem execTimeSetExpiry_total (s : State) : ∃ t, execTimeSetExpiry s = .next t := by
  unfold execTimeSetExpiry
  (repeat' split) <;> exact ⟨_, rfl⟩

theorem execAnchorHoldover_total (s : State) : ∃ t, execAnchorHoldover s = .next t := by
  unfold execAnchorHoldover
  (repeat' split) <;> exact ⟨_, rfl⟩

theorem execBeaconSend_total (s : State) : ∃ t, execBeaconSend s = .next t := by
  unfold execBeaconSend
  (repeat' split) <;> exact ⟨_, rfl⟩

theorem execBeacon_total (sd : Side) (f : Frame) (lq : LineQ) (frac residence : Nat) (s : State) : ∃ t, execBeacon sd f lq frac residence s = .next t := by
  unfold execBeacon
  dsimp only
  (repeat' split) <;> exact ⟨_, rfl⟩

theorem execBeaconTimeout_total (s : State) : ∃ t, execBeaconTimeout s = .next t := by
  unfold execBeaconTimeout
  (repeat' split) <;> exact ⟨_, rfl⟩

theorem execDelayMeasure_total (sd : Side) (s : State) : ∃ t, execDelayMeasure sd s = .next t := by
  unfold execDelayMeasure
  (repeat' split) <;> exact ⟨_, rfl⟩

theorem execDelayReq_total (sd : Side) (f : Frame) (lq : LineQ) (frac : Nat) (s : State) : ∃ t, execDelayReq sd f lq frac s = .next t := by
  unfold execDelayReq
  dsimp only
  (repeat' split) <;> exact ⟨_, rfl⟩

theorem execDelayResp_total (sd : Side) (f : Frame) (lq : LineQ) (frac : Nat) (s : State) : ∃ t, execDelayResp sd f lq frac s = .next t := by
  unfold execDelayResp
  dsimp only
  (repeat' split) <;> exact ⟨_, rfl⟩

theorem execHoldoverLimit_total (s : State) : ∃ t, execHoldoverLimit s = .next t := by
  unfold execHoldoverLimit
  (repeat' split) <;> exact ⟨_, rfl⟩

theorem execCellSample_total (ins : List CellIn) (s : State) : ∃ t, execCellSample ins s = .next t := by
  unfold execCellSample
  (repeat' split) <;> exact ⟨_, rfl⟩

theorem execLimitSample_total (ins : List CellIn) (s : State) : ∃ t, execLimitSample ins s = .next t := by
  unfold execLimitSample
  (repeat' split) <;> exact ⟨_, rfl⟩

theorem execLimitReport_total (s : State) : ∃ t, execLimitReport s = .next t := by
  unfold execLimitReport
  (repeat' split) <;> exact ⟨_, rfl⟩

theorem execClampTrip_total (pin : Fin 17) (s : State) : ∃ t, execClampTrip pin s = .next t := by
  unfold execClampTrip
  (repeat' split) <;> exact ⟨_, rfl⟩

theorem execClampRelease_total (pin : Fin 17) (s : State) : ∃ t, execClampRelease pin s = .next t := by
  unfold execClampRelease
  (repeat' split) <;> exact ⟨_, rfl⟩

theorem execSumCheck_total (s : State) : ∃ t, execSumCheck s = .next t := by
  unfold execSumCheck
  dsimp only
  (repeat' split) <;> exact ⟨_, rfl⟩

theorem execAuxSample_total (auxUV : List Nat) (vtrefUV : Nat) (s : State) : ∃ t, execAuxSample auxUV vtrefUV s = .next t := by
  unfold execAuxSample
  (repeat' split) <;> exact ⟨_, rfl⟩

theorem execCurrentSample_total (shuntNV : Int) (s : State) : ∃ t, execCurrentSample shuntNV s = .next t := by
  unfold execCurrentSample
  (repeat' split) <;> exact ⟨_, rfl⟩

theorem execHardLimitTimer_total (s : State) : ∃ t, execHardLimitTimer s = .next t := by
  unfold execHardLimitTimer
  (repeat' split) <;> exact ⟨_, rfl⟩

theorem execCurrentReport_total (s : State) : ∃ t, execCurrentReport s = .next t := by
  unfold execCurrentReport
  (repeat' split) <;> exact ⟨_, rfl⟩

theorem execRemoteStale_total (s : State) : ∃ t, execRemoteStale s = .next t := by
  unfold execRemoteStale
  (repeat' split) <;> exact ⟨_, rfl⟩

theorem execModulatorStuck_total (m : Fin 17) (s : State) : ∃ t, execModulatorStuck m s = .next t := by
  unfold execModulatorStuck
  (repeat' split) <;> exact ⟨_, rfl⟩

theorem execHostStreamFlush_total (stream : Byte) (s : State) : ∃ t, execHostStreamFlush stream s = .next t := by
  unfold execHostStreamFlush
  dsimp only
  (repeat' split) <;> exact ⟨_, rfl⟩

theorem execBalPeriod_total (meas : BalMeas) (s : State) : ∃ t, execBalPeriod meas s = .next t := by
  unfold execBalPeriod
  (repeat' split) <;> exact ⟨_, rfl⟩

theorem execBalTimeout_total (s : State) : ∃ t, execBalTimeout s = .next t := by
  unfold execBalTimeout
  (repeat' split) <;> exact ⟨_, rfl⟩

theorem execLoadCheck_total (startUV endUV gateOnMV gateOffMV : List Int) (s : State) : ∃ t, execLoadCheck startUV endUV gateOnMV gateOffMV s = .next t := by
  unfold execLoadCheck
  (repeat' split) <;> exact ⟨_, rfl⟩

theorem execDiagAgeExpiry_total (ch : Fin 16) (s : State) : ∃ t, execDiagAgeExpiry ch s = .next t := by
  unfold execDiagAgeExpiry
  dsimp only
  (repeat' split) <;> exact ⟨_, rfl⟩

theorem execStimStart_total (s : State) : ∃ t, execStimStart s = .next t := by
  unfold execStimStart
  (repeat' split) <;> exact ⟨_, rfl⟩

theorem execStimEnd_total (s : State) : ∃ t, execStimEnd s = .next t := by
  unfold execStimEnd
  (repeat' split) <;> exact ⟨_, rfl⟩

theorem execKernelTrigger_total (e : Engine) (s : State) : ∃ t, execKernelTrigger e s = .next t := by
  unfold execKernelTrigger
  dsimp only
  (repeat' split) <;> exact ⟨_, rfl⟩

theorem execWatchdog_total (e : Engine) (s : State) : ∃ t, execWatchdog e s = .next t := by
  unfold execWatchdog
  dsimp only
  (repeat' split) <;> exact ⟨_, rfl⟩

theorem execEndKernel_total (e : Engine) (a : Fin 16) (s : State) : ∃ t, execEndKernel e a s = .next t := by
  unfold execEndKernel
  dsimp only
  (repeat' split) <;> exact ⟨_, rfl⟩

theorem execSweepPass_total (s : State) : ∃ t, execSweepPass s = .next t := by
  unfold execSweepPass
  (repeat' split) <;> exact ⟨_, rfl⟩

theorem execSweepEnd_total (s : State) : ∃ t, execSweepEnd s = .next t := by
  unfold execSweepEnd
  (repeat' split) <;> exact ⟨_, rfl⟩

theorem execModelFitLaunch_total (s : State) : ∃ t, execModelFitLaunch s = .next t := by
  unfold execModelFitLaunch
  (repeat' split) <;> exact ⟨_, rfl⟩

theorem execImpedanceReport_total (s : State) : ∃ t, execImpedanceReport s = .next t := by
  unfold execImpedanceReport
  (repeat' split) <;> exact ⟨_, rfl⟩

theorem execDieMeasure_total (tenths : Int) (s : State) : ∃ t, execDieMeasure tenths s = .next t := by
  unfold execDieMeasure
  (repeat' split) <;> exact ⟨_, rfl⟩

theorem execComparatorTrip_total (s : State) : ∃ t, execComparatorTrip s = .next t := by
  unfold execComparatorTrip
  (repeat' split) <;> exact ⟨_, rfl⟩

theorem execThrottleStepTimer_total (pack : Bool) (s : State) : ∃ t, execThrottleStepTimer pack s = .next t := by
  unfold execThrottleStepTimer
  (repeat' split) <;> exact ⟨_, rfl⟩

theorem execDieSensorFault_total (hard : Bool) (s : State) : ∃ t, execDieSensorFault hard s = .next t := by
  unfold execDieSensorFault
  (repeat' split) <;> exact ⟨_, rfl⟩

theorem execUmberTempRead_total (tenths : Int) (s : State) : ∃ t, execUmberTempRead tenths s = .next t := by
  unfold execUmberTempRead
  (repeat' split) <;> exact ⟨_, rfl⟩

theorem execRorEval_total (s : State) : ∃ t, execRorEval s = .next t := by
  unfold execRorEval
  (repeat' split) <;> exact ⟨_, rfl⟩

theorem execThermalReport_total (s : State) : ∃ t, execThermalReport s = .next t := by
  unfold execThermalReport
  (repeat' split) <;> exact ⟨_, rfl⟩

theorem execSentFrame_total (port : Fin 2) (cal10ns : Nat) (pulses10ns : List Nat) (pause10ns : Option Nat) (s : State) : ∃ t, execSentFrame port cal10ns pulses10ns pause10ns s = .next t := by
  unfold execSentFrame
  (repeat' split) <;> exact ⟨_, rfl⟩

theorem execSerialMessage_total (port : Fin 2) (fmt : Bool) (ident : Byte) (value : BitVec 16) (crcOk : Bool) (s : State) : ∃ t, execSerialMessage port fmt ident value crcOk s = .next t := by
  unfold execSerialMessage
  dsimp only
  (repeat' split) <;> exact ⟨_, rfl⟩

theorem execSportReport_total (port : Fin 2) (s : State) : ∃ t, execSportReport port s = .next t := by
  unfold execSportReport
  (repeat' split) <;> exact ⟨_, rfl⟩

theorem execLineLow_total (port : Fin 2) (s : State) : ∃ t, execLineLow port s = .next t := by
  unfold execLineLow
  dsimp only
  (repeat' split) <;> exact ⟨_, rfl⟩

theorem execLineRetry_total (port : Fin 2) (s : State) : ∃ t, execLineRetry port s = .next t := by
  unfold execLineRetry
  dsimp only
  (repeat' split) <;> exact ⟨_, rfl⟩

theorem execSatTestTimeout_total (port : Fin 2) (s : State) : ∃ t, execSatTestTimeout port s = .next t := by
  unfold execSatTestTimeout
  dsimp only
  (repeat' split) <;> exact ⟨_, rfl⟩

theorem execWatchEval_total (s : State) : ∃ t, execWatchEval s = .next t := by
  unfold execWatchEval
  (repeat' split) <;> exact ⟨_, rfl⟩

theorem execAlarmDeferredActions_total (s : State) : ∃ t, execAlarmDeferredActions s = .next t := by
  unfold execAlarmDeferredActions
  (repeat' split) <;> exact ⟨_, rfl⟩

theorem execCriterionUnavailable_total (c : Fin 6) (s : State) : ∃ t, execCriterionUnavailable c s = .next t := by
  unfold execCriterionUnavailable
  dsimp only
  (repeat' split) <;> exact ⟨_, rfl⟩

theorem execZoneShareSend_total (s : State) : ∃ t, execZoneShareSend s = .next t := by
  unfold execZoneShareSend
  (repeat' split) <;> exact ⟨_, rfl⟩

theorem execGasLearnEnd_total (port : Fin 2) (s : State) : ∃ t, execGasLearnEnd port s = .next t := by
  unfold execGasLearnEnd
  dsimp only
  (repeat' split) <;> exact ⟨_, rfl⟩

theorem execGasBaselineUpdate_total (port : Fin 2) (s : State) : ∃ t, execGasBaselineUpdate port s = .next t := by
  unfold execGasBaselineUpdate
  dsimp only
  (repeat' split) <;> exact ⟨_, rfl⟩

theorem execWatchReport_total (s : State) : ∃ t, execWatchReport s = .next t := by
  unfold execWatchReport
  (repeat' split) <;> exact ⟨_, rfl⟩

theorem execProofDue_total (s : State) : ∃ t, execProofDue s = .next t := by
  unfold execProofDue
  (repeat' split) <;> exact ⟨_, rfl⟩

theorem execProofStart_total (meas : ProofIn) (s : State) : ∃ t, execProofStart meas s = .next t := by
  unfold execProofStart
  (repeat' split) <;> exact ⟨_, rfl⟩

theorem execProofComplete_total (s : State) : ∃ t, execProofComplete s = .next t := by
  unfold execProofComplete
  (repeat' split) <;> exact ⟨_, rfl⟩

theorem execProofOverdue_total (s : State) : ∃ t, execProofOverdue s = .next t := by
  unfold execProofOverdue
  (repeat' split) <;> exact ⟨_, rfl⟩

theorem execInputChange_total (k : Fin 4) (chB high : Bool) (samples : Nat) (s : State) : ∃ t, execInputChange k chB high samples s = .next t := by
  unfold execInputChange
  (repeat' split) <;> exact ⟨_, rfl⟩

theorem execTestPulse_total (b : Bool) (levels : List (Bool × Bool)) (s : State) : ∃ t, execTestPulse b levels s = .next t := by
  unfold execTestPulse
  (repeat' split) <;> exact ⟨_, rfl⟩

theorem execDiscrepancy_total (k : Fin 4) (s : State) : ∃ t, execDiscrepancy k s = .next t := by
  unfold execDiscrepancy
  dsimp only
  (repeat' split) <;> exact ⟨_, rfl⟩

theorem execRampDone_total (o : Fin 3) (s : State) : ∃ t, execRampDone o s = .next t := by
  unfold execRampDone
  (repeat' split) <;> exact ⟨_, rfl⟩

theorem execPullinDone_total (o : Fin 3) (s : State) : ∃ t, execPullinDone o s = .next t := by
  unfold execPullinDone
  (repeat' split) <;> exact ⟨_, rfl⟩

theorem execOffPulse_total (o : Fin 3) (mV : BitVec 16) (s : State) : ∃ t, execOffPulse o mV s = .next t := by
  unfold execOffPulse
  dsimp only
  (repeat' split) <;> exact ⟨_, rfl⟩

theorem execOutputShort_total (o : Fin 3) (s : State) : ∃ t, execOutputShort o s = .next t := by
  unfold execOutputShort
  (repeat' split) <;> exact ⟨_, rfl⟩

theorem execStuckOn_total (o : Fin 3) (s : State) : ∃ t, execStuckOn o s = .next t := by
  unfold execStuckOn
  (repeat' split) <;> exact ⟨_, rfl⟩

theorem execOpenLoad_total (o : Fin 3) (s : State) : ∃ t, execOpenLoad o s = .next t := by
  unfold execOpenLoad
  (repeat' split) <;> exact ⟨_, rfl⟩

theorem execVcoilLow_total (coil10mV : BitVec 12) (s : State) : ∃ t, execVcoilLow coil10mV s = .next t := by
  unfold execVcoilLow
  dsimp only
  (repeat' split) <;> exact ⟨_, rfl⟩

theorem execPreMaxTimeout_total (s : State) : ∃ t, execPreMaxTimeout s = .next t := by
  unfold execPreMaxTimeout
  (repeat' split) <;> exact ⟨_, rfl⟩

theorem execStateFrameSend_total (s : State) : ∃ t, execStateFrameSend s = .next t := by
  unfold execStateFrameSend
  (repeat' split) <;> exact ⟨_, rfl⟩

theorem execPeerLost_total (peer : Fin 24) (s : State) : ∃ t, execPeerLost peer s = .next t := by
  unfold execPeerLost
  (repeat' split) <;> exact ⟨_, rfl⟩

theorem execAliveTimeout_total (ch : Fin 8) (s : State) : ∃ t, execAliveTimeout ch s = .next t := by
  unfold execAliveTimeout
  (repeat' split) <;> exact ⟨_, rfl⟩

theorem execSafetyMessage_total (ch : Fin 8) (alive : Byte) (bytes : List Byte) (crc : Byte) (s : State) : ∃ t, execSafetyMessage ch alive bytes crc s = .next t := by
  unfold execSafetyMessage
  dsimp only
  (repeat' split) <;> exact ⟨_, rfl⟩

theorem execClassBEscalate_total (cause : Fin 11) (s : State) : ∃ t, execClassBEscalate cause s = .next t := by
  unfold execClassBEscalate
  (repeat' split) <;> exact ⟨_, rfl⟩

theorem execResetArmExpiry_total (s : State) : ∃ t, execResetArmExpiry s = .next t := by
  unfold execResetArmExpiry
  (repeat' split) <;> exact ⟨_, rfl⟩

theorem execResetPulse_total (highMs : Nat) (s : State) : ∃ t, execResetPulse highMs s = .next t := by
  unfold execResetPulse
  dsimp only
  (repeat' split) <;> exact ⟨_, rfl⟩

theorem execUmberSample_total (shuntNV uhvUV : Int) (s : State) : ∃ t, execUmberSample shuntNV uhvUV s = .next t := by
  unfold execUmberSample
  (repeat' split) <;> exact ⟨_, rfl⟩

theorem execIntervalClose_total (s : State) : ∃ t, execIntervalClose s = .next t := by
  unfold execIntervalClose
  (repeat' split) <;> exact ⟨_, rfl⟩

theorem execUmberSave_total (s : State) : ∃ t, execUmberSave s = .next t := by
  unfold execUmberSave
  (repeat' split) <;> exact ⟨_, rfl⟩

theorem execUmberSupplyLoss_total (s : State) : ∃ t, execUmberSupplyLoss s = .next t := by
  unfold execUmberSupplyLoss
  (repeat' split) <;> exact ⟨_, rfl⟩

theorem execUmberPowerUp_total (sealPin : Bool) (swid : Word) (s : State) : ∃ t, execUmberPowerUp sealPin swid s = .next t := by
  unfold execUmberPowerUp
  (repeat' split) <;> exact ⟨_, rfl⟩

theorem execSwidCheck_total (swid : Word) (s : State) : ∃ t, execSwidCheck swid s = .next t := by
  unfold execSwidCheck
  (repeat' split) <;> exact ⟨_, rfl⟩

theorem execSealNFall_total (s : State) : ∃ t, execSealNFall s = .next t := by
  unfold execSealNFall
  (repeat' split) <;> exact ⟨_, rfl⟩

theorem execSealNRise_total (s : State) : ∃ t, execSealNRise s = .next t := by
  unfold execSealNRise
  (repeat' split) <;> exact ⟨_, rfl⟩

theorem execInwardDiscard_total (s : State) : ∃ t, execInwardDiscard s = .next t := by
  unfold execInwardDiscard
  (repeat' split) <;> exact ⟨_, rfl⟩

theorem execRecordRequest_total (h : Fin 4) (s : State) : ∃ t, execRecordRequest h s = .next t := by
  unfold execRecordRequest
  dsimp only
  (repeat' split) <;> exact ⟨_, rfl⟩

theorem execRecordReturned_total (h : Fin 4) (s : State) : ∃ t, execRecordReturned h s = .next t := by
  unfold execRecordReturned
  dsimp only
  (repeat' split) <;> exact ⟨_, rfl⟩

theorem execMirrorRefresh_total (s : State) : ∃ t, execMirrorRefresh s = .next t := by
  unfold execMirrorRefresh
  (repeat' split) <;> exact ⟨_, rfl⟩

theorem execLinkDown_total (s : State) : ∃ t, execLinkDown s = .next t := by
  unfold execLinkDown
  (repeat' split) <;> exact ⟨_, rfl⟩

theorem execLogWrite_total (verify : List Bool) (s : State) : ∃ t, execLogWrite verify s = .next t := by
  unfold execLogWrite
  (repeat' split) <;> exact ⟨_, rfl⟩

theorem execLogMemoryTimeout_total (s : State) : ∃ t, execLogMemoryTimeout s = .next t := by
  unfold execLogMemoryTimeout
  (repeat' split) <;> exact ⟨_, rfl⟩

theorem execShadowUpdate_total (src : Byte) (s : State) : ∃ t, execShadowUpdate src s = .next t := by
  unfold execShadowUpdate
  dsimp only
  (repeat' split) <;> exact ⟨_, rfl⟩

theorem execOperatingMinute_total (s : State) : ∃ t, execOperatingMinute s = .next t := by
  unfold execOperatingMinute
  (repeat' split) <;> exact ⟨_, rfl⟩

theorem execInterDieLinkUp_total (s : State) : ∃ t, execInterDieLinkUp s = .next t := by
  unfold execInterDieLinkUp
  (repeat' split) <;> exact ⟨_, rfl⟩

theorem execSdCntExpiry_total (s : State) : ∃ t, execSdCntExpiry s = .next t := by
  unfold execSdCntExpiry
  (repeat' split) <;> exact ⟨_, rfl⟩

theorem execClassBTimerReset_total (cause : Fin 11) (s : State) : ∃ t, execClassBTimerReset cause s = .next t := by
  unfold execClassBTimerReset
  (repeat' split) <;> exact ⟨_, rfl⟩

theorem execLinePowerRestore_total (port : Fin 2) (stillLow : Bool) (s : State) : ∃ t, execLinePowerRestore port stillLow s = .next t := by
  unfold execLinePowerRestore
  dsimp only
  (repeat' split) <;> exact ⟨_, rfl⟩

theorem execBurstEnd_total (port : Fin 2) (s : State) : ∃ t, execBurstEnd port s = .next t := by
  unfold execBurstEnd
  dsimp only
  (repeat' split) <;> exact ⟨_, rfl⟩

theorem execUndefinedEncoding_total (e : Engine) (w : Word) (s : State) : ∃ t, execUndefinedEncoding e w s = .next t := by
  unfold execUndefinedEncoding
  dsimp only
  (repeat' split) <;> exact ⟨_, rfl⟩

/-- Every command of every chapter answers a next state. -/
theorem exec_total (c : Instr) (s : State) : ∃ t, exec c s = .next t :=
  match c with
  | .baudChange => execBaudChange_total s
  | .meterUpdateDone => execMeterUpdateDone_total s
  | .fwCheckDone => execFwCheckDone_total s
  | .fwRestart => execFwRestart_total s
  | .trialBootFail => execTrialBootFail_total s
  | .fwPartialTimeout => execFwPartialTimeout_total s
  | .cfgCheckDone writeOk => execCfgCheckDone_total writeOk s
  | .sealCheckDone writeOk => execSealCheckDone_total writeOk s
  | .owPeriodic => execOwPeriodic_total s
  | .contextRestore n ctx1 => execContextRestore_total n ctx1 s
  | .unseal rq key => execUnseal_total rq key s
  | .logCursorSet code => execLogCursorSet_total code s
  | .windowWrite addr mask value => execWindowWrite_total addr mask value s
  | .spiTransaction sdi => execSpiTransaction_total sdi s
  | .uartFrame rxd => execUartFrame_total rxd s
  | .commandDispatchable => execCommandDispatchable_total s
  | .dispatchTickEnd ecc => execDispatchTickEnd_total ecc s
  | .noReply p seq => execNoReply_total p seq s
  | .groupReplyTimeout p seq => execGroupReplyTimeout_total p seq s
  | .powerUp boot => execPowerUp_total boot s
  | .bootComplete => execBootComplete_total s
  | .rstNPulse lowUs => execRstNPulse_total lowUs s
  | .memberReset => execMemberReset_total s
  | .vstkLowSet => execVstkLowSet_total s
  | .vstkLowClear => execVstkLowClear_total s
  | .railFault vregBad vdd33Bad => execRailFault_total vregBad vdd33Bad s
  | .supplyUpdate vstk10mV vspMV => execSupplyUpdate_total vstk10mV vspMV s
  | .xtalStop => execXtalStop_total s
  | .clockCheck dev mosc => execClockCheck_total dev mosc s
  | .coreStall => execCoreStall_total s
  | .fabricStall cls wait100ns => execFabricStall_total cls wait100ns s
  | .idleEntry => execIdleEntry_total s
  | .modeEntry => execModeEntry_total s
  | .sentinelWake cellUV auxUV vtrefUV dieTenths => execSentinelWake_total cellUV auxUV vtrefUV dieTenths s
  | .sentinelBurst vspOk => execSentinelBurst_total vspOk s
  | .wakePin highUs => execWakePin_total highUs s
  | .hostWakeEdge p => execHostWakeEdge_total p s
  | .wakeTone sd => execWakeTone_total sd s
  | .wakeToneRepeat sd => execWakeToneRepeat_total sd s
  | .wakeComplete => execWakeComplete_total s
  | .frameTransmit sd frac => execFrameTransmit_total sd frac s
  | .collision sd => execCollision_total sd s
  | .creditFrameSend sd => execCreditFrameSend_total sd s
  | .linkUpResend sd => execLinkUpResend_total sd s
  | .linkDead sd => execLinkDead_total sd s
  | .breakHealed sd => execBreakHealed_total sd s
  | .enumTopTimeout => execEnumTopTimeout_total s
  | .enumRetry => execEnumRetry_total s
  | .ackTimer orig multi cls twin => execAckTimer_total orig multi cls twin s
  | .nakRepeat orig multi cls twin => execNakRepeat_total orig multi cls twin s
  | .retransmit dest multi cls twin => execRetransmit_total dest multi cls twin s
  | .alarmResend sd => execAlarmResend_total sd s
  | .eventFrameSend dest => execEventFrameSend_total dest s
  | .twinWindow peer => execTwinWindow_total peer s
  | .hopTimeout sd => execHopTimeout_total sd s
  | .hbInDecode pat => execHbInDecode_total pat s
  | .syncInEdge frac highNs => execSyncInEdge_total frac highNs s
  | .timeSetExpiry => execTimeSetExpiry_total s
  | .anchorHoldover => execAnchorHoldover_total s
  | .beaconSend => execBeaconSend_total s
  | .beacon sd f lq frac residence => execBeacon_total sd f lq frac residence s
  | .beaconTimeout => execBeaconTimeout_total s
  | .delayMeasure sd => execDelayMeasure_total sd s
  | .delayReq sd f lq frac => execDelayReq_total sd f lq frac s
  | .delayResp sd f lq frac => execDelayResp_total sd f lq frac s
  | .holdoverLimit => execHoldoverLimit_total s
  | .cellSample ins => execCellSample_total ins s
  | .limitSample ins => execLimitSample_total ins s
  | .limitReport => execLimitReport_total s
  | .clampTrip pin => execClampTrip_total pin s
  | .clampRelease pin => execClampRelease_total pin s
  | .sumCheck => execSumCheck_total s
  | .auxSample auxUV vtrefUV => execAuxSample_total auxUV vtrefUV s
  | .currentSample shuntNV => execCurrentSample_total shuntNV s
  | .hardLimitTimer => execHardLimitTimer_total s
  | .currentReport => execCurrentReport_total s
  | .remoteStale => execRemoteStale_total s
  | .modulatorStuck m => execModulatorStuck_total m s
  | .hostStreamFlush stream => execHostStreamFlush_total stream s
  | .balPeriod meas => execBalPeriod_total meas s
  | .balTimeout => execBalTimeout_total s
  | .loadCheck startUV endUV gateOnMV gateOffMV => execLoadCheck_total startUV endUV gateOnMV gateOffMV s
  | .diagAgeExpiry ch => execDiagAgeExpiry_total ch s
  | .stimStart => execStimStart_total s
  | .stimEnd => execStimEnd_total s
  | .kernelTrigger e => execKernelTrigger_total e s
  | .watchdog e => execWatchdog_total e s
  | .endKernel e a => execEndKernel_total e a s
  | .sweepPass => execSweepPass_total s
  | .sweepEnd => execSweepEnd_total s
  | .modelFitLaunch => execModelFitLaunch_total s
  | .impedanceReport => execImpedanceReport_total s
  | .dieMeasure tenths => execDieMeasure_total tenths s
  | .comparatorTrip => execComparatorTrip_total s
  | .throttleStepTimer pack => execThrottleStepTimer_total pack s
  | .dieSensorFault hard => execDieSensorFault_total hard s
  | .umberTempRead tenths => execUmberTempRead_total tenths s
  | .rorEval => execRorEval_total s
  | .thermalReport => execThermalReport_total s
  | .sentFrame port cal10ns pulses10ns pause10ns => execSentFrame_total port cal10ns pulses10ns pause10ns s
  | .serialMessage port fmt ident value crcOk => execSerialMessage_total port fmt ident value crcOk s
  | .sportReport port => execSportReport_total port s
  | .lineLow port => execLineLow_total port s
  | .lineRetry port => execLineRetry_total port s
  | .satTestTimeout port => execSatTestTimeout_total port s
  | .watchEval => execWatchEval_total s
  | .alarmDeferredActions => execAlarmDeferredActions_total s
  | .criterionUnavailable c => execCriterionUnavailable_total c s
  | .zoneShareSend => execZoneShareSend_total s
  | .gasLearnEnd port => execGasLearnEnd_total port s
  | .gasBaselineUpdate port => execGasBaselineUpdate_total port s
  | .watchReport => execWatchReport_total s
  | .proofDue => execProofDue_total s
  | .proofStart meas => execProofStart_total meas s
  | .proofComplete => execProofComplete_total s
  | .proofOverdue => execProofOverdue_total s
  | .inputChange k chB high samples => execInputChange_total k chB high samples s
  | .testPulse b levels => execTestPulse_total b levels s
  | .discrepancy k => execDiscrepancy_total k s
  | .rampDone o => execRampDone_total o s
  | .pullinDone o => execPullinDone_total o s
  | .offPulse o mV => execOffPulse_total o mV s
  | .outputShort o => execOutputShort_total o s
  | .stuckOn o => execStuckOn_total o s
  | .openLoad o => execOpenLoad_total o s
  | .vcoilLow coil10mV => execVcoilLow_total coil10mV s
  | .preMaxTimeout => execPreMaxTimeout_total s
  | .stateFrameSend => execStateFrameSend_total s
  | .peerLost peer => execPeerLost_total peer s
  | .aliveTimeout ch => execAliveTimeout_total ch s
  | .safetyMessage ch alive bytes crc => execSafetyMessage_total ch alive bytes crc s
  | .classBEscalate cause => execClassBEscalate_total cause s
  | .resetArmExpiry => execResetArmExpiry_total s
  | .resetPulse highMs => execResetPulse_total highMs s
  | .umberSample shuntNV uhvUV => execUmberSample_total shuntNV uhvUV s
  | .intervalClose => execIntervalClose_total s
  | .umberSave => execUmberSave_total s
  | .umberSupplyLoss => execUmberSupplyLoss_total s
  | .umberPowerUp sealPin swid => execUmberPowerUp_total sealPin swid s
  | .swidCheck swid => execSwidCheck_total swid s
  | .sealNFall => execSealNFall_total s
  | .sealNRise => execSealNRise_total s
  | .inwardDiscard => execInwardDiscard_total s
  | .recordRequest h => execRecordRequest_total h s
  | .recordReturned h => execRecordReturned_total h s
  | .mirrorRefresh => execMirrorRefresh_total s
  | .linkDown => execLinkDown_total s
  | .logWrite verify => execLogWrite_total verify s
  | .logMemoryTimeout => execLogMemoryTimeout_total s
  | .shadowUpdate src => execShadowUpdate_total src s
  | .operatingMinute => execOperatingMinute_total s
  | .interDieLinkUp => execInterDieLinkUp_total s
  | .sdCntExpiry => execSdCntExpiry_total s
  | .classBTimerReset cause => execClassBTimerReset_total cause s
  | .linePowerRestore port stillLow => execLinePowerRestore_total port stillLow s
  | .burstEnd port => execBurstEnd_total port s
  | .undefinedEncoding e w => execUndefinedEncoding_total e w s
  | .nop .. | .getId .. | .readReg .. | .writeReg .. | .setMode .. | .resetMember .. | .tagSync .. | .setBaud .. | .evtRead .. | .evtAck ..
  | .evtMask .. | .cmdResult .. | .enumerate .. | .chainStat .. | .timeSet .. | .timeGet .. | .cellRead .. | .auxRead .. | .currentRead ..
  | .streamOpen .. | .streamClose .. | .balSet .. | .balStop .. | .stimSet .. | .kernelLoad .. | .kernelCommit .. | .kernelLaunch ..
  | .codeCopyDone .. | .kernelStop .. | .resultRead .. | .sweepStart .. | .sportRead .. | .watchRead .. | .proofRun .. | .contactor ..
  | .currentLimit .. | .resetReq .. | .safeParamWrite .. | .safeParamRead .. | .commitSeal .. | .mtrRead .. | .mtrRecords .. | .mtrConfig ..
  | .mtrPubkey .. | .mtrSwid .. | .mtrUpdate .. | .logRead .. | .logFreeze .. | .fwLoad .. | .fwActivate .. | .bindHost .. | .keyProvision ..
  | .cfgWrite .. | .cfgCommit .. | .modeReq .. | .owStart | .start .. | .chkEnd .. | .abort .. | .suspend .. | .resume .. | .data .. | .exp ..
  | .chkJobEnd .. | .chkAlvResync .. | .portClr .. | .balDiagClr .. | .alarmClr .. | .logWinRead | .timeNsRead | .cellDataLatch | .auxDataLatch
  | .isnsDataLatch | .rpWrite .. | .sportCfgWrite .. | .breakStuck | .breakRelease | .lockoutExpiry .. | .powerOnReset | .vddioChange ..
  | .xtalTaken | .strobeTimeout | .crossingMessage .. | .transitFrame .. | .creditFrame .. | .linkUp .. | .breakFrame .. | .enumFrame ..
  | .enumEnd .. | .enumDone .. | .ack .. | .voidFrame .. | .commandFrame .. | .responseFrame .. | .eventFrame .. | .safetyFrame .. | .metro ..
  | .dataFrame .. | .timeLabel | .vtrefFault | .kernelNop .. | .li .. | .lih .. | .addi .. | .sop .. | .lds .. | .sts .. | .br .. | .loopr ..
  | .loopi .. | .stw .. | .ring .. | .tshp .. | .tld .. | .tst .. | .tew .. | .tews .. | .tmm .. | .ttr .. | .tcvt .. | .tred .. | .tmov ..
  | .tget .. | .tput .. | .tunpk .. | .txs .. | .txr .. | .sshp .. | .sld .. | .sst .. | .sew .. | .sscl .. | .sdot .. | .sfft .. | .sget ..
  | .sput .. | .sxs .. | .sxr .. | .sportStale .. | .vspAbsent | .criteriaStale | .zoneShareStale .. | .impedanceBaseline | .classBTimerSave
  | .logRateRefill | .freezeEnd | .vtrefWithinLimits | .offCntExpiry .. | .twinCauseEnd | .vspRestored => ⟨_, rfl⟩

theorem exec_steady (c : Instr) (s : State) {t : State} (hn : exec c s = .next t) : Steady s t :=
  match c with
  | .nop rq => (execNop_keeps rq s hn).steady
  | .getId rq => (execGetId_keeps rq s hn).steady
  | .readReg rq addr count ecc => (execReadReg_keeps rq addr count ecc s hn).steady
  | .writeReg rq addr mask value => execWriteReg_steady rq addr mask value s hn
  | .setMode rq mode key => (execSetMode_keeps rq mode key s hn).steady
  | .resetMember rq key => (execResetMember_keeps rq key s hn).steady
  | .tagSync rq nonce => (execTagSync_keeps rq nonce s hn).steady
  | .setBaud rq code => execSetBaud_steady rq code s hn
  | .baudChange => (execBaudChange_keeps s hn).steady
  | .evtRead rq max => (execEvtRead_keeps rq max s hn).steady
  | .evtAck rq src seq => (execEvtAck_keeps rq src seq s hn).steady
  | .evtMask rq mask => execEvtMask_steady rq mask s hn
  | .cmdResult rq seq => (execCmdResult_keeps rq seq s hn).steady
  | .enumerate rq => (execEnumerate_keeps rq s hn).steady
  | .chainStat rq => (execChainStat_keeps rq s hn).steady
  | .timeSet rq sec ns => (execTimeSet_keeps rq sec ns s hn).steady
  | .timeGet rq => (execTimeGet_keeps rq s hn).steady
  | .cellRead rq => (execCellRead_keeps rq s hn).steady
  | .auxRead rq => (execAuxRead_keeps rq s hn).steady
  | .currentRead rq => (execCurrentRead_keeps rq s hn).steady
  | .streamOpen rq stream rate slots => execStreamOpen_steady rq stream rate slots s hn
  | .streamClose rq stream => (execStreamClose_keeps rq stream s hn).steady
  | .balSet rq mask onTime => (execBalSet_keeps rq mask onTime s hn).steady
  | .balStop rq mask => (execBalStop_keeps rq mask s hn).steady
  | .stimSet rq mask wave dur freq bias amp => (execStimSet_keeps rq mask wave dur freq bias amp s hn).steady
  | .kernelLoad rq slot offset code written => (execKernelLoad_keeps rq slot offset code written s hn).steady
  | .kernelCommit rq slot crc => (execKernelCommit_keeps rq slot crc s hn).steady
  | .kernelLaunch rq slot engine args => (execKernelLaunch_keeps rq slot engine args s hn).steady
  | .codeCopyDone e => (execCodeCopyDone_keeps e s hn).steady
  | .kernelStop rq engine => (execKernelStop_keeps rq engine s hn).steady
  | .resultRead rq offset count ecc => (execResultRead_keeps rq offset count ecc s hn).steady
  | .sweepStart rq sec ns mask amp imax imin step => (execSweepStart_keeps rq sec ns mask amp imax imin step s hn).steady
  | .sportRead rq port => (execSportRead_keeps rq port s hn).steady
  | .watchRead rq => (execWatchRead_keeps rq s hn).steady
  | .proofRun rq => (execProofRun_keeps rq s hn).steady
  | .contactor rq output state => (execContactor_keeps rq output state s hn).steady
  | .currentLimit rq charge discharge => (execCurrentLimit_keeps rq charge discharge s hn).steady
  | .resetReq rq => (execResetReq_keeps rq s hn).steady
  | .safeParamWrite rq offset bytes => (execSafeParamWrite_keeps rq offset bytes s hn).steady
  | .safeParamRead rq => (execSafeParamRead_keeps rq s hn).steady
  | .commitSeal rq mordant => (execCommitSeal_keeps rq mordant s hn).steady
  | .mtrRead rq => (execMtrRead_keeps rq s hn).steady
  | .mtrRecords rq slots => (execMtrRecords_keeps rq slots s hn).steady
  | .mtrConfig rq interval => (execMtrConfig_keeps rq interval s hn).steady
  | .mtrPubkey rq => (execMtrPubkey_keeps rq s hn).steady
  | .mtrSwid rq => (execMtrSwid_keeps rq s hn).steady
  | .mtrUpdate rq offset image => (execMtrUpdate_keeps rq offset image s hn).steady
  | .meterUpdateDone => (execMeterUpdateDone_keeps s hn).steady
  | .logRead rq cursor count => (execLogRead_keeps rq cursor count s hn).steady
  | .logFreeze rq seconds => (execLogFreeze_keeps rq seconds s hn).steady
  | .fwLoad rq offset image => (execFwLoad_keeps rq offset image s hn).steady
  | .fwActivate rq crc => (execFwActivate_keeps rq crc s hn).steady
  | .fwCheckDone => (execFwCheckDone_keeps s hn).steady
  | .fwRestart => execFwRestart_steady s hn
  | .trialBootFail => execTrialBootFail_steady s hn
  | .fwPartialTimeout => (execFwPartialTimeout_keeps s hn).steady
  | .bindHost rq host position port authority => execBindHost_steady rq host position port authority s hn
  | .keyProvision rq host key => (execKeyProvision_keeps rq host key s hn).steady
  | .cfgWrite rq offset bytes => (execCfgWrite_keeps rq offset bytes s hn).steady
  | .cfgCommit rq crc => (execCfgCommit_keeps rq crc s hn).steady
  | .cfgCheckDone writeOk => (execCfgCheckDone_keeps writeOk s hn).steady
  | .sealCheckDone writeOk => (execSealCheckDone_keeps writeOk s hn).steady
  | .modeReq rq mode shipKey => (execModeReq_keeps rq mode shipKey s hn).steady
  | .owStart => (execOwStart_keeps s hn).steady
  | .owPeriodic => (execOwPeriodic_keeps s hn).steady
  | .start n => (execStart_keeps n s hn).steady
  | .chkEnd n => (execChkEnd_keeps n s hn).steady
  | .abort n => (execAbort_keeps n s hn).steady
  | .suspend n => (execSuspend_keeps n s hn).steady
  | .resume n => (execResume_keeps n s hn).steady
  | .data n w => (execData_keeps n w s hn).steady
  | .exp n w => (execExp_keeps n w s hn).steady
  | .contextRestore n ctx1 => (execContextRestore_keeps n ctx1 s hn).steady
  | .chkJobEnd n => (execChkJobEnd_keeps n s hn).steady
  | .chkAlvResync mask => (execChkAlvResync_keeps mask s hn).steady
  | .portClr north south => (execPortClr_keeps north south s hn).steady
  | .balDiagClr mask => (execBalDiagClr_keeps mask s hn).steady
  | .alarmClr rq key => (execAlarmClr_keeps rq key s hn).steady
  | .unseal rq key => (execUnseal_keeps rq key s hn).steady
  | .logCursorSet code => (execLogCursorSet_keeps code s hn).steady
  | .logWinRead => (execLogWinRead_keeps s hn).steady
  | .timeNsRead => (execTimeNsRead_keeps s hn).steady
  | .cellDataLatch => (execCellDataLatch_keeps s hn).steady
  | .auxDataLatch => (execAuxDataLatch_keeps s hn).steady
  | .isnsDataLatch => (execIsnsDataLatch_keeps s hn).steady
  | .rpWrite aux value => (execRpWrite_keeps aux value s hn).steady
  | .sportCfgWrite port value => execSportCfgWrite_steady port value s hn
  | .windowWrite addr mask value => (execWindowWrite_keeps addr mask value s hn).steady
  | .spiTransaction sdi => (execSpiTransaction_keeps sdi s hn).steady
  | .uartFrame rxd => (execUartFrame_keeps rxd s hn).steady
  | .breakStuck => (execBreakStuck_keeps s hn).steady
  | .breakRelease => (execBreakRelease_keeps s hn).steady
  | .lockoutExpiry h => (execLockoutExpiry_keeps h s hn).steady
  | .commandDispatchable => (execCommandDispatchable_keeps s hn).steady
  | .dispatchTickEnd ecc => execDispatchTickEnd_steady ecc s hn
  | .noReply p seq => (execNoReply_keeps p seq s hn).steady
  | .groupReplyTimeout p seq => (execGroupReplyTimeout_keeps p seq s hn).steady
  | .powerOnReset => execPowerOnReset_steady s hn
  | .powerUp boot => execPowerUp_steady boot s hn
  | .bootComplete => (execBootComplete_keeps s hn).steady
  | .rstNPulse lowUs => execRstNPulse_steady lowUs s hn
  | .memberReset => execMemberReset_steady s hn
  | .vstkLowSet => (execVstkLowSet_keeps s hn).steady
  | .vstkLowClear => (execVstkLowClear_keeps s hn).steady
  | .railFault vregBad vdd33Bad => (execRailFault_keeps vregBad vdd33Bad s hn).steady
  | .vddioChange present => (execVddioChange_keeps present s hn).steady
  | .supplyUpdate vstk10mV vspMV => (execSupplyUpdate_keeps vstk10mV vspMV s hn).steady
  | .xtalTaken => (execXtalTaken_keeps s hn).steady
  | .xtalStop => (execXtalStop_keeps s hn).steady
  | .clockCheck dev mosc => (execClockCheck_keeps dev mosc s hn).steady
  | .strobeTimeout => (execStrobeTimeout_keeps s hn).steady
  | .coreStall => (execCoreStall_keeps s hn).steady
  | .crossingMessage src dst cls bytes => (execCrossingMessage_keeps src dst cls bytes s hn).steady
  | .fabricStall cls wait100ns => (execFabricStall_keeps cls wait100ns s hn).steady
  | .idleEntry => (execIdleEntry_keeps s hn).steady
  | .modeEntry => (execModeEntry_keeps s hn).steady
  | .sentinelWake cellUV auxUV vtrefUV dieTenths => (execSentinelWake_keeps cellUV auxUV vtrefUV dieTenths s hn).steady
  | .sentinelBurst vspOk => (execSentinelBurst_keeps vspOk s hn).steady
  | .wakePin highUs => execWakePin_steady highUs s hn
  | .hostWakeEdge p => (execHostWakeEdge_keeps p s hn).steady
  | .wakeTone sd => execWakeTone_steady sd s hn
  | .wakeToneRepeat sd => (execWakeToneRepeat_keeps sd s hn).steady
  | .wakeComplete => (execWakeComplete_keeps s hn).steady
  | .frameTransmit sd frac => (execFrameTransmit_keeps sd frac s hn).steady
  | .transitFrame sd f lq => (execTransitFrame_keeps sd f lq s hn).steady
  | .collision sd => (execCollision_keeps sd s hn).steady
  | .creditFrame sd f lq => (execCreditFrame_keeps sd f lq s hn).steady
  | .creditFrameSend sd => (execCreditFrameSend_keeps sd s hn).steady
  | .linkUp sd f lq => (execLinkUp_keeps sd f lq s hn).steady
  | .linkUpResend sd => (execLinkUpResend_keeps sd s hn).steady
  | .linkDead sd => (execLinkDead_keeps sd s hn).steady
  | .breakHealed sd => (execBreakHealed_keeps sd s hn).steady
  | .breakFrame sd f lq => (execBreakFrame_keeps sd f lq s hn).steady
  | .enumFrame sd f lq => (execEnumFrame_keeps sd f lq s hn).steady
  | .enumTopTimeout => (execEnumTopTimeout_keeps s hn).steady
  | .enumEnd sd f lq => (execEnumEnd_keeps sd f lq s hn).steady
  | .enumRetry => (execEnumRetry_keeps s hn).steady
  | .enumDone sd f lq => (execEnumDone_keeps sd f lq s hn).steady
  | .ack sd f lq => (execAck_keeps sd f lq s hn).steady
  | .ackTimer orig multi cls twin => (execAckTimer_keeps orig multi cls twin s hn).steady
  | .nakRepeat orig multi cls twin => (execNakRepeat_keeps orig multi cls twin s hn).steady
  | .retransmit dest multi cls twin => (execRetransmit_keeps dest multi cls twin s hn).steady
  | .voidFrame sd f lq => (execVoidFrame_keeps sd f lq s hn).steady
  | .alarmResend sd => (execAlarmResend_keeps sd s hn).steady
  | .commandFrame sd f lq => (execCommandFrame_keeps sd f lq s hn).steady
  | .responseFrame sd f lq => (execResponseFrame_keeps sd f lq s hn).steady
  | .eventFrame sd f lq => (execEventFrame_keeps sd f lq s hn).steady
  | .eventFrameSend dest => (execEventFrameSend_keeps dest s hn).steady
  | .safetyFrame sd f lq => (execSafetyFrame_keeps sd f lq s hn).steady
  | .twinWindow peer => (execTwinWindow_keeps peer s hn).steady
  | .metro sd f lq => (execMetro_keeps sd f lq s hn).steady
  | .dataFrame sd f lq => (execDataFrame_keeps sd f lq s hn).steady
  | .hopTimeout sd => (execHopTimeout_keeps sd s hn).steady
  | .hbInDecode pat => (execHbInDecode_keeps pat s hn).steady
  | .syncInEdge frac highNs => (execSyncInEdge_keeps frac highNs s hn).steady
  | .timeSetExpiry => (execTimeSetExpiry_keeps s hn).steady
  | .anchorHoldover => (execAnchorHoldover_keeps s hn).steady
  | .beaconSend => (execBeaconSend_keeps s hn).steady
  | .beacon sd f lq frac residence => (execBeacon_keeps sd f lq frac residence s hn).steady
  | .beaconTimeout => (execBeaconTimeout_keeps s hn).steady
  | .delayMeasure sd => (execDelayMeasure_keeps sd s hn).steady
  | .delayReq sd f lq frac => (execDelayReq_keeps sd f lq frac s hn).steady
  | .delayResp sd f lq frac => (execDelayResp_keeps sd f lq frac s hn).steady
  | .holdoverLimit => (execHoldoverLimit_keeps s hn).steady
  | .timeLabel => (execTimeLabel_keeps s hn).steady
  | .cellSample ins => (execCellSample_keeps ins s hn).steady
  | .limitSample ins => (execLimitSample_keeps ins s hn).steady
  | .limitReport => (execLimitReport_keeps s hn).steady
  | .clampTrip pin => (execClampTrip_keeps pin s hn).steady
  | .clampRelease pin => (execClampRelease_keeps pin s hn).steady
  | .sumCheck => (execSumCheck_keeps s hn).steady
  | .auxSample auxUV vtrefUV => (execAuxSample_keeps auxUV vtrefUV s hn).steady
  | .vtrefFault => (execVtrefFault_keeps s hn).steady
  | .currentSample shuntNV => (execCurrentSample_keeps shuntNV s hn).steady
  | .hardLimitTimer => (execHardLimitTimer_keeps s hn).steady
  | .currentReport => (execCurrentReport_keeps s hn).steady
  | .remoteStale => (execRemoteStale_keeps s hn).steady
  | .modulatorStuck m => (execModulatorStuck_keeps m s hn).steady
  | .hostStreamFlush stream => (execHostStreamFlush_keeps stream s hn).steady
  | .balPeriod meas => (execBalPeriod_keeps meas s hn).steady
  | .balTimeout => (execBalTimeout_keeps s hn).steady
  | .loadCheck startUV endUV gateOnMV gateOffMV => (execLoadCheck_keeps startUV endUV gateOnMV gateOffMV s hn).steady
  | .diagAgeExpiry ch => (execDiagAgeExpiry_keeps ch s hn).steady
  | .stimStart => (execStimStart_keeps s hn).steady
  | .stimEnd => (execStimEnd_keeps s hn).steady
  | .kernelTrigger e => (execKernelTrigger_keeps e s hn).steady
  | .watchdog e => (execWatchdog_keeps e s hn).steady
  | .kernelNop e => (execKernelNop_keeps e s hn).steady
  | .li e d k => (execLi_keeps e d k s hn).steady
  | .lih e d k => (execLih_keeps e d k s hn).steady
  | .addi e d a k => (execAddi_keeps e d a k s hn).steady
  | .sop e d a b op => (execSop_keeps e d a b op s hn).steady
  | .lds e d a k ecc => (execLds_keeps e d a k ecc s hn).steady
  | .sts e d a k => (execSts_keeps e d a k s hn).steady
  | .br e cond a b target => (execBr_keeps e cond a b target s hn).steady
  | .loopr e a last => (execLoopr_keeps e a last s hn).steady
  | .loopi e count last => (execLoopi_keeps e count last s hn).steady
  | .endKernel e a => (execEndKernel_keeps e a s hn).steady
  | .stw e d a clear => (execStw_keeps e d a clear s hn).steady
  | .ring e d a write aux => (execRing_keeps e d a write aux s hn).steady
  | .tshp d p => (execTshp_keeps d p s hn).steady
  | .tld d a b p ecc => (execTld_keeps d a b p ecc s hn).steady
  | .tst d a b => (execTst_keeps d a b s hn).steady
  | .tew d a b op => (execTew_keeps d a b op s hn).steady
  | .tews d a c op => (execTews_keeps d a c op s hn).steady
  | .tmm d a b op => (execTmm_keeps d a b op s hn).steady
  | .ttr d a => (execTtr_keeps d a s hn).steady
  | .tcvt d a ty exponent => (execTcvt_keeps d a ty exponent s hn).steady
  | .tred d a op => (execTred_keeps d a op s hn).steady
  | .tmov d a => (execTmov_keeps d a s hn).steady
  | .tget d a row col => (execTget_keeps d a row col s hn).steady
  | .tput d a row col => (execTput_keeps d a row col s hn).steady
  | .tunpk d a c op => (execTunpk_keeps d a c op s hn).steady
  | .txs a => (execTxs_keeps a s hn).steady
  | .txr d => (execTxr_keeps d s hn).steady
  | .sshp d len => (execSshp_keeps d len s hn).steady
  | .sld d a len ecc => (execSld_keeps d a len ecc s hn).steady
  | .sst d a => (execSst_keeps d a s hn).steady
  | .sew d a b op => (execSew_keeps d a b op s hn).steady
  | .sscl d a c => (execSscl_keeps d a c s hn).steady
  | .sdot d a b h => (execSdot_keeps d a b h s hn).steady
  | .sfft d a inverse => (execSfft_keeps d a inverse s hn).steady
  | .sget d a idx => (execSget_keeps d a idx s hn).steady
  | .sput d a idx => (execSput_keeps d a idx s hn).steady
  | .sxs a => (execSxs_keeps a s hn).steady
  | .sxr d => (execSxr_keeps d s hn).steady
  | .sweepPass => (execSweepPass_keeps s hn).steady
  | .sweepEnd => (execSweepEnd_keeps s hn).steady
  | .modelFitLaunch => (execModelFitLaunch_keeps s hn).steady
  | .impedanceReport => (execImpedanceReport_keeps s hn).steady
  | .dieMeasure tenths => (execDieMeasure_keeps tenths s hn).steady
  | .comparatorTrip => (execComparatorTrip_keeps s hn).steady
  | .throttleStepTimer pack => (execThrottleStepTimer_keeps pack s hn).steady
  | .dieSensorFault hard => (execDieSensorFault_keeps hard s hn).steady
  | .umberTempRead tenths => (execUmberTempRead_keeps tenths s hn).steady
  | .rorEval => (execRorEval_keeps s hn).steady
  | .thermalReport => (execThermalReport_keeps s hn).steady
  | .sentFrame port cal10ns pulses10ns pause10ns => (execSentFrame_keeps port cal10ns pulses10ns pause10ns s hn).steady
  | .serialMessage port fmt ident value crcOk => (execSerialMessage_keeps port fmt ident value crcOk s hn).steady
  | .sportReport port => (execSportReport_keeps port s hn).steady
  | .sportStale port => (execSportStale_keeps port s hn).steady
  | .lineLow port => (execLineLow_keeps port s hn).steady
  | .lineRetry port => (execLineRetry_keeps port s hn).steady
  | .vspAbsent => (execVspAbsent_keeps s hn).steady
  | .satTestTimeout port => (execSatTestTimeout_keeps port s hn).steady
  | .watchEval => (execWatchEval_keeps s hn).steady
  | .alarmDeferredActions => (execAlarmDeferredActions_keeps s hn).steady
  | .criteriaStale => (execCriteriaStale_keeps s hn).steady
  | .criterionUnavailable c => (execCriterionUnavailable_keeps c s hn).steady
  | .zoneShareSend => (execZoneShareSend_keeps s hn).steady
  | .zoneShareStale peer => (execZoneShareStale_keeps peer s hn).steady
  | .gasLearnEnd port => (execGasLearnEnd_keeps port s hn).steady
  | .gasBaselineUpdate port => (execGasBaselineUpdate_keeps port s hn).steady
  | .impedanceBaseline => (execImpedanceBaseline_keeps s hn).steady
  | .watchReport => (execWatchReport_keeps s hn).steady
  | .proofDue => (execProofDue_keeps s hn).steady
  | .proofStart meas => (execProofStart_keeps meas s hn).steady
  | .proofComplete => (execProofComplete_keeps s hn).steady
  | .proofOverdue => (execProofOverdue_keeps s hn).steady
  | .inputChange k chB high samples => (execInputChange_keeps k chB high samples s hn).steady
  | .testPulse b levels => (execTestPulse_keeps b levels s hn).steady
  | .discrepancy k => (execDiscrepancy_keeps k s hn).steady
  | .rampDone o => (execRampDone_keeps o s hn).steady
  | .pullinDone o => (execPullinDone_keeps o s hn).steady
  | .offPulse o mV => (execOffPulse_keeps o mV s hn).steady
  | .outputShort o => (execOutputShort_keeps o s hn).steady
  | .stuckOn o => (execStuckOn_keeps o s hn).steady
  | .openLoad o => (execOpenLoad_keeps o s hn).steady
  | .vcoilLow coil10mV => (execVcoilLow_keeps coil10mV s hn).steady
  | .preMaxTimeout => (execPreMaxTimeout_keeps s hn).steady
  | .stateFrameSend => (execStateFrameSend_keeps s hn).steady
  | .peerLost peer => (execPeerLost_keeps peer s hn).steady
  | .aliveTimeout ch => (execAliveTimeout_keeps ch s hn).steady
  | .safetyMessage ch alive bytes crc => (execSafetyMessage_keeps ch alive bytes crc s hn).steady
  | .classBEscalate cause => (execClassBEscalate_keeps cause s hn).steady
  | .classBTimerSave => (execClassBTimerSave_keeps s hn).steady
  | .resetArmExpiry => (execResetArmExpiry_keeps s hn).steady
  | .resetPulse highMs => (execResetPulse_keeps highMs s hn).steady
  | .umberSample shuntNV uhvUV => (execUmberSample_keeps shuntNV uhvUV s hn).steady
  | .intervalClose => (execIntervalClose_keeps s hn).steady
  | .umberSave => (execUmberSave_keeps s hn).steady
  | .umberSupplyLoss => (execUmberSupplyLoss_keeps s hn).steady
  | .umberPowerUp sealPin swid => (execUmberPowerUp_keeps sealPin swid s hn).steady
  | .swidCheck swid => (execSwidCheck_keeps swid s hn).steady
  | .sealNFall => (execSealNFall_keeps s hn).steady
  | .sealNRise => (execSealNRise_keeps s hn).steady
  | .inwardDiscard => (execInwardDiscard_keeps s hn).steady
  | .recordRequest h => (execRecordRequest_keeps h s hn).steady
  | .recordReturned h => (execRecordReturned_keeps h s hn).steady
  | .mirrorRefresh => (execMirrorRefresh_keeps s hn).steady
  | .linkDown => (execLinkDown_keeps s hn).steady
  | .logWrite verify => (execLogWrite_keeps verify s hn).steady
  | .logMemoryTimeout => (execLogMemoryTimeout_keeps s hn).steady
  | .shadowUpdate src => (execShadowUpdate_keeps src s hn).steady
  | .logRateRefill => (execLogRateRefill_keeps s hn).steady
  | .freezeEnd => (execFreezeEnd_keeps s hn).steady
  | .operatingMinute => (execOperatingMinute_keeps s hn).steady
  | .interDieLinkUp => (execInterDieLinkUp_keeps s hn).steady
  | .vtrefWithinLimits => (execVtrefWithinLimits_keeps s hn).steady
  | .sdCntExpiry => (execSdCntExpiry_keeps s hn).steady
  | .offCntExpiry sd => (execOffCntExpiry_keeps sd s hn).steady
  | .twinCauseEnd => (execTwinCauseEnd_keeps s hn).steady
  | .classBTimerReset cause => (execClassBTimerReset_keeps cause s hn).steady
  | .linePowerRestore port stillLow => (execLinePowerRestore_keeps port stillLow s hn).steady
  | .burstEnd port => (execBurstEnd_keeps port s hn).steady
  | .vspRestored => (execVspRestored_keeps s hn).steady
  | .undefinedEncoding e w => (execUndefinedEncoding_keeps e w s hn).steady

/-! ## The clock -/

theorem addNs_keeps (n : Nat) (s : State) : Keeps s (addNs n s) := by
  unfold addNs
  split <;> exact ⟨rfl, rfl, rfl, rfl⟩

/-- A tick of the local clock moves the clock by one, and leaves the queue, the registers and the masks alone. -/
theorem clockTick_keeps (s : State) : Keeps { s with clk := s.clk + 1 } (clockTick s) := by
  unfold clockTick
  dsimp only
  split
  · exact addNs_keeps _ _
  · exact Keeps.refl _

/-- Settles O1: `step` on a queue with a front is the execution of that front. -/
theorem stepRunsFront : Obligations.StepRunsFront := by
  intro c rest s h
  rw [step, h]

/-- Settles O2: on an empty queue `step` is a tick of the clock. -/
theorem idleStep : Obligations.IdleStep := by
  intro s h
  refine ⟨by rw [step, h], (clockTick_keeps s).2.1, (clockTick_keeps s).1.trans h⟩

/-- Settles O3: every row keeps the queue and the clock, row by row. -/
theorem commandsNeverStop : Obligations.CommandsNeverStop := by
  intro c s
  obtain ⟨t, ht⟩ := exec_total c s
  exact ⟨t, ht, (exec_steady c s ht).1⟩

/-- Settles O4: a step runs the front command on the state with the queue's rest, or lets one clock tick pass; neither the queue nor the clock is in the
invariant, and every command keeps it. -/
theorem invariantKept : Obligations.InvariantKept := by
  intro s t hs hstep
  unfold step at hstep
  split at hstep
  · cases hstep
    exact (clockTick_keeps s).inv (hs.congr rfl rfl)
  case h_2 c rest _ => exact (exec_steady c _ hstep).2 (hs.congr rfl rfl)

end Sys2Proof.Machine
end

section
/-! Indigo's instruction words (R488 to R490, R505 to R508): a word and its fields determine each other. -/

namespace Sys2Proof.Machine

open Sys2Proof

/-- What an engine makes of the fields of a word. -/
def decodeFields (e : Engine) (op d a b c f k : Nat) : Option IInstr :=
  if op < 0x10 then decodeScalar op d a b c f k
  else match e with
    | .te => decodeTile op d a b c f
    | .se => decodeSpec op d a b c f

theorem decodeFields_scalar (e : Engine) {op d a b c f k : Nat} (h : op < 0x10) : decodeFields e op d a b c f k = decodeScalar op d a b c f k := if_pos h

/-- The fields of a word of format R are those it was made of. -/
theorem decodeI_wordR (e : Engine) {op d a b c f : Nat} (ho : op < 64) (hd : d < 16) (ha : a < 16) (hb : b < 16) (hc : c < 16) (hf : f < 1024) :
    decodeI e (wordR op d a b c f) = decodeFields e op d a b c f (b * 2 ^ 14 + c * 2 ^ 10 + f) := by
  have hn : (wordR op d a b c f).toNat = op * 2 ^ 26 + d * 2 ^ 22 + a * 2 ^ 18 + b * 2 ^ 14 + c * 2 ^ 10 + f := by
    rw [wordR, BitVec.toNat_ofNat, Nat.mod_eq_of_lt (by omega)]
  have hop : (wordR op d a b c f).toNat / 2 ^ 26 = op := by omega
  have hd' : (wordR op d a b c f).toNat / 2 ^ 22 % 16 = d := by omega
  have ha' : (wordR op d a b c f).toNat / 2 ^ 18 % 16 = a := by omega
  have hb' : (wordR op d a b c f).toNat / 2 ^ 14 % 16 = b := by omega
  have hc' : (wordR op d a b c f).toNat / 2 ^ 10 % 16 = c := by omega
  have hf' : (wordR op d a b c f).toNat % 2 ^ 10 = f := by omega
  have hk' : (wordR op d a b c f).toNat % 2 ^ 18 = b * 2 ^ 14 + c * 2 ^ 10 + f := by omega
  unfold decodeI
  dsimp only
  rw [hop, hd', ha', hb', hc', hf', hk']
  rfl

/-- A word of format I is one of format R, its constant cut into that format's fields. -/
theorem wordI_eq_wordR (op d a : Nat) (k : Nat) : wordI op d a k = wordR op d a (k / 2 ^ 14) (k / 2 ^ 10 % 16) (k % 2 ^ 10) := by
  exact congrArg (BitVec.ofNat 32) (by omega)

theorem decodeI_wordI (e : Engine) {op d a k : Nat} (ho : op < 64) (hd : d < 16) (ha : a < 16) (hk : k < 2 ^ 18) :
    decodeI e (wordI op d a k) = decodeFields e op d a (k / 2 ^ 14) (k / 2 ^ 10 % 16) (k % 2 ^ 10) k := by
  have hk' : k / 2 ^ 14 * 2 ^ 14 + k / 2 ^ 10 % 16 * 2 ^ 10 + k % 2 ^ 10 = k := by omega
  rw [wordI_eq_wordR, decodeI_wordR e ho hd ha (by omega) (by omega) (by omega), hk']

/-- The count of `LOOPI` reaches into the field that other words have for a register. -/
theorem wordI_loopi (count last : BitVec 11) :
    wordI 0x09 0 0 (count.toNat * 2 ^ 11 + last.toNat) = wordI 0x09 0 (count.toNat / 2 ^ 7) (count.toNat % 2 ^ 7 * 2 ^ 11 + last.toNat) := by
  exact congrArg (BitVec.ofNat 32) (by omega)

/-- Every word is one of format R. -/
theorem eq_wordR (w : Word) : w = wordR (w.toNat / 2 ^ 26) (w.toNat / 2 ^ 22 % 16) (w.toNat / 2 ^ 18 % 16) (w.toNat / 2 ^ 14 % 16) (w.toNat / 2 ^ 10 % 16)
    (w.toNat % 2 ^ 10) := by
  have hw := w.isLt
  refine BitVec.eq_of_toNat_eq ?_
  rw [wordR, BitVec.toNat_ofNat, Nat.mod_eq_of_lt (by omega)]
  omega

/-- The field of n values that holds v. -/
theorem ofNat_eq_of_mod {n x : Nat} [NeZero n] {v : Fin n} (h : x % n = v.val) : Fin.ofNat n x = v := Fin.ext h

theorem ofNat_eq_of_mod_two_pow {n x : Nat} {v : BitVec n} (h : x % 2 ^ n = v.toNat) : BitVec.ofNat n x = v := BitVec.eq_of_toNat_eq h

/-- Settles O46: the word's fields are the instruction's operands, and each row's decoder takes them back out of its fields. -/
theorem indigoRoundTrip : Obligations.IndigoRoundTrip := by
  intro e i hfit
  cases i
  case nop | sop | endK =>
    simp (disch := omega) [encodeI, decodeI_wordR, decodeFields, decodeScalar]
  case li | lih | addi | lds | sts =>
    simp (disch := omega) [encodeI, decodeI_wordI, decodeFields, decodeScalar]
  case br cond a b target =>
    have hfree : (b.val * 16384 + target.toNat) / 2048 % 8 = 0 := by omega
    have hb : Fin.ofNat 16 ((b.val * 16384 + target.toNat) / 16384) = b := ofNat_eq_of_mod (by omega)
    have htarget : BitVec.ofNat 11 (b.val * 16384 + target.toNat) = target := ofNat_eq_of_mod_two_pow (by omega)
    rw [encodeI, decodeI_wordI e (by decide) (by omega) (by omega) (by omega)]
    simp [decodeFields, decodeScalar, -Fin.ofNat_eq_cast, hfree, hb, htarget]
  case loopr a last =>
    have hfree : last.toNat < 2048 := last.isLt
    rw [encodeI, decodeI_wordI e (by decide) (by decide) (by omega) (by omega)]
    simp [decodeFields, decodeScalar, hfree]
  case loopi count last =>
    have hk : (count.toNat % 2 ^ 7 * 2 ^ 11 + last.toNat) / 2 ^ 11 + count.toNat / 2 ^ 7 * 2 ^ 7 = count.toNat := by omega
    have hlast : BitVec.ofNat 11 (count.toNat % 2 ^ 7 * 2 ^ 11 + last.toNat) = last := ofNat_eq_of_mod_two_pow (by omega)
    have ha : count.toNat / 2 ^ 7 < 16 := by omega
    rw [encodeI, wordI_loopi, decodeI_wordI e (by decide) (by decide) ha (by omega), decodeFields_scalar _ (by decide), decodeScalar, hk, hlast, if_pos ⟨rfl, ha, count.isLt⟩,
      BitVec.ofNat_toNat, BitVec.setWidth_eq]
  case stw d a clear =>
    cases clear <;> simp (disch := omega) [encodeI, decodeI_wordR, decodeFields, decodeScalar]
  case ring d a write aux =>
    cases write <;> cases aux <;> simp (disch := omega) [encodeI, decodeI_wordR, decodeFields, decodeScalar]
  case tshp | tld | tst | tew | tews | tmm | ttr | tred | tmov | tunpk | txs | txr =>
    cases e
    case se => cases hfit
    case te => simp (disch := omega) [encodeI, decodeI_wordR, decodeFields, decodeTile]
  case tcvt d a ty x =>
    have hty : Fin.ofNat 4 (ty.val + 4 * x.toNat) = ty := ofNat_eq_of_mod (by omega)
    have hx : (ty.val + 4 * x.toNat) / 4 = x.toNat := by omega
    cases e
    case se => cases hfit
    case te =>
      rw [encodeI, decodeI_wordR .te (by decide) (by omega) (by omega) (by decide) (by decide) (by omega)]
      simp [decodeFields, decodeTile, -Fin.ofNat_eq_cast, hty, hx]
  case tget d a row col | tput d a row col =>
    have hrange : row.val + 16 * col.val < 256 := by omega
    have hrow : Fin.ofNat 16 (row.val + 16 * col.val) = row := ofNat_eq_of_mod (by omega)
    have hcol : Fin.ofNat 16 ((row.val + 16 * col.val) / 16) = col := ofNat_eq_of_mod (by omega)
    cases e
    case se => cases hfit
    case te =>
      rw [encodeI, decodeI_wordR .te (by decide) (by omega) (by omega) (by decide) (by decide) (by omega)]
      simp [decodeFields, decodeTile, -Fin.ofNat_eq_cast, hrange, hrow, hcol]
  case sshp | sld =>
    cases e
    case te => cases hfit
    case se =>
      have hlen : _ < 256 := of_decide_eq_true hfit
      simp (disch := omega) [encodeI, decodeI_wordR, decodeFields, decodeSpec, hlen]
  case sst | sew | sscl | sdot | sxs | sxr =>
    cases e
    case te => cases hfit
    case se => simp (disch := omega) [encodeI, decodeI_wordR, decodeFields, decodeSpec]
  case sget d a idx | sput d a idx =>
    have hrange : idx.toNat < 256 := idx.isLt
    cases e
    case te => cases hfit
    case se => simp (disch := omega) [encodeI, decodeI_wordR, decodeFields, decodeSpec, hrange]
  case sfft d a inverse =>
    cases e
    case te => cases hfit
    case se => cases inverse <;> simp (disch := omega) [encodeI, decodeI_wordR, decodeFields, decodeSpec]

/-! ## Exactness -/

/-- A field taken out of a word and put back in is itself. -/
theorem val_ofNat_of_lt {n x : Nat} [NeZero n] (h : x < n) : (Fin.ofNat n x).val = x := Nat.mod_eq_of_lt h

theorem toNat_ofNat_of_lt {n x : Nat} (h : x < 2 ^ n) : (BitVec.ofNat n x).toNat = x := Nat.mod_eq_of_lt h

/-- A row that holds where its free fields are 0. -/
theorem of_guarded {p : Prop} [Decidable p] {x i : IInstr} (h : (if p then some x else none) = some i) : p ∧ x = i := by
  simpa using h

section

variable {op d a b c f : Nat} {i : IInstr} (hd : d < 16) (ha : a < 16) (hb : b < 16) (hc : c < 16) (hf : f < 1024)
include hd ha hb hc hf

theorem encodeI_of_decodeTile (h : decodeTile op d a b c f = some i) : encodeI i = wordR op d a b c f ∧ fitsEngine .te i = true := by
  unfold decodeTile at h
  dsimp only at h
  split at h
  case h_16 => cases h
  all_goals obtain ⟨hfields, rfl⟩ := of_guarded h
  case h_8 =>
    have hjoin : f % 4 + 4 * (f / 4) = f := by omega
    simp (disch := omega) [encodeI, fitsEngine, Nat.mod_eq_of_lt, hfields, hjoin]
  case h_11 | h_12 =>
    have hjoin : f % 16 + 16 * (f / 16) = f := by omega
    simp (disch := omega) [encodeI, fitsEngine, Nat.mod_eq_of_lt, hfields, hjoin]
  all_goals simp (disch := omega) [encodeI, fitsEngine, Nat.mod_eq_of_lt, hfields]

theorem encodeI_of_decodeSpec (h : decodeSpec op d a b c f = some i) : encodeI i = wordR op d a b c f ∧ fitsEngine .se i = true := by
  unfold decodeSpec at h
  dsimp only at h
  split at h
  case h_12 => cases h
  all_goals obtain ⟨hfields, rfl⟩ := of_guarded h
  case h_7 =>
    have hflag : (if f = 1 then 1 else 0) = f := by split <;> omega
    simp (disch := omega) [encodeI, fitsEngine, Nat.mod_eq_of_lt, hfields, hflag]
  all_goals simp (disch := omega) [encodeI, fitsEngine, Nat.mod_eq_of_lt, hfields]

theorem encodeI_of_decodeScalar (e : Engine) (h : decodeScalar op d a b c f (b * 2 ^ 14 + c * 2 ^ 10 + f) = some i) :
    encodeI i = wordR op d a b c f ∧ fitsEngine e i = true := by
  have hconst (op a : Nat) : wordI op d a (b * 16384 + c * 1024 + f) = wordR op d a b c f := congrArg (BitVec.ofNat 32) (by omega)
  unfold decodeScalar at h
  dsimp only at h
  split at h
  case h_14 => cases h
  case h_4 | h_6 | h_7 =>
    cases h
    simp (disch := omega) [encodeI, fitsEngine, Nat.mod_eq_of_lt, hconst]
  all_goals obtain ⟨hfields, rfl⟩ := of_guarded h
  case h_1 | h_11 =>
    obtain ⟨rfl, rfl, rfl⟩ : b = 0 ∧ c = 0 ∧ f = 0 := by omega
    simp (disch := omega) [encodeI, fitsEngine, Nat.mod_eq_of_lt, hfields]
  case h_8 | h_9 | h_10 =>
    refine ⟨congrArg (BitVec.ofNat 32) ?_, rfl⟩
    simp (disch := omega) only [Fin.val_ofNat, BitVec.toNat_ofNat, Nat.mod_eq_of_lt]
    omega
  case h_12 =>
    have hflag : (if f = 1 then 1 else 0) = f := by split <;> omega
    simp (disch := omega) [encodeI, fitsEngine, Nat.mod_eq_of_lt, hfields, hflag]
  case h_13 =>
    have hflags : ((if f % 2 = 1 then 1 else 0) + if f / 4 = 1 then 4 else 0) = f := by
      split <;> split <;> omega
    simp (disch := omega) [encodeI, fitsEngine, Nat.mod_eq_of_lt, hfields, hflags]
  all_goals simp (disch := omega) [encodeI, fitsEngine, Nat.mod_eq_of_lt, hfields, hconst]

end

/-- Settles O47: the fields of a word determine it, and each row's decoder leaves no field out. -/
theorem indigoWordsExact : Obligations.IndigoWordsExact := by
  intro e w i h
  have hw := eq_wordR w
  have hlt := w.isLt
  rw [hw, decodeI_wordR e (by omega) (by omega) (by omega) (by omega) (by omega) (by omega)] at h
  rw [hw]
  unfold decodeFields at h
  split at h
  · exact encodeI_of_decodeScalar (by omega) (by omega) (by omega) (by omega) (by omega) e h
  cases e
  · exact encodeI_of_decodeTile (by omega) (by omega) (by omega) (by omega) (by omega) h
  · exact encodeI_of_decodeSpec (by omega) (by omega) (by omega) (by omega) (by omega) h

end Sys2Proof.Machine
end

section
/-! The check-value units (R205 to R240): a change of one unit as the value written to its place, jobs over any list of words, the rows of the commands to
a unit, and the worked examples of the words and check values. -/

namespace Sys2Proof.Machine

open Sys2Proof

/-- A list changed at an index is the list with the changed element set there; past its end both leave it alone. -/
theorem upd_eq_set {α : Type} (l : List α) (i : Nat) (f : α → α) (d : α) : upd l i f = l.set i (f (nth l i d)) := by
  induction l generalizing i with
  | nil => simp [upd]
  | cons a t ih =>
    cases i with
    | zero => rfl
    | succ i => exact congrArg (a :: ·) (ih i)

theorem set_nth_self {α : Type} (l : List α) (i : Nat) (d : α) : l.set i (nth l i d) = l :=
  (upd_eq_set l i id d).symm.trans (List.modify_id i l)

theorem updChk_eq_set (n : Nat) (f : ChkU → ChkU) (s : State) : updChk n f s = { s with chk.units := s.chk.units.set n (f (chkU s n)) } :=
  congrArg (fun l => { s with chk.units := l }) (upd_eq_set _ _ _ _)

theorem updChk_of_eq {n : Nat} {f : ChkU → ChkU} {s : State} {u : ChkU} (h : f (chkU s n) = u) :
    updChk n f s = { s with chk.units := s.chk.units.set n u } := h ▸ updChk_eq_set n f s

theorem updChk_of_fix {n : Nat} {f : ChkU → ChkU} {s : State} (h : f (chkU s n) = chkU s n) : updChk n f s = s := by
  rw [updChk_of_eq h]
  exact congrArg (fun l => { s with chk.units := l }) (set_nth_self _ _ _)

@[simp] theorem length_units_updChk (n : Nat) (f : ChkU → ChkU) (s : State) : (updChk n f s).chk.units.length = s.chk.units.length :=
  List.length_modify ..

theorem endChk_of_idle {n : Nat} {s : State} (h : (chkU s n).busy = false ∨ (chkU s n).ended = true) : endChk n s = decideChk n s := by
  have : ((chkU s n).busy && !(chkU s n).ended) = false := by rcases h with h | h <;> simp [h]
  simp [endChk, this]

theorem endChk_of_value {n : Nat} {s : State} (hb : (chkU s n).busy = true) (he : (chkU s n).ended = false) (hm : (chkU s n).jobMode = false) :
    endChk n s = updChk n (fun u => { u with busy := false, ended := false, taint := false })
      (updChk n (fun u => { u with ended := true, val := chkFinal n u.run }) s) := by
  simp [endChk, hb, he, hm]

theorem endChk_of_compare {n : Nat} {s : State} (hb : (chkU s n).busy = true) (he : (chkU s n).ended = false) (hm : (chkU s n).jobMode = true) :
    endChk n s = decideChk n (updChk n (fun u => { u with ended := true, val := chkFinal n u.run }) s) := by
  simp [endChk, hb, he, hm]

/-- A job of firmware in value mode that has taken bytes: its register stands at r, and the unit takes whole words. -/
def JobAt (n : Nat) (r : Word) (s : State) : Prop :=
  n < s.chk.units.length ∧ (chkU s n).busy = true ∧ (chkU s n).ended = false ∧ (chkU s n).jobMode = false ∧ (chkU s n).nb = 0 ∧ (chkU s n).run = r

theorem JobAt.start (n : Fin 4) {s : State} (hlen : n.val < s.chk.units.length) (hm : (chkU s n.val).mode = false) (hnb : (chkU s n.val).nb = 0) :
    ∃ t, exec (.start n) s = .next t ∧ JobAt n.val (chkInit n.val) t := by
  refine ⟨_, rfl, ?_⟩
  simp [JobAt, chkU_updChk, hlen, hm, hnb]

theorem JobAt.data {n : Fin 4} {r : Word} {s : State} (h : JobAt n.val r s) (w : Word) :
    ∃ t, exec (.data n w) s = .next t ∧ JobAt n.val ((le 4 w.toNat).foldl (chkByte n.val) r) t := by
  obtain ⟨hlen, hb, he, hm, hnb, hr⟩ := h
  have htake : (le 4 w.toNat).take 4 = le 4 w.toNat := by simp [le]
  refine ⟨_, rfl, ?_⟩
  simp [JobAt, chkU_updChk, hlen, hb, he, hm, hnb, hr, htake]

theorem JobAt.end {n : Fin 4} {r : Word} {s : State} (h : JobAt n.val r s) :
    ∃ t, exec (.chkEnd n) s = .next t ∧ (chkU t n.val).val = chkFinal n.val r ∧ (chkU t n.val).busy = false := by
  obtain ⟨hlen, hb, he, hm, hnb, hr⟩ := h
  refine ⟨endChk n.val s, rfl, ?_⟩
  rw [endChk_of_value hb he hm, chkU_updChk _ _ _ (by simpa using hlen), chkU_updChk _ _ _ hlen]
  simp [hr]

theorem runAll_cons {c : Instr} {s t : State} (h : exec c s = .next t) (l : List Instr) : runAll (c :: l) s = runAll l t := by
  simp [runAll, h]

/-- The words of a running job, then END: induction on the words, over whatever the register stands at. -/
theorem JobAt.run {n : Fin 4} (l : List Word) {r : Word} {s : State} (h : JobAt n.val r s) :
    (chkU (runAll (l.map (Instr.data n) ++ [.chkEnd n]) s) n.val).val = chkFinal n.val ((l.flatMap fun w => le 4 w.toNat).foldl (chkByte n.val) r) ∧
    (chkU (runAll (l.map (Instr.data n) ++ [.chkEnd n]) s) n.val).busy = false := by
  induction l generalizing r s with
  | nil =>
    obtain ⟨t, hex, hval, hbusy⟩ := h.end
    rw [List.map_nil, List.nil_append, runAll_cons hex]
    exact ⟨hval, hbusy⟩
  | cons w l ih =>
    obtain ⟨t, hex, ht⟩ := h.data w
    rw [List.map_cons, List.cons_append, runAll_cons hex, List.flatMap_cons, List.foldl_append]
    exact ih ht

/-- Settles O49: START gives a job at the unit's initial value, which takes the words by induction on their list. -/
theorem checkJob : Obligations.CheckJob := by
  intro n l s hlen hmode hnb
  obtain ⟨t, hex, ht⟩ := JobAt.start n (n.isLt.trans_eq hlen.symm) hmode hnb
  rw [List.singleton_append, List.cons_append, runAll_cons hex]
  exact ht.run l

/-- Settles O48: each word and each value is evaluated. -/
theorem knownAnswers : Obligations.KnownAnswers := by
  unfold Obligations.KnownAnswers
  decide +kernel

theorem execContextRestore_busy {n : Fin 4} {s : State} (h : (chkU s n.val).busy = true) (w : Word) : execContextRestore n w s =
    .next (updChk n.val (fun u => { u with ctxErr := true }) (noteOcc (chkStatAt n.val) 16 s)) := by
  simp [execContextRestore, h]

/-- The check byte and the unit number of a context are right (R216). -/
def ctxRight (n : Fin 4) (w : Word) (s : State) : Bool :=
  ((le 4 (chkU s n.val).ctx0.toNat ++ le 3 w.toNat).foldl (· ^^^ ·) (0xA5 : Byte)).toNat == rf w 31 24 && rf w 17 16 == n.val

theorem execContextRestore_idle {n : Fin 4} {s : State} (hb : (chkU s n.val).busy = false) (w : Word) : execContextRestore n w s =
    (let t := updChk n.val (fun u => { u with ctx1 := w, owner := false, busy := true, susp := false, ended := false, jobMode := rf w 18 18 == 1, taint := !ctxRight n w s,
                                              run := if ctxRight n w s then u.ctx0 &&& chkMask n.val else chkInit n.val,
                                              count := if ctxRight n w s then rf w 15 0 else 0, ctxErr := u.ctxErr || !ctxRight n w s }) s
     .next (if ctxRight n w s then t else raise 0x3E (chkDetail n.val (chkU s n.val).ctx0.toNat t) (noteOcc (chkStatAt n.val) 16 t))) := by
  unfold execContextRestore
  rw [if_neg (by simp [hb])]
  rfl

theorem execContextRestore_whole {n : Fin 4} {s : State} {w : Word} (hb : (chkU s n.val).busy = false) (hok : ctxRight n w s = true) :
    execContextRestore n w s =
      .next (updChk n.val (fun u => { u with ctx1 := w, owner := false, busy := true, susp := false, ended := false, jobMode := rf w 18 18 == 1, taint := false,
                                             run := u.ctx0 &&& chkMask n.val, count := rf w 15 0 }) s) := by
  simp [execContextRestore_idle hb, hok]

theorem execContextRestore_damaged {n : Fin 4} {s : State} {w : Word} (hb : (chkU s n.val).busy = false) (hok : ctxRight n w s = false) :
    execContextRestore n w s =
      (let t := updChk n.val (fun u => { u with ctx1 := w, owner := false, busy := true, susp := false, ended := false, jobMode := rf w 18 18 == 1, taint := true,
                                                run := chkInit n.val, count := 0, ctxErr := true }) s
       .next (raise 0x3E (chkDetail n.val (chkU s n.val).ctx0.toNat t) (noteOcc (chkStatAt n.val) 16 t))) := by
  simp [execContextRestore_idle hb, hok]

/-- Settles O45: each write is one change of the unit, then the decision of a compare-mode job where one is due. -/
theorem checkUnitRows : Obligations.CheckUnitRows := by
  intro n s
  refine ⟨rfl, fun w hb he => ?data, fun w h => ?dropped, fun i t hi hb he ht => ?ended, fun i hi h => ?idle, rfl, fun hb => ?suspend, fun hb => ?notRunning,
    fun hs => ?resume, fun hs => ?notSuspended, fun w => rfl, fun w hb => execContextRestore_busy hb w, fun w ok hb hok => ?restore, fun _ => rfl⟩
  case data => exact congrArg Host.Outcome.next (updChk_of_eq (by simp [hb, he]))
  case dropped => exact congrArg Host.Outcome.next (updChk_of_fix (by rcases h with h | h <;> simp [h]))
  case ended =>
    have hex : exec i s = .next (endChk n.val s) := by rcases hi with rfl | rfl <;> rfl
    subst ht
    exact ⟨fun hm => hex.trans (congrArg _ (endChk_of_value hb he hm)), fun hm => hex.trans (congrArg _ (endChk_of_compare hb he hm))⟩
  case idle =>
    have hex : exec i s = .next (endChk n.val s) := by rcases hi with rfl | rfl <;> rfl
    exact hex.trans (congrArg _ (endChk_of_idle h))
  case suspend => exact congrArg Host.Outcome.next (updChk_of_eq (by simp [hb]))
  case notRunning => exact congrArg Host.Outcome.next (updChk_of_fix (by simp [hb]))
  case resume => exact congrArg (fun t => Host.Outcome.next (decideChk n.val t)) (updChk_of_eq (by simp [hs]))
  case notSuspended => exact congrArg (fun t => Host.Outcome.next (decideChk n.val t)) (updChk_of_fix (by simp [hs]))
  case restore =>
    subst hok
    refine ⟨execContextRestore_whole hb, fun t ht hok => ?_⟩
    subst ht
    exact execContextRestore_damaged hb hok

end Sys2Proof.Machine
end

section
/-! What raising an event, and what answering a command, can change: the state with the parts in question blanked out is the same before and after each
operation on the way. -/

namespace Sys2Proof.Machine

open Sys2Proof

/-- The state with the event parts taken from another one. -/
def withEvents (t s : State) : State :=
  { s with evt := t.evt, log := t.log, host.txd := t.host.txd, sys.mode := t.sys.mode, sys.wakeSrc := t.sys.wakeSrc, sys.waking := t.sys.waking,
           sys.pendingMode := t.sys.pendingMode, sys.refuse := t.sys.refuse, sys.idleReq := t.sys.idleReq, cmd.safetyHeld := t.cmd.safetyHeld,
           chain.hbDecided := t.chain.hbDecided, chain.hbWords := t.chain.hbWords, chain.hbPass := t.chain.hbPass, chain.hbDuty := t.chain.hbDuty }

theorem withEvents_sansEvents (t s : State) : withEvents t (sansEvents s) = withEvents t s := rfl

/-- States that differ in the event parts alone. -/
theorem eq_withEvents {s t : State} (h : sansEvents t = sansEvents s) : t = withEvents t s :=
  calc t = withEvents t t := rfl
    _ = withEvents t s := by rw [← withEvents_sansEvents, h, withEvents_sansEvents]

/-- Settles O55: every operation of raising an event keeps the state with the event parts blanked out. -/
theorem raiseFrame : Obligations.RaiseFrame := fun src d s => eq_withEvents (raise_sansEvents src d s)

/-- The state with all that sending an answer may change blanked out: the event parts, the host ports, the chain, unit 0 and the marks of its flags. -/
def sansAnswer (s : State) : State :=
  { sansEvents s with host := {}, chain := {}, occAt := 0, occ := [], chk.units := s.chk.units.set 0 {} }

theorem sansAnswer_congr {s t : State} (h : sansEvents t = sansEvents s) : sansAnswer t = sansAnswer s :=
  congrArg (fun u : State => { u with host := {}, chain := {}, occAt := 0, occ := [], chk.units := u.chk.units.set 0 {} }) h

@[simp] theorem raise_sansAnswer (src : Nat) (d : List Byte) (s : State) : sansAnswer (raise src d s) = sansAnswer s :=
  sansAnswer_congr (raise_sansEvents src d s)

/-! ### Unit 0 and the host ports -/

@[simp] theorem noteOcc_sansAnswer (a : Nat) (w : Word) (s : State) : sansAnswer (noteOcc a w s) = sansAnswer s := by
  unfold noteOcc
  split <;> rfl

theorem set_zero_upd {α : Type} (l : List α) (f : α → α) (d : α) : (upd l 0 f).set 0 d = l.set 0 d := by
  cases l <;> rfl

theorem updChk_zero_sansAnswer (f : ChkU → ChkU) (s : State) : sansAnswer { s with chk.units := upd s.chk.units 0 f } = sansAnswer s := by
  simp [sansAnswer, sansEvents, set_zero_upd]

@[simp] theorem noteOwner_zero_sansAnswer (hw : Bool) (s : State) : sansAnswer (noteOwner 0 hw s) = sansAnswer s :=
  updChk_zero_sansAnswer _ s

@[simp] theorem compareDone_zero_sansAnswer (ok hw : Bool) (s : State) : sansAnswer (compareDone 0 ok hw s) = sansAnswer s := by
  unfold compareDone
  dsimp only
  rw [updChk_zero_sansAnswer, noteOwner_zero_sansAnswer, noteOcc_sansAnswer]

@[simp] theorem compareJob_zero_sansAnswer (ok hw : Bool) (val : Nat) (s : State) : sansAnswer (compareJob 0 ok hw val s) = sansAnswer s := by
  unfold compareJob
  dsimp only
  split <;> simp

@[simp] theorem setBuf_sansAnswer (p : HPort) (f : PortBuf → PortBuf) (s : State) : sansAnswer (setBuf p f s) = sansAnswer s := by
  cases p <;> rfl

@[simp] theorem lateReply_sansAnswer (s : State) : sansAnswer (lateReply s) = sansAnswer s := rfl

@[simp] theorem countAuth_sansAnswer (p : HPort) (r : Reply) (s : State) : sansAnswer (countAuth p r s) = sansAnswer s := by
  unfold countAuth
  dsimp only
  split
  · rfl
  · split
    · exact raise_sansAnswer _ _ _
    · rfl

@[simp] theorem noteReleased_sansAnswer (p : HPort) (r : Reply) (s : State) : sansAnswer (noteReleased p r s) = sansAnswer s := by
  unfold noteReleased
  split
  · exact raise_sansAnswer _ _ _
  · split
    · rfl
    · exact countAuth_sansAnswer p r s

@[simp] theorem output_sansAnswer (p : HPort) (b : Bool) (r : Reply) (s : State) : sansAnswer (output p b r s) = sansAnswer s := by
  cases p with
  | spi => simp [output]
  | uart =>
    simp only [output]
    split
    · exact noteOwner_zero_sansAnswer true s
    · exact noteOwner_zero_sansAnswer true s

@[simp] theorem rejectLost_sansAnswer (p : HPort) (r : Reply) (s : State) : sansAnswer (rejectLost p r s) = sansAnswer s :=
  raise_sansAnswer _ _ _

@[simp] theorem releaseStatus_sansAnswer (p : HPort) (r : Reply) (c : Word) (s : State) : sansAnswer (releaseStatus p r c s) = sansAnswer s := by
  unfold releaseStatus
  dsimp only
  split
  · simp
  · split <;> simp

@[simp] theorem releaseSlot_sansAnswer (p : HPort) (i : Nat) (sl : Slot) (r : Reply) (s : State) : sansAnswer (releaseSlot p i sl r s) = sansAnswer s := by
  simp [releaseSlot]

theorem releaseOne_sansAnswer {p : HPort} {s t : State} (h : releaseOne p s = some t) : sansAnswer t = sansAnswer s := by
  unfold releaseOne at h
  split at h
  · cases h
    exact releaseStatus_sansAnswer ..
  · obtain ⟨x, -, rfl⟩ := Option.map_eq_some_iff.mp h
    exact releaseSlot_sansAnswer ..

@[simp] theorem releaseAll_sansAnswer (n : Nat) (p : HPort) (s : State) : sansAnswer (releaseAll n p s) = sansAnswer s := by
  induction n generalizing s with
  | zero => rfl
  | succ n ih =>
    unfold releaseAll
    split
    next t ht => exact (ih t).trans (releaseOne_sansAnswer ht)
    next => rfl

@[simp] theorem release_sansAnswer (p : HPort) (s : State) : sansAnswer (release p s) = sansAnswer s := releaseAll_sansAnswer _ p s

@[simp] theorem fillSlot_sansAnswer (p : HPort) (i : Nat) (own : Bool) (r : Reply) (s : State) : sansAnswer (fillSlot p i own r s) = sansAnswer s := by
  simp [fillSlot]

@[simp] theorem combine_sansAnswer (p : HPort) (i : Nat) (s : State) : sansAnswer (combine p i s) = sansAnswer s := by
  unfold combine
  split
  · exact fillSlot_sansAnswer ..
  · rfl

@[simp] theorem combineIfComplete_sansAnswer (p : HPort) (i : Nat) (s : State) : sansAnswer (combineIfComplete p i s) = sansAnswer s := by
  unfold combineIfComplete
  split
  · split
    · exact combine_sansAnswer p i s
    · rfl
  · rfl

theorem reportTo_sansAnswer (p : HPort) (h seq pos status : Nat) (outside : Bool) (s : State) : sansAnswer (reportTo p h seq pos status outside s) = sansAnswer s := by
  unfold reportTo
  dsimp only
  split <;> simp

theorem replyTo_sansAnswer (p : HPort) (rq : Req) (sync : Bool) (r : Reply) (s : State) : sansAnswer (replyTo p rq sync r s) = sansAnswer s := by
  unfold replyTo
  dsimp only
  split
  · simp
  · split <;> simp

/-! ### The chain -/

@[simp] theorem txPut_sansAnswer (t : TxStream) (s : State) : sansAnswer (txPut t s) = sansAnswer s := by
  unfold txPut
  split <;> rfl

@[simp] theorem enqueue_sansAnswer (sd : Side) (f : Frame) (s : State) : sansAnswer (enqueue sd f s) = sansAnswer s := by
  cases sd <;> rfl

@[simp] theorem dispatchFrame_sansAnswer (t : TxStream) (f : Frame) (s : State) : sansAnswer (dispatchFrame t f s).1 = sansAnswer s := by
  unfold dispatchFrame
  dsimp only
  split
  · split
    · simp
    · simp only [txPut_sansAnswer, apply_ite sansAnswer, enqueue_sansAnswer, ite_self]
  · split
    · rw [apply_ite Prod.fst, apply_ite sansAnswer, enqueue_sansAnswer, ite_self]
    · split
      · exact enqueue_sansAnswer ..
      · rfl

@[simp] theorem pump_sansAnswer (n dest : Nat) (multi : Bool) (cls : Nat) (twin : Bool) (s : State) : sansAnswer (pump n dest multi cls twin s) = sansAnswer s := by
  induction n generalizing s with
  | zero => rfl
  | succ n ih =>
    unfold pump
    dsimp only
    split
    · split
      · split
        · rw [ih, txPut_sansAnswer, dispatchFrame_sansAnswer]
        · rfl
      · rfl
    · rfl

theorem sendStream_sansAnswer (twin : Bool) (f : Frame) (s : State) : sansAnswer (sendStream twin f s) = sansAnswer s := by
  simp [sendStream]

/-- Sending an answer changes nothing but the parts that `sansAnswer` blanks out, whichever way the answer goes. -/
theorem answered_sansAnswer (rq : Req) (st : Nat) (d : List Byte) (s : State) : sansAnswer (answered rq st d s) = sansAnswer s := by
  unfold answered respond
  dsimp only
  split
  · split
    · exact reportTo_sansAnswer ..
    · exact replyTo_sansAnswer ..
  · exact sendStream_sansAnswer ..

theorem nth_set_zero {α : Type} (l : List α) (a d : α) {n : Nat} (h : n ≠ 0) : nth (l.set 0 a) n d = nth l n d := by
  simp [nth, List.getElem?_set_ne h.symm]

/-- Settles O56: what the blanking leaves is the same before and after the answer. -/
theorem answerFrame : Obligations.AnswerFrame := by
  intro rq st d s
  have h := answered_sansAnswer rq st d s
  generalize answered rq st d s = t at h ⊢
  refine ⟨(congrArg State.cell h :), (congrArg State.bal h :), (congrArg State.indigo h :), (congrArg State.sweep h :), (congrArg State.therm h :),
    (congrArg State.sp1 h :), (congrArg State.sp2 h :), (congrArg State.watch h :), (congrArg State.verm h :), (congrArg State.time h :),
    (congrArg State.umber h :), (congrArg State.regs h :), (congrArg State.fw h :), (congrArg State.nv h :), (congrArg State.pending h :), ?cmd, ?chk, ?units⟩
  case cmd => exact congrArg (fun u : State => { u.cmd with safetyHeld := t.cmd.safetyHeld }) h
  case chk => exact congrArg (fun u : State => { u.chk with units := t.chk.units }) h
  case units =>
    intro n hn
    calc chkU t n = chkU (sansAnswer t) n := (nth_set_zero _ _ _ hn).symm
      _ = chkU (sansAnswer s) n := by rw [h]
      _ = chkU s n := nth_set_zero _ _ _ hn

end Sys2Proof.Machine
end

section
/-! The instructions of Indigo (R501 to R512): each row is what its meaning gives where no fault condition holds, then the engine going on to its next
word. -/

namespace Sys2Proof.Machine

open Sys2Proof

/-! ### Issuing -/

/-- An issued instruction whose meaning completes below the budget answers the state of the engine gone on. -/
theorem issued_done {e : Engine} {i : IInstr} {sem : State → IRes} {s t : State} {cost : Nat} {jump : Option Nat} (h : Issued e i cost s)
    (hs : sem s = .done t cost jump) : (Host.Outcome.next (runInstr e i sem s) : Out) = .next (advance e jump cost t) :=
  congrArg Host.Outcome.next (runInstr_done h hs)

theorem issued_unlessFault {e : Engine} {i : IInstr} {l : List (Nat × Nat)} {f : Unit → IRes} {sem : State → IRes} {s t : State} {cost : Nat} {jump : Option Nat}
    (h : Issued e i cost s) (hl : l = []) (hf : f () = .done t cost jump) (hs : sem s = unlessFault s l f) :
    (Host.Outcome.next (runInstr e i sem s) : Out) = .next (advance e jump cost t) :=
  issued_done h (hs.trans ((unlessFault_none hl).trans hf))

@[simp] theorem faultIf_false (c d : Nat) : faultIf false c d = [] := rfl

theorem undef_of_used {s : State} {r : Nat} {x : Tile} (h : tile s r = some x) : undef s r = [] := by
  simp [undef, h]

theorem undefS_of_used {s : State} {r : Nat} {l : List Nat} (h : spec s r = some l) : undefS s r = [] := by
  simp [undefS, h]

theorem specD_of_used {s : State} {r : Nat} {l : List Nat} (h : spec s r = some l) : specD s r = l := by
  simp [specD, h]

/-- With words after it and no loop open, an engine goes on by one word. -/
theorem advance_plain {e : Engine} {s : State} (cost : Nat) (h0 : (eng s e).lc0 = none) (h1 : (eng s e).lc1 = none) (hp : (eng s e).pc + 1 < (eng s e).prog.length) :
    advance e none cost s = setEng e (fun g => { g with pc := g.pc + 1, cycles := g.cycles + cost }) s := by
  have hnot : ¬(eng s e).prog.length ≤ (eng s e).pc + 1 := Nat.not_le.mpr hp
  simp only [advance, loopNext, h0, h1, if_neg hnot]
  cases e <;> simp only [eng] at h0 h1 <;> simp [setEng, eng, h0, h1]

/-- A scalar register written, then the next word. -/
theorem advance_setScalar {e : Engine} {s : State} (d : Nat) (v : Word) (h0 : (eng s e).lc0 = none) (h1 : (eng s e).lc1 = none)
    (hp : (eng s e).pc + 1 < (eng s e).prog.length) :
    advance e none 1 (setScalar e d v s) = setEng e (fun g => { g with a := g.a.set d v, pc := g.pc + 1, cycles := g.cycles + 1 }) s := by
  cases e with
  | te => exact advance_plain (e := .te) (s := setScalar .te d v s) 1 h0 h1 hp
  | se => exact advance_plain (e := .se) (s := setScalar .se d v s) 1 h0 h1 hp

/-! ### Scalar and control instructions -/

theorem execBr_taken {e : Engine} {c : Fin 7} {a b : Fin 16} {t : BitVec 11} {s : State} (h : Issued e (.br c a b t) 3 s)
    (hc : condHolds c (scalar (eng s e) a) (scalar (eng s e) b) = true) (ht : t.toNat < (eng s e).prog.length) :
    execBr e c a b t s = .next (advance e (some t.toNat) 3 s) :=
  issued_done h (by dsimp only; rw [if_pos hc, if_neg (Nat.not_le.mpr ht)])

theorem execBr_notTaken {e : Engine} {c : Fin 7} {a b : Fin 16} {t : BitVec 11} {s : State} (h : Issued e (.br c a b t) 1 s)
    (hc : condHolds c (scalar (eng s e) a) (scalar (eng s e) b) = false) : execBr e c a b t s = .next (advance e none 1 s) :=
  issued_done h (by dsimp only; rw [if_neg (by simp [hc])])

/-- A loop opens on the outer level where both are free. -/
theorem openLoop_outer {e : Engine} {count last : Nat} {s : State} (hc : 1 ≤ count) (hc' : count ≤ 65535) (h0 : (eng s e).lc0 = none) (h1 : (eng s e).lc1 = none)
    (hp : (eng s e).pc < last) (hl : last < (eng s e).prog.length) :
    openLoop e count last s = .done (setEng e (fun g => { g with lc0 := some { count := count, first := (eng s e).pc + 1, last := last } }) s) 1 none := by
  have hcount : (count == 0) = false := by simp; omega
  unfold openLoop
  refine (unlessFault_none ?_).trans ?_
  · simp [h0, h1, hcount, Nat.not_le.mpr hl, Nat.not_le.mpr hp, Nat.not_lt.mpr hc']
  · cases e <;> simp only [eng] at h0 <;> simp [setEng, eng, h0]

/-- A loop opens on the inner level inside the outer one's body. -/
theorem openLoop_inner {e : Engine} {count last : Nat} {l : Loop} {s : State} (hc : 1 ≤ count) (hc' : count ≤ 65535) (h0 : (eng s e).lc0 = some l)
    (h1 : (eng s e).lc1 = none) (hin : last ≤ l.last) (hp : (eng s e).pc < last) (hl : last < (eng s e).prog.length) :
    openLoop e count last s = .done (setEng e (fun g => { g with lc1 := some { count := count, first := (eng s e).pc + 1, last := last } }) s) 1 none := by
  have hcount : (count == 0) = false := by simp; omega
  unfold openLoop
  refine (unlessFault_none ?_).trans ?_
  · simp [h0, h1, hcount, Nat.not_le.mpr hl, Nat.not_le.mpr hp, Nat.not_lt.mpr hc', Nat.not_lt.mpr hin]
  · cases e <;> simp only [eng] at h0 <;> simp [setEng, eng, h0]

theorem execEndKernel_done {e : Engine} {a : Fin 16} {s : State} (h : Issued e (.endK a) 2 s) :
    execEndKernel e a s = .next (takeEnd e (scalar (eng s e) a) (setEng e (fun g => { g with cycles := g.cycles + 2 }) s)) := by
  unfold execEndKernel
  dsimp only
  rw [if_neg (by simp [h.1]), if_neg (Nat.not_le.mpr h.2)]

theorem execUndefinedEncoding_fault {e : Engine} {w : Word} {s : State} (hr : (eng s e).st = .running) (hs : serviceSlot (eng s e).slot = false)
    (hw : (eng s e).prog[(eng s e).pc]? = some w) (hd : decodeI e w = none) : execUndefinedEncoding e w s = .next (takeFault e 1 (eng s e).pc w.toNat s) := by
  unfold execUndefinedEncoding
  exact if_pos (by simp [hr, hs, hw, hd])

theorem one_le_toNat {n : Nat} {x : BitVec n} (h : x ≠ 0) : 1 ≤ x.toNat :=
  Nat.one_le_iff_ne_zero.mpr fun h0 => h (BitVec.eq_of_toNat_eq (by simpa using h0))

/-- Settles O32: each instruction's meaning under its row's conditions. -/
theorem scalarRows : Obligations.ScalarRows := by
  refine ⟨fun e s => ⟨fun h => issued_done h rfl, fun d k h => issued_done h rfl, fun d k h => issued_done h rfl, fun d a k h => issued_done h rfl,
      fun d a b op h => issued_done h rfl, fun d a k ecc h hok => ?lds, fun d a k h hok => ?sts, fun d a h => ?stwClear, fun d a h => issued_done h rfl,
      fun d a aux h => issued_done h rfl, fun d a aux h => issued_done h rfl⟩,
    fun e s => ⟨fun c a b t h hc ht => execBr_taken h hc ht, fun c a b t h hc => execBr_notTaken h hc, fun count last h hc h0 h1 hp hl => ?loopi,
      fun a last l h hc hc' h0 h1 hin hp hl => ?loopr, fun a h => execEndKernel_done h, fun w hr hs hw hd => execUndefinedEncoding_fault hr hs hw hd⟩⟩
  case lds => exact issued_done h (by dsimp only; rw [hok])
  case sts => exact issued_done h (by dsimp only; rw [hok])
  case stwClear => exact issued_done h (by cases e <;> rfl)
  case loopi => exact issued_done h (openLoop_outer (one_le_toNat hc) (by omega) h0 h1 hp hl)
  case loopr => exact issued_done h (openLoop_inner hc hc' h0 h1 hin hp hl)

/-- Settles O58: the meaning writes the register, and without a loop the engine only counts on. -/
theorem scalarFrame : Obligations.ScalarFrame := by
  intro e d a b k op s t h0 h1 hp
  refine ⟨fun h hex => ?li, fun h hex => ⟨(k.zeroExtend 32 <<< 14) ||| (scalar (eng s e) d &&& 0x3FFF), ?lih⟩, fun h hex => ?addi,
    fun h hex => ⟨scalarOp op (scalar (eng s e) a) (scalar (eng s e) b), ?sop⟩⟩
  all_goals
    have hnext := hex.symm.trans (issued_done h rfl)
    injection hnext with ht
    exact ht.trans (advance_setScalar _ _ h0 h1 hp)

/-! ### Tile instructions -/

/-- Settles O33: where every operand is in use and no fault condition holds, the row's effect. -/
theorem tileMoveRows : Obligations.TileMoveRows := by
  intro s
  refine ⟨fun d p h hv => ?tshp, fun d a b p h hv hok => ?tld, fun d a b t h ht hok => ?tst, fun d a t h ht => ?tmov, fun d a row col t h ht hr hc => ?tget,
    fun d a row col t h ht hr hc => ?tput, fun a t h ht hl => ?txs, fun d l rest h hst hl => ?txr⟩
  case tshp => exact issued_unlessFault h (by simp [hv]) rfl rfl
  case tld => exact issued_done h (by dsimp only; rw [if_neg (by simp [hv]), hok]; rfl)
  case tst => exact issued_done h (by dsimp only; rw [ht]; dsimp only; rw [hok])
  case tmov => exact issued_unlessFault h (undef_of_used ht) (by simp [ht]) rfl
  case tget =>
    exact issued_unlessFault h (by simp [undef_of_used ht, ht, Nat.not_le.mpr hr, Nat.not_le.mpr hc]) (by simp only [ht, Option.getD_some]) rfl
  case tput =>
    exact issued_unlessFault h (by simp [undef_of_used ht, ht, Nat.not_le.mpr hr, Nat.not_le.mpr hc]) (by simp only [ht, Option.getD_some]) rfl
  case txs => exact issued_done h (by dsimp only; rw [ht]; dsimp only; rw [if_neg (Nat.not_le.mpr hl)]; rfl)
  case txr => exact issued_done h (by dsimp only; rw [hst]; dsimp only; rw [if_neg (Nat.not_lt.mpr hl)])

end Sys2Proof.Machine
end

section
/-! The arithmetic of tiles and vectors (R443, R446, R494 to R500, R506 to R510): the fault conditions of each row are empty where its operands are in use and
fit, and each element is the row's function of its operands. -/

namespace Sys2Proof.Machine

open Sys2Proof

/-! ### The tile engine -/

theorem execTew_done {d a b : Fin 16} {op : Fin 5} {x y : Tile} {s : State} (hx : tile s a = some x) (hy : tile s b = some y) (hty : x.ty = y.ty)
    (hrows : x.rows = y.rows) (hcols : x.cols = y.cols) (h : Issued .te (.tew d a b op) (2 + (readTiles [a, b] s).1) s) :
    execTew d a b op s = .next (advance .te none (2 + (readTiles [a, b] s).1)
      (tileResult d x.ty x.rows x.cols (List.zipWith (tewOp op x.ty) x.elems y.elems) (readTiles [a, b] s).2)) :=
  issued_unlessFault h (by simp [hx, hy, hty, hrows, hcols, undef_of_used hx, undef_of_used hy]) (by simp only [hx, hy, Option.getD_some]; rfl) rfl

/-- The function of each operation of TEWS, with the scalar read in the type of the tile. -/
def tewsOp (op : Fin 3) (ty v y : Nat) : Nat × Flags := if op = 0 then eAdd ty y v else if op = 1 then eMul ty y v else (v, 0)

theorem execTews_done {d a c : Fin 16} {op : Fin 3} {x : Tile} {s : State} (hx : tile s a = some x)
    (h : Issued .te (.tews d a c op) (2 + (readTiles [a] s).1) s) : execTews d a c op s =
      .next (advance .te none (2 + (readTiles [a] s).1) (tileResult d x.ty x.rows x.cols
        (x.elems.map (tewsOp op x.ty ((scalar s.indigo.te c).toNat % 2 ^ (8 * tySize x.ty)))) (readTiles [a] s).2)) :=
  issued_unlessFault h (undef_of_used hx) (by simp only [hx, Option.getD_some]; rfl) rfl

/-- The old value of an accumulating product comes from the destination's tile. -/
theorem execTmm_done {d a b : Fin 16} {op : Fin 3} {x y z : Tile} {s : State} (hx : tile s a = some x) (hy : tile s b = some y) (hin : x.cols = y.rows)
    (hty : x.ty = y.ty) (hv : shapeValid (productTy op x) x.rows y.cols = true)
    (hz : op = 2 → tile s d = some z ∧ z.ty = productTy op x ∧ z.rows = x.rows ∧ z.cols = y.cols)
    (h : Issued .te (.tmm d a b op) (2 + (x.rows * x.cols * y.cols + macRate x.ty - 1) / macRate x.ty + (readTiles (productReads op d a b) s).1) s) :
    execTmm d a b op s =
      .next (advance .te none (2 + (x.rows * x.cols * y.cols + macRate x.ty - 1) / macRate x.ty + (readTiles (productReads op d a b) s).1)
        (tileResult d (productTy op x) x.rows y.cols
          ((List.range (x.rows * y.cols)).map fun i => productElem op x y z i) (readTiles (productReads op d a b) s).2)) := by
  match op with
  | 0 =>
    have hv : shapeValid y.ty x.rows y.cols = true := hty ▸ hv
    exact issued_unlessFault h (by simp [hx, hy, hin, hty, hv, undef_of_used hx, undef_of_used hy]) (by simp only [hx, hy, Option.getD_some]; rfl) rfl
  | 1 =>
    have hv : shapeValid (tyWide y.ty) x.rows y.cols = true := hty ▸ hv
    exact issued_unlessFault h (by simp [hx, hy, hin, hty, hv, undef_of_used hx, undef_of_used hy]) (by simp only [hx, hy, Option.getD_some]; rfl) rfl
  | 2 =>
    obtain ⟨hd, hzty, hzrows, hzcols⟩ := hz rfl
    have hv : shapeValid (tyWide y.ty) x.rows y.cols = true := hty ▸ hv
    have hzty : z.ty = tyWide y.ty := hty ▸ hzty
    exact issued_unlessFault h (by simp [hx, hy, hin, hty, hv, hd, hzty, hzrows, hzcols, undef_of_used hx, undef_of_used hy, undef_of_used hd])
      (by simp only [hx, hy, hd, Option.getD_some]; rfl) rfl

theorem execTtr_done {d a : Fin 16} {x : Tile} {s : State} (hx : tile s a = some x) (hv : shapeValid x.ty x.cols x.rows = true)
    (h : Issued .te (.ttr d a) (6 + (readTiles [a] s).1) s) :
    execTtr d a s = .next (advance .te none (6 + (readTiles [a] s).1) (tileResult d x.ty x.cols x.rows
      ((List.range (x.rows * x.cols)).map fun i => (nth x.elems (i % x.rows * x.cols + i / x.rows) 0, 0)) (readTiles [a] s).2)) :=
  issued_unlessFault h (by simp [hx, hv, undef_of_used hx]) (by simp only [hx, Option.getD_some]; rfl) rfl

theorem execTcvt_done {d a : Fin 16} {ty : Fin 4} {ex : Byte} {x : Tile} {s : State} (hx : tile s a = some x) (hv : shapeValid ty x.rows x.cols = true)
    (h : Issued .te (.tcvt d a ty ex) (2 + (readTiles [a] s).1) s) :
    execTcvt d a ty ex s = .next (advance .te none (2 + (readTiles [a] s).1)
      (tileResult d ty x.rows x.cols (x.elems.map fun y => eConvert x.ty ty y ex.toInt) (readTiles [a] s).2)) :=
  issued_unlessFault h (by simp [hx, hv, undef_of_used hx]) (by simp only [hx, Option.getD_some]; rfl) rfl

/-- One reduction for the four operations: its elements by the operation's function along rows or columns. -/
theorem execTred_done {d a : Fin 16} {op : Fin 4} {x : Tile} {s t : State} (hx : tile s a = some x) (h : Issued .te (.tred d a op) (4 + (readTiles [a] s).1) s)
    (ht : t =
      (let f := if op = 0 ∨ op = 1 then redSum x.ty else redMax x.ty
       if op = 0 ∨ op = 2 then
         tileResult d x.ty x.rows 1 ((List.range x.rows).map fun r => f ((List.range x.cols).map fun k => nth x.elems (r * x.cols + k) 0)) (readTiles [a] s).2
       else
         tileResult d x.ty 1 x.cols ((List.range x.cols).map fun k => f ((List.range x.rows).map fun r => nth x.elems (r * x.cols + k) 0)) (readTiles [a] s).2)) :
    execTred d a op s = .next (advance .te none (4 + (readTiles [a] s).1) t) := by
  refine issued_unlessFault h (undef_of_used hx) ?_ rfl
  simp only [hx, Option.getD_some]
  rw [ht]
  dsimp only
  split <;> rfl

theorem execTunpk_done {d a c : Fin 16} {op : Fin 5} {x : Tile} {s : State} (hx : tile s a = some x) (hty : x.ty = 1)
    (h : Issued .te (.tunpk d a c op) (2 + (readTiles [a] s).1) s) :
    execTunpk d a c op s = .next (advance .te none (2 + (readTiles [a] s).1) (tileResult d (if op = 2 then 3 else 1) x.rows x.cols
      (x.elems.map fun y => (unpackOp op ((scalar s.indigo.te c).toNat % 256) y, 0)) (readTiles [a] s).2)) :=
  issued_unlessFault h (by simp [hx, hty, undef_of_used hx]) (by simp only [hx, Option.getD_some]; rfl) rfl

/-- Settles O34: the row of each instruction. -/
theorem tileArithmeticRows : Obligations.TileArithmeticRows := by
  intro s
  refine ⟨fun d a b op x y hx hy hty hr hc h => ?tew, fun d a c op x hx h => ?tews, fun d a b op x y z hx hy hin hty hv hz h => ?tmm, fun d a x hx hv h => ?ttr,
    fun d a ty ex x hx hv h => ?tcvt, fun d a x hx => ⟨fun h => ?sumRows, fun h => ?sumCols, fun h => ?maxRows, fun h => ?maxCols⟩,
    fun d a c op x hx hty h => ?tunpk⟩
  case tew => exact execTew_done hx hy hty hr hc h
  case tews =>
    match op with
    | 0 => exact execTews_done hx h
    | 1 => exact execTews_done hx h
    | 2 => exact execTews_done hx h
  case tmm => exact execTmm_done hx hy hin hty hv hz h
  case ttr => exact execTtr_done hx hv h
  case tcvt => exact execTcvt_done hx hv h
  case tunpk => exact execTunpk_done hx hty h
  all_goals exact execTred_done hx h (by simp)

/-! ### The spectral engine -/

theorem execSew_done {d a b : Fin 8} {op : Fin 4} {x y : List Nat} {s : State} (hx : spec s a = some x) (hy : spec s b = some y) (hl : x.length = y.length)
    (h : Issued .se (.sew d a b op) (2 + (x.length + 3) / 4) s) :
    execSew d a b op s = .next (advance .se none (2 + (x.length + 3) / 4) (vectorResult d (List.zipWith (sewOp op) x y) s)) :=
  issued_unlessFault h (by simp [lengthsDiffer, specD_of_used hx, specD_of_used hy, hl, undefS_of_used hx, undefS_of_used hy])
    (by simp only [specD_of_used hx, specD_of_used hy]; rfl) rfl

theorem execSscl_done {d a : Fin 8} {c : Fin 16} {x : List Nat} {s : State} (hx : spec s a = some x) (h : Issued .se (.sscl d a c) (2 + (x.length + 3) / 4) s) :
    execSscl d a c s =
      .next (advance .se none (2 + (x.length + 3) / 4) (vectorResult d (x.map fun v => cMul false v (scalar s.indigo.se c).toNat) s)) :=
  issued_unlessFault h (undefS_of_used hx) (by simp only [specD_of_used hx]; rfl) rfl

theorem execSdot_done {d : Fin 15} {a b : Fin 8} {k : Fin 16} {x y : List Nat} {s : State} (hx : spec s a = some x) (hy : spec s b = some y)
    (hl : x.length = y.length) (h : Issued .se (.sdot d a b k) (3 + (x.length + 3) / 4) s) :
    execSdot d a b k s = .next (advance .se none (3 + (x.length + 3) / 4) (correlated d k.val (List.zip x y) s)) :=
  issued_unlessFault h (by simp [lengthsDiffer, specD_of_used hx, specD_of_used hy, hl, undefS_of_used hx, undefS_of_used hy])
    (by simp only [specD_of_used hx, specD_of_used hy]; rfl) rfl

theorem length_joinFlags (l : List (Nat × Flags)) : (joinFlags l).1.length = l.length := by
  simp [joinFlags]

/-- A transform writes a vector of its operand's length, whatever the free value says of its rounding. -/
theorem execSfft_done {d a : Fin 8} {inverse : Bool} {x : List Nat} {s : State} (hx : spec s a = some x)
    (hn : [4, 8, 16, 32, 64, 128, 256].contains x.length = true) (h : Issued .se (.sfft d a inverse) (4 + (x.length * Nat.log2 x.length + 7) / 8) s) :
    ∃ (y : List Nat) (fl : Flags), y.length = x.length ∧ execSfft d a inverse s =
      .next (advance .se none (4 + (x.length * Nat.log2 x.length + 7) / 8) (addFlags .se fl (setSpec d y (drawFree s).2))) := by
  refine ⟨_, _, ?_, issued_unlessFault h ?_ (by simp only [specD_of_used hx]; rfl) rfl⟩
  · simp [length_joinFlags]
  · simp only [specD_of_used hx, hn, undefS_of_used hx]
    simp

/-- Settles O35: where every operand is in use and fits, the row's effect. -/
theorem spectralRows : Obligations.SpectralRows := by
  intro s
  refine ⟨fun d len h => issued_done h rfl, fun d a len h hok => ?sld, fun d a l hl h hok => ?sst, fun _ _ _ _ _ _ hx hy hl h => execSew_done hx hy hl h,
    fun _ _ _ _ hx h => execSscl_done hx h, fun _ _ _ _ _ _ hx hy hl h => execSdot_done hx hy hl h, fun _ _ _ _ hx hn h => execSfft_done hx hn h,
    fun d a i x hx hi h => ?sget, fun d a i x hx hi h => ?sput, fun a x hx hl h => ?sxs, fun d rows cols el rest ht hn h => ?sxr⟩
  case sld => exact issued_done h (by dsimp only; rw [hok]; rfl)
  case sst => exact issued_done h (by dsimp only; rw [hl]; dsimp only; rw [hok])
  case sget =>
    exact issued_unlessFault h (by simp [specD_of_used hx, undefS_of_used hx, Nat.not_le.mpr hi]) (by simp only [specD_of_used hx]) rfl
  case sput =>
    exact issued_unlessFault h (by simp [specD_of_used hx, undefS_of_used hx, Nat.not_le.mpr hi]) (by simp only [specD_of_used hx]) rfl
  case sxs => exact issued_done h (by dsimp only; rw [hx]; dsimp only; rw [if_neg (Nat.not_le.mpr hl)])
  case sxr => exact issued_done h (by dsimp only; rw [ht]; dsimp only; rw [if_neg (by simp; omega)])

end Sys2Proof.Machine
end

section
/-! Commands that answer, read and set (R151 to R182): each is taken up, completes at once, and its answer is that of its own effect. -/

namespace Sys2Proof.Machine

open Sys2Proof

/-- A command that is taken up and completes at once is answered with its status and data, from the state its effect leaves. -/
theorem taken_answered {opc : Nat} {rq : Req} {f : State → Res} {s t : State} {st : Nat} {d : List Byte} (h : Taken opc rq s)
    (hf : f s = { st := t, status := st, data := d }) (hq : st ≠ stQueued := by decide) (h6 : opc ≠ 6 := by decide) :
    (Host.Outcome.next (runCmd opc rq f s) : Out) = .next (answered rq st d t) :=
  congrArg Host.Outcome.next (runCmd_taken h hf hq h6)

/-- Settles O6: each answer is the row's fields, and the state stays. -/
theorem answeringCommands : Obligations.AnsweringCommands := by
  intro rq s
  refine ⟨fun h => taken_answered h rfl, fun h => taken_answered h rfl, fun h => taken_answered h ?chain, fun h => taken_answered h rfl,
    fun h => taken_answered h rfl, fun h => taken_answered h rfl, fun h => taken_answered h rfl, fun h => taken_answered h rfl, fun h => taken_answered h rfl⟩
  case chain => simp [cmdChainStat]

/-! ### Reading -/

theorem cmdReadReg_ok {rq : Req} {addr : BitVec 16} {count : Byte} {ecc : Ecc} {s : State}
    (hm : rq.auth = .meter → metersReadOk addr.toNat count.toNat = true) (hr : readRange addr.toNat count.toNat = true) :
    cmdReadReg rq addr count ecc s =
      { st := (readRegs ecc count.toNat addr.toNat s).2, status := stOk, data := (readRegs ecc count.toNat addr.toNat s).1 } := by
  have hmeter : ¬(rq.auth = .meter ∧ (!metersReadOk addr.toNat count.toNat) = true) := fun ⟨ha, hno⟩ => by simp [hm ha] at hno
  unfold cmdReadReg
  rw [if_neg hmeter, if_neg (by simp [hr])]

theorem cmdResultRead_ok {offset count : BitVec 16} {ecc : Ecc} {s : State} (h0 : rf s.regs.indigoRes 31 16 ≠ 0)
    (hlen : offset.toNat + count.toNat ≤ rf s.regs.indigoRes 31 16) (hfit : resBase s + rf s.regs.indigoRes 31 16 ≤ 65536) (hmax : count.toNat ≤ 512) :
    cmdResultRead offset count ecc s =
      { st := hostEcc ecc (resBase s + offset.toNat) count.toNat s, status := stOk, data := memRead s.indigo.pad (resBase s + offset.toNat) count.toNat } := by
  unfold cmdResultRead
  dsimp only
  rw [if_neg (by omega)]

theorem cmdLogRead_ok {rq : Req} {cursor : BitVec 16} {count : Byte} {c : Cursor} {s : State} (h1 : 1 ≤ count.toNat) (h15 : count.toNat ≤ 15)
    (hc : placeCursor s cursor.toNat (nth s.log.cursors rq.host.val {}) = some c) :
    cmdLogRead rq cursor count s =
      { st := noteReads (cursorReads s count.toNat c).1 { s with log.cursors := s.log.cursors.set rq.host.val (cursorReads s count.toNat c).2 }, status := stOk,
        data := (cursorReads s count.toNat c).1 } := by
  unfold cmdLogRead
  rw [if_neg (by omega), hc]

theorem cmdEvtRead_ok {rq : Req} {max : Byte} {s : State} (h1 : 1 ≤ max.toNat) (h16 : max.toNat ≤ 16) :
    cmdEvtRead rq max s =
      { st := { s with evt.stores := s.evt.stores.set rq.host.val ((nth s.evt.stores rq.host.val []).drop max.toNat) }, status := stOk,
        data := (((nth s.evt.stores rq.host.val []).take max.toNat).map entryBytes).flatten,
        more := decide (max.toNat < (nth s.evt.stores rq.host.val []).length) } := by
  unfold cmdEvtRead
  dsimp only
  rw [if_neg (by omega)]

theorem cmdCmdResult_held {rq : Req} {seq : BitVec 16} {l : List Byte} {s : State} (h : findResult rq seq.toNat s = .held l) :
    cmdCmdResult rq seq s = { st := noteReturned rq seq.toNat s, status := stOk, data := l } := by
  simp only [cmdCmdResult, h]

/-- Settles O7: each command's effect under its row's bounds. -/
theorem readingCommands : Obligations.ReadingCommands := by
  intro rq s
  refine ⟨fun addr count ecc h hm hr => taken_answered h (cmdReadReg_ok hm hr),
    fun offset count ecc h h0 hlen hfit hmax => taken_answered h (cmdResultRead_ok h0 hlen hfit hmax), fun p h => ?sport,
    fun cursor count c h h1 h15 hc => taken_answered h (cmdLogRead_ok h1 h15 hc), fun max h h1 h16 => ?evt,
    fun seq l h hl => taken_answered h (cmdCmdResult_held hl)⟩
  case sport =>
    match p with
    | 0 => exact taken_answered h rfl
    | 1 => exact taken_answered h rfl
  case evt => exact congrArg Host.Outcome.next (runCmd_taken h (cmdEvtRead_ok h1 h16) stOk_ne_stQueued (by decide))

/-! ### Setting -/

theorem cmdTagSync_port {rq : Req} {nonce : Word} {p : HPort} {s : State} (hp : rq.orig = .port p) : cmdTagSync rq nonce s =
    { st := raise 0x1B (det (inst2 rq.host.val (reqPort rq s)) rq.seq.toNat stOk 0) s, status := stOk,
      data := le 4 (nth s.nv.tagC rq.host.val 0) ++ le 4 nonce.toNat } := by
  simp only [cmdTagSync, hp]

/-! ### Power mode orders -/

theorem modeOf_modeCode (m : Mode) : modeOf (modeCode m) = m := by
  cases m <;> rfl

theorem modeCode_lt (m : Mode) : modeCode m < 4 := by
  cases m <;> decide

/-- What an accepted order of another mode leaves. -/
def modeTaken (rq : Req) (m : Mode) (s : State) : State :=
  match m with
  | .active => if s.sys.mode = .idle then raiseSys 0x04 (hbAfresh { modeOrdered rq s with sys.mode := .active }) else modeOrdered rq s
  | .idle => if s.sys.mode = .active then { modeOrdered rq s with sys.idleReq := true } else modeOrdered rq s
  | .sentinel => { modeOrdered rq s with sys.pendingMode := some .sentinel }
  | .ship => { modeOrdered rq s with sys.pendingMode := some .ship }

theorem modeOrder_present {rq : Req} {m : Mode} {key : Nat} {s : State} (hm : m = s.sys.mode) : modeOrder rq (modeCode m) key s = Res.of stOk s := by
  unfold modeOrder
  dsimp only
  rw [modeOf_modeCode, if_pos hm]

theorem modeOrder_refused {rq : Req} {m : Mode} {key : Nat} {s : State} (hm : m ≠ s.sys.mode) (ha : m = .sentinel ∨ m = .ship) (hc : refuseCause m key s ≠ 0) :
    modeOrder rq (modeCode m) key s = Res.of stBadParam (raiseSys 0x05 { s with sys.refuse := refuseCause m key s }) := by
  unfold modeOrder
  dsimp only
  rw [modeOf_modeCode, if_neg hm, if_pos ha, if_pos hc]
  rfl

theorem modeOrder_overruled {rq : Req} {m : Mode} {key : Nat} {s : State} (hm : m ≠ s.sys.mode) (hc : (m = .sentinel ∨ m = .ship) → refuseCause m key s = 0)
    (hh : heldAgainst rq 21 (decide (modeCode s.sys.mode < modeCode m)) s = true) :
    modeOrder rq (modeCode m) key s = overruled rq s := by
  have hcause : (if m = .sentinel ∨ m = .ship then refuseCause m key s else 0) = 0 := by rw [ite_eq_right_iff]; exact hc
  unfold modeOrder
  dsimp only
  rw [modeOf_modeCode, if_neg hm, if_neg (not_not.mpr hcause), if_pos hh]

theorem modeOrder_taken {rq : Req} {m : Mode} {key : Nat} {s : State} (hm : m ≠ s.sys.mode) (hc : (m = .sentinel ∨ m = .ship) → refuseCause m key s = 0)
    (hh : heldAgainst rq 21 (decide (modeCode s.sys.mode < modeCode m)) s = false) :
    modeOrder rq (modeCode m) key s = Res.of stOk (modeTaken rq m s) := by
  have hcause : (if m = .sentinel ∨ m = .ship then refuseCause m key s else 0) = 0 := by rw [ite_eq_right_iff]; exact hc
  unfold modeOrder
  dsimp only
  rw [modeOf_modeCode, if_neg hm, if_neg (not_not.mpr hcause), if_neg (by simp [hh])]
  cases m <;> rfl

/-- SET_MODE with a mode and a key it defines, and MODE_REQ from a host that may write its register, answer what the order gives. -/
theorem modeCommands {rq : Req} {m : Mode} {key : Byte} {s t : State} {st : Nat} (h : modeOrder rq (modeCode m) key.toNat s = Res.of st t)
    (hq : st ≠ stQueued := by decide) :
    (Taken 0x04 rq s → (m ≠ .ship → key = 0) → exec (.setMode rq (BitVec.ofNat 8 (modeCode m)) key) s = .next (answered rq st [] t)) ∧
    (Taken 0x03 rq s → rq.auth ≠ .safety → exec (.modeReq rq (BitVec.ofNat 2 (modeCode m)) key) s = .next (answered rq st [] t)) := by
  have hcode := modeCode_lt m
  have h8 : (BitVec.ofNat 8 (modeCode m)).toNat = modeCode m := by rw [BitVec.toNat_ofNat]; exact Nat.mod_eq_of_lt (by omega)
  have h2 : (BitVec.ofNat 2 (modeCode m)).toNat = modeCode m := by rw [BitVec.toNat_ofNat]; exact Nat.mod_eq_of_lt hcode
  refine ⟨fun ht hkey => taken_answered ht ?_ hq, fun ht hauth => taken_answered ht ?_ hq⟩
  · have hok : ¬(3 < modeCode m ∨ modeCode m ≠ 3 ∧ key ≠ 0) := by
      rintro (hlt | ⟨hne, hk⟩)
      · omega
      · exact hk (hkey fun hship => hne (hship ▸ rfl))
    rw [cmdSetMode, h8, if_neg hok]
    exact h
  · rw [cmdModeReq, if_neg hauth, h2]
    exact h

/-- Settles O8: the rows of the setting commands, and for the orders of a mode the four outcomes of `modeOrder`. -/
theorem settingCommands : Obligations.SettingCommands := by
  refine ⟨fun rq s => ⟨fun h ho => taken_answered h ?reset, fun code h hc => taken_answered h ?baud, fun nonce p h hp => ?sync,
      fun src seq h hs => taken_answered h ?ack, fun mask h => taken_answered h rfl, fun stream h hs => taken_answered h ?close⟩,
    fun rq m key s => ⟨fun hm => modeCommands (modeOrder_present hm), fun hm ha hc => modeCommands (modeOrder_refused hm ha hc),
      fun hm hc hh => modeCommands (modeOrder_overruled hm hc hh), fun hm hs hh => modeCommands ?activeIdle, fun hm hs hh => modeCommands ?activeSleep,
      fun hm hs hh => modeCommands ?idleActive, fun hm hs hh => modeCommands ?idleSleep, fun hm hs hc hh => modeCommands ?sentinel,
      fun hm hs hc hh => modeCommands ?ship, fun h ha => taken_answered h ?safety⟩⟩
  case reset => exact if_neg (by simp [ho])
  case baud => exact if_neg (Nat.not_lt.mpr hc)
  case sync => exact congrArg Host.Outcome.next (runCmd_sync h (cmdTagSync_port hp) rfl)
  case ack => exact if_neg (Nat.not_lt.mpr hs)
  case close => exact if_pos hs
  case safety => exact if_pos ha
  case activeIdle =>
    subst hm
    rw [modeOrder_taken (by simp [hs]) (by simp) (by simpa [modeCode] using hh), modeTaken, if_pos hs]
  case activeSleep =>
    subst hm
    rw [modeOrder_taken (by rcases hs with hs | hs <;> simp [hs]) (by simp) (by simpa [modeCode] using hh), modeTaken,
      if_neg (by rcases hs with hs | hs <;> simp [hs])]
  case idleActive =>
    subst hm
    rw [modeOrder_taken (by simp [hs]) (by simp) (by simpa [modeCode, hs] using hh), modeTaken, if_pos hs]
  case idleSleep =>
    subst hm
    rw [modeOrder_taken (by rcases hs with hs | hs <;> simp [hs]) (by simp) (by rcases hs with hs | hs <;> simpa [modeCode, hs] using hh), modeTaken,
      if_neg (by rcases hs with hs | hs <;> simp [hs])]
  case sentinel =>
    subst hm
    rw [modeOrder_taken (Ne.symm hs) (fun _ => hc) hh, modeTaken]
  case ship =>
    subst hm
    have hless : modeCode s.sys.mode < modeCode .ship := by revert hs; cases s.sys.mode <;> simp [modeCode]
    rw [modeOrder_taken (Ne.symm hs) (fun _ => hc) (by rwa [decide_eq_true hless]), modeTaken]

end Sys2Proof.Machine
end

section
/-! Register writes, latching reads, and the commands of balancing, firmware and configuration (R363 to R425, R834 to R845, R863 to R866). -/

namespace Sys2Proof.Machine

open Sys2Proof

/-! ### WRITE_REG -/

theorem runCmd_congr {opc : Nat} {rq : Req} {f g : State → Res} {s : State} (h : f s = g s) : runCmd opc rq f s = runCmd opc rq g s := by
  unfold runCmd
  rw [h]

theorem cmdWriteReg_permitted {rq : Req} {addr : BitVec 16} {mask value : Word} {s : State} (ha : rq.auth = .safety → safetyWriteOk addr.toNat = true)
    (h4 : addr.toNat % 4 = 0) : cmdWriteReg rq addr mask value s =
      if addr.toNat = 0x0010 ∧ rf mask 1 0 ≠ 0 then
        let r := modeOrder rq (rf (value &&& mask) 1 0) (rf (value &&& mask) 31 24) s
        if r.status = stOk then Res.of stOk (writeRw addr.toNat mask value r.st) else r
      else if addr.toNat = 0x2C18 ∧ (value &&& mask).getLsbD 0 = true then cmdAlarmClr (BitVec.ofNat 8 (rf (value &&& mask) 15 8)) s
      else Res.of stOk (writePlain rq addr.toNat mask value s) := by
  have hauth : ¬(rq.auth = .safety ∧ (!safetyWriteOk addr.toNat) = true) := fun ⟨hs, hno⟩ => by simp [ha hs] at hno
  unfold cmdWriteReg
  dsimp only
  rw [if_neg hauth, if_neg (not_not.mpr h4)]

theorem cmdWriteReg_plain {rq : Req} {addr : BitVec 16} {mask value : Word} {s : State} (ha : rq.auth = .safety → safetyWriteOk addr.toNat = true)
    (h4 : addr.toNat % 4 = 0) (hm : addr.toNat ≠ 0x0010) (hc : addr.toNat ≠ 0x2C18) :
    cmdWriteReg rq addr mask value s = Res.of stOk (writePlain rq addr.toNat mask value s) := by
  rw [cmdWriteReg_permitted ha h4, if_neg (fun h => hm h.1), if_neg (fun h => hc h.1)]

theorem cmdWriteReg_mode {rq : Req} {mask value : Word} {s : State} (ha : rq.auth ≠ .safety) (hm : rf mask 1 0 ≠ 0)
    (ho : (modeOrder rq (rf (value &&& mask) 1 0) (rf (value &&& mask) 31 24) s).status = stOk) :
    cmdWriteReg rq 0x0010 mask value s =
      Res.of stOk (writeRw 0x0010 mask value (modeOrder rq (rf (value &&& mask) 1 0) (rf (value &&& mask) 31 24) s).st) := by
  rw [cmdWriteReg_permitted (fun h => absurd h ha) rfl, if_pos ⟨rfl, hm⟩]
  exact if_pos ho

theorem cmdWriteReg_alarm {rq : Req} {mask value : Word} {s : State} (hb : (value &&& mask).getLsbD 0 = true) :
    cmdWriteReg rq 0x2C18 mask value s = cmdAlarmClr (BitVec.ofNat 8 (rf (value &&& mask) 15 8)) s := by
  rw [cmdWriteReg_permitted (fun _ => rfl) rfl, if_neg (fun h => absurd h.1 (by decide)), if_pos ⟨rfl, hb⟩]

/-! ### Ports and tests -/

theorem setPort_congr {sd : Side} {f g : ChPort → ChPort} {s : State} (h : f (port s sd) = g (port s sd)) : setPort sd f s = setPort sd g s := by
  cases sd with
  | north => exact congrArg (fun p => { s with chain.north := p }) h
  | south => exact congrArg (fun p => { s with chain.south := p }) h

theorem execPortClr_one (sd : Side) (s : State) : execPortClr (sd == .north) (sd == .south) s = .next (clrPort sd s) := by
  cases sd <;> rfl

theorem clrPort_up {sd : Side} {s : State} (h : (port s sd).st = .active ∨ (port s sd).st = .degraded) :
    clrPort sd s = setPort sd (fun p => { p with tec := 0, recErr := 0, exchanges := 0, st := .active }) s := by
  have hoff : ((port s sd).st == .portOff || (port s sd).st == .offLatched) = false := by rcases h with h | h <;> rw [h] <;> rfl
  unfold clrPort
  dsimp only
  rw [if_neg (by simp [hoff])]
  exact setPort_congr (by rcases h with h | h <;> simp [h])

theorem clrPort_dead {sd : Side} {s : State} (h : (port s sd).st = .linkDead) :
    clrPort sd s = setPort sd (fun p => { p with tec := 0, recErr := 0, exchanges := 0 }) s := by
  unfold clrPort
  dsimp only
  rw [if_neg (by simp [h])]
  exact setPort_congr (by simp [h])

theorem clrPort_off {sd : Side} {s : State} (h : (port s sd).st = .portOff ∨ (port s sd).st = .offLatched) :
    clrPort sd s = sendLinkUp sd (setPort sd (fun p => { p with tec := 0, recErr := 0, exchanges := 0, st := .active, healDue := some s.clk }) s) := by
  have hoff : ((port s sd).st == .portOff || (port s sd).st == .offLatched) = true := by rcases h with h | h <;> rw [h] <;> rfl
  unfold clrPort
  dsimp only
  rw [if_pos hoff]
  exact congrArg (sendLinkUp sd) (setPort_congr (by rcases h with h | h <;> simp [h]))

theorem startOw_begins {s : State} (ho : s.cell.ow = none) (hm : measuring s = true) (hs : sweepBusy s = false) (ht : stimRuns s = false) :
    startOw s = { s with cell.ow := some owFirst, cell.owDeferred := false } := by
  simp [startOw, ho, hm, hs, ht]

theorem startOw_defers {s : State} (ho : s.cell.ow = none) (hm : measuring s = true) (hb : sweepBusy s = true ∨ stimRuns s = true) :
    startOw s = { s with cell.owDeferred := true } := by
  unfold startOw
  rw [if_neg (by simp [ho, hm]), if_pos hb]

theorem startOw_idle {s : State} (h : s.cell.ow ≠ none ∨ measuring s = false) : startOw s = s :=
  if_pos (by simpa [Option.isSome_iff_ne_none] using h)

theorem execOwPeriodic_eq (s : State) : execOwPeriodic s = .next (if rf s.regs.owCfg 7 0 = 0 then s else startOw s) := by
  unfold execOwPeriodic
  split <;> rfl

/-- Settles O9: each row is one operation, and the open-wire rows are `startOw`. -/
theorem registerWrites : Obligations.RegisterWrites := by
  refine ⟨fun rq addr mask value s h ha h4 hm hc => taken_answered h (cmdWriteReg_plain ha h4 hm hc), fun addr mask value s hw h4 => ?window,
    fun rq mask value s h ha hm ho => taken_answered h (cmdWriteReg_mode ha hm ho),
    fun rq mask value s h hb => congrArg Host.Outcome.next (runCmd_congr (cmdWriteReg_alarm hb)),
    fun sd s h => (execPortClr_one sd s).trans (congrArg _ (clrPort_up h)), fun sd s h => (execPortClr_one sd s).trans (congrArg _ (clrPort_dead h)),
    fun sd s h => (execPortClr_one sd s).trans (congrArg _ (clrPort_off h)), fun s => ⟨rfl, rfl⟩, fun mask s => rfl, fun value s => rfl, fun value s => rfl,
    fun port value s => rfl, fun s ho hm hs ht => ?begins, fun s ho hm hb => ?defers, fun s h => ?idle⟩
  case window => exact if_pos ⟨hw, h4⟩
  case begins =>
    have hstart := startOw_begins ho hm hs ht
    exact ⟨congrArg Host.Outcome.next hstart, (execOwPeriodic_eq s).trans (by rw [hstart])⟩
  case defers =>
    have hstart := startOw_defers ho hm hb
    exact ⟨congrArg Host.Outcome.next hstart, (execOwPeriodic_eq s).trans (by rw [hstart])⟩
  case idle =>
    have hstart := startOw_idle h
    exact ⟨congrArg Host.Outcome.next hstart, (execOwPeriodic_eq s).trans (by rw [hstart, ite_self])⟩

theorem execLogCursorSet_placed {code : BitVec 16} {c : Cursor} {s : State} (hc : placeCursor s code.toNat (nth s.log.cursors 4 {}) = some c) :
    execLogCursorSet code s = .next { s with log.cursors := s.log.cursors.set 4 c } := by
  unfold execLogCursorSet
  rw [hc]

theorem execLogCursorSet_undefined {code : BitVec 16} {s : State} (hc : placeCursor s code.toNat (nth s.log.cursors 4 {}) = none) :
    execLogCursorSet code s = .next s := by
  unfold execLogCursorSet
  rw [hc]

/-- Settles O10: each latch is one write, and the cursor is placed as `placeCursor` says. -/
theorem latchingReads : Obligations.LatchingReads :=
  ⟨fun _ => rfl, fun _ => rfl, fun _ => rfl, fun _ => rfl, fun _ => rfl, fun _ _ _ hc => execLogCursorSet_placed hc,
    fun _ _ hc => execLogCursorSet_undefined hc⟩

/-! ### Balancing -/

theorem cmdBalSet_refused {rq : Req} {mask onTime : BitVec 16} {s : State} (h : balMaxOn s < onTime.toNat / 2 ∨ namesUnused s mask = true) :
    cmdBalSet rq mask onTime s = Res.of stBadParam s := if_pos h

theorem cmdBalSet_admitted {rq : Req} {mask onTime : BitVec 16} {s : State} (hn : onTime.toNat / 2 ≤ balMaxOn s) (hu : namesUnused s mask = false) :
    cmdBalSet rq mask onTime s =
      if ((ones mask).any fun k => heldAgainst rq (5 + k) (nth s.bal.onT k 0 < onTime.toNat / 2) s) = true then overruled rq s
      else Res.of stOk (noteHeld (noteOrder rq (chObjs mask)
        { s with bal.onT := s.bal.onT.mapIdx fun k t => if mask.getLsbD k then onTime.toNat / 2 else t,
                 bal.debt := s.bal.debt.mapIdx fun k t => if mask.getLsbD k && nth s.bal.onT k 0 != onTime.toNat / 2 then 0 else t })) := by
  unfold cmdBalSet
  dsimp only
  rw [if_neg (by simp [hu, Nat.not_lt.mpr hn])]

/-- The sweep uses a channel of a mask. -/
def sweeps (s : State) (mask : BitVec 16) : Bool := s.sweep.st != .idle && s.sweep.st != .fitting && (s.sweep.mask &&& mask != 0)

theorem sweeps_eq_false {s : State} {mask : BitVec 16} (h : s.sweep.st = .idle ∨ s.sweep.st = .fitting ∨ s.sweep.mask &&& mask = 0) : sweeps s mask = false := by
  rcases h with h | h | h <;> simp [sweeps, h]

theorem sweeps_eq_true {s : State} {mask : BitVec 16} (hi : s.sweep.st ≠ .idle) (hf : s.sweep.st ≠ .fitting) (hm : s.sweep.mask &&& mask ≠ 0) :
    sweeps s mask = true := by
  simpa [sweeps, hi, hf] using hm

theorem cmdBalStop_eq (rq : Req) (mask : BitVec 16) (s : State) :
    cmdBalStop rq mask s = Res.of stOk (noteOrder rq (chObjs mask) (if sweeps s mask then endSweep 2 (clearBal mask 1 s) else clearBal mask 1 s)) := rfl

theorem cmdStimSet_end {rq : Req} {mask : BitVec 16} {dur : Byte} {freq : Word} {bias amp : BitVec 16} {s : State}
    (hb : stimBad s mask 0 dur.toNat freq.toNat bias.toNat amp.toNat = false) : cmdStimSet rq mask 0 dur freq bias amp s =
      Res.of stOk (noteOrder rq (chObjs mask) (if sweeps s mask then endSweep 2 (endStim mask 0 s) else endStim mask 0 s)) := by
  have hadmit : stimBad s mask (0 : Byte).toNat dur.toNat freq.toNat bias.toNat amp.toNat = false := hb
  unfold cmdStimSet
  rw [if_neg (Bool.eq_false_iff.mp hadmit), if_pos rfl]
  rfl

theorem cmdStimSet_wave {rq : Req} {mask : BitVec 16} {wave dur : Byte} {freq : Word} {bias amp : BitVec 16} {s : State}
    (hb : stimBad s mask wave.toNat dur.toNat freq.toNat bias.toNat amp.toNat = false) (hw : wave ≠ 0) : cmdStimSet rq mask wave dur freq bias amp s =
      if ((ones mask).any fun k => heldAgainst rq (5 + k) (!stimOn s false k) s) = true then overruled rq s
      else if mask = 0 then Res.of stOk s
      else Res.of stOk (noteHeld (noteOrder rq (chObjs mask)
        { endStim allCh 0 s with
          bal.stim := some { mask := mask, wave := wave.toNat, dur := dur.toNat, freq := freq.toNat, bias := bias.toNat, amp := amp.toNat, running := false, sweep := false,
                             t0 := stimT0 s, offAt := none, onAt := 0 },
          bal.stimW := wave.toNat, bal.stimDur := dur.toNat, bal.stimF := freq.toNat, bal.stimBias := bias.toNat, bal.stimAmp := amp.toNat })) := by
  unfold cmdStimSet
  rw [if_neg (Bool.eq_false_iff.mp hb), if_neg hw]

/-- Settles O12: the outcomes of each command, by what admits it. -/
theorem balanceCommands : Obligations.BalanceCommands := by
  intro rq mask s
  refine ⟨fun onTime h hn hu hh => taken_answered h ((cmdBalSet_admitted hn hu).trans (if_neg (Bool.eq_false_iff.mp hh))),
    fun onTime h hn hu hh => taken_answered h ((cmdBalSet_admitted hn hu).trans (if_pos hh)), fun onTime h hb => taken_answered h (cmdBalSet_refused hb),
    fun h hs => taken_answered h (by rw [cmdBalStop_eq, sweeps_eq_false hs]; rfl),
    fun h hi hf hm => taken_answered h (by rw [cmdBalStop_eq, sweeps_eq_true hi hf hm]; rfl),
    fun wave dur freq bias amp h hb hw hm hh => taken_answered h ((cmdStimSet_wave hb hw).trans ((if_neg (Bool.eq_false_iff.mp hh)).trans (if_neg hm))),
    fun wave dur freq bias amp h hb hw hh => taken_answered h ((cmdStimSet_wave hb hw).trans (if_pos hh)),
    fun dur freq bias amp h hb hs => taken_answered h (by rw [cmdStimSet_end hb, sweeps_eq_false hs]; rfl),
    fun dur freq bias amp h hb hi hf hm => taken_answered h (by rw [cmdStimSet_end hb, sweeps_eq_true hi hf hm]; rfl),
    fun wave dur freq bias amp h hb => taken_answered h (if_pos hb)⟩

/-! ### Firmware, configuration, commissioning -/

/-- A command that is taken up and queued is kept for its result. -/
theorem taken_queued {opc : Nat} {rq : Req} {f : State → Res} {s t : State} (h : Taken opc rq s) (hf : f s = Res.of stQueued t)
    (h6 : opc ≠ 6 := by decide) (h13 : opc ≠ 0x13 := by decide) :
    (Host.Outcome.next (runCmd opc rq f s) : Out) = .next (answered rq stQueued [] (keepQueued rq t)) :=
  congrArg Host.Outcome.next (runCmd_queued h hf rfl rfl h6 h13)

theorem cmdFwLoad_checking {offset : Word} {image : List Byte} {s : State} (h : s.fw.checking ≠ []) : cmdFwLoad offset image s = Res.of stBadParam s :=
  if_pos (Or.inl h)

theorem cmdFwLoad_first {image : List Byte} {s : State} (hc : s.fw.checking = []) (hl : image.length < 8) : cmdFwLoad 0 image s =
    Res.of stOk (unqualify (setInactive (memWrite [] 0 image) { s with fw.rcvd := image.length, fw.declared := none, fw.busy := true })) := by
  have hsum : (0 : Word).toNat + image.length = image.length := Nat.zero_add _
  unfold cmdFwLoad
  dsimp only
  rw [hsum, if_neg (Nat.not_le.mpr hl), if_pos rfl, if_neg]
  · rfl
  · rintro (h | ⟨h, -⟩ | h | h)
    · exact h hc
    · exact h rfl
    · omega
    · cases h

theorem cmdFwLoad_next {offset : Word} {image : List Byte} {s : State} (hc : s.fw.checking = []) (h0 : offset ≠ 0) (hr : offset.toNat = s.fw.rcvd)
    (h8 : 8 ≤ offset.toNat) (hfit : offset.toNat + image.length ≤ 131072)
    (hl : offset.toNat + image.length ≤ field (memRead (memWrite (inactiveImage s) offset.toNat image) 4 4) 0 4) :
    cmdFwLoad offset image s =
      Res.of stOk (unqualify (setInactive (memWrite (inactiveImage s) offset.toNat image)
        { s with fw.rcvd := offset.toNat + image.length, fw.busy := true,
                 fw.declared := some (field (memRead (memWrite (inactiveImage s) offset.toNat image) 4 4) 0 4) })) := by
  have hlen : 8 ≤ offset.toNat + image.length := h8.trans (Nat.le_add_right _ _)
  unfold cmdFwLoad
  dsimp only
  rw [if_neg h0, if_pos hlen, if_neg]
  rintro (h | ⟨-, h⟩ | h | h)
  · exact h hc
  · exact h hr
  · exact Nat.not_lt.mpr hfit h
  · exact Nat.not_lt.mpr hl (of_decide_eq_true h)

theorem cmdFwActivate_ok {rq : Req} {crc : Word} {s : State} (hi : imageComplete s = true) (ho : anyOutputOn s = false) (hs : sweepBusy s = false)
    (hp : proofRuns s = false) (hpre : s.watch.level ≠ .preAlarm) (ha : s.watch.level ≠ .alarm) :
    cmdFwActivate rq crc s = Res.of stQueued { s with fw.checking := s.fw.checking ++ [(crc, rq.host, rq.seq.toNat)] } :=
  if_neg (by simp [hi, ho, hs, hp, hpre, ha])

theorem cmdFwActivate_refused {rq : Req} {crc : Word} {s : State} (h : imageComplete s = false ∨ anyOutputOn s = true ∨ sweepBusy s = true ∨
    proofRuns s = true ∨ s.watch.level = .preAlarm ∨ s.watch.level = .alarm) : cmdFwActivate rq crc s = Res.of stBadParam s :=
  if_pos (by simpa using h)

theorem cmdBindHost_open {rq : Req} {host position port authority : Byte} {s : State} (hs : bindSealed host.toNat authority.toNat s = false)
    (hr : bindRefused host.toNat position.toNat port.toNat authority.toNat s = false) : cmdBindHost rq host position port authority s =
      Res.of stOk (raise 0x19 (det (inst2 host.toNat port.toNat) rq.seq.toNat stOk 0) (bindHost host.toNat position.toNat port.toNat authority.toNat s)) := by
  unfold cmdBindHost
  dsimp only
  rw [if_neg (Bool.eq_false_iff.mp hs), if_neg (Bool.eq_false_iff.mp hr)]

theorem boundAuth_of_binding {h : Nat} {s : State} {b : Binding} (hb : binding s h = some b) : boundAuth h s = some b.auth := by
  simp [boundAuth, hb]

theorem cmdKeyProvision_sealed {rq : Req} {host : Byte} {key : List Byte} {s : State} {b : Binding} (hb : binding s host.toNat = some b)
    (hs : sealedFor [some b.auth] s = true) : cmdKeyProvision rq host key s = Res.of stSealed s := by
  unfold cmdKeyProvision
  dsimp only
  rw [boundAuth_of_binding hb, if_pos hs]

theorem cmdKeyProvision_open {rq : Req} {host : Byte} {key : List Byte} {s : State} {b : Binding} (hb : binding s host.toNat = some b)
    (ha : b.auth = .meter ∨ b.auth = .safety) (hs : sealedFor [some b.auth] s = false) (h3 : host.toNat ≤ 3) (hl : key.length = 16)
    (hz : key.all (· == 0) = false) : cmdKeyProvision rq host key s =
      Res.of stOk (raise 0x1A (det (inst2 host.toNat (b2n b.uart)) rq.seq.toNat stOk 0) (storeKey host.toNat key s)) := by
  have hauth : ¬(some b.auth ≠ some Auth.meter ∧ some b.auth ≠ some Auth.safety) := by rcases ha with h | h <;> simp [h]
  unfold cmdKeyProvision
  dsimp only
  rw [boundAuth_of_binding hb, if_neg (Bool.eq_false_iff.mp hs), if_neg, hb]
  rintro (h | h | h | h)
  · omega
  · exact h hl
  · exact hauth h
  · exact Bool.eq_false_iff.mp hz h

/-- Settles O14: the outcomes of each command, by what admits it. -/
theorem firmwareAndConfiguration : Obligations.FirmwareAndConfiguration := by
  intro rq s
  exact ⟨fun image h hc hl => taken_answered h (cmdFwLoad_first hc hl),
    fun offset image h hc h0 hr h8 hfit hl => taken_answered h (cmdFwLoad_next hc h0 hr h8 hfit hl),
    fun offset image h hc => taken_answered h (cmdFwLoad_checking hc), fun crc h hi ho hs hp hpre ha => taken_queued h (cmdFwActivate_ok hi ho hs hp hpre ha),
    fun crc h hno => taken_answered h (cmdFwActivate_refused hno), fun offset bytes h hl => taken_answered h (if_neg (Nat.not_lt.mpr hl)),
    fun crc h => taken_queued h rfl, fun host position port authority h hs hr => taken_answered h (cmdBindHost_open hs hr),
    fun host position port authority h hs => taken_answered h (if_pos hs),
    fun host key b h hb ha hs h3 hl hz => taken_answered h (cmdKeyProvision_open hb ha hs h3 hl hz),
    fun host key b h hb hs => taken_answered h (cmdKeyProvision_sealed hb hs), fun h hp => taken_queued h (if_neg (Bool.eq_false_iff.mp hp)),
    fun h hp => taken_answered h (if_pos hp)⟩

end Sys2Proof.Machine
end

section
/-! The rows of the host ports and of the dispatch tick, of the resets and of the boot (R61 to R64, R102, R153 to R193, R823 to R846): each row by the guards
of its meaning. -/

namespace Sys2Proof.Machine

open Sys2Proof

/-! ### SPI -/

section
variable {s : State} (hon : rf s.regs.hostCfg 4 4 ≠ 0) (hsup : s.pins.vddio = true)
include hon hsup

theorem execSpiTransaction_on (l : List Byte) : execSpiTransaction l s =
    (let s1 := { s with host.sdo := spiOut l.length s (spiItem s) }
     if !portsAwake s then .next s1
     else
       match l with
       | [] => .next s1
       | op :: rest =>
         if op ≠ 0xA5 ∧ op ≠ 0x5A then .next { s1 with host.drop := true }
         else if op = 0x5A then .next (spiRead l.length s1)
         else if spiItem s ≠ [] then .next (spiPacket rest (spiRead l.length s1))
         else .next (spiRead l.length { spiPacket rest s1 with host.sdo := spiOut l.length s (spiItem (spiPacket rest s1)) })) := by
  unfold execSpiTransaction
  refine (if_neg (by simp [hon, hsup])).trans ?_
  cases l <;> rfl

theorem execSpiTransaction_asleep (hw : portsAwake s = false) (l : List Byte) :
    execSpiTransaction l s = .next { s with host.sdo := spiOut l.length s (spiItem s) } := by
  rw [execSpiTransaction_on hon hsup]
  exact if_pos (by simp [hw])

variable (hw : portsAwake s = true)
include hw

theorem execSpiTransaction_none : execSpiTransaction [] s = .next { s with host.sdo := spiOut 0 s (spiItem s) } := by
  rw [execSpiTransaction_on hon hsup]
  exact if_neg (by simp [hw])

theorem execSpiTransaction_op (op : Byte) (l : List Byte) : execSpiTransaction (op :: l) s =
    (let s1 := { s with host.sdo := spiOut (l.length + 1) s (spiItem s) }
     if op ≠ 0xA5 ∧ op ≠ 0x5A then .next { s1 with host.drop := true }
     else if op = 0x5A then .next (spiRead (l.length + 1) s1)
     else if spiItem s ≠ [] then .next (spiPacket l (spiRead (l.length + 1) s1))
     else .next (spiRead (l.length + 1) { spiPacket l s1 with host.sdo := spiOut (l.length + 1) s (spiItem (spiPacket l s1)) })) := by
  rw [execSpiTransaction_on hon hsup]
  exact if_neg (by simp [hw])

theorem execSpiTransaction_dropped {op : Byte} (hwr : op ≠ 0xA5) (hrd : op ≠ 0x5A) (l : List Byte) :
    execSpiTransaction (op :: l) s = .next { s with host.sdo := spiOut (l.length + 1) s (spiItem s), host.drop := true } := by
  rw [execSpiTransaction_op hon hsup hw]
  exact if_pos ⟨hwr, hrd⟩

theorem execSpiTransaction_read (l : List Byte) :
    execSpiTransaction (0x5A :: l) s = .next (spiRead (l.length + 1) { s with host.sdo := spiOut (l.length + 1) s (spiItem s) }) := by
  rw [execSpiTransaction_op hon hsup hw]
  rfl

theorem execSpiTransaction_write (hi : spiItem s ≠ []) (l : List Byte) : execSpiTransaction (0xA5 :: l) s =
    .next (spiPacket l (spiRead (l.length + 1) { s with host.sdo := spiOut (l.length + 1) s (spiItem s) })) := by
  rw [execSpiTransaction_op hon hsup hw]
  exact if_pos hi

theorem execSpiTransaction_writeFirst (hi : spiItem s = []) (l : List Byte) : execSpiTransaction (0xA5 :: l) s =
    .next (spiRead (l.length + 1) { spiPacket l { s with host.sdo := spiOut (l.length + 1) s [] } with
      host.sdo := spiOut (l.length + 1) s (spiItem (spiPacket l { s with host.sdo := spiOut (l.length + 1) s [] })) }) := by
  rw [execSpiTransaction_op hon hsup hw]
  refine (if_neg (not_not.mpr hi)).trans ?_
  rw [hi]

end

theorem execUartFrame_taken {s : State} (hon : rf s.regs.hostCfg 5 5 ≠ 0) (hw : portsAwake s = true) (hb : s.host.breakStuck = false) (rxd : List Bool) :
    execUartFrame rxd s = .next ((rxChars rxd true 0).foldl takeChar s) :=
  if_neg (by simp [hon, hw, hb])

theorem execUartFrame_ignored {s : State} (h : rf s.regs.hostCfg 5 5 = 0 ∨ portsAwake s = false ∨ s.host.breakStuck = true) (rxd : List Bool) :
    execUartFrame rxd s = .next s :=
  if_pos (by simpa using h)

/-! ### Replies that do not come -/

section
variable {p : HPort} {seq : BitVec 12} {sl : Slot} {s : State} (h : (portBuf s p).slots[waitingSlot (portBuf s p) seq.toNat]? = some sl)
include h

theorem replyTimeouts_unicast (h1 : sl.dev ≠ 0xFE) (h2 : sl.dev ≠ 0xFF) :
    execNoReply p seq s = .next (fillSlot p (waitingSlot (portBuf s p) seq.toNat) true (slotReply s sl stNoReply) s) ∧ execGroupReplyTimeout p seq s = .next s := by
  simp only [execNoReply, execGroupReplyTimeout, h, h1, h2, or_self, if_false, and_self]

theorem replyTimeouts_group (hg : sl.dev = 0xFE ∨ sl.dev = 0xFF) :
    execGroupReplyTimeout p seq s = .next (combine p (waitingSlot (portBuf s p) seq.toNat) s) ∧ execNoReply p seq s = .next s := by
  simp only [execNoReply, execGroupReplyTimeout, h, hg, if_true, and_self]

end

theorem replyTimeouts_none {p : HPort} {seq : BitVec 12} {s : State} (h : (portBuf s p).slots[waitingSlot (portBuf s p) seq.toNat]? = none) :
    execNoReply p seq s = .next s ∧ execGroupReplyTimeout p seq s = .next s := by
  simp only [execNoReply, execGroupReplyTimeout, h, and_self]

theorem execCommandDispatchable_joins {c : PCmd} {t : List PCmd} {s : State} (h : s.cmd.waiting = c :: t) :
    execCommandDispatchable s = .next { s with cmd.waiting := t, cmd.tick := s.cmd.tick ++ [c] } := by
  simp only [execCommandDispatchable, h]

theorem execCommandDispatchable_none {s : State} (h : s.cmd.waiting = []) : execCommandDispatchable s = .next s := by
  simp only [execCommandDispatchable, h]

/-- Settles O18: the rows of the ports, by the guards of each. -/
theorem hostPortRows : Obligations.HostPortRows := by
  refine ⟨⟨fun l s h => ?spiOff, fun l s hon hsup hw => execSpiTransaction_asleep hon hsup hw l, fun s hon hsup hw => execSpiTransaction_none hon hsup hw,
      fun op l s hon hsup hw h1 h2 => execSpiTransaction_dropped hon hsup hw h1 h2 l, fun l s hon hsup hw => execSpiTransaction_read hon hsup hw l,
      fun l s hon hsup hw hi => execSpiTransaction_write hon hsup hw hi l, fun l s hon hsup hw hi => execSpiTransaction_writeFirst hon hsup hw hi l,
      fun rxd s hon hw hb => execUartFrame_taken hon hw hb rxd, fun rxd s h => execUartFrame_ignored h rxd, fun _ => rfl, fun _ => rfl, fun _ _ => rfl,
      fun s h => if_pos h, fun s h => if_neg (Bool.eq_false_iff.mp h)⟩,
    ⟨fun c t s h => execCommandDispatchable_joins h, fun s h => execCommandDispatchable_none h, fun ecc s h => if_pos h,
      fun ecc s h => if_neg (Bool.eq_false_iff.mp h), fun p seq sl s h h1 h2 => replyTimeouts_unicast h h1 h2, fun p seq sl s h hg => replyTimeouts_group h hg,
      fun p seq s h => replyTimeouts_none h⟩⟩
  case spiOff => exact if_pos (by simpa using h)

/-! ### Resets -/

theorem execRstNPulse_awake {lowUs : Nat} {s : State} (hm : s.sys.mode ≠ .ship) (h1 : 1 ≤ lowUs) :
    execRstNPulse lowUs s = .next (resetTo (if 10000 ≤ lowUs then 1 else 2) s) := by
  unfold execRstNPulse
  dsimp only
  rw [if_neg (Nat.not_lt.mpr h1), if_neg hm]

theorem execRstNPulse_ship {lowUs : Nat} {s : State} (hm : s.sys.mode = .ship) (h1 : 1 ≤ lowUs) : execRstNPulse lowUs s =
    .next { resetTo 0 s with sys.rstCause := setBit (resetTo 0 s).sys.rstCause (if 10000 ≤ lowUs then 1 else 2) true } := by
  unfold execRstNPulse
  dsimp only
  rw [if_neg (Nat.not_lt.mpr h1), if_pos hm]

/-- What a failed trial leaves alone. -/
theorem trialFails_frame (ready : Bool) (s : State) : (trialFails ready s).sys.powered = s.sys.powered ∧ (trialFails ready s).sys.ready = s.sys.ready ∧
    (trialFails ready s).cmd = s.cmd ∧ (trialFails ready s).nv = s.nv := by
  unfold trialFails
  split <;> exact ⟨rfl, rfl, rfl, rfl⟩

theorem resetTo_frame (cause : Nat) (s : State) : (resetTo cause s).sys.powered = false ∧ (resetTo cause s).sys.ready = false ∧
    (resetTo cause s).cmd.waiting = [] ∧ (resetTo cause s).nv.bindings = s.nv.bindings := by
  unfold resetTo
  dsimp only
  obtain ⟨hp, hr, hc, hn⟩ := trialFails_frame s.sys.ready
    (if 2 ≤ cause then
      keepPorts s (keepThermal s
        (if cause = 0 then
          { keepIdentity cause s (keepRecords s (keepCore s {})) with log.opmin := s.log.opminSaved }
        else keepVao s (keepIdentity cause s (keepRecords s (keepCore s {})))))
    else
      if cause = 0 then
        { keepIdentity cause s (keepRecords s (keepCore s {})) with log.opmin := s.log.opminSaved }
      else keepVao s (keepIdentity cause s (keepRecords s (keepCore s {}))))
  rw [hp, hr, hc, hn]
  split <;> split <;> exact ⟨rfl, rfl, rfl, rfl⟩

/-- Settles O19: each row is `resetTo` of its cause under its guard. -/
theorem resetRows : Obligations.ResetRows := by
  refine ⟨fun _ => rfl, fun lowUs s hm h1 hl => ?short, fun lowUs s hm hl => ?long, fun lowUs s hm h1 => execRstNPulse_ship hm h1, fun _ => rfl,
    fun s h => if_pos h, fun s h => if_neg (Bool.eq_false_iff.mp h), fun s h => if_pos h, fun s h => if_neg (Bool.eq_false_iff.mp h),
    fun s ht hr => ?trial, fun s h => ?noTrial, resetTo_frame⟩
  case short => exact (execRstNPulse_awake hm h1).trans (by rw [if_neg (Nat.not_le.mpr hl)])
  case long => exact (execRstNPulse_awake hm (by omega)).trans (by rw [if_pos hl])
  case trial => exact if_pos ⟨ht, by simp [hr]⟩
  case noTrial => exact if_neg (by rcases h with h | h <;> simp [h])

/-! ### Boot -/

theorem execBootComplete_boots {s : State} (hp : s.sys.powered = true) (hr : s.sys.ready = false) : execBootComplete s =
    match s.chain.enumHeld with
    | some n => .next (enumStep n { booted s with chain.enumHeld := none })
    | none => .next (booted s) := by
  unfold execBootComplete
  rw [if_neg (by simp [hp, hr])]
  rfl

theorem execClockCheck_powered {s : State} (hp : s.sys.powered = true) (dev : BitVec 25) (mosc : Bool) : execClockCheck dev mosc s =
    .next (if s.verm.strobeLost = true ∧ (countedRight dev s).getLsbD 17 = true ∧ (countedRight dev s).getLsbD 18 = true
      then classA 5 { readIslands (clocksJudged dev mosc s) with verm.strobeLost := false } else readIslands (clocksJudged dev mosc s)) := by
  have hcond : (s.verm.strobeLost && (countedRight dev s).getLsbD 17 && (countedRight dev s).getLsbD 18) = true ↔
      s.verm.strobeLost = true ∧ (countedRight dev s).getLsbD 17 = true ∧ (countedRight dev s).getLsbD 18 = true := by
    simp [and_assoc]
  unfold execClockCheck
  rw [if_neg (by simp [hp])]
  by_cases h : s.verm.strobeLost = true ∧ (countedRight dev s).getLsbD 17 = true ∧ (countedRight dev s).getLsbD 18 = true
  · rw [if_pos h]
    exact if_pos (hcond.mpr h)
  · rw [if_neg h]
    exact if_neg (mt hcond.mp h)

/-- Settles O20: each row is its guard and the operations of the boot, in order. -/
theorem bootRows : Obligations.BootRows := by
  refine ⟨fun boot s h => if_neg (Bool.eq_false_iff.mp h), fun boot s h => if_pos h, fun s hp hr hh => ?free, fun n s hp hr hh => ?held, fun s h => ?up,
    fun dev mosc s hp => execClockCheck_powered hp dev mosc, fun dev mosc s hp => if_pos (by simp [hp]), fun _ => rfl, fun s h => if_pos h,
    fun s h => if_neg (Bool.eq_false_iff.mp h)⟩
  case free => exact (execBootComplete_boots hp hr).trans (by rw [hh])
  case held => exact (execBootComplete_boots hp hr).trans (by rw [hh])
  case up => exact if_pos (by simpa using h)

end Sys2Proof.Machine
end

section
/-! The rows of supplies and the fabric, of sleep and waking, and of the ends of the stored checks (R62 to R103, R137 to R146, R281, R582, R673, R834, R844,
R845). -/

namespace Sys2Proof.Machine

open Sys2Proof

/-! ### Supplies and the fabric -/

theorem execRailFault_sets {a b : Bool} {s : State} (h : (a = true ∧ s.sys.vregFault = false) ∨ (b = true ∧ s.sys.vdd33Fault = false)) :
    execRailFault a b s = .next (raiseSys 0x06 { s with sys.vregFault := a, sys.vdd33Fault := b }) :=
  if_pos (by simpa using h)

theorem execRailFault_quiet {a b : Bool} {s : State} (ha : a = true → s.sys.vregFault = true) (hb : b = true → s.sys.vdd33Fault = true) :
    execRailFault a b s = .next { s with sys.vregFault := a, sys.vdd33Fault := b } :=
  if_neg (by rintro (⟨h, hn⟩ | ⟨h, hn⟩) <;> simp_all)

theorem readIsland_unread {d : Nat} {s : State} (h : canRead s d = false) : readIsland d s = s := by
  simp [readIsland, h]

theorem execFabricStall_eq (cls : Fin 6) (wait : Nat) (s : State) : execFabricStall cls wait s = .next
    (if 100000 < wait ∧ s.sys.stall.getLsbD cls.val = false then raiseSys 0x0F { alarmWaited cls wait s with sys.stall := setBit s.sys.stall cls.val true }
     else if 100000 < wait then { alarmWaited cls wait s with sys.stall := setBit s.sys.stall cls.val true } else alarmWaited cls wait s) := by
  have hstall : (alarmWaited cls wait s).sys.stall = s.sys.stall := by unfold alarmWaited; split <;> rfl
  change (if wait ≤ 100000 then Host.Outcome.next (alarmWaited cls wait s)
    else if s.sys.stall.getLsbD cls.val = true then
      Host.Outcome.next { alarmWaited cls wait s with sys.stall := setBit (alarmWaited cls wait s).sys.stall cls.val true }
    else Host.Outcome.next (raiseSys 0x0F { alarmWaited cls wait s with sys.stall := setBit (alarmWaited cls wait s).sys.stall cls.val true })) = _
  generalize alarmWaited cls wait s = u at hstall ⊢
  rw [hstall]
  by_cases hw : 100000 < wait
  · cases hb : s.sys.stall.getLsbD cls.val <;> simp [hw]
  · simp [hw]

/-- Settles O21: each row by its guard. -/
theorem supplyAndFabricRows : Obligations.SupplyAndFabricRows := by
  refine ⟨⟨fun s hl hp => ?low, fun s h => ?lowIdle, fun s h => if_pos h, fun s h => if_neg (Bool.eq_false_iff.mp h), fun a b s h => execRailFault_sets h,
      fun a b s ha hb => execRailFault_quiet ha hb, fun _ _ => rfl, fun v p s h => if_pos h, fun v p s h => if_neg (Bool.eq_false_iff.mp h), fun _ => rfl,
      fun s h => if_pos h, fun s h => if_neg (Bool.eq_false_iff.mp h)⟩,
    ⟨fun _ _ _ _ _ => rfl, fun src dst cls bytes s h => ?unread, execFabricStall_eq⟩⟩
  case low => exact if_neg (by simp [hl, hp])
  case lowIdle => exact if_pos (by simpa using h)
  case unread => exact congrArg Host.Outcome.next (readIsland_unread h)

/-! ### Sleep -/

/-- The guard of IDLE_ENTRY is that the member may not enter IDLE. -/
theorem not_mayIdle_iff (s : State) : ¬MayIdle s ↔
    s.sys.mode ≠ .active ∨ (!s.sys.powered) = true ∨ (!(s.sys.idleReq || rf s.regs.pwrCtrl 2 2 == 1)) = true ∨
      (s.indigo.te.st == .running || s.indigo.te.st == .loading) = true ∨ (s.indigo.se.st == .running || s.indigo.se.st == .loading) = true ∨
      responsePending s = true := by
  simp only [MayIdle, not_and_or, not_or, ne_eq, not_not, Bool.not_eq_true', Bool.or_eq_true, Bool.or_eq_false_iff, beq_iff_eq, beq_eq_false_iff_ne, Bool.not_eq_true,
    Bool.not_eq_false]
  tauto

theorem execIdleEntry_enters {s : State} (h : MayIdle s) : execIdleEntry s =
    .next (raiseSys 0x04 { s with sys.mode := .idle, sys.idleReq := false,
                                  cmd.safetyHeld := if s.sys.idleReq then s.cmd.safetyHeld else s.cmd.safetyHeld.filter (· != 21) }) :=
  if_neg fun hno => (not_mayIdle_iff s).mpr hno h

theorem execIdleEntry_stays {s : State} (h : ¬MayIdle s) : execIdleEntry s = .next s :=
  if_pos ((not_mayIdle_iff s).mp h)

theorem execModeEntry_pending {m : Mode} {s : State} (h : s.sys.pendingMode = some m) : execModeEntry s =
    if refuseCause m 0x5A s ≠ 0 then .next (refuseMode (refuseCause m 0x5A s) { s with sys.pendingMode := none }) else .next (fallAsleep m s) := by
  simp only [execModeEntry, h]

theorem execModeEntry_none {s : State} (h : s.sys.pendingMode = none) : execModeEntry s = .next s := by
  simp only [execModeEntry, h]

theorem execSentinelWake_wakes {s : State} (hm : s.sys.mode = .sentinel) (hw : s.sys.waking = false) (cellUV : List Int) (auxUV : List Nat) (v : Nat) (die : Int) :
    execSentinelWake cellUV auxUV v die s = .next
      (if ((List.range 8).any fun k => wakeRises (auxConvert auxUV v (measureDie die s)) k) = true ∨ ((List.range 16).any fun k => Config.outsideCoarse (nth cellUV k 0)) = true ∨
          (wakeJudged auxUV v die s).sys.sentinelAlarm = true
        then noteWake 5 (wakeRead auxUV v die s) else wakeRead auxUV v die s) := by
  unfold execSentinelWake wakeRead wakeJudged
  rw [if_neg (by simp [hm, hw])]
  simp only [Bool.or_eq_true, or_assoc]
  exact (apply_ite Host.Outcome.next _ _ _).symm

/-! ### Waking -/

theorem execWakePin_high {us : Nat} {s : State} (h0 : us ≠ 0) : execWakePin us s =
    if s.sys.mode = .ship then
      .next (if 1000 ≤ us then sendTone .south (sendTone .north (leaveShip 0 { s with pins.wake := true })) else { s with pins.wake := true })
    else if s.sys.mode = .sentinel ∧ us < 100 then .next { s with pins.wake := true }
    else .next (wakeUp 0 { s with pins.wake := true }) := by
  have hne : (us != 0) = true := by simpa using h0
  unfold execWakePin
  dsimp only
  rw [if_neg h0, hne]

theorem execHostWakeEdge_ignored {p : HPort} {s : State} (h : s.pins.vddio = false ∨ (s.sys.mode ≠ .sentinel ∧ s.sys.pendingMode ≠ some .sentinel)) :
    execHostWakeEdge p s = .next s := by
  refine if_neg ?_
  rintro ⟨hv, hm⟩
  rcases h with h | ⟨h1, h2⟩
  · simp [h] at hv
  · exact hm.elim h1 h2

section
variable {sd : Side} {s : State} (h : (toneEnds sd s).sys.waking = false)
include h

theorem execWakeTone_sentinel (hm : (toneEnds sd s).sys.mode = .sentinel) :
    execWakeTone sd s = .next (noteTone sd (noteWake 1 (sendTone (otherSide sd) (toneEnds sd s)))) := by
  unfold execWakeTone
  dsimp only
  rw [if_neg (Bool.eq_false_iff.mp h), hm]

theorem execWakeTone_ship (hm : (toneEnds sd s).sys.mode = .ship) :
    execWakeTone sd s = .next (noteTone sd (sendTone (otherSide sd) (leaveShip 1 (toneEnds sd s)))) := by
  unfold execWakeTone
  dsimp only
  rw [if_neg (Bool.eq_false_iff.mp h), hm]

theorem execWakeTone_awake (hm : (toneEnds sd s).sys.mode = .active ∨ (toneEnds sd s).sys.mode = .idle) :
    execWakeTone sd s = .next (wakeUp 1 (toneEnds sd s)) := by
  unfold execWakeTone
  dsimp only
  rw [if_neg (Bool.eq_false_iff.mp h)]
  rcases hm with hm | hm <;> rw [hm]

end

/-- Settles O22: each row by its guard. -/
theorem sleepAndWakeRows : Obligations.SleepAndWakeRows := by
  refine ⟨⟨fun s h => execIdleEntry_enters h, fun s h => execIdleEntry_stays h, fun m s h hc => ?enters, fun m s h hc => ?refused, fun s h => ?none,
      fun cellUV auxUV v die s hm hw => execSentinelWake_wakes hm hw cellUV auxUV v die, fun cellUV auxUV v die s h => ?asleep,
      fun ok s hm hb => if_neg (by simp [hm, hb]), fun ok s h => if_pos h, fun port s h => ?burst, fun port s h => if_pos (by simp [h]),
      fun s hm hw => if_neg (by simp [hm, hw]), fun s h => if_pos (by simpa using h)⟩,
    ⟨fun us s h0 hm h100 => ?pin, fun us s h0 h100 hm => ?pinShort, fun us s h hm => ?pinShip, fun us s h0 h hm => ?pinShipShort, fun _ => rfl,
      fun s hv hm => ⟨if_pos ⟨hv, hm⟩, if_pos ⟨hv, hm⟩⟩, fun p s h => ?noEdge, fun sd s h => if_pos h, fun sd s h hm => ?toneSentinel, fun sd s h hm => ?toneShip,
      fun sd s h hm => ?toneAwake, fun sd s h0 h4 hg => ?again, fun sd s h => if_pos h⟩⟩
  case enters => exact (execModeEntry_pending h).trans (if_neg (not_not.mpr hc))
  case refused => exact (execModeEntry_pending h).trans (if_pos hc)
  case none => exact execModeEntry_none h
  case asleep => exact if_pos h
  case burst => exact if_neg (by simp [h])
  case pin => exact (execWakePin_high h0).trans ((if_neg hm).trans (if_neg fun hs => Nat.not_lt.mpr (h100 hs.1) hs.2))
  case pinShort => exact (execWakePin_high h0).trans ((if_neg (by simp [hm])).trans (if_pos ⟨hm, h100⟩))
  case pinShip => exact (execWakePin_high (by omega)).trans ((if_pos hm).trans (by rw [if_pos h]))
  case pinShipShort => exact (execWakePin_high h0).trans ((if_pos hm).trans (by rw [if_neg (Nat.not_le.mpr h)]))
  case noEdge => exact execHostWakeEdge_ignored h
  case toneSentinel => exact execWakeTone_sentinel h hm
  case toneShip => exact execWakeTone_ship h hm
  case toneAwake => exact execWakeTone_awake h hm
  case again => exact if_neg (by simp [h0, Nat.not_le.mpr h4, hg])

/-! ### The ends of the stored checks -/

section
variable {crc : Word} {h : Fin 4} {q : Nat} {rest : List (Word × Fin 4 × Nat)} {s : State}

theorem execFwCheckDone_cons (hc : s.fw.checking = (crc, h, q) :: rest) : execFwCheckDone s =
    (let r := if s.fw.busy then fwResult crc s else 1
     let s1 := compareJob 1 (r != 1) false 0 { s with fw.checking := rest }
     .next (completeQueued h q (le 1 r) (if r = 0 then activateFw crc s1 else raise 0x0B (sysDetailWith s.sys.wakeSrc.toNat crc.toNat s1) s1))) := by
  simp only [execFwCheckDone, hc]

theorem execCfgCheckDone_cons (hc : s.nv.cfgChecking = (crc, h, q) :: rest) (ok : Bool) : execCfgCheckDone ok s =
    .next (commitImage (cfgWorkBytes s) h q (crc32c (cfgWorkBytes s) == crc) ok { s with nv.cfgChecking := rest }) := by
  simp only [execCfgCheckDone, hc]

theorem execSealCheckDone_valid (hc : s.verm.sealing = (crc, h, q) :: rest) (hv : firstInvalid s = none) (ok : Bool) : execSealCheckDone ok s =
    .next (sealBlock crc h q (crc32c (slice s.verm.block 0 256) == crc) ok { s with verm.sealing := rest }) := by
  simp only [execSealCheckDone, hc, hv]

theorem execSealCheckDone_invalid (hc : s.verm.sealing = (crc, h, q) :: rest) {off : Nat} (hv : firstInvalid s = some off) (ok : Bool) :
    execSealCheckDone ok s = .next (completeQueued h q (le 1 2 ++ le 1 off) { s with verm.sealing := rest }) := by
  simp only [execSealCheckDone, hc, hv]

end

theorem execFwCheckDone_nil {s : State} (hc : s.fw.checking = []) : execFwCheckDone s = .next s := by
  simp only [execFwCheckDone, hc]

theorem execCfgCheckDone_nil {s : State} (hc : s.nv.cfgChecking = []) (ok : Bool) : execCfgCheckDone ok s = .next s := by
  simp only [execCfgCheckDone, hc]

theorem execSealCheckDone_nil {s : State} (hc : s.verm.sealing = []) (ok : Bool) : execSealCheckDone ok s = .next s := by
  simp only [execSealCheckDone, hc]

section
variable (l : List Byte) (h : Fin 4) (q : Nat) (s : State)

theorem commitImage_crc (ok : Bool) : commitImage l h q false ok s = completeQueued h q (le 1 1 ++ le 2 0) (compareJob 1 false false 0 s) := rfl

variable {l}

theorem commitImage_invalid {off : Nat} (hv : cfgInvalid 0 341 l = some off) (ok : Bool) :
    commitImage l h q true ok s = completeQueued h q (le 1 2 ++ le 2 off) (compareJob 1 true false 0 s) := by
  simp only [commitImage, hv, Bool.not_true, Bool.false_eq_true, if_false]

theorem commitImage_valid (hv : cfgInvalid 0 341 l = none) : commitImage l h q true true s =
    completeQueued h q (le 1 0 ++ le 2 0) (raiseSys 0x0E
      { compareJob 1 true false 0 s with
        nv.cfgImage := l, nv.cfgOld := s.nv.cfgImage, sys.cfgCount := (s.sys.cfgCount + 1) % 65536, sys.cfgCopy := !s.sys.cfgCopy }) := by
  simp only [commitImage, hv, Bool.not_true, Bool.false_eq_true, if_false]

/-- The result byte of a write that fails its readback is a free value (log 22). -/
theorem commitImage_failed (hv : cfgInvalid 0 341 l = none) : ∃ (b : Byte) (n : Nat), commitImage l h q true false s =
    completeQueued h q (b :: le 2 0) (raiseSys 0x0D { compareJob 1 true false 0 s with freeCtr := n }) := by
  refine ⟨Config.failedWriteResult (compareJob 1 true false 0 s).freeCtr, (compareJob 1 true false 0 s).freeCtr + 1, ?_⟩
  simp only [commitImage, hv, Bool.not_true, Bool.false_eq_true, if_false, Bool.not_false, if_true, drawFree]

end

/-- The result byte of a seal's write that fails its readback is a free value too. -/
theorem sealBlock_failed (m : Word) (h : Fin 4) (q : Nat) (s : State) : ∃ (b : Byte) (n : Nat), sealBlock m h q true false s =
    completeQueued h q (b :: le 1 0) (raiseSys 0x0D { compareJob 1 true false 0 s with freeCtr := n }) := by
  refine ⟨Config.failedWriteResult (compareJob 1 true false 0 s).freeCtr, (compareJob 1 true false 0 s).freeCtr + 1, ?_⟩
  simp only [sealBlock, Bool.not_true, Bool.false_eq_true, if_false, Bool.not_false, if_true, drawFree]

/-- Settles O23: the oldest queued command of each kind, by the outcome of its checks. -/
theorem checkDoneRows : Obligations.CheckDoneRows := by
  refine ⟨fun crc h q rest s hc => ⟨fun hb hr => ?fwOk, fun hb hr => ?fwBad, fun hb => ?fwGone⟩, fun s hc => execFwCheckDone_nil hc, fun s hb hc => if_pos ⟨hb, hc⟩,
    fun s h => ?partialKept, fun crc h q rest ok s hc => ⟨fun hne => ?cfgCrc, fun off he hv => ?cfgInvalid, fun he hv hok => ?cfgOk, fun he hv hok => ?cfgFailed⟩,
    fun ok s hc => execCfgCheckDone_nil hc ok,
    fun m h q rest ok s hc => ⟨fun off hv => execSealCheckDone_invalid hc hv ok, fun hv hne => ?sealCrc, fun hv he hok => ?sealOk, fun hv he hok => ?sealFailed⟩,
    fun ok s hc => execSealCheckDone_nil hc ok⟩
  case fwOk =>
    refine (execFwCheckDone_cons hc).trans ?_
    dsimp only
    rw [if_pos hb, hr, if_pos rfl]
    rfl
  case fwBad =>
    refine (execFwCheckDone_cons hc).trans ?_
    dsimp only
    rw [if_pos hb, if_neg hr]
  case fwGone =>
    refine (execFwCheckDone_cons hc).trans ?_
    dsimp only
    rw [if_neg (Bool.eq_false_iff.mp hb), if_neg one_ne_zero]
    rfl
  case partialKept => exact if_neg (by rcases h with h | h <;> simp [h])
  case cfgCrc =>
    refine (execCfgCheckDone_cons hc ok).trans (congrArg _ ?_)
    rw [beq_false_of_ne hne, commitImage_crc]
  case cfgInvalid =>
    refine (execCfgCheckDone_cons hc ok).trans (congrArg _ ?_)
    rw [he, beq_self_eq_true, commitImage_invalid h q _ hv]
  case cfgOk =>
    refine (execCfgCheckDone_cons hc ok).trans (congrArg _ ?_)
    rw [he, beq_self_eq_true, hok, commitImage_valid h q _ hv]
  case cfgFailed =>
    obtain ⟨b, n, hbn⟩ := commitImage_failed h q { s with nv.cfgChecking := rest } hv
    refine ⟨b, n, (execCfgCheckDone_cons hc ok).trans (congrArg _ ?_)⟩
    rw [he, beq_self_eq_true, hok]
    exact hbn
  case sealCrc =>
    refine (execSealCheckDone_valid hc hv ok).trans (congrArg _ ?_)
    rw [beq_false_of_ne hne]
    rfl
  case sealOk =>
    refine (execSealCheckDone_valid hc hv ok).trans (congrArg _ ?_)
    rw [he, beq_self_eq_true, hok]
    rfl
  case sealFailed =>
    obtain ⟨b, n, hbn⟩ := sealBlock_failed m h q { s with verm.sealing := rest }
    refine ⟨b, n, (execSealCheckDone_valid hc hv ok).trans (congrArg _ ?_)⟩
    rw [he, beq_self_eq_true, hok]
    exact hbn

end Sys2Proof.Machine
end

section
/-! The rows by which a port sends, and those of links, enumeration and streams (R107 to R118, R241 to R283, R662, R802): each by the guards of its
meaning. -/

namespace Sys2Proof.Machine

open Sys2Proof

/-! ### FRAME_TRANSMIT and COLLISION -/

section
variable {sd : Side} {frac k n : Nat} {s t : State} (hon : chainOn s = true) (ht : t = linesDone s)
include hon ht

theorem execFrameTransmit_none (hp : pick (rf t.regs.fabCfg 3 0) (port t sd) = none) : execFrameTransmit sd frac s = .next t := by
  subst ht
  unfold execFrameTransmit
  rw [if_neg (by simp [hon])]
  dsimp only
  rw [hp]

theorem execFrameTransmit_queued {x : TxItem} (hp : pick (rf t.regs.fabCfg 3 0) (port t sd) = some (.inl k, n)) (hx : (port t sd).txq[k]? = some x) :
    execFrameTransmit sd frac s =
      if mayStart (port t sd) t.clk x.frame.cls = true
        then .next (startFrame sd frac x (setPort sd (fun p => { p with txq := p.txq.eraseIdx k, passed := n }) t)) else .next t := by
  subst ht
  unfold execFrameTransmit
  rw [if_neg (by simp [hon])]
  dsimp only
  rw [hp]
  dsimp only
  rw [hx]

theorem execFrameTransmit_link {f : Frame} (hp : pick (rf t.regs.fabCfg 3 0) (port t sd) = some (.inr k, n)) (hf : (port t sd).linkq[k]? = some f) :
    execFrameTransmit sd frac s =
      if mayStart (port t sd) t.clk f.cls = true
        then .next (startFrame sd frac { frame := f, transit := false, holds := none, came := none }
          (setPort sd (fun p => { p with linkq := p.linkq.eraseIdx k, passed := n }) t)) else .next t := by
  subst ht
  unfold execFrameTransmit
  rw [if_neg (by simp [hon])]
  dsimp only
  rw [hp]
  dsimp only
  rw [hf]

end

theorem execFrameTransmit_off {s : State} (h : chainOn s = false) (sd : Side) (frac : Nat) : execFrameTransmit sd frac s = .next s :=
  if_pos (by simp [h])

theorem execCollision_sends {sd : Side} {i : TxItem} {s t : State} (hon : chainOn s = true) (hidle : lineIdle (port s sd) s.clk = false)
    (hsent : (port s sd).sentLast = true) (hi : (port s sd).line = some i)
    (ht : t = setPort sd (fun p => { lineEnds (sd == .south) s.clk p with tec := satAdd 255 p.tec 8, line := none, aborted := true }) s) :
    execCollision sd s = .next (judgePort sd (sendBack sd i t)) := by
  subst ht
  unfold execCollision
  dsimp only
  rw [if_neg (by simp [hon, hidle, hsent]), hi]

theorem execCollision_ignored {sd : Side} {s : State} (h : chainOn s = false ∨ lineIdle (port s sd) s.clk = true ∨ (port s sd).sentLast = false) :
    execCollision sd s = .next s :=
  if_pos (by simpa using h)

section
variable {sd : Side} {i : TxItem} {t : State}

theorem sendBack_content (h : i.frame.cls ≤ 5) : sendBack sd i t =
    setPort sd (fun p => { p with txq := i :: p.txq, sent := addBlk p.sent i.frame.cls (256 - i.frame.blk), outst := p.outst.dropLast }) t := by
  have h6 : i.frame.cls ≠ 6 := by omega
  simp only [sendBack, h6, h, if_false, if_true]

theorem sendBack_beacon (h : i.frame.cls = 7) : sendBack sd i t = setPort sd (fun p => { p with txq := i :: p.txq }) t := by
  have h5 : ¬7 ≤ 5 := by decide
  simp only [sendBack, h, h5, if_false, Nat.reduceEqDiff]

theorem sendBack_link (h : i.frame.cls = 6) (hl : (port t sd).linkq.length < 4) :
    sendBack sd i t = setPort sd (fun p => { p with linkq := i.frame :: p.linkq }) t := by
  simp only [sendBack, h, hl, if_true]

theorem sendBack_linkFull (h : i.frame.cls = 6) (hl : 4 ≤ (port t sd).linkq.length) :
    sendBack sd i t = raise 0x2F (portDetail t sd 0) { t with chain.linkDrop := satAdd 255 t.chain.linkDrop 1 } := by
  simp only [sendBack, h, Nat.not_lt.mpr hl, if_true, if_false]

end

/-! ### LINK_UP_RESEND, ALARM_RESEND and EVENT_FRAME_SEND -/

theorem execLinkUpResend_dead {sd : Side} {s : State} (hon : chainOn s = true) (h : (port s sd).st = .linkDead) :
    execLinkUpResend sd s = .next (sendLinkUp sd s) :=
  if_pos (by simp [hon, h])

theorem execLinkUpResend_off {sd : Side} {off : Nat} {l : List Nat} {s : State} (hon : chainOn s = true) (h : (port s sd).st = .portOff)
    (hl : (port s sd).offTimes = off :: l) (hoff : off + Config.sec ≤ s.clk) : execLinkUpResend sd s = .next (sendLinkUp sd s) :=
  if_pos (by simp [hon, h, hl, hoff])

theorem execLinkUpResend_waits {sd : Side} {s : State} (h : chainOn s = false ∨ portUp (port s sd) = true ∨ (port s sd).st = .offLatched ∨
    ((port s sd).st = .portOff ∧ ∃ off l, (port s sd).offTimes = off :: l ∧ s.clk < off + Config.sec)) : execLinkUpResend sd s = .next s := by
  refine if_neg ?_
  rcases h with h | h | h | ⟨h, off, l, hl, hoff⟩
  · simp [h]
  · cases hst : (port s sd).st <;> simp [portUp, hst] at h ⊢
  · simp [h]
  · simp [h, hl, Nat.not_le.mpr hoff]

section
variable {sd : Side} {s : State}

theorem execAlarmResend_silent (h : chainOn s = false ∨ (port s sd).st = .linkDead ∨ s.chain.addr = false) : execAlarmResend sd s = .next s :=
  if_pos (by simpa using h)

theorem not_linkDead_of_up (h : portUp (port s sd) = true) : (port s sd).st ≠ .linkDead := by
  intro hst
  simp [portUp, hst] at h

theorem execAlarmResend_up (hon : chainOn s = true) (ha : s.chain.addr = true) (hup : portUp (port s sd) = true) :
    execAlarmResend sd s = .next ((s.evt.hold.filter (heldDue s sd)).foldl (fun s h => resendHeld sd h s) s) := by
  unfold execAlarmResend
  dsimp only
  rw [if_neg (by simp [hon, ha, not_linkDead_of_up hup]), if_pos hup]

theorem execAlarmResend_turn {i : Nat} {h : Held} (hon : chainOn s = true) (ha : s.chain.addr = true)
    (hst : (port s sd).st = .portOff ∨ (port s sd).st = .offLatched) (hturn : ∀ c, (port s sd).offTurnAt = some c → c + Config.ms ≤ s.clk)
    (hi : i = if (port s sd).turn < s.evt.hold.length then (port s sd).turn else 0) (hh : s.evt.hold[i]? = some h) :
    execAlarmResend sd s = .next (resendHeld sd h (setPort sd (fun p => { p with turn := i + 1, offTurnAt := some s.clk }) s)) := by
  have hdead : (port s sd).st ≠ .linkDead := by rcases hst with hst | hst <;> simp [hst]
  have hup : portUp (port s sd) = false := by rcases hst with hst | hst <;> simp [portUp, hst]
  subst hi
  unfold execAlarmResend
  dsimp only
  rw [if_neg (by simp [hon, ha, hdead]), if_neg (by simp [hup]), if_neg ?wait, hh]
  case wait =>
    cases hc : (port s sd).offTurnAt with
    | none => simp
    | some c => simpa using hturn c hc

theorem execAlarmResend_waits {c : Nat} (hup : portUp (port s sd) = false)
    (h : s.evt.hold = [] ∨ ((port s sd).offTurnAt = some c ∧ s.clk < c + Config.ms)) : execAlarmResend sd s = .next s := by
  unfold execAlarmResend
  dsimp only
  split
  · rfl
  rw [if_neg (by simp [hup])]
  rcases h with h | ⟨hc, hlt⟩
  · simp [h]
  · rw [if_pos (by simpa [hc] using hlt)]

end

section
variable {dest : Nat} {s : State}

theorem execEventFrameSend_none (h : s.evt.outq.lookup dest = none ∨ s.evt.outq.lookup dest = some [] ∨ s.chain.addr = false) :
    execEventFrameSend dest s = .next s := by
  refine if_pos ?_
  rcases h with h | h | h <;> simp [h]

theorem execEventFrameSend_sends {q : List Entry} {t : State} (hq : s.evt.outq.lookup dest = some q) (hne : q ≠ []) (ha : s.chain.addr = true)
    (ht : t = { s with evt.outq := (dest, q.drop (frameEntries q).length) :: s.evt.outq.filter (fun x => x.1 != dest) }) :
    execEventFrameSend dest s =
      if returnsAtOnce t dest = true then .next t
      else .next (sendStream false (mkFrame t 3 dest 0xA ((frameEntries q).map entryBytes).flatten.length false false ((frameEntries q).map entryBytes).flatten) t) := by
  subst ht
  unfold execEventFrameSend
  rw [hq]
  dsimp only [Option.getD_some]
  rw [if_neg (by simp [hne, ha])]

end

/-- Settles O24: each row by its guards. -/
theorem frameSending : Obligations.FrameSending := by
  refine ⟨fun sd frac k n x s t hon ht hp hx hm => (execFrameTransmit_queued hon ht hp hx).trans (if_pos hm),
    fun sd frac k n f s t hon ht hp hf hm => (execFrameTransmit_link hon ht hp hf).trans (if_pos hm),
    fun sd frac s hon hp => execFrameTransmit_none hon rfl hp,
    fun sd frac k n x s t hon ht hp hx hm => (execFrameTransmit_queued hon ht hp hx).trans (if_neg (Bool.eq_false_iff.mp hm)),
    fun sd frac k n f s t hon ht hp hf hm => (execFrameTransmit_link hon ht hp hf).trans (if_neg (Bool.eq_false_iff.mp hm)),
    fun sd i s t hon hidle hsent hi ht => ⟨execCollision_sends hon hidle hsent hi ht, sendBack_content, sendBack_beacon, sendBack_link, sendBack_linkFull⟩,
    fun sd s hon hidle => if_pos (by simp [hon, hidle]), fun sd s hon hup => if_pos (by simp [hon, hup]), fun sd s hon h => execLinkUpResend_dead hon h,
    fun sd off l s hon h hl hoff => execLinkUpResend_off hon h hl hoff, fun sd s hon ha hup => execAlarmResend_up hon ha hup,
    fun sd i h s hon ha hst hturn hi hh => execAlarmResend_turn hon ha hst hturn hi hh, fun sd c s hup h => execAlarmResend_waits hup h,
    fun sd s h => execLinkUpResend_waits (.inr h),
    fun dest q s t hq hne ha ht => ⟨fun hr => ?sends, fun hr => ?lost⟩, fun sd frac s hoff => ?chainOff,
    fun sd s h => execCollision_ignored (.inr h), fun sd s h => if_neg (by simp [h]), fun sd s h => if_neg (by simp [h]),
    fun sd s h => execAlarmResend_silent (.inr h), fun dest s h => execEventFrameSend_none h⟩
  case sends => exact (execEventFrameSend_sends hq hne ha ht).trans (if_neg (Bool.eq_false_iff.mp hr))
  case lost => exact (execEventFrameSend_sends hq hne ha ht).trans (if_pos hr)
  case chainOff =>
    exact ⟨execFrameTransmit_off hoff sd frac, execCollision_ignored (.inl hoff), if_neg (by simp [hoff]), if_neg (by simp [hoff]),
      execLinkUpResend_waits (.inl hoff), execAlarmResend_silent (.inl hoff)⟩

end Sys2Proof.Machine
end

section
/-! The rows of links, enumeration and streams (R258 to R283, R296, R662, R906): each by the guards of its meaning. -/

namespace Sys2Proof.Machine

open Sys2Proof

/-! ### Links -/

section
variable {sd : Side} {s : State}

theorem execLinkDead_ignored (h : chainOn s = false ∨ portUp (port s sd) = false) : execLinkDead sd s = .next s :=
  if_neg (by rcases h with h | h <;> simp [h])

theorem execBreakHealed_ignored (h : chainOn s = false ∨ portUp (port s sd) = false ∨ (port s sd).healDue = none) : execBreakHealed sd s = .next s :=
  if_neg (by rcases h with h | h | h <;> simp [h])

theorem execBreakHealed_heals (hon : chainOn s = true) (hup : portUp (port s sd) = true) (hd : (port s sd).healDue.isSome = true) : execBreakHealed sd s =
    if (s.chain.addr && s.chain.n != 0) = true then
      .next (judgeSingle (sendBreak .south (hopOf s sd) true (sendBreak .north (hopOf s sd) true
        (noteHop (hopOf s sd) false (setPort sd (fun p => { p with healDue := none }) s)))))
    else .next (setPort sd (fun p => { p with healDue := none }) s) :=
  if_pos (by simp [hon, hup, hd])

end

/-! ### Enumeration -/

section
variable {s : State}

theorem execEnumTopTimeout_waiting (h : s.chain.enumWaitTop = true) : execEnumTopTimeout s =
    if s.sys.anchor = true then
      (if s.chain.enumBusy = true then .next (enumFinish 1 1 { s with chain.enumWaitTop := false }) else .next { s with chain.enumWaitTop := false })
    else .next (sendEnumEnd (s.chain.pos + 1) 1 { s with chain.enumWaitTop := false }) :=
  if_pos h

theorem execEnumRetry_again (hb : s.chain.enumBusy = true) (ht : s.chain.enumTries < 3) :
    execEnumRetry s = .next (enumAttempt { s with chain.enumTries := s.chain.enumTries + 1 }) :=
  (if_neg (by simp [hb])).trans (if_pos ht)

theorem execEnumRetry_ends {h : Fin 4} {q : Nat} {t : State} (hb : s.chain.enumBusy = true) (ht : 3 ≤ s.chain.enumTries) (hby : s.chain.enumBy = some (h, q))
    (hs : t = { s with chain.enumBusy := false, chain.enumWaitTop := false, chain.n := 0, chain.ring := .notEnumerated, chain.enumBy := none }) :
    execEnumRetry s =
      (let u := if (s.chain.ring == .notEnumerated) = true then t else raise 0x27 (ringDetail t 0) t
       .next (completeQueued h q (le 1 0) (raise 0x28 (ringDetail u 0) u))) := by
  subst hs
  unfold execEnumRetry
  dsimp only
  rw [if_neg (by simp [hb]), if_neg (Nat.not_lt.mpr ht), hby]

end

/-! ### Streams -/

section
variable {orig : Nat} {multi : Bool} {cls : Nat} {twin : Bool} {s : State}

theorem execAckTimer_due {r : RxStream} (h : rxGet orig multi cls twin s = some r) (hn : r.unackedRx ≠ 0) : execAckTimer orig multi cls twin s =
    .next (sendAck r.orig (ackEntry r.cls false r.multi r.twin ((r.next + 16383) % 16384)) (rxPut { r with unackedRx := 0 } s)) := by
  simp only [execAckTimer, h, hn, if_false, sendStreamAck]

theorem execAckTimer_idle (h : ∀ r, rxGet orig multi cls twin s = some r → r.unackedRx = 0) : execAckTimer orig multi cls twin s = .next s := by
  unfold execAckTimer
  cases hr : rxGet orig multi cls twin s with
  | none => rfl
  | some r => exact if_pos (h r hr)

theorem execNakRepeat_gap {r : RxStream} (h : rxGet orig multi cls twin s = some r) (hg : r.gap = true) : execNakRepeat orig multi cls twin s =
    .next (sendAck r.orig (ackEntry r.cls true r.multi r.twin r.next) (rxPut { r with lastNak := some s.clk } s)) := by
  simp only [execNakRepeat, h, hg, if_true]

theorem execNakRepeat_idle (h : ∀ r, rxGet orig multi cls twin s = some r → r.gap = false) : execNakRepeat orig multi cls twin s = .next s := by
  unfold execNakRepeat
  cases hr : rxGet orig multi cls twin s with
  | none => rfl
  | some r => exact if_neg (by simp [h r hr])

end

theorem execRetransmit_known {dest : Nat} {multi : Bool} {cls : Nat} {twin : Bool} {x : TxStream} {s : State}
    (h : s.chain.tx.any (txIs dest multi cls twin) = true) (hx : x = txGet s dest multi cls twin) : execRetransmit dest multi cls twin s =
      if (multi && (x.unacked.take x.sent).any (fun f => x.back.contains f.seq)) = true then
        .next (releaseFrames dest multi cls twin (fun f => x.back.contains f.seq) s)
      else if x.sent = 0 then .next (pump 8 dest multi cls twin s) else .next (resendRound x s) := by
  subst hx
  exact if_pos h

/-! ### Twin copies -/

section
variable {peer : Fin 24} {a : Nat} {d : List Byte} {l : List (Nat × List Byte)} {s : State}

theorem execTwinWindow_open (hr : s.chain.ring ≠ .closed) (hf : (nth s.verm.peers peer.val {}).firsts = (a, d) :: l) : execTwinWindow peer s =
    .next (applyAll peer.val true d (classB 5 true
      (updPeer peer.val (fun p => { p with firsts := l }) { s with verm.single := satAdd 255 s.verm.single 1 }))) := by
  simp only [execTwinWindow, beq_false_of_ne hr, hf, Bool.false_eq_true, if_false]

theorem execTwinWindow_closed (hr : s.chain.ring = .closed) : execTwinWindow peer s = .next (twinMissed peer.val s) := by
  simp only [execTwinWindow, hr, beq_self_eq_true, if_true]

theorem twinMissed_cons (hf : (nth s.verm.peers peer.val {}).firsts = (a, d) :: l) : twinMissed peer.val s =
    (let u := { updPeer peer.val (fun p => { p with firsts := l }) s with verm.twinMiss := satAdd 255 s.verm.twinMiss 1, verm.missRow := s.verm.missRow + 1 }
     applyAll peer.val false d (if 3 ≤ s.verm.missRow + 1 then classB 7 true u else u)) := by
  simp only [twinMissed, hf]

theorem execTwinWindow_none (hf : (nth s.verm.peers peer.val {}).firsts = []) : execTwinWindow peer s = .next s := by
  simp only [execTwinWindow, twinMissed, hf, ite_self]

end

/-! ### Heartbeats -/

section
variable {s : State} (hen : rf s.regs.chainCfg 1 1 ≠ 0) (hon : chainOn s = true)
include hen hon

theorem not_hb_ignored : ¬(rf s.regs.chainCfg 1 1 = 0 ∨ (!chainOn s) = true) := by
  simp [hen, hon]

theorem execHbInDecode_word (p c : Nat) (parity : Bool) : execHbInDecode (.word p c parity) s = .next (hbWord p c parity s) :=
  if_neg (not_hb_ignored hen hon)

theorem execHbInDecode_period (high len : Nat) : execHbInDecode (.period high len) s = .next (hbPeriod high len s) :=
  if_neg (not_hb_ignored hen hon)

/-- A word of sixteen periods is taken as the word it spells. -/
theorem execHbInDecode_spelt {high len p c : Nat} {ok : Bool} {l : List Nat} (hl : l = (dutyClass high len :: s.chain.hbDuty).take 16)
    (hrun : l.take 2 ≠ [2, 2]) (hw : wordOf l = some (p, c, ok)) :
    execHbInDecode (.period high len) s = execHbInDecode (.word p c ok) { s with chain.hbDuty := [] } := by
  subst hl
  rw [execHbInDecode_period hen hon, execHbInDecode_word (s := { s with chain.hbDuty := [] }) hen hon]
  simp only [hbPeriod, hrun, hw, if_false]

end

/-- Settles O27: each row by its guards. -/
theorem linkAndStreamRows : Obligations.LinkAndStreamRows := by
  refine ⟨⟨fun sd s hon hup => if_pos (by simp [hon, hup]), fun sd s h => ⟨execLinkDead_ignored h, execBreakHealed_ignored (h.imp_right .inl)⟩,
      fun sd s hon hup hd ha hn => (execBreakHealed_heals hon hup hd).trans (if_pos (by simp [ha, hn])),
      fun sd s hon hup hd h => (execBreakHealed_heals hon hup hd).trans (if_neg (by rcases h with h | h <;> simp [h])),
      fun sd s h => execBreakHealed_ignored (.inr (.inr h)), fun _ _ => rfl,
      fun s hw ha => (execEnumTopTimeout_waiting hw).trans (if_neg (Bool.eq_false_iff.mp ha)),
      fun s hw ha hb => (execEnumTopTimeout_waiting hw).trans ((if_pos ha).trans (if_pos hb)),
      fun s hw ha hb => (execEnumTopTimeout_waiting hw).trans ((if_pos ha).trans (if_neg (Bool.eq_false_iff.mp hb))),
      fun s hw => if_neg (Bool.eq_false_iff.mp hw), fun s hb ht => execEnumRetry_again hb ht,
      fun h q s t hb ht hby hs => ⟨fun hr => ?noRing, fun hr => ?hadRing⟩, fun s hb => if_pos (by simp [hb])⟩,
    ⟨fun orig multi cls twin r s h hn => execAckTimer_due h hn, fun orig multi cls twin s h => execAckTimer_idle h,
      fun orig multi cls twin r s h hg => execNakRepeat_gap h hg, fun orig multi cls twin s h => execNakRepeat_idle h,
      fun dest multi cls twin x s h hx hb => ⟨fun hs => ?round, fun hs => ?waiting⟩,
      fun dest cls twin x s h hx hb => (execRetransmit_known h hx).trans (if_pos (by rw [hb]; rfl)),
      fun dest multi cls twin s h => if_neg (Bool.eq_false_iff.mp h), fun peer a d l s hr hf => execTwinWindow_open hr hf,
      fun peer a d l s hr hf hm => ?miss, fun peer a d l s hr hf hm => ?missThird, fun peer s hf => execTwinWindow_none hf,
      fun s hen hon => ⟨if_neg (not_hb_ignored hen hon), if_neg (not_hb_ignored hen hon), if_neg (not_hb_ignored hen hon)⟩,
      fun p c parity l s hen hon hl => ⟨fun hw => ?word, fun hw => ?noWord⟩,
      fun high len l s hen hon hl => ⟨fun hrun => ?run, fun hrun hw => ?noneSpelt, fun p c ok hrun hw => execHbInDecode_spelt hen hon hl hrun hw⟩,
      fun x s h => ?hbOff⟩⟩
  case noRing => exact (execEnumRetry_ends hb ht hby hs).trans (by simp only [hr, beq_self_eq_true, if_true])
  case hadRing => exact (execEnumRetry_ends hb ht hby hs).trans (by simp only [beq_false_of_ne hr, Bool.false_eq_true, if_false])
  case round => exact (execRetransmit_known h hx).trans ((if_neg (Bool.eq_false_iff.mp hb)).trans (if_neg hs))
  case waiting => exact (execRetransmit_known h hx).trans ((if_neg (Bool.eq_false_iff.mp hb)).trans (if_pos hs))
  case miss =>
    refine (execTwinWindow_closed hr).trans (congrArg _ ((twinMissed_cons hf).trans ?_))
    dsimp only
    rw [if_neg (by omega)]
  case missThird =>
    refine (execTwinWindow_closed hr).trans (congrArg _ ((twinMissed_cons hf).trans ?_))
    dsimp only
    rw [if_pos (by omega)]
  case word =>
    subst hl
    exact (execHbInDecode_word hen hon p c parity).trans (congrArg _ (if_pos hw))
  case noWord =>
    subst hl
    exact (execHbInDecode_word hen hon p c parity).trans (congrArg _ (if_neg hw))
  case run =>
    subst hl
    exact (execHbInDecode_period hen hon high len).trans (congrArg _ (if_pos hrun))
  case noneSpelt =>
    subst hl
    exact (execHbInDecode_period hen hon high len).trans (congrArg _ (by simp only [hbPeriod, hrun, hw, if_false]))
  case hbOff => exact if_pos (by simpa using h)

end Sys2Proof.Machine
end

section
/-! Frames other than beacons received (R110 to R118, R245 to R279): where a frame that passed the checks of its hop goes, and what it then brings about. -/

namespace Sys2Proof.Machine

open Sys2Proof

/-! ### The hop -/

theorem receive_of_arrives {sd : Side} {f : Frame} {lq : LineQ} {s : State} (h : Arrives sd f lq s) :
    receive sd f lq s = judgeSingle (route sd (arrived f lq).1 (hopState sd f lq s)) := by
  obtain ⟨hin, hcls, hkind⟩ := h
  unfold receive
  dsimp only
  rw [if_pos hin, if_neg (by simp [hcls, hkind])]
  rfl

theorem receive_of_rejected {sd : Side} {f : Frame} {lq : LineQ} {s : State} (hin : (hopIn sd (arrived f lq).1 (arrived f lq).2 s).2 = false)
    (hcrc : (arrived f lq).2 ≠ .crcBad) (hcode : (arrived f lq).2 ≠ .codeBad) : receive sd f lq s = hopState sd f lq s := by
  unfold receive
  dsimp only
  rw [if_neg (by simp [hin]), if_neg (by simp [hcrc, hcode])]
  rfl

/-! ### Where a frame goes -/

section
variable {sd : Side} {g : Frame} {t : State}

theorem route_neighbour (hd : g.dest = 0xFC) : route sd g t = takeLink sd g (cutCopy (otherSide sd) g (cutAt g t) t) :=
  if_pos hd

theorem route_mine (h : IsFor g t) : route sd g t =
    (let stays := cutCopy (otherSide sd) g (cutAt g t) t
     if g.cls = 6 then takeLink sd g stays else takeIn sd false g (freeNow sd g stays)) := by
  obtain ⟨ha, hp, hfc⟩ := h
  unfold route
  dsimp only
  rw [if_neg hfc, if_pos (by simp [ha, hp])]

/-- A frame that is neither for this member or the neighbour alone nor of this member's own goes on. -/
theorem route_through (hfc : g.dest ≠ 0xFC) (hp : g.dest ≠ t.chain.pos) (ho : g.orig ≠ t.chain.pos) : route sd g t =
    (let r := forward sd g t
     let passed := if r.2 then freeNow sd g r.1 else r.1
     if g.cls = 6 then (if 0xFE ≤ g.dest then takeLink sd g passed else passEnumEnd g passed)
     else if 0xFE ≤ g.dest && t.chain.addr then takeIn sd r.2 g passed
     else passed) := by
  have haway : comesHome g t = false := by simp [comesHome, ho]
  unfold route
  dsimp only
  rw [if_neg hfc, if_neg (by simp [hp]), if_neg (by simp [haway])]

theorem freeNow_link (hc : g.cls = 6) : freeNow sd g t = t := if_pos (by omega)

theorem freeNow_sys : (freeNow sd g t).sys = t.sys := by
  unfold freeNow
  split
  · rfl
  · exact setPort_sys _ _ _

theorem cutCopy_sys (n : Nat) : (cutCopy sd g n t).sys = t.sys := by
  unfold cutCopy
  split
  · exact setPort_sys _ _ _
  · rfl

/-- A broadcast link frame of another member is passed on and taken in; it takes no blocks. -/
theorem route_linkToAll (hc : g.cls = 6) (hd : g.dest = 0xFF) (hp : t.chain.pos < 64) (ho : g.orig ≠ t.chain.pos) :
    route sd g t = takeLink sd g (forward sd g t).1 := by
  rw [route_through (by omega) (by omega) ho]
  dsimp only
  rw [if_pos hc, if_pos (by omega), freeNow_link hc, ite_self]

theorem takeIn_ready (h : t.sys.ready = true) :
    takeIn sd false g (freeNow sd g t) = if (streamIn sd g t).2 then deliverKind g (streamIn sd g t).1 else (streamIn sd g t).1 :=
  if_neg (by simp [freeNow_sys, h])

theorem route_content {u : State} (hu : u = cutCopy (otherSide sd) g (cutAt g t) t) (hc : g.cls ≤ 5) (h : IsFor g t) (hr : t.sys.ready = true) :
    route sd g t = if (streamIn sd g u).2 then deliverKind g (streamIn sd g u).1 else (streamIn sd g u).1 := by
  subst hu
  rw [route_mine h]
  dsimp only
  rw [if_neg (by omega)]
  exact takeIn_ready (by rw [cutCopy_sys, hr])

/-- A frame for another member that its outgoing port passes. -/
theorem route_transit (hc : g.cls ≠ 6) (hd : g.dest < 0xFC) (hp : g.dest ≠ t.chain.pos) (ho : g.orig ≠ t.chain.pos) (hpass : passes t (otherSide sd) g = true) :
    route sd g t =
      (if cutsThrough t (otherSide sd) g && credited (port t (otherSide sd)) g then cutWhole (otherSide sd) sd { g with hops := min 63 (g.hops + 1) } t
       else queueTransit (otherSide sd) sd none { g with hops := min 63 (g.hops + 1) } (cutCopy (otherSide sd) g 1 t)) := by
  have hgo : forward sd g t = (if cutsThrough t (otherSide sd) g && credited (port t (otherSide sd)) g
      then (cutWhole (otherSide sd) sd { g with hops := min 63 (g.hops + 1) } t, false)
      else (queueTransit (otherSide sd) sd none { g with hops := min 63 (g.hops + 1) } (cutCopy (otherSide sd) g 1 t), false)) := if_pos hpass
  rw [route_through (by omega) hp ho]
  dsimp only
  rw [if_neg hc, if_neg (by simp; omega), hgo]
  split <;> rfl

end

/-! ### The rows -/

section
variable {sd : Side} {f g : Frame} {lq : LineQ} {s t u : State} (hg : g = (arrived f lq).1) (ht : t = hopState sd f lq s)

include hg ht in
theorem receive_routed (h : Arrives sd f lq s) : receive sd f lq s = judgeSingle (route sd g t) := by
  rw [hg, ht]
  exact receive_of_arrives h

include hg ht in
/-- A link frame for the neighbour alone ends here. -/
theorem receive_neighbour (h : Arrives sd f lq s) (hu : u = cutCopy (otherSide sd) g (cutAt g t) t) (hd : g.dest = 0xFC) :
    receive sd f lq s = judgeSingle (takeLink sd g u) := by
  rw [receive_routed hg ht h, route_neighbour hd, hu]

include hg ht in
theorem receive_linkForMe (h : Arrives sd f lq s) (hu : u = cutCopy (otherSide sd) g (cutAt g t) t) (hc : g.cls = 6) (hfor : IsFor g t) :
    receive sd f lq s = judgeSingle (takeLink sd g u) := by
  rw [receive_routed hg ht h, route_mine hfor, hu]
  exact congrArg judgeSingle (if_pos hc)

include hg ht in
theorem receive_linkToAll (h : Arrives sd f lq s) (hc : g.cls = 6) (hd : g.dest = 0xFF) (hp : t.chain.pos < 64) (ho : g.orig ≠ t.chain.pos) :
    receive sd f lq s = judgeSingle (takeLink sd g (forward sd g t).1) := by
  rw [receive_routed hg ht h, route_linkToAll hc hd hp ho]

include hg ht in
theorem receive_content (h : Arrives sd f lq s) (hu : u = cutCopy (otherSide sd) g (cutAt g t) t) (hc : g.cls ≤ 5) (hfor : IsFor g t)
    (hr : t.sys.ready = true) (ha : (streamIn sd g u).2 = true) : receive sd f lq s = judgeSingle (deliverKind g (streamIn sd g u).1) := by
  rw [receive_routed hg ht h, route_content hu hc hfor hr, if_pos ha]

include hg ht in
theorem receive_unaccepted (h : Arrives sd f lq s) (hu : u = cutCopy (otherSide sd) g (cutAt g t) t) (hc : g.cls ≤ 5) (hfor : IsFor g t)
    (hr : t.sys.ready = true) (ha : (streamIn sd g u).2 = false) : receive sd f lq s = judgeSingle (streamIn sd g u).1 := by
  rw [receive_routed hg ht h, route_content hu hc hfor hr, if_neg (by simp [ha])]

end

/-- Settles O25: each row is the reception of its frame, and the kind and destination give the route. -/
theorem linkFrames : Obligations.LinkFrames := by
  intro sd f g lq s t u hg ht hu
  refine ⟨fun h _ hk hd => ?creditFrame, fun h _ hk hd => ?linkUp, fun h _ hk hd => ?enumFrame, fun h hc hk hfor => ?enumEnd,
    fun h hc hk hd _ hp ho => ?enumDone, fun h hc hk hfor => ?ack, fun h hc hk hd _ hp ho => ?breakFrame, ?rejected⟩
  case creditFrame | linkUp | enumFrame =>
    refine congrArg Host.Outcome.next ((receive_neighbour hg ht h hu hd).trans ?_)
    simp only [takeLink, hk]
  case enumEnd | ack =>
    refine congrArg Host.Outcome.next ((receive_linkForMe hg ht h hu hc hfor).trans ?_)
    simp only [takeLink, hk]
  case enumDone | breakFrame =>
    refine congrArg Host.Outcome.next ((receive_linkToAll hg ht h hc hd hp ho).trans ?_)
    simp only [takeLink, hk]
  case rejected =>
    intro _ hin hcrc hcode
    have hend : receive sd f lq s = t := by rw [ht]; exact receive_of_rejected (by rw [← hg]; exact hin) hcrc hcode
    refine ⟨?_, ?_, ?_, ?_, ?_, ?_, ?_⟩ <;> exact congrArg Host.Outcome.next hend

/-- Settles O26: a frame for this member is delivered by its kind where its stream accepts it, and one for another goes on where its port passes it. -/
theorem contentFrames : Obligations.ContentFrames := by
  intro sd f g lq s t u hg ht hu h
  refine ⟨fun hc hfor hr ha => ?delivered, fun hc hfor hr ha i hi => ?unaccepted, fun hc hd hp ho hpass hcut => ?queued, fun hc hd hp ho hpass hcut => ?cutThrough⟩
  case delivered =>
    have hin := receive_content hg ht h hu hc hfor hr ha
    refine ⟨fun hk => ?_, fun hk => ?_, fun hk => ?_, fun hk => ?_, fun hk => ?_, fun hk => ?_, fun hk => ?_⟩ <;>
      refine congrArg Host.Outcome.next (hin.trans ?_) <;> simp only [deliverKind, hk]
  case unaccepted =>
    have hin := receive_unaccepted hg ht h hu hc hfor hr ha
    simp only [List.mem_cons, List.not_mem_nil, or_false] at hi
    rcases hi with rfl | rfl | rfl | rfl | rfl | rfl | rfl <;> exact congrArg Host.Outcome.next hin
  case queued =>
    refine congrArg Host.Outcome.next ((receive_routed hg ht h).trans (congrArg judgeSingle ?_))
    rw [route_transit hc hd hp ho hpass, if_neg (by simp [hcut])]
  case cutThrough =>
    refine congrArg Host.Outcome.next ((receive_routed hg ht h).trans (congrArg judgeSingle ?_))
    rw [route_transit hc hd hp ho hpass, if_pos hcut]

end Sys2Proof.Machine
end

section
/-! The rows of time and of its frames (R311 to R348, R713): each by the guards of its meaning. -/

namespace Sys2Proof.Machine

open Sys2Proof

/-! ### SYNC_IN, beacons and delay requests sent -/

section
variable {s : State} (hon : timeOn s = true)
include hon

theorem execSyncInEdge_accepted {frac high : Nat} {v : Int} (ha : s.sys.anchor = true) (hen : syncEn s = true) (hh : 1000 ≤ high) (hok : edgeOk s = true)
    (hv : (∃ a n, s.time.armed = some (a, n) ∧ s.time.armedThisTick = false ∧ v = ((a * 1000000000 + n : Nat) : Int) * 16) ∨
      ((s.time.armed = none ∨ s.time.armedThisTick = true) ∧ v = nearestSec (captured frac s) * 16000000000)) :
    execSyncInEdge frac high s = .next (judgeOffset 3200 6400 4 (captured frac s - v) (correct false .acquiring (captured frac s - v)
      { s with time.lastEdge := some s.clk, time.firstEdge := s.time.armedThisTick, time.armed := if s.time.armedThisTick then s.time.armed else none })) := by
  unfold execSyncInEdge
  rw [if_neg (by simp [hon, ha, hen, hh]), if_neg (by simp [hok])]
  rcases hv with ⟨a, n, harm, htick, rfl⟩ | ⟨h, rfl⟩
  · simp only [harm, htick, Bool.false_eq_true, if_false]
  · have hnone : (if s.time.armedThisTick then none else s.time.armed) = none := by rcases h with h | h <;> simp [h]
    simp only [hnone]

theorem execBeaconSend_sends {f : Frame} {t : State} (ha : s.sys.anchor = true) (hst : s.time.st ≠ .unset)
    (hf : f = mkFrame s 7 0xFF 0x7 20 false false (List.replicate 17 0 ++ le 2 s.time.beaconNum ++ le 1 (b2n (syncEn s))))
    (ht : t = { s with time.beaconNum := (s.time.beaconNum + 1) % 65536 }) :
    execBeaconSend s =
      (let u := if portUp s.chain.north then enqueue .north f t else t
       .next (if s.chain.ring = .closed then u else if portUp u.chain.south then enqueue .south f u else u)) := by
  subst hf ht
  unfold execBeaconSend
  rw [if_neg (by simp [hon, ha, hst])]
  rfl

theorem execDelayMeasure_on (sd : Side) : execDelayMeasure sd s =
    (let t := if (hopDelay s sd).t1.isSome then discardResult sd s else s
     let n := ((hopDelay s sd).reqNum + 1) % 65536
     if !portUp (port s sd) then .next t
     else .next (enqueue sd (mkFrame t 7 0xFC 0x7 3 false false (le 1 1 ++ le 2 n)) (setHop sd (fun h => { h with reqNum := n }) t))) :=
  if_neg (by simp [hon])

end

/-! ### The meter's label -/

theorem umberLabel_talks {now : Nat} {d : Int} {s t : State} (htalk : umbTalks s = true) (hst : s.time.st ≠ .unset)
    (hnow : now = s.time.sec.toNat * 1000000000 + s.time.ns) (hd : d = (now : Int) - (s.umber.tNs : Int))
    (ht : (-2000000000 ≤ d ∧ d ≤ 2000000000 ∧ t = { s with
        umber.timeOk := true, umber.tstate := s.time.st.code, umber.slew := d,
        umber.flags := if metering s = true ∧ 100000000 < |d| then s.umber.flags ||| 1024 else s.umber.flags }) ∨
      (d < -2000000000 ∧ t = raiseUmb 0x91 0 (stepBackward now { s with umber.timeOk := true, umber.tstate := s.time.st.code })) ∨
      (2000000000 < d ∧ t = raiseUmb 0x91 0 (stepForward now { s with umber.timeOk := true, umber.tstate := s.time.st.code }))) :
    umberLabel s = if metering s = true ∧ (s.time.st = .free ∨ s.time.st = .holdover) then { t with umber.flags := t.umber.flags ||| 8 } else t := by
  unfold umberLabel
  rw [if_neg (by simp [htalk, hst])]
  dsimp only
  rw [← hnow, ← hd]
  rcases ht with ⟨hlow, hhigh, rfl⟩ | ⟨hlow, rfl⟩ | ⟨hhigh, rfl⟩
  · simp only [not_lt.mpr hlow, not_lt.mpr hhigh, if_false]
  · simp only [hlow, if_true]
  · simp only [show ¬d < -2000000000 by omega, hhigh, if_true, if_false]

/-! ### Time frames received -/

section
variable {sd : Side} {f g : Frame} {lq : LineQ} {frac : Nat} {s t : State} (hg : g = (arrived f lq).1) (ht : t = hopState sd f lq s)
  (hin : (hopIn sd g (arrived f lq).2 s).2 = true) (hk : g.kind = 7)
include hg ht hin hk

/-- A beacon that passes its hop's checks, at a member that is neither the anchor nor its origin. -/
theorem execBeacon_goesOn {residence old : Nat} {b : Nat → Frame} {u : State} (htype : field g.body 0 1 = 0) (hlen : g.plen = 20) (ha : s.sys.anchor = false)
    (ho : s.chain.addr = false ∨ g.orig ≠ s.chain.pos) (hold : old = field g.body 11 4 + (hopDelay s sd).delay)
    (hb : ∀ c, b c = { g with body := slice g.body 0 11 ++ le 4 (c % 2 ^ 32) ++ slice g.body 15 5 })
    (hu : u = (forwardAs sd (b old) (b (old + residence)) (some (localFine s (- sinceSd g) frac)) t).1) : execBeacon sd f lq frac residence s =
      if (hopDelay s sd).unusable ∨ timeStOf (field g.body 15 1) = .unset ∨ !bestPath sd (field g.body 17 2) g.hops s then .next u
      else .next (useBeacon sd g frac u) := by
  rw [hb, hb, hold] at hu
  subst hg ht hu
  unfold execBeacon
  dsimp only
  rw [if_neg (by simp [hin, hk, htype, hlen]), if_neg (by rcases ho with h | h <;> simp [ha, h])]
  rfl

theorem execBeacon_ends {residence : Nat} (htype : field g.body 0 1 = 0) (hlen : g.plen = 20) (h : s.sys.anchor = true ∨ (s.chain.addr = true ∧ g.orig = s.chain.pos)) :
    execBeacon sd f lq frac residence s = .next (cutCopy (otherSide sd) g 3 t) := by
  subst hg ht
  unfold execBeacon
  dsimp only
  rw [if_neg (by simp [hin, hk, htype, hlen]), if_pos h]
  rfl

theorem execDelayReq_asked (htype : field g.body 0 1 = 1) (hd : g.dest = 0xFC) : execDelayReq sd f lq frac s =
    .next (enqueueAt sd (localFine s (- sinceSd g) frac) (mkFrame t 7 0xFC 0x7 7 false false (le 1 2 ++ slice g.body 1 2 ++ le 4 0)) t) := by
  subst hg ht
  unfold execDelayReq
  dsimp only
  rw [if_neg (by simp [hin, hk, htype, hd])]
  rfl

theorem execDelayResp_answers {t1 d : Int} (htype : field g.body 0 1 = 2) (hd : g.dest = 0xFC) (hnum : field g.body 1 2 = (hopDelay s sd).reqNum)
    (ht1 : (hopDelay s sd).t1 = some t1) (hdel : d = divFree (localFine s (- sinceSd g) frac - t1 - field g.body 3 4) 2) :
    execDelayResp sd f lq frac s = .next (if 0 ≤ d ∧ d ≤ 3200 then validResult sd d.toNat t else discardResult sd t) := by
  rw [hdel]
  subst hg ht
  unfold execDelayResp
  dsimp only
  rw [if_neg (by simp [hin, hk, htype, hd, hnum])]
  simp only [ht1, hopState]

theorem execDelayResp_other (h : field g.body 0 1 ≠ 2 ∨ g.dest ≠ 0xFC ∨ field g.body 1 2 ≠ (hopDelay s sd).reqNum ∨ (hopDelay s sd).t1 = none) :
    execDelayResp sd f lq frac s = .next t := by
  subst hg ht
  unfold execDelayResp
  dsimp only
  by_cases hother : field (arrived f lq).1.body 0 1 ≠ 2 ∨ (arrived f lq).1.dest ≠ 0xFC ∨ field (arrived f lq).1.body 1 2 ≠ (hopDelay s sd).reqNum
  · rw [if_pos (by simp only [hother, or_true])]
    rfl
  · have hnone : (hopDelay s sd).t1 = none := by tauto
    rw [if_neg (by simp [hin, hk]; tauto), hnone]
    rfl

end

/-- Settles O28: each row by its guards. -/
theorem timeRows : Obligations.TimeRows := by
  refine ⟨⟨fun frac high v s hon ha hen hh hok hv => execSyncInEdge_accepted hon ha hen hh hok hv,
      fun frac high s hon ha hen hh hok => (if_neg (by simp [hon, ha, hen, hh])).trans (if_pos (by simp [hok])),
      fun frac high s h => if_pos (by simpa using h), fun s h => if_neg (by rw [Option.isNone_eq_false_iff.mpr h]; simp), fun s h => if_pos (by simp [h]),
      fun s hon ha hst => if_pos ⟨hon, ha, hst⟩, fun s h => if_neg ?noHoldover, fun s hst hl => if_pos ⟨hst, by simp [hl]⟩,
      fun s h => if_neg (by rcases h with h | h <;> simp [h]), fun f s t hon ha hst hf ht => ⟨fun hr => ?closed, fun hr hn => ?southOnly, fun hr hn => ?both⟩,
      fun s h => if_pos (by simpa using h), fun s hon ha hst => if_pos ⟨hon, by simp [ha], hst⟩, fun s h => if_neg ?noTimeout,
      fun sd n s t hon hn ht => ⟨fun hup => ?measure, fun hup => ?measureDown⟩, fun sd s h => if_pos (by simp [h]),
      fun now d s t htalk hst hnow hd ht => congrArg Host.Outcome.next (umberLabel_talks htalk hst hnow hd ht), fun s h => ?noLabel⟩,
    fun sd f g lq frac s t hg ht hin hk => ⟨fun residence old b u htype hlen ha ho hold hb hu => ⟨fun h => ?used, fun h => ?unused⟩,
      fun residence htype hlen h => execBeacon_ends hg ht hin hk htype hlen h, fun htype hd => execDelayReq_asked hg ht hin hk htype hd,
      fun t1 d htype hd hnum ht1 hdel => ⟨fun hlow hhigh => ?valid, fun h => ?discarded⟩, fun h => execDelayResp_other hg ht hin hk h⟩⟩
  case noHoldover =>
    rintro ⟨hon, ha, hst⟩
    rcases h with h | h | ⟨hlocked, hacquiring⟩
    · simp [h] at hon
    · simp [h] at ha
    · exact hst.elim hlocked hacquiring
  case noTimeout =>
    rintro ⟨hon, ha, hst⟩
    rcases h with h | h | h
    · simp [h] at hon
    · simp [h] at ha
    · exact hst h
  case closed => exact (execBeaconSend_sends hon ha hst hf ht).trans (congrArg _ (if_pos hr))
  case southOnly =>
    refine (execBeaconSend_sends hon ha hst hf ht).trans ?_
    simp only [hn, hr, Bool.false_eq_true, if_false]
    subst ht
    rfl
  case both =>
    refine (execBeaconSend_sends hon ha hst hf ht).trans ?_
    simp only [hn, hr, if_true, if_false]
  case measure =>
    subst hn ht
    exact (execDelayMeasure_on hon sd).trans (if_neg (by simp [hup]))
  case measureDown =>
    subst ht
    exact (execDelayMeasure_on hon sd).trans (if_pos (by simp [hup]))
  case noLabel => exact congrArg Host.Outcome.next (if_pos (by simpa using h))
  case used =>
    obtain ⟨husable, hset, hbest⟩ := h
    exact (execBeacon_goesOn hg ht hin hk htype hlen ha ho hold hb hu).trans (if_neg (by simp [husable, hset, hbest]))
  case unused => exact (execBeacon_goesOn hg ht hin hk htype hlen ha ho hold hb hu).trans (if_pos (by simpa using h))
  case valid => exact (execDelayResp_answers hg ht hin hk htype hd hnum ht1 hdel).trans (congrArg _ (if_pos ⟨hlow, hhigh⟩))
  case discarded => exact (execDelayResp_answers hg ht hin hk htype hd hnum ht1 hdel).trans (congrArg _ (if_neg (by omega)))

end Sys2Proof.Machine
end

section
/-! The rows of measuring cells (R351 to R401): each by the guards of its meaning. -/

namespace Sys2Proof.Machine

open Sys2Proof

section
variable {ins : List CellIn} {s t : State} (hm : measuring s = true)

include hm in
/-- A sample skipped after a rate change only moves the converters' memory. -/
theorem execCellSample_skipped (hs : s.cell.mainSkip ≠ 0) : execCellSample ins s =
    .next { s with cell.mainRec := (List.range 16).map fun k => (readingOf ins s.cell.mainRec k).2.2,
                   cell.mainSus := s.cell.mainSus.map (· - 1), cell.mainClampSeen := s.cell.clamp, cell.mainBal := 0, cell.mainAt := s.clk,
                   cell.tstep := tstepLeft true s.cell.tstep, cell.mainSkip := s.cell.mainSkip - 1 } := by
  unfold execCellSample
  dsimp only
  rw [if_neg (by simp [hm]), if_pos hs, bne_iff_ne.mpr hs]
  rfl

include hm in
theorem execCellSample_taken (hs : s.cell.mainSkip = 0)
    (ht : t = noteRange (maskOf 16 fun k => cellUsed s k && bitN (readingOf ins s.cell.mainRec k).2.1 0)
      (maskOf 16 fun k => cellUsed s k && bitN (readingOf ins s.cell.mainRec k).2.1 1) (mainResults ins s)) :
    execCellSample ins s = .next (streamEntry 0x10 (cellEntry t) (sweepSample (ringCell (noteFlagged t)))) := by
  subst ht
  unfold execCellSample mainResults readingOf
  dsimp only
  rw [if_neg (by simp [hm]), if_neg (by simp [hs]), show (s.cell.mainSkip != 0) = false by simp [hs]]

include hm in
theorem execLimitSample_skipped (hs : s.cell.limSkip ≠ 0) : execLimitSample ins s =
    .next { s with cell.limRec := (List.range 16).map fun k => (readingOf ins s.cell.limRec k).2.2,
                   cell.limSus := s.cell.limSus.map (· - 1), cell.limClampSeen := s.cell.clamp, cell.limBal := 0, cell.limAt := s.clk,
                   cell.tstepLim := tstepLeft true s.cell.tstepLim, cell.mainBal := s.cell.mainBal ||| sinks s, cell.limSkip := s.cell.limSkip - 1 } := by
  unfold execLimitSample
  dsimp only
  rw [if_neg (by simp [hm]), if_pos hs, bne_iff_ne.mpr hs]
  rfl

include hm in
/-- A limit sample goes to the open-wire test, or is classed unless a proof drives the inputs. -/
theorem execLimitSample_taken (hs : s.cell.limSkip = 0) (ht : t = startProofOw (limitResults ins s)) : execLimitSample ins s =
    .next (noteC4 (noteHeld (if t.cell.ow.isSome then endProofOw (owSample (limitResults ins s).cell.limVal ((List.range 16).map (limitFlag ins s)) t)
      else if proofPhase s 10 31 then t else ((List.range 16).filter (cellUsed s)).foldl classCell t))) := by
  subst ht
  unfold execLimitSample limitResults limitFlag readingOf
  dsimp only
  rw [if_neg (by simp [hm]), if_neg (by simp [hs]), show (s.cell.limSkip != 0) = false by simp [hs]]

/-- No open-wire test begins with a limit sample where none is due for a proof, or one runs. -/
theorem startProofOw_none (h : s.watch.owDue = false ∨ s.cell.ow.isSome = true) : startProofOw (limitResults ins s) = limitResults ins s :=
  if_neg (by rcases h with h | h <;> simp [limitResults, Option.isSome_iff_ne_none.mp, h])

end

/-- A stuck modulator of a cell reports its channel's result. -/
theorem execModulatorStuck_cell {s : State} (hm : measuring s = true) (c : Fin 16) : execModulatorStuck ⟨c.val, by omega⟩ s =
    .next (raise 0x4D (det (c.val + 1 : Nat) (nth s.cell.value c.val 0) (nth s.cell.flags c.val 0).toNat (limCode (nth s.cell.limRes c.val .inLimits)))
      { s with cell.stuck := setBit s.cell.stuck c.val true }) := by
  unfold execModulatorStuck
  dsimp only
  rw [if_neg (by simp [hm]), if_neg (by omega)]

section
variable {s : State} (hp : s.sys.powered = true) (hmode : s.sys.mode = .active) (hsum : sumSkipped s = false)
include hp hmode hsum

theorem execSumCheck_differs (h : 1500000 < |usedSum s - 10000 * (s.sys.vstk10mV.toNat : Int)|) : execSumCheck s =
    (let t := { s with cell.sumBad := min 2 (s.cell.sumBad + 1), cell.sumGood := 0 }
     if 2 ≤ s.cell.sumBad + 1 && !s.cell.sumErr then .next (raise 0x4E (det 0 (usedSum s) 0 0) { t with cell.sumErr := true }) else .next t) := by
  unfold execSumCheck
  dsimp only
  rw [if_neg (by simp [hp, hmode, hsum])]
  exact if_pos h

theorem execSumCheck_agrees (h : |usedSum s - 10000 * (s.sys.vstk10mV.toNat : Int)| ≤ 1500000) : execSumCheck s =
    (let t := { s with cell.sumGood := min 2 (s.cell.sumGood + 1), cell.sumBad := 0 }
     .next (if 2 ≤ s.cell.sumGood + 1 then { t with cell.sumErr := false } else t)) := by
  unfold execSumCheck
  dsimp only
  rw [if_neg (by simp [hp, hmode, hsum])]
  exact if_neg (not_lt.mpr h)

end

/-- Settles O29: each row by its guards. -/
theorem cellRows : Obligations.CellRows := by
  refine ⟨fun ins s hm hs => execCellSample_skipped hm hs, fun ins s t hm hs ht => execCellSample_taken hm hs ht, fun ins s hm hs how hdue hp => ?classed,
    fun ins s hm hs how hdue hp => ?unclassed, fun ins o s hm hs how => ?openWire, fun ins s hm hs => execLimitSample_skipped hm hs,
    fun s hm => if_neg (by simp [hm]), fun pin s hm hc => if_neg (by simp only [hm, hc]; simp), fun pin s hc => if_pos (.inr hc),
    fun pin s => (apply_ite Host.Outcome.next _ _ _).symm, fun c s hm => ?stuckCell, fun s hm => (if_neg (by simp [hm])).trans rfl,
    fun s hp hmode hsum hbad => ⟨fun h => ?sumBad, fun h0 herr => ?sumError⟩, fun s hp hmode hsum hgood => ?sumGood, fun s h => if_pos (by simpa using h),
    fun ins pin c s hm => ?off⟩
  case classed =>
    refine (execLimitSample_taken hm hs rfl).trans ?_
    rw [startProofOw_none (.inl hdue), if_neg (by simp [limitResults, how]), if_neg (by simp [hp])]
  case unclassed =>
    refine (execLimitSample_taken hm hs rfl).trans ?_
    rw [startProofOw_none (.inl hdue), if_neg (by simp [limitResults, how]), if_pos hp]
  case openWire =>
    refine (execLimitSample_taken hm hs rfl).trans ?_
    rw [startProofOw_none (.inr (by simp [how])), if_pos (by simp [limitResults, how])]
  case stuckCell => exact execModulatorStuck_cell hm c
  case sumBad => exact (execSumCheck_differs hp hmode hsum hbad).trans (if_neg (by rcases h with h | h <;> simp [h]))
  case sumError => exact (execSumCheck_differs hp hmode hsum hbad).trans (if_pos (by simp [herr]; omega))
  case sumGood =>
    refine (execSumCheck_agrees hp hmode hsum hgood).trans (congrArg _ ?_)
    by_cases h : s.cell.sumGood = 0
    · simp [h]
    · dsimp only
      rw [if_pos (by omega), decide_eq_false h, Bool.and_false]
  case off => exact ⟨if_pos (by simp [hm]), if_pos (by simp [hm]), if_pos (by simp [hm]), if_pos (by simp [hm]), if_pos (by simp [hm])⟩

end Sys2Proof.Machine
end

section
/-! The rows of the current, of the auxiliary inputs and of balancing (R367 to R378, R402 to R435): each by the guards of its meaning. -/

namespace Sys2Proof.Machine

open Sys2Proof

/-! ### The current and the auxiliary inputs -/

section
variable {s : State} (hm : measuring s = true)
include hm

theorem execAuxSample_taken {uv : List Nat} {v : Nat} {e : Nat → List Byte} {t : State} {r : RingSt × State × Bool} (ht : t = auxConvert uv v s)
    (he : e = auxEntry t (auxInstant t)) (hr : r = ringEntry t.regs.auxRbCfg 32 1 e t.cell.auxRing t) :
    execAuxSample uv v s = .next (streamEntry 0x11 e { r.2.1 with cell.auxRing := r.1 }) := by
  subst hr he ht
  exact if_neg (by simp [hm])

/-- The safety current is the local one or, where the block says so, the remote one. -/
theorem execCurrentSample_taken {nv v : Int} {f : Nat} (hv : v = if bitN (blk s 0x01 1) 3 then s.cell.remote.1 else (localCurrent nv s).1)
    (hf : f = if bitN (blk s 0x01 1) 3 then (s.cell.remote.2.toNat &&& 0x0B) ||| 4 ||| (if remoteIsStale s then 8 else 0) ||| currentStamp s
      else (localCurrent nv s).2.1 + currentStamp s) :
    execCurrentSample nv s = .next (streamEntry 0x12 (curEntry (currentTaken nv v f s) (gridInstant 1000 s)) (currentTaken nv v f s)) := by
  subst hv hf
  unfold execCurrentSample currentTaken currentStamp
  rw [if_neg (by simp [hm])]

end

section
variable {stream : Byte} {i : Nat} {x : StreamSt} {s : State} (hi : i = (s.cell.streams.findIdx fun x => x.code == stream.toNat)) (hx : s.cell.streams[i]? = some x)
include hi hx

theorem execHostStreamFlush_known : execHostStreamFlush stream s =
    .next { (flushStream x s).2 with cell.streams := s.cell.streams.set i (flushStream x s).1 } := by
  subst hi
  simp only [execHostStreamFlush, hx]

end

theorem execHostStreamFlush_unknown {stream : Byte} {s : State} (h : s.cell.streams[s.cell.streams.findIdx fun x => x.code == stream.toNat]? = none) :
    execHostStreamFlush stream s = .next s := by
  simp only [execHostStreamFlush, h]

/-- Settles O30: each row by its guards. -/
theorem currentAndAuxRows : Obligations.CurrentAndAuxRows := by
  refine ⟨fun uv v e s t r hm ht he hr => execAuxSample_taken hm ht he hr, fun s h => ?marked, fun s h => ?failed, fun _ => rfl,
    fun nv v f s hm hb hv hf => execCurrentSample_taken hm (by rw [hb]; exact hv) (by rw [hb]; exact hf),
    fun nv v f s hm hb hv hf => execCurrentSample_taken hm (by rw [if_pos hb]; exact hv) (by rw [if_pos hb]; exact hf), fun s hm => if_neg (by simp [hm]),
    fun s hb hf => ?stale, fun s hb hf => ?staleAlready, fun s hb => if_pos (by simp [hb]), fun stream i x s hi hx => ⟨fun ⟨hbuf, hslots⟩ => ?flushed, fun h => ?kept⟩,
    fun stream s h => execHostStreamFlush_unknown h,
    fun uv v nv s hm => ⟨if_pos (by simp [hm]), if_pos (by simp [hm]), if_pos (by simp [hm])⟩⟩
  case marked => exact congrArg Host.Outcome.next (congrArg (settleAux s) (if_pos h))
  case failed => exact congrArg Host.Outcome.next (congrArg (settleAux s) (if_neg (Bool.eq_false_iff.mp h)))
  case stale => exact (if_neg (by simp [hb])).trans (congrArg _ (if_neg (Bool.eq_false_iff.mp hf)))
  case staleAlready => exact (if_neg (by simp [hb])).trans (congrArg _ (if_pos hf))
  case flushed =>
    refine (execHostStreamFlush_known hi hx).trans ?_
    rw [show flushStream x s = _ from if_neg (by simp [hbuf, hslots])]
  case kept =>
    refine (execHostStreamFlush_known hi hx).trans ?_
    rw [show flushStream x s = (x, s) from if_pos h]

/-! ### Balancing -/

section
variable {x : Stim} {s : State} (hx : s.bal.stim = some x)
include hx

theorem execStimStart_ordered (hm : measuring s = true) : execStimStart s = .next (if x.running || decide (counterNs s < x.t0) then s else turnOnStim x s) := by
  unfold execStimStart
  rw [if_neg (by simp [hm]), hx]

theorem execStimStart_waits (h : x.running = true ∨ counterNs s < x.t0) : execStimStart s = .next s := by
  by_cases hm : measuring s = true
  · rw [execStimStart_ordered hx hm, if_pos (by simpa using h)]
  · exact if_pos (by simp [hm])

theorem execStimEnd_ordered : execStimEnd s = if x.running && !x.sweep then .next (endStim allCh 0 s) else .next s := by
  simp only [execStimEnd, hx]

end

section
variable {s : State}

theorem execStimStart_none (h : measuring s = false ∨ s.bal.stim = none) : execStimStart s = .next s := by
  unfold execStimStart
  rcases h with h | h
  · rw [if_pos (by simp [h])]
  · rw [h, ite_self]

theorem execStimEnd_none (h : ∀ x, s.bal.stim = some x → x.running = false ∨ x.sweep = true) : execStimEnd s = .next s := by
  match hx : s.bal.stim with
  | none => simp only [execStimEnd, hx]
  | some x => rw [execStimEnd_ordered hx, if_neg (by rcases h x hx with h | h <;> simp [h])]

variable {m : BalMeas}

theorem endPeriod_external (h : balExternal s = true) : endPeriod m s = (pulsedChannels s).foldl (pulseTest m) (noteClip m (settleAcc (cutLimited m s))) :=
  if_pos h

theorem endPeriod_internal (h : balExternal s = false) : endPeriod m s =
    (quietChannels s).foldl (fun t k => shortTest m k t) ((pulsedChannels s).foldl (pulseTest m) (noteClip m (settleAcc (cutLimited m s)))) :=
  if_neg (Bool.eq_false_iff.mp h)

theorem execBalPeriod_measuring (hm : measuring s = true) : execBalPeriod m s = .next (beginPeriod (if s.bal.inPeriod then endPeriod m s else s)) :=
  if_neg (by simp [hm])

end

/-- Settles O31: each row by its guards. -/
theorem balanceRows : Obligations.BalanceRows := by
  refine ⟨fun x s hm hx hr ht => ?turnsOn, fun s h => execStimStart_none h, fun x s hx h => execStimStart_waits hx h,
    fun x s hx hr hs => (execStimEnd_ordered hx).trans (if_pos (by simp [hr, hs])), fun s h => execStimEnd_none h,
    fun s hcfg hon => if_neg (by simp only [hcfg, hon]; simp), fun s h => if_pos h, fun ch s h => if_pos (by simp only [h]; rfl), fun ch s h => if_neg (by simpa using h),
    fun a b g h s hm hext hcfg => if_neg (by simp [hm, hext, hcfg]), fun a b g h s hoff => if_pos (by simpa using hoff),
    fun m s hm hp => (execBalPeriod_measuring hm).trans ?begins, fun m s hm hp hext => (execBalPeriod_measuring hm).trans ?endsExternal,
    fun m s hm hp hext => (execBalPeriod_measuring hm).trans ?endsInternal, fun m s hm => if_pos (by simp [hm])⟩
  case turnsOn => rw [show exec .stimStart s = _ from execStimStart_ordered hx hm, if_neg (by simp [hr, ht])]
  case begins => rw [if_neg (by simp [hp])]
  case endsExternal => rw [if_pos hp, endPeriod_external hext]
  case endsInternal => rw [if_pos hp, endPeriod_internal hext]

end Sys2Proof.Machine
end

section
/-! The rows of heat (R557 to R574): each by the guards of its meaning. -/

namespace Sys2Proof.Machine

open Sys2Proof

section
variable {s : State} (hm : measuring s = true)
include hm

/-- The pack's timer, by its group in shutdown and the pack's heat. -/
theorem execThrottleStepTimer_pack : execThrottleStepTimer true s =
    if s.therm.grp.contains 3 then .next (setSPack 4 s)
    else if packHot s then .next (setSPack (min 4 (s.therm.sPack + 1)) s) else .next (setSPack (s.therm.sPack - 1) s) := by
  unfold execThrottleStepTimer
  rw [if_neg (by simp [hm]), if_pos rfl]

/-- The die's timer, by the die's level, its sensor and its rise. -/
theorem execThrottleStepTimer_die : execThrottleStepTimer false s =
    if s.therm.level = .shutdown ∨ s.therm.level = .cooling then .next (setSDie 4 s)
    else if s.therm.broken then .next (setSDie (min 4 (s.therm.sDie + 1)) s)
    else if s.therm.level = .throttle then (if dieFalling s then .next s else .next (setSDie (min 4 (s.therm.sDie + 1)) s))
    else if s.therm.rise then .next s else .next (setSDie (s.therm.sDie - 1) s) := by
  unfold execThrottleStepTimer
  rw [if_neg (by simp [hm]), if_neg Bool.false_ne_true]
  simp only [beq_iff_eq]

theorem execDieSensorFault_counted : execDieSensorFault false s = if 10 ≤ s.therm.xBad then .next (breakDie s) else .next s := by
  unfold execDieSensorFault
  rw [if_neg (by simp [hm]), if_neg Bool.false_ne_true]

end

section
variable {s : State}

theorem execDieSensorFault_few (h : s.therm.xBad < 10) : execDieSensorFault false s = .next s := by
  by_cases hm : measuring s = true
  · rw [execDieSensorFault_counted hm, if_neg (by omega)]
  · exact if_pos (by simp [hm])

/-- The rows that need a measuring member change nothing on another. -/
theorem heat_unmeasured {t : Int} {b : Bool} {i : Instr} (hm : measuring s = false)
    (hi : i = .dieMeasure t ∨ i = .comparatorTrip ∨ i = .throttleStepTimer b ∨ i = .dieSensorFault b ∨ i = .umberTempRead t ∨ i = .rorEval ∨ i = .thermalReport) :
    exec i s = .next s := by
  rcases hi with rfl | rfl | rfl | rfl | rfl | rfl | rfl
  · exact if_neg (by simp [hm])
  · exact if_neg (by simp [hm])
  · exact if_pos (by simp [hm])
  · exact if_pos (by simp [hm])
  · exact if_neg (by simp [hm])
  · exact if_pos (by simp [hm])
  · exact if_neg (by simp [hm])

end

/-- Settles O37: each row by its guards. -/
theorem heatRows : Obligations.HeatRows := by
  intro s
  refine ⟨fun t hm => if_pos hm, fun hm => if_pos hm, fun hm hl => (execThrottleStepTimer_die hm).trans (if_pos hl), fun hm hshut hcool hb => ?broken,
    fun hm hl hb => ⟨fun hf => ?held, fun hf => ?falling⟩, fun hm hl hb => ⟨fun hf => ?cools, fun hf => ?rises⟩,
    fun hm hg => (execThrottleStepTimer_pack hm).trans (if_pos hg),
    fun hm hg => ⟨fun hp => (execThrottleStepTimer_pack hm).trans ?hot, fun hp => (execThrottleStepTimer_pack hm).trans ?cold⟩,
    fun hm => (if_neg (by simp [hm])).trans (if_pos rfl), fun hm hx => (execDieSensorFault_counted hm).trans (if_pos hx), fun hx => execDieSensorFault_few hx,
    fun t hm hl hv => if_pos ⟨hm, hl, by simp [hv]⟩, fun t h => if_neg (by rcases h with h | h <;> simp [h]), fun h => if_neg (Bool.eq_false_iff.mp h), fun h => if_pos h,
    fun hm => if_neg (by simp [hm]), fun hm => if_pos hm, fun t b i hm hi => heat_unmeasured hm hi⟩
  case broken => exact (execThrottleStepTimer_die hm).trans ((if_neg (by simp [hshut, hcool])).trans (if_pos hb))
  case held | falling | cools | rises =>
    refine (execThrottleStepTimer_die hm).trans ?_
    simp only [hl, hb, hf, reduceCtorEq, or_false, Bool.false_eq_true, if_false, if_true]
  case hot => rw [if_neg (by simp only [hg]; simp), if_pos hp]
  case cold => rw [if_neg (by simp only [hg]; simp), if_neg (by simp [hp])]

end Sys2Proof.Machine
end

section
/-! The memory self-test of Indigo outlasts what an engine, a library kernel or the sweep does (R460 to R472, R527 to R549): its flag is the same before
and after each operation on the way. -/

namespace Sys2Proof.Machine

open Sys2Proof

theorem foldl_selfTest {α : Type} (f : State → α → State) (h : ∀ s a, (f s a).indigo.selfTest = s.indigo.selfTest) (l : List α) (s : State) :
    (l.foldl f s).indigo.selfTest = s.indigo.selfTest := by
  induction l generalizing s with
  | nil => rfl
  | cons a l ih => exact (ih (f s a)).trans (h s a)

/-! ### Events, the scratchpad and the engines -/

section
variable (e : Engine) (s : State)

@[simp] theorem raise_selfTest (src : Nat) (d : List Byte) : (raise src d s).indigo.selfTest = s.indigo.selfTest :=
  (congrArg (fun u : State => u.indigo.selfTest) (raise_sansEvents src d s) :)

@[simp] theorem raiseFor_selfTest (h src : Nat) (d : List Byte) : (raiseFor h src d s).indigo.selfTest = s.indigo.selfTest :=
  (congrArg (fun u : State => u.indigo.selfTest) (raiseDue_sansEvents 16 [(src, some h, d)] s) :)

@[simp] theorem setEng_selfTest (f : Eng → Eng) : (setEng e f s).indigo.selfTest = s.indigo.selfTest := by
  cases e <;> rfl

@[simp] theorem padWrite_selfTest (a : Nat) (l : List Byte) : (padWrite a l s).indigo.selfTest = s.indigo.selfTest := rfl

@[simp] theorem drawFree_selfTest : (drawFree s).2.indigo.selfTest = s.indigo.selfTest := rfl

@[simp] theorem endKernel_selfTest (t : Term) : (endKernel e t s).indigo.selfTest = s.indigo.selfTest :=
  setEng_selfTest _ _ _

@[simp] theorem saveContext_selfTest (cause : Nat) : (saveContext e cause s).indigo.selfTest = s.indigo.selfTest := by
  simp [saveContext]

@[simp] theorem takeFault_selfTest (code idx detail : Nat) : (takeFault e code idx detail s).indigo.selfTest = s.indigo.selfTest := by
  simp only [takeFault, apply_ite (fun u : State => u.indigo.selfTest), raise_selfTest, ite_self, endKernel_selfTest, saveContext_selfTest, setEng_selfTest]

@[simp] theorem takeEnd_selfTest (r : Word) : (takeEnd e r s).indigo.selfTest = s.indigo.selfTest := by
  simp [takeEnd]

@[simp] theorem endLibrary_selfTest : (endLibrary s).indigo.selfTest = s.indigo.selfTest := by
  simp [endLibrary]

@[simp] theorem startEngine_selfTest : (startEngine e s).indigo.selfTest = s.indigo.selfTest := by
  simp only [startEngine, apply_ite (fun u : State => u.indigo.selfTest), setEng_selfTest, ite_self]

end

/-! ### The end of a sweep -/

section
variable (s : State)

@[simp] theorem noteHeld_selfTest : (noteHeld s).indigo.selfTest = s.indigo.selfTest :=
  foldl_selfTest _ (fun t _ => raise_selfTest t _ _) _ _

@[simp] theorem startDeferredOw_selfTest : (startDeferredOw s).indigo.selfTest = s.indigo.selfTest := by
  unfold startDeferredOw startOw
  repeat' split
  all_goals rfl

@[simp] theorem endStim_selfTest (mask : BitVec 16) (cause : Nat) : (endStim mask cause s).indigo.selfTest = s.indigo.selfTest := by
  unfold endStim
  repeat' split
  all_goals simp [markSinks]

@[simp] theorem endSweepStim_selfTest : (endSweepStim s).indigo.selfTest = s.indigo.selfTest := by
  unfold endSweepStim
  rw [apply_ite (fun u : State => u.indigo.selfTest), endStim_selfTest, ite_self]

@[simp] theorem storePass_selfTest : (storePass s).indigo.selfTest = s.indigo.selfTest := by
  unfold storePass
  exact foldl_selfTest _ (fun t _ => padWrite_selfTest t _ _) _ _

theorem initBlock_selfTest : (initBlock s).indigo.selfTest = s.indigo.selfTest := by
  rw [initBlock, padWrite_selfTest, padWrite_selfTest]

@[simp] theorem closePoints_selfTest (cause : Nat) : (closePoints cause s).indigo.selfTest = s.indigo.selfTest := by
  unfold closePoints
  dsimp only
  repeat' split
  · exact initBlock_selfTest s
  · exact storePass_selfTest s
  · rfl

@[simp] theorem endDemod_selfTest : (endDemod s).indigo.selfTest = s.indigo.selfTest := by
  unfold endDemod
  split
  · simp
  · rfl

@[simp] theorem completeQueued_selfTest (h : Fin 4) (seq : Nat) (result : List Byte) : (completeQueued h seq result s).indigo.selfTest = s.indigo.selfTest :=
  raiseFor_selfTest _ _ _ _

@[simp] theorem reportSweep_selfTest (cause : Nat) : (reportSweep cause s).indigo.selfTest = s.indigo.selfTest := by
  unfold reportSweep
  split
  · exact completeQueued_selfTest _ _ _ _
  · rfl

@[simp] theorem unfitted_selfTest (cell status : Nat) : (unfitted cell status s).indigo.selfTest = s.indigo.selfTest := rfl

@[simp] theorem finishSweep_selfTest : (finishSweep s).indigo.selfTest = s.indigo.selfTest :=
  startDeferredOw_selfTest _

@[simp] theorem skipUnfit_selfTest (n : Nat) : (skipUnfit n s).indigo.selfTest = s.indigo.selfTest := by
  induction n generalizing s with
  | zero => rfl
  | succ n ih =>
    unfold skipUnfit
    dsimp only
    repeat' split
    · exact finishSweep_selfTest s
    · exact ih _
    · exact ih _
    · rfl

@[simp] theorem abandonFit_selfTest (n : Nat) : (abandonFit n s).indigo.selfTest = s.indigo.selfTest := by
  induction n generalizing s with
  | zero => rfl
  | succ n ih =>
    unfold abandonFit
    dsimp only
    split
    · exact finishSweep_selfTest s
    · exact ih _

@[simp] theorem endSweep_selfTest (cause : Nat) : (endSweep cause s).indigo.selfTest = s.indigo.selfTest := by
  unfold endSweep
  dsimp only
  repeat' split
  all_goals simp

end

/-! ### The library kernels -/

section
variable (s : State)

theorem trackStep_selfTest : (trackStep s).indigo.selfTest = s.indigo.selfTest := by
  unfold trackStep
  split
  · rfl
  · split <;> rfl

theorem runStateService_selfTest : (runStateService s).indigo.selfTest = s.indigo.selfTest :=
  trackStep_selfTest s

theorem stateService_selfTest : (stateService s).indigo.selfTest = s.indigo.selfTest := by
  unfold stateService
  split
  · exact takeFault_selfTest ..
  · rw [endLibrary_selfTest, runStateService_selfTest]

theorem fitCell_selfTest (cell : Nat) : (fitCell cell s).indigo.selfTest = s.indigo.selfTest := by
  unfold fitCell
  dsimp only
  split <;> rfl

theorem modelFit_selfTest : (modelFit s).indigo.selfTest = s.indigo.selfTest := by
  unfold modelFit
  dsimp only
  repeat' split
  · simp
  · rw [endLibrary_selfTest, skipUnfit_selfTest, fitCell_selfTest]
  · exact endLibrary_selfTest s

@[simp] theorem runLibrary_selfTest (e : Engine) : (runLibrary e s).indigo.selfTest = s.indigo.selfTest := by
  unfold runLibrary
  dsimp only
  repeat' split
  · exact stateService_selfTest s
  · exact modelFit_selfTest s
  · rfl

end

theorem endSelfTest_none {s : State} (h : s.indigo.selfTest = false) : endSelfTest s = s :=
  if_pos (by simp [h])

end Sys2Proof.Machine
end

section
/-! The rows of sweeps and of the engines (R460 to R472, R527 to R549): each by the guards of its meaning. -/

namespace Sys2Proof.Machine

open Sys2Proof

/-! ### Sweeps -/

section
variable {s : State}

theorem endPass_stored {next : State → State} (h : passFault s = none) : endPass next s = next s := by
  simp only [endPass, h]

theorem endPass_fault {next : State → State} {f : Nat × Nat} (h : passFault s = some f) : endPass next s = demodFault f s := by
  simp only [endPass, h]

theorem execSweepPass_waiting (h : s.sweep.st = .waiting) : execSweepPass s =
    if s.indigo.se.st != .idle then .next (endSweep 9 s) else .next (startPass (0, (beginSweep s).sweep.passB) (beginSweep s)) := by
  simp only [execSweepPass, h]

theorem execSweepPass_next {p : Nat × Bool} (h : s.sweep.st = .running) (hp : nextPass s = some p) :
    execSweepPass s = .next (endPass (fun s => startPass p (storePass s)) s) := by
  simp only [execSweepPass, h, hp]

theorem execSweepPass_last (h : s.sweep.st = .running) (hp : nextPass s = none) : execSweepPass s = .next s := by
  simp only [execSweepPass, h, hp]

theorem execSweepPass_other (hw : s.sweep.st ≠ .waiting) (hr : s.sweep.st ≠ .running) : execSweepPass s = .next s := by
  unfold execSweepPass
  split
  next h => exact absurd h hw
  next h => exact absurd h hr
  next => rfl

theorem execSweepEnd_ends (h : s.sweep.st = .running) (hp : nextPass s = none) : execSweepEnd s = .next (endPass (endSweep 1) s) :=
  if_pos (by simp [h, hp])

theorem execSweepEnd_other (h : s.sweep.st ≠ .running ∨ nextPass s ≠ none) : execSweepEnd s = .next s :=
  if_neg (by rcases h with h | h <;> simp [h])

end

/-! ### The end of a code copy -/

section
variable {e : Engine} {s u : State} {code : List Word}

theorem setEng_congr {f g : Eng → Eng} (h : f (eng s e) = g (eng s e)) : setEng e f s = setEng e g s := by
  cases e with
  | te => exact congrArg (fun x => { s with indigo.te := x }) h
  | se => exact congrArg (fun x => { s with indigo.se := x }) h

/-- A launch starts at its entry word with its arguments and cleared registers, from the code that is resident or copied. -/
theorem startEngine_launch (hr : (eng s e).pendingResume = false) (hcode : code = (if resident e (eng s e).slot s then (eng s e).prog else imageCode s (eng s e).slot)) :
    startEngine e s = setEng e (fun g => { g with
      st := .running, prog := code, progSlot := some g.slot, pc := g.entryIdx, cycles := 0, status := 0, lc0 := none, lc1 := none,
      a := (List.range 16).map (fun i => if i < 4 then nth g.pendingArgs i 0 else 0), tiles := List.replicate 16 none,
      spec := List.replicate 8 none, cache := [], page := s.regs.indigoPage }) s := by
  subst hcode
  unfold startEngine
  dsimp only
  simp only [hr, Bool.false_eq_true, if_false]
  by_cases hres : resident e (eng s e).slot s = true
  · have hslot : (eng s e).progSlot = some (eng s e).slot := by simpa [resident] using hres
    rw [if_pos hres, if_pos hres]
    exact setEng_congr (by rw [← hslot])
  · rw [if_neg hres, if_neg hres, setEng_setEng]
    exact setEng_congr rfl

theorem startEngine_slot (hr : (eng s e).pendingResume = false) : (eng (startEngine e s) e).slot = (eng s e).slot := by
  rw [startEngine_launch hr rfl, eng_setEng]

theorem runLibrary_kernel (h : serviceSlot (eng s e).slot = false) : runLibrary e s = s := by
  simp only [serviceSlot, Bool.or_eq_false_iff, beq_eq_false_iff_ne] at h
  obtain ⟨⟨hservice, -⟩, hfit⟩ := h
  unfold runLibrary
  dsimp only
  rw [if_neg (by simp [hservice]), if_neg (by simp [hfit])]

section
variable (ht : s.indigo.selfTest = false)
include ht

theorem execCodeCopyDone_untested (h : (copyDone e s).indigo.selfTest = s.indigo.selfTest) : execCodeCopyDone e s = .next (copyDone e s) :=
  congrArg Host.Outcome.next (endSelfTest_none (h.trans ht))

variable (hst : (eng s e).st = .loading) (hok : (eng s e).pendingResume = false ∨ contextOk e s = true)
include hst hok

theorem execCodeCopyDone_starts : execCodeCopyDone e s =
    .next (if !serviceSlot (eng (startEngine e s) e).slot && decide ((eng (startEngine e s) e).prog.length ≤ (eng (startEngine e s) e).pc)
      then takeFault e 7 (eng (startEngine e s) e).pc (eng (startEngine e s) e).pc (startEngine e s) else runLibrary e (startEngine e s)) := by
  have hcopy : copyDone e s = (if !serviceSlot (eng (startEngine e s) e).slot && decide ((eng (startEngine e s) e).prog.length ≤ (eng (startEngine e s) e).pc)
      then takeFault e 7 (eng (startEngine e s) e).pc (eng (startEngine e s) e).pc (startEngine e s) else runLibrary e (startEngine e s)) := by
    unfold copyDone
    dsimp only
    rw [if_neg (by simp [hst]), if_neg (by rcases hok with h | h <;> simp [h])]
  rw [← hcopy]
  refine execCodeCopyDone_untested ht ?_
  rw [hcopy]
  split
  · rw [takeFault_selfTest, startEngine_selfTest]
  · rw [runLibrary_selfTest, startEngine_selfTest]

theorem execCodeCopyDone_runs (hslot : serviceSlot (eng (startEngine e s) e).slot = false)
    (hpc : (eng (startEngine e s) e).pc < (eng (startEngine e s) e).prog.length) : execCodeCopyDone e s = .next (startEngine e s) := by
  rw [execCodeCopyDone_starts ht hst hok, if_neg (by simp [hpc]), runLibrary_kernel hslot]

theorem execCodeCopyDone_outside (hslot : serviceSlot (eng (startEngine e s) e).slot = false)
    (hpc : (eng (startEngine e s) e).prog.length ≤ (eng (startEngine e s) e).pc) :
    execCodeCopyDone e s = .next (takeFault e 7 (eng (startEngine e s) e).pc (eng (startEngine e s) e).pc (startEngine e s)) := by
  rw [execCodeCopyDone_starts ht hst hok, if_pos (by simp [hslot, hpc])]

theorem execCodeCopyDone_library (hslot : serviceSlot (eng (startEngine e s) e).slot = true) : execCodeCopyDone e s = .next (runLibrary e (startEngine e s)) := by
  rw [execCodeCopyDone_starts ht hst hok, if_neg (by simp [hslot])]

end

/-- A context that is damaged leaves its engine suspended. -/
theorem execCodeCopyDone_damaged (ht : s.indigo.selfTest = false) (hst : (eng s e).st = .loading) (hr : (eng s e).pendingResume = true) (hbad : contextOk e s = false)
    (hu : u = setEng e (fun g => { g with st := .suspended, pendingResume := false }) s) :
    execCodeCopyDone e s = .next (raise 0x66 (engDetail e (eng s e).result.toNat (eng s e).pc u) u) := by
  subst hu
  have hcopy : copyDone e s = raise 0x66 (engDetail e (eng s e).result.toNat (eng s e).pc (setEng e (fun g => { g with st := .suspended, pendingResume := false }) s))
      (setEng e (fun g => { g with st := .suspended, pendingResume := false }) s) := by
    unfold copyDone
    dsimp only
    rw [if_neg (by simp [hst]), if_pos (by simp [hr, hbad])]
  rw [← hcopy]
  exact execCodeCopyDone_untested ht (by rw [hcopy, raise_selfTest, setEng_selfTest])

theorem execCodeCopyDone_notLoading (ht : s.indigo.selfTest = false) (hst : (eng s e).st ≠ .loading) : execCodeCopyDone e s = .next s := by
  have hcopy : copyDone e s = s := if_pos (by simp [hst])
  exact (execCodeCopyDone_untested ht (by rw [hcopy])).trans (congrArg _ hcopy)

end

/-! ### Triggers and the watchdog -/

section
variable {e : Engine} {s u : State}

theorem triggered_iff : Triggered e s ↔
    (rf (trigReg s e) 1 0 = 2 ∨ (rf (trigReg s e) 1 0 = 1 ∧ triggerEvery s e ≤ entriesOf s e)) ∧ measuring s = true ∧ s.indigo.off = false := by
  cases e <;> exact Iff.rfl

/-- The row's guard passes exactly a trigger that is due. -/
theorem triggerGuard_iff : ((rf (trigReg s e) 1 0 ≠ 1 ∧ rf (trigReg s e) 1 0 ≠ 2) ∨ (!measuring s) = true ∨ s.indigo.off = true ∨ entriesShort s e = true) ↔ ¬Triggered e s := by
  simp only [triggered_iff, entriesShort, Bool.not_eq_true', Bool.and_eq_true, decide_eq_true_eq, ← Bool.not_eq_true, ← not_le]
  by_cases hmode : rf (trigReg s e) 1 0 = 1
  · simp only [hmode, show (1 : Nat) ≠ 2 by decide]
    tauto
  · simp only [hmode]
    tauto

theorem not_launches_iff : ((!committed s (rf (trigReg s e) 15 8)) = true ∨ rf (trigReg s e) 15 8 = 0x81 ∨ rf (trigReg s e) 15 8 = 0x82 ∨
    (rf (trigReg s e) 15 8 = 0x80 ∧ rf (trigReg s e) 1 0 ≠ 1) ∨ imageEngine s (rf (trigReg s e) 15 8) ≠ engCode e) ↔ triggerLaunches e s = false := by
  simp only [triggerLaunches, Bool.not_eq_true', Bool.and_eq_true, Bool.or_eq_true, bne_iff_ne, beq_iff_eq, ← Bool.not_eq_true]
  tauto

theorem execKernelTrigger_due (h : Triggered e s) (hu : u = triggerCounted e s) : execKernelTrigger e s =
    if triggerLaunches e s = false then .next u
    else if s.indigo.selfTest then .next (deferLaunch e (rf (trigReg s e) 15 8) (triggerArgs e s) none u)
    else if (eng s e).st != .idle then .next (raise 0x64 (det (inst2 (engCode e) (rf (trigReg s e) 15 8)) 0 0 0) { u with indigo.trigMiss := satAdd 255 u.indigo.trigMiss 1 })
    else .next (launch e (rf (trigReg s e) 15 8) (triggerArgs e s) u) := by
  subst hu
  unfold execKernelTrigger
  dsimp only
  rw [if_neg (mt triggerGuard_iff.mp (not_not.mpr h))]
  simp only [not_launches_iff]
  cases e <;> rfl

theorem execWatchdog_running {n : Nat} (hst : (eng s e).st = .running) (hn : n = max (eng s e).cycles (eng s e).budget)
    (hu : u = takeFault e 8 (eng s e).pc (n / 1024) (setEng e (fun g => { g with cycles := n }) s)) :
    execWatchdog e s = .next (if e == .se && (eng s e).slot == 0x81 then endSweep 9 u else u) := by
  subst hu hn
  exact if_neg (by simp [hst])

end

/-- Settles O36: each row by its guards; the self-test's flag outlasts a code copy. -/
theorem sweepAndEngineRows : Obligations.SweepAndEngineRows := by
  refine ⟨fun s => ⟨fun h hse => (execSweepPass_waiting h).trans (if_neg (by simp [hse])), fun h hse => (execSweepPass_waiting h).trans (if_pos (by simp [hse])),
      fun p h hp => ⟨fun hf => (execSweepPass_next h hp).trans (congrArg _ (endPass_stored hf)), fun f hf => (execSweepPass_next h hp).trans (congrArg _ (endPass_fault hf))⟩,
      fun h hp => execSweepPass_last h hp, fun hw hr => execSweepPass_other hw hr,
      fun h hp hf => (execSweepEnd_ends h hp).trans (congrArg _ (endPass_stored hf)), fun f h hp hf => (execSweepEnd_ends h hp).trans (congrArg _ (endPass_fault hf)),
      fun h => execSweepEnd_other h, fun hm hs ho => if_neg (by simp [hm, hs, ho]), fun h => if_pos (by simpa using h)⟩,
    fun e s => ⟨fun code u ht hst hr hslot hcode hu => ?launched, fun ht hst hr hslot => ?library,
      fun ht hst _ hok hslot => ⟨fun hpc => execCodeCopyDone_runs ht hst (.inr hok) hslot hpc, fun hpc => execCodeCopyDone_outside ht hst (.inr hok) hslot hpc⟩,
      fun u ht hst hr hbad hu => execCodeCopyDone_damaged ht hst hr hbad hu, fun ht hst => execCodeCopyDone_notLoading ht hst,
      fun u h hu => ⟨fun hl => ?refused, fun hl ht => ?deferred, fun hl ht hst => ?launches, fun hl ht hst => ?missed⟩, fun h => if_pos (triggerGuard_iff.mpr h),
      fun n u hst hn hu => ⟨fun h => ?kernel, fun he hslot => ?demodulator⟩, fun hst => if_pos (by simp [hst]), fun hf hte ho hm => if_pos (by simp [hf, hte, ho, hm]),
      fun h => if_neg ?noFit⟩⟩
  case launched =>
    have hstart : startEngine e s = u := (startEngine_launch hr hcode).trans hu.symm
    have hpc : (eng u e).pc = (eng s e).entryIdx := by rw [hu, eng_setEng]
    have hprog : (eng u e).prog = code := by rw [hu, eng_setEng]
    have hslot' : serviceSlot (eng (startEngine e s) e).slot = false := by rw [startEngine_slot hr, hslot]
    rw [← hstart] at hpc hprog
    refine ⟨fun hin => ?_, fun hout => ?_⟩
    · exact (execCodeCopyDone_runs ht hst (.inl hr) hslot' (by rw [hpc, hprog]; exact hin)).trans (congrArg _ hstart)
    · refine (execCodeCopyDone_outside ht hst (.inl hr) hslot' (by rw [hpc, hprog]; exact hout)).trans ?_
      rw [hpc, hstart]
  case library => exact execCodeCopyDone_library ht hst (.inl hr) (by rw [startEngine_slot hr, hslot])
  case refused => exact (execKernelTrigger_due h hu).trans (if_pos hl)
  case deferred => exact (execKernelTrigger_due h hu).trans ((if_neg (by simp [hl])).trans (if_pos ht))
  case launches => exact (execKernelTrigger_due h hu).trans ((if_neg (by simp [hl])).trans ((if_neg (by simp [ht])).trans (if_neg (by simp [hst]))))
  case missed => exact (execKernelTrigger_due h hu).trans ((if_neg (by simp [hl])).trans ((if_neg (by simp [ht])).trans (if_pos (by simp [hst]))))
  case kernel => exact (execWatchdog_running hst hn hu).trans (congrArg _ (if_neg (by rcases h with h | h <;> simp [h])))
  case demodulator => exact (execWatchdog_running hst hn hu).trans (congrArg _ (if_pos (by rw [hslot, he]; rfl)))
  case noFit => rcases h with h | h | h | h <;> simp [h]

end Sys2Proof.Machine
end

section
/-! The rows of the sensor ports and of the runaway watch (R576 to R583, R605 to R644): each by the guards of its meaning. -/

namespace Sys2Proof.Machine

open Sys2Proof

/-! ### Sensor ports -/

section
variable {n : Nat} {s : State}

/-- A frame whose calibration pulse is in order: it is bad, has a bad check nibble, or is good. -/
theorem takeSentFrame_calibrated {cal : Nat} {pulses ticks : List Nat} {pause : Option Nat} {bad : Bool} (hcal : calOk s n cal = true)
    (hticks : ticks = pulses.map (pulseTicks cal))
    (hbad : bad = (ticks.any (fun t => t < 12 || 27 < t) || pulses.length != spNib s n + 2 || !(match pause with
      | some t => rf (spCfg s n) 2 2 == 1 && decide (12 ≤ pulseTicks cal t) && decide (pulseTicks cal t ≤ 768)
      | none => true))) :
    takeSentFrame n cal pulses pause s =
      if bad then badFrame n (fun p => takeCal cal { p with nibCnt := satAdd 255 p.nibCnt 1 }) s
      else if crc4 (((ticks.map (· - 12)).drop 1).take (spNib s n)) ≠ nth (ticks.map (· - 12)) (spNib s n + 1) 0
        then badFrame n (fun p => takeCal cal { p with crcCnt := satAdd 255 p.crcCnt 1 }) s
      else goodFrame n cal (nth (ticks.map (· - 12)) 0 0) (((ticks.map (· - 12)).drop 1).take (spNib s n)) s := by
  subst hticks hbad
  cases pause <;> exact if_neg (by simp [hcal])

theorem takeSentFrame_uncalibrated {cal : Nat} {pulses : List Nat} {pause : Option Nat} (hcal : calOk s n cal = false) :
    takeSentFrame n cal pulses pause s = badFrame n (fun p => { p with calCnt := satAdd 255 p.calCnt 1 }) s :=
  if_pos (by simp [hcal])

theorem setStale_fresh (h : (spPort s n).stale = false) : setStale n s =
    (let u := setSp n (fun p => { p with stale := true }) s
     if measuring s then raise 0x72 (spDetail u n) u else u) :=
  if_neg (Bool.eq_false_iff.mp h)

variable {port : Fin 2}

theorem execSentFrame_accepted (h : spAccepts s port.val = true) (cal : Nat) (pulses : List Nat) (pause : Option Nat) :
    execSentFrame port cal pulses pause s = .next (takeSentFrame port.val cal pulses pause s) :=
  if_pos h

theorem execSerialMessage_kept {fmt : Bool} {ident : Byte} {value : BitVec 16} {u : State} (h : spAccepts s port.val = true)
    (hu : u = setSp port.val (fun p => { p with esmId := ident.toNat, esmData := value.toNat, esmFmt := fmt }) s) :
    execSerialMessage port fmt ident value true s =
      if fmt then .next u
      else if ident = 0x01 then .next (takeType port.val (value.toNat % 256) u)
      else if ident = 0x09 ∧ (spPort s port.val).awaiting = true ∧ requestSent s port.val = true then
        .next (let t := setSp port.val (fun p => { p with awaiting := false, satFailed := value != 0 }) u
               if value = 0 then t else raise 0x76 (spDetail t port.val) t)
      else .next u := by
  subst hu
  unfold execSerialMessage
  dsimp only
  rw [if_neg (by simp [h]), if_neg (by simp)]

theorem execLineLow_listens (h : spListens s port.val = true) : execLineLow port s =
    if (spPort s port.val).st = .lineLow then .next (setSp port.val (fun p => { p with linePwr := false }) s)
    else
      (let u := setSp port.val (fun p => { p with st := .lineLow, linePwr := false }) s
       .next (setStale port.val (raise 0x71 (spDetail u port.val) u))) :=
  if_neg (by simp [h])

end

/-- Settles O38: each row by its guards. -/
theorem sensorPortRows : Obligations.SensorPortRows := by
  intro port s
  refine ⟨fun cal pulses ticks pause bad hacc hticks hbad => ?frame, fun fmt ident value hacc => (if_neg (by simp [hacc])).trans (if_pos rfl),
    fun fmt ident value u hacc hu => ?message, fun cal pulses pause fmt ok ident value hacc => ⟨if_neg (Bool.eq_false_iff.mp hacc), if_pos (by simp [hacc])⟩,
    fun hm hmode => if_pos ⟨hm, hmode⟩, fun h => if_neg (by rcases h with h | h <;> simp [h]), fun u hst hu => ?stale,
    fun hst => congrArg Host.Outcome.next (if_pos hst), fun u hl hst hu => ?lineLow, fun hl hst => (execLineLow_listens hl).trans (if_pos hst),
    fun hl => if_pos (by simp [hl]), fun low hst hp hl => ⟨if_pos ⟨hst, hp, hl⟩, if_pos ⟨hst, hp, hl⟩⟩,
    fun low h => ⟨if_neg (by rcases h with h | h | h <;> simp [h]), if_neg (by rcases h with h | h | h <;> simp [h])⟩, rfl, rfl,
    fun u ha hu => ?timeout, fun ha => if_neg (Bool.eq_false_iff.mp ha)⟩
  case frame =>
    have hread := fun hcal => takeSentFrame_calibrated (s := s) (n := port.val) hcal hticks hbad
    refine ⟨fun hcal => ?_, fun hcal hb => ?_, fun hcal hb hcrc => ?_, fun hcal hb hcrc => ?_⟩ <;>
      refine (execSentFrame_accepted hacc cal pulses pause).trans (congrArg _ ?_)
    · exact takeSentFrame_uncalibrated hcal
    · exact (hread hcal).trans (if_pos hb)
    · exact (hread hcal).trans ((if_neg (Bool.eq_false_iff.mp hb)).trans (if_pos hcrc))
    · exact (hread hcal).trans ((if_neg (Bool.eq_false_iff.mp hb)).trans (if_neg (not_not.mpr hcrc)))
  case message =>
    have hkept := execSerialMessage_kept (fmt := fmt) hacc hu
    refine ⟨fun h => ?_, fun hf hi => ?_, fun hf hi ha hs => ⟨fun hv => ?_, fun hv => ?_⟩⟩ <;> refine hkept.trans ?_
    · rcases h with h | ⟨hi, h⟩
      · exact if_pos h
      · have hnone : ¬(ident = 0x09 ∧ (spPort s port.val).awaiting = true ∧ requestSent s port.val = true) := by
          rw [← Bool.not_eq_true, ← Bool.not_eq_true] at h
          tauto
        rw [if_neg hi, if_neg hnone, ite_self]
    · rw [if_neg (by simp [hf]), if_pos hi]
    · rw [if_neg (by simp [hf]), if_neg (by simp [hi]), if_pos ⟨hi, ha, hs⟩]
      simp [hv]
    · rw [if_neg (by simp [hf]), if_neg (by simp [hi]), if_pos ⟨hi, ha, hs⟩, bne_iff_ne.mpr hv]
      exact congrArg _ (if_neg hv)
  case stale =>
    subst hu
    refine ⟨fun hm => congrArg Host.Outcome.next ((setStale_fresh hst).trans ?_), fun hm => congrArg Host.Outcome.next ((setStale_fresh hst).trans ?_)⟩
    · exact if_pos hm
    · exact if_neg (Bool.eq_false_iff.mp hm)
  case lineLow =>
    subst hu
    exact (execLineLow_listens hl).trans (if_neg hst)
  case timeout =>
    subst hu
    exact if_pos ha

/-! ### The runaway watch -/

section
variable {s : State} {port : Fin 2} {sum : Int} {n : Nat}

theorem execGasLearnEnd_learnt (hl : nth s.watch.learn port.val true = true) (hsum : nth s.watch.learnSum port.val (0, 0) = (sum, n)) (hn : n ≠ 0) :
    execGasLearnEnd port s =
      .next { s with watch.learn := s.watch.learn.set port.val false, watch.learnSum := s.watch.learnSum.set port.val (0, 0),
                     watch.minSum := s.watch.minSum.set port.val (0, 0),
                     watch.gasBase := s.watch.gasBase.set port.val (min (gCap s : Rat) ((sum : Rat) / (n : Rat))) } := by
  unfold execGasLearnEnd
  dsimp only
  rw [hsum, if_neg (by simp [hl, hn])]

theorem execGasBaselineUpdate_of {base : Rat} {u : State} (hsum : nth s.watch.minSum port.val (0, 0) = (sum, n)) (hbase : base = nth s.watch.gasBase port.val 0)
    (hu : u = { s with watch.minSum := s.watch.minSum.set port.val (0, 0), watch.minNone := s.watch.minNone.set port.val (s.watch.level == .none) }) :
    execGasBaselineUpdate port s =
      if nth s.watch.learn port.val true ∨ n = 0 ∨ !nth s.watch.minNone port.val false ∨ s.watch.level ≠ .none ∨
        base + (gThr s : Rat) / 2 ≤ (sum : Rat) / (n : Rat) then .next u
      else .next { u with watch.gasBase := s.watch.gasBase.set port.val (min (gCap s : Rat) (base + ((sum : Rat) / (n : Rat) - base) / 60)) } := by
  subst hu hbase
  unfold execGasBaselineUpdate
  dsimp only
  rw [hsum]

end

/-- Settles O39: each row by its guards. -/
theorem watchRows : Obligations.WatchRows := by
  intro s
  refine ⟨fun hm => if_pos hm, fun ha hm => if_pos ⟨ha, hm⟩, fun h => if_neg (by rcases h with h | h <;> simp [h]), rfl,
    fun c hu hl => if_neg (not_or.mpr ⟨by simp [hu], hl⟩), fun c h => if_pos (h.imp_left (by simp)), fun h => if_neg (by simp [h]), fun h => if_pos (by simp [h]),
    fun _ => rfl, fun port sum n hl hsum hn => execGasLearnEnd_learnt hl hsum hn, fun port h => if_pos (h.imp_left (by simp)),
    fun port sum n base u hsum hbase hu => ⟨fun hl hn hnone hlevel hlow => ?moves, fun h => ?stays⟩, rfl, fun hm => if_pos hm,
    fun hm => ⟨if_neg (Bool.eq_false_iff.mp hm), if_neg (Bool.eq_false_iff.mp hm)⟩⟩
  case moves => exact (execGasBaselineUpdate_of hsum hbase hu).trans (if_neg (by simp [hl, hn, hnone, hlevel, hlow]))
  case stays => exact (execGasBaselineUpdate_of hsum hbase hu).trans (if_pos (by simpa using h))

end Sys2Proof.Machine
end

section
/-! The rows of the proof cycle and of the safety inputs (R221 to R223, R621 to R628, R647 to R653, R669 to R697): each by the guards of its meaning. -/

namespace Sys2Proof.Machine

open Sys2Proof

/-! ### The proof cycle -/

section
variable {s u : State}

theorem execProofStart_starts {m : ProofIn} (hdue : s.watch.dueSince.isSome = true) (hr : proofRuns s = false) (hc : proofCause s = 0)
    (hu : u = proofSteps m (proofBegun s)) :
    execProofStart m s = .next { u with watch.pst := if u.sp1.awaiting || u.sp2.awaiting then .awaiting else u.watch.pst } := by
  subst hu
  unfold execProofStart proofSteps proofBegun
  dsimp only
  rw [if_neg (by simp [Option.isNone_eq_false_iff.mpr hdue, hr]), if_neg (by simp [hc])]

theorem execProofStart_deferred {m : ProofIn} (hdue : s.watch.dueSince.isSome = true) (hr : proofRuns s = false) (hc : proofCause s ≠ 0) :
    execProofStart m s = .next (proofFallsDue s) := by
  unfold execProofStart
  dsimp only
  rw [if_neg (by simp [Option.isNone_eq_false_iff.mpr hdue, hr]), if_pos hc]

/-- A started cycle that waits for nothing completes with its failed steps. -/
theorem execProofComplete_done {failed : Bool} {n : Nat} (hr : proofRuns s = true) (h1 : s.sp1.awaiting = false) (h2 : s.sp2.awaiting = false)
    (how : s.watch.owDue = false) (hu : u = reportFailed [6, 7] (finishSat 1 (finishSat 0 s))) (hn : n = (s.watch.pnum + 1) % 65536)
    (hf : failed = ((List.range 13).any fun k => bits u.watch.pres.toNat (2 * k + 1) (2 * k) == 2)) : execProofComplete s =
      (let last := if failed then 2 else 1
       let v := endSelfTest { u with watch.pst := .idle, watch.plast := last, watch.pnum := n, watch.poverdue := false, watch.pby := [],
                                     watch.dueAt := if failed then some (s.watch.pstartAt + 3600 * Config.sec) else u.watch.dueAt }
       .next (s.watch.pby.foldl (fun s c => completeQueued c.1 c.2 (le 2 n ++ le 1 last ++ le 1 0 ++ le 4 u.watch.pres.toNat) s)
         (if failed then v else raise 0x7C (watchDetail v) v))) := by
  subst hf hn hu
  unfold execProofComplete
  rw [if_neg (by simp [hr, h1, h2, how])]

end

/-- Settles O40: each row by its guards. -/
theorem proofRows : Obligations.ProofRows := by
  intro s
  refine ⟨fun hr hp => if_neg (by simp [hr, hp]), fun h => if_pos (by simpa using h), fun m u hdue hr hc hu => execProofStart_starts hdue hr hc hu,
    fun m hdue hr hc => execProofStart_deferred hdue hr hc, fun m h => if_pos (by simpa using h),
    fun u v failed n hr h1 h2 how hu hn hf => ⟨fun h hv => ?failed, fun h hv => ?passed⟩, fun h => if_pos (by simpa using h),
    fun hst ho => if_neg (by simp [hst, ho]), fun h => if_pos h⟩
  case failed =>
    have hdone := execProofComplete_done hr h1 h2 how hu hn hf
    subst h hv
    exact hdone
  case passed =>
    have hdone := execProofComplete_done hr h1 h2 how hu hn hf
    subst h hv
    exact hdone

/-! ### Inputs and the reset -/

section
variable {s : State} (hv : vermRuns s = true)
include hv

theorem execInputChange_held {k : Fin 4} {chB high : Bool} {n : Nat} {i : InpS} (hl : levelHeld (inpType s k.val) high n = true)
    (hi : i = (if chB then { nth s.verm.inps k.val {} with b := high } else { nth s.verm.inps k.val {} with a := high })) :
    execInputChange k chB high n s =
      if underTest s k.val then .next { s with verm.inps := s.verm.inps.set k.val i }
      else .next (enforceStop (evalTwoHand (noteInput k.val (inpType s k.val) (nth s.verm.inps k.val {}) (nextInp (inpType s k.val) i) s))) := by
  subst hi
  exact if_neg (by simp [hv, hl])

theorem execTestPulse_runs (b : Bool) (levels : List (Bool × Bool)) :
    execTestPulse b levels s = .next (enforceStop ((List.range 4).foldl (pulseInput b levels) s)) :=
  if_neg (by simp [hv])

theorem execDiscrepancy_disagrees {k : Fin 4} (h0 : inpType s k.val ≠ 0) (h5 : inpType s k.val < 5) (hd : disagrees (inpType s k.val) (nth s.verm.inps k.val {}) = true)
    (hc : (nth s.verm.inps k.val {}).st ≠ .cross) (hx : (nth s.verm.inps k.val {}).st ≠ .discrepancy) :
    execDiscrepancy k s = .next (enforceStop (raise 0x83 (vermDetail (k.val + 1) 0 3 s.verm.refuse)
      { s with verm.inps := s.verm.inps.set k.val { nth s.verm.inps k.val {} with st := .discrepancy, bothDemand := false, disagree := true } })) := by
  unfold execDiscrepancy
  dsimp only
  rw [if_neg]
  have h5' : inpType s k.val ≠ 5 := by omega
  have hle : ¬5 < inpType s k.val := by omega
  simp [hv, h0, h5', hle, hd, hc, hx]

end

theorem execDiscrepancy_agrees {k : Fin 4} {s : State} (h : inpType s k.val = 0 ∨ 5 ≤ inpType s k.val ∨ disagrees (inpType s k.val) (nth s.verm.inps k.val {}) = false ∨
    (nth s.verm.inps k.val {}).st = .cross ∨ (nth s.verm.inps k.val {}).st = .discrepancy) : execDiscrepancy k s = .next s := by
  unfold execDiscrepancy
  dsimp only
  refine if_pos ?_
  rcases h with h | h | h | h | h
  · simp [h]
  · have h5 : inpType s k.val = 5 ∨ 5 < inpType s k.val := by omega
    tauto
  · simp [h]
  · simp [h]
  · simp [h]

section
variable {ms : Nat} {s : State}

/-- A pulse of the right length: the reset is judged first, then the unseal. -/
theorem execResetPulse_proper (hv : vermRuns s = true) (hlo : 100 ≤ ms) (hhi : ms ≤ 3000) : execResetPulse ms s =
    (let u := if pulseCounts ms s.verm.armReset s = true then
        (if presentA s ≠ 0 ∨ s.verm.newA = true then resetFails 1 s else if estopInDemand s = true then resetFails 2 s else resetSucceeds s) else s
     if pulseCounts ms s.verm.armUnseal s = true then
       .next (enforceStop (raise 0x8E (vermDetail 0 0 0 s.verm.refuse) { u with verm.isSealed := false, verm.armUnseal := none }))
     else .next u) := by
  have hok : 100 ≤ ms ∧ ms ≤ 3000 := ⟨hlo, hhi⟩
  unfold execResetPulse
  rw [if_neg (by simp [hv])]
  cases hr : pulseCounts ms s.verm.armReset s <;> simp only [hok, and_self, and_true, Bool.not_true, Bool.not_false, Bool.false_eq_true, decide_true, if_true, if_false]

theorem execResetPulse_improper (hv : vermRuns s = true) (h : ms < 100 ∨ 3000 < ms) :
    execResetPulse ms s = .next (if pulseCounts ms s.verm.armReset s = true then resetFails 3 s else s) := by
  have hok : ¬(100 ≤ ms ∧ ms ≤ 3000) := by omega
  unfold execResetPulse
  rw [if_neg (by simp [hv])]
  cases hr : pulseCounts ms s.verm.armReset s <;> simp only [hok, and_false, Bool.not_true, Bool.not_false, Bool.false_eq_true, decide_false, if_true, if_false]

theorem execResetPulse_stopped (hv : vermRuns s = false) : execResetPulse ms s = .next s :=
  if_pos (by simp [hv])

theorem execResetPulse_uncounted (hr : pulseCounts ms s.verm.armReset s = false) (h : pulseCounts ms s.verm.armUnseal s = false ∨ ms < 100 ∨ 3000 < ms) :
    execResetPulse ms s = .next s := by
  cases hv : vermRuns s with
  | false => exact execResetPulse_stopped hv
  | true =>
    by_cases hbad : ms < 100 ∨ 3000 < ms
    · rw [execResetPulse_improper hv hbad, if_neg (Bool.eq_false_iff.mp hr)]
    · have hu : pulseCounts ms s.verm.armUnseal s = false := h.resolve_right hbad
      rw [execResetPulse_proper hv (by omega) (by omega)]
      simp only [hr, hu, Bool.false_eq_true, if_false]

/-- The reset that a counted pulse of the right length brings, as its three causes give it. -/
theorem resetJudged_eq {u : State} (hfail : presentA s ≠ 0 ∨ s.verm.newA = true → u = resetFails 1 s)
    (hestop : presentA s = 0 → s.verm.newA = false → estopInDemand s = true → u = resetFails 2 s)
    (hgood : presentA s = 0 → s.verm.newA = false → estopInDemand s = false → u = resetSucceeds s) :
    (if presentA s ≠ 0 ∨ s.verm.newA = true then resetFails 1 s else if estopInDemand s = true then resetFails 2 s else resetSucceeds s) = u := by
  by_cases hA : presentA s ≠ 0 ∨ s.verm.newA = true
  · rw [if_pos hA, hfail hA]
  · obtain ⟨hp, hn⟩ := not_or.mp hA
    rw [if_neg hA]
    cases he : estopInDemand s with
    | true => exact (if_pos rfl).trans (hestop (not_not.mp hp) (Bool.eq_false_iff.mpr hn) he).symm
    | false => exact (if_neg Bool.false_ne_true).trans (hgood (not_not.mp hp) (Bool.eq_false_iff.mpr hn) he).symm

theorem execResetArmExpiry_unseal {t v : Nat} (hr : s.verm.armReset = some t) (hu : s.verm.armUnseal = some v) (h : v < t) :
    execResetArmExpiry s = .next { s with verm.armUnseal := none } := by
  simp only [execResetArmExpiry, hr, hu, h, decide_true, if_true]

theorem execResetArmExpiry_reset {t : Nat} {u : Option Nat} (hr : s.verm.armReset = some t) (hu : s.verm.armUnseal = u) (h : ∀ v, u = some v → t ≤ v) :
    execResetArmExpiry s = .next (raise 0x8C (vermDetail 0 s.verm.faultA.toNat 0 4)
      { s with verm.armReset := none, verm.armUnseal := if u = some t then none else u, verm.rstFail := 4 }) := by
  cases u with
  | none => simp only [execResetArmExpiry, hr, hu, Bool.false_eq_true, if_false]
  | some v => simp only [execResetArmExpiry, hr, hu, not_lt.mpr (h v rfl), decide_false, Bool.false_eq_true, if_false]

theorem execResetArmExpiry_none (hr : s.verm.armReset = none) : execResetArmExpiry s = .next { s with verm.armUnseal := none } := by
  simp only [execResetArmExpiry, hr]

theorem execSafetyMessage_judged {ch : Fin 8} {alive crc : Byte} {d : List Byte} {u : State} {ok : Bool} (hv : vermRuns s = true)
    (hc : aliveCheck ch.val alive.toNat d crc { s with chk.sent := takeSent ch.val s.chk.sent } = (u, ok)) : execSafetyMessage ch alive d crc s =
      if ok then .next (onDie ch.val d { u with verm.deadCh := setBit u.verm.deadCh ch.val false })
      else .next { u with verm.discard := satAdd 255 u.verm.discard 1 } := by
  unfold execSafetyMessage
  rw [if_neg (by simp [hv])]
  dsimp only
  rw [hc]

end

/-- Settles O41: each row by its guards. -/
theorem safetyInputRows : Obligations.SafetyInputRows := by
  intro s
  refine ⟨fun k chB high n i hv hl hi => ⟨fun ht => (execInputChange_held hv hl hi).trans (if_neg (Bool.eq_false_iff.mp ht)), fun ht => (execInputChange_held hv hl hi).trans (if_pos ht)⟩,
    fun b levels hv => execTestPulse_runs hv b levels, fun k hv h0 h5 hd hc hx => execDiscrepancy_disagrees hv h0 h5 hd hc hx, fun k h => execDiscrepancy_agrees h,
    fun ms u hv hlo hhi hr hfail hestop hgood => ?judged, fun ms hv h hr => ?wrongLength, fun ms hv hlo hhi hr hu => ?unsealed, fun ms hr h => execResetPulse_uncounted hr h,
    fun t u hr hu => ⟨fun ⟨v, hsome, hlt⟩ => execResetArmExpiry_unseal hr (hu.trans hsome) hlt, fun h => execResetArmExpiry_reset hr hu h⟩, fun hr => execResetArmExpiry_none hr,
    fun ch alive d crc u ok hv hc => ⟨fun hok => (execSafetyMessage_judged hv hc).trans (if_pos hok), fun hok => (execSafetyMessage_judged hv hc).trans (if_neg (Bool.eq_false_iff.mp hok))⟩,
    fun ch alive d crc hv => if_pos (by simp [hv]), fun k chB high n hl => if_pos (by simp [hl]), fun k b high n levels ms i hv hi => ?off⟩
  case judged =>
    have hu := resetJudged_eq hfail hestop hgood
    refine ⟨fun hun => (execResetPulse_proper hv hlo hhi).trans ?_, fun hun => (execResetPulse_proper hv hlo hhi).trans ?_⟩
    · rw [if_pos hr, hu]
      exact if_neg (Bool.eq_false_iff.mp hun)
    · rw [if_pos hr, hu]
      exact if_pos hun
  case wrongLength => exact (execResetPulse_improper hv h).trans (congrArg _ (if_pos hr))
  case unsealed =>
    refine (execResetPulse_proper hv hlo hhi).trans ?_
    rw [if_neg (Bool.eq_false_iff.mp hr)]
    exact if_pos hu
  case off =>
    rcases hi with rfl | rfl | rfl | rfl
    · exact if_pos (by simp [hv])
    · exact if_pos (by simp [hv])
    · exact if_pos (by simp [hv])
    · exact execResetPulse_stopped hv

end Sys2Proof.Machine
end

section
/-! The rows of the contactor outputs and of the fault classes (R654 to R667): each by the guards of its meaning. -/

namespace Sys2Proof.Machine

open Sys2Proof

section
variable {o : Fin 3} {s : State}

theorem execOffPulse_on (mV : BitVec 16) (h : (nth s.verm.outs o.val {}).st = .pullin ∨ (nth s.verm.outs o.val {}).st = .hold) : execOffPulse o mV s =
    if mV.toNat < 2000 then .next (updOut o.val (fun x => { x with offFails := 0 }) s)
    else if (nth s.verm.outs o.val {}).offFails = 0 then .next (updOut o.val (fun x => { x with offFails := 1 }) s)
    else .next (classA 1 (raise 0x86 (vermDetail o.val s.cell.isnsMa 4 s.verm.refuse) (updOut o.val (fun x => { x with offFails := 2 }) s))) :=
  if_pos (by rcases h with h | h <;> simp [h])

theorem execVcoilLow_runs {v : BitVec 12} {limit : Nat} (hv : vermRuns s = true) (hl : limit = (if bitN (blk s 0x01 1) 1 then 1700 else 850)) :
    execVcoilLow v s =
      if v.toNat < limit then
        if s.verm.vcoilLow = true then .next { s with verm.vcoil := v }
        else .next (classB 4 true (raise 0x8F (vermDetail 0 s.cell.isnsMa 1 s.verm.refuse) (enforceStop { s with verm.vcoil := v, verm.vcoilLow := true })))
      else if limit + 100 < v.toNat ∧ s.verm.vcoilLow = true then .next (classB 4 false { s with verm.vcoil := v, verm.vcoilLow := false })
      else .next { s with verm.vcoil := v } := by
  subst hl
  exact if_neg (by simp [hv])

end

/-- Settles O42: each row by its guards. -/
theorem outputRows : Obligations.OutputRows := by
  intro o s
  refine ⟨fun h => if_pos (by simp [h]), fun h => if_neg (by simp [h]), fun h => if_pos (by simp [h]), fun h => if_neg (by simp [h]),
    fun mV h => ⟨fun hv => (execOffPulse_on mV h).trans (if_pos hv), fun hv hf => (execOffPulse_on mV h).trans ((if_neg (not_lt.mpr hv)).trans (if_pos hf)),
      fun hv hf => (execOffPulse_on mV h).trans ((if_neg (not_lt.mpr hv)).trans (if_neg hf))⟩,
    fun mV hp hh => if_neg (by simp [hp, hh]), fun hd hv => if_pos (by simp [hd, hv]), fun h => if_neg (by rcases h with h | h <;> simp [h]),
    fun hd hv => if_neg (by simp [hd, hv]), fun h => if_pos (by rcases h with h | h <;> simp [h]), fun h => if_pos (by simp [h]), fun h => if_neg (by simp [h]),
    fun v limit hv hl => ⟨fun hlow h => ?falls, fun hlow h => ?recovers, fun h => ?kept⟩, fun v hv => if_pos (by simp [hv]), fun h => if_pos h,
    fun h => if_neg (Bool.eq_false_iff.mp h)⟩
  case falls => exact (execVcoilLow_runs hv hl).trans ((if_pos h).trans (if_neg (Bool.eq_false_iff.mp hlow)))
  case recovers => exact (execVcoilLow_runs hv hl).trans ((if_neg (by omega)).trans (if_pos ⟨h, hlow⟩))
  case kept =>
    refine (execVcoilLow_runs hv hl).trans ?_
    rcases h with ⟨hlow, h⟩ | ⟨hlow, h⟩
    · have hmid : ¬(limit + 100 < v.toNat ∧ s.verm.vcoilLow = true) := fun hhigh => absurd hhigh.1 (not_lt.mpr h)
      rw [if_pos hlow, if_neg hmid, ite_self]
    · rw [if_neg (not_lt.mpr h), if_neg (by simp [hlow])]

/-- Settles O43: each row by its guards. -/
theorem faultClassRows : Obligations.FaultClassRows := by
  intro s
  refine ⟨fun hv => if_neg (by simp [hv]), fun peer hv hp hl => if_neg (by simp only [hv, hp, hl]; simp), fun peer h => if_pos (by simpa using h),
    fun ch hv hc => if_pos ⟨hv, hc⟩, fun ch h => if_neg ?unsupervised, fun hv ha => if_pos (by simp [hv, ha]), fun h => if_neg (by rcases h with h | h <;> simp [h]),
    fun c h => if_pos h, fun c h => if_neg (Bool.eq_false_iff.mp h), rfl, fun c hf hv => if_neg (by simp only [hf, hv]; simp), fun c h => if_pos (h.imp_right (by simp)), rfl,
    fun hv => if_pos (by simp [hv])⟩
  case unsupervised =>
    rintro ⟨hv, hc⟩
    rcases h with h | h
    · rw [h] at hv
      cases hv
    · rw [h] at hc
      cases hc

end Sys2Proof.Machine
end

section
/-! The rows of the meter and of its link (R701 to R747): each by the guards of its meaning. -/

namespace Sys2Proof.Machine

open Sys2Proof

/-- Only one variant has a meter. -/
theorem variant_ne_s {s : State} (h : s.sys.variant = .m) : s.sys.variant ≠ .s := by
  rw [h]
  exact nofun

section
variable {s t u : State} (hp : s.umber.powered = true) (hm : s.sys.variant = .m)

section
include hp hm

theorem not_unmetered : ¬((!s.umber.powered) = true ∨ s.sys.variant = .s) := by
  simp [hp, hm]

theorem execUmberSample_metering {nv uv n v : Int} (hmet : metering s = true) (hn : n = clampI (-100000000) 100000000 nv) (hv : v = clampI 0 1200000 uv) :
    execUmberSample nv uv s = .next (meanStep (if |n| < 80000 then 0 else n) v
      { s with umber.tNs := (s.umber.tNs + (250000 + slewStep s.umber.slew)).toNat, umber.slew := s.umber.slew - slewStep s.umber.slew,
               umber.dur := s.umber.dur + 1, umber.flags := if n ≠ nv ∨ v ≠ uv then s.umber.flags ||| 256 else s.umber.flags,
               umber.acc := if s.umber.st = .fault then s.umber.acc else accumulate (if |n| < 80000 then 0 else n) v s }) := by
  subst hn hv
  unfold execUmberSample
  rw [if_neg (not_unmetered hp hm)]
  dsimp only
  rw [if_neg (by simp [hmet])]
  simp only [Bool.or_eq_true, decide_eq_true_eq, beq_iff_eq]

theorem execUmberSample_idle {nv uv : Int} (hmet : metering s = false) : execUmberSample nv uv s =
    .next { s with umber.tNs := (s.umber.tNs + (250000 + slewStep s.umber.slew)).toNat, umber.slew := s.umber.slew - slewStep s.umber.slew } := by
  unfold execUmberSample
  rw [if_neg (not_unmetered hp hm)]
  exact if_pos (by simp [hmet])

theorem execSealNFall_opens (hs : s.pins.sealN = true) : execSealNFall s =
    .next (raiseUmb 0x92 0 { s with pins.sealN := false, umber.st := if s.umber.st = .sealed then .opened else s.umber.st }) := by
  unfold execSealNFall
  dsimp only
  rw [if_neg (by simp [hp, hm, hs])]
  simp only [beq_iff_eq]

theorem execSealNRise_seals : execSealNRise s =
    .next (dropImage { s with pins.sealN := true, umber.st := if s.umber.st = .opened then .sealed else s.umber.st }) := by
  unfold execSealNRise
  dsimp only
  rw [if_neg (not_unmetered hp hm)]
  simp only [beq_iff_eq]

end

include hm in
theorem execUmberPowerUp_takes {pin : Bool} {w : Word} (hoff : s.umber.powered = false)
    (ht : t = { s with pins.sealN := pin, umber.powered := true, umber.timeOk := false, umber.acc := s.umber.saved.acc, umber.start := s.umber.saved.start,
                       umber.dur := s.umber.saved.dur, umber.accAtOpen := s.umber.saved.accAtOpen, umber.tNs := s.umber.saved.tNs,
                       umber.flags := s.umber.saved.flags ||| 0x10 })
    (hfault : s.umber.st = .fault → u = t) (hsound : s.umber.st ≠ .fault → u = { t with umber.st := soundState t }) :
    execUmberPowerUp pin w s = .next (if w = s.nv.swid then u else umberFault u) := by
  have hu : (if s.umber.st == .fault then t else { t with umber.st := soundState t }) = u := by
    by_cases h : s.umber.st = .fault
    · exact (if_pos (by simp [h])).trans (hfault h).symm
    · exact (if_neg (by simp [h])).trans (hsound h).symm
  subst ht
  unfold execUmberPowerUp
  dsimp only
  rw [if_neg (by simp [hoff, hm]), hu]

end

/-! ### The meter's link -/

section
variable {s : State} {h : Fin 4}

theorem execRecordRequest_none {q : Nat} {again : Bool} (htalk : umbTalks s = true) (hslots : nth s.umber.slots h.val 0 ≠ 0)
    (hfree : nth s.umber.inflight h.val none = none) (ha : nth s.umber.restart h.val false = again) (hq : q = (if again then 0 else nth s.nv.cursor h.val 0))
    (hr : recordAfter s q = none) : execRecordRequest h s = .next { s with umber.restart := s.umber.restart.set h.val false } := by
  subst hq ha
  unfold execRecordRequest
  dsimp only
  rw [if_neg (by simp [htalk, hslots, hfree]), hr]

theorem execRecordRequest_some {q : Nat} {again : Bool} {r : URec} {u : State} (htalk : umbTalks s = true) (hslots : nth s.umber.slots h.val 0 ≠ 0)
    (hfree : nth s.umber.inflight h.val none = none) (ha : nth s.umber.restart h.val false = again) (hq : q = (if again then 0 else nth s.nv.cursor h.val 0))
    (hr : recordAfter s q = some r)
    (hu : u = { s with umber.restart := s.umber.restart.set h.val false, umber.inflight := s.umber.inflight.set h.val (some r) }) :
    execRecordRequest h s = .next (if again || r.seq == q + 1 then u else raiseUmb 0x90 h.val u) := by
  subst hu hq ha
  unfold execRecordRequest
  dsimp only
  rw [if_neg (by simp [htalk, hslots, hfree]), hr]

theorem execRecordReturned_some {r : URec} {u : State} (hr : nth s.umber.inflight h.val none = some r)
    (hu : u = { s with umber.inflight := s.umber.inflight.set h.val none }) : execRecordReturned h s =
      if nth s.umber.slots h.val 0 = 0 then .next u
      else .next (sendMetro h.val (recordBytes s h.val r)
        { u with umber.slots := if hostRemote h.val s then upd s.umber.slots h.val (· - 1) else s.umber.slots, nv.cursor := s.nv.cursor.set h.val r.seq }) := by
  subst hu
  simp only [execRecordReturned, hr]

theorem execRecordReturned_none (hr : nth s.umber.inflight h.val none = none) : execRecordReturned h s = .next s := by
  simp only [execRecordReturned, hr]

end

/-- Settles O44: each row by its guards. -/
theorem meterRows : Obligations.MeterRows := by
  refine ⟨fun s => ⟨fun nv uv hp hm hmet => execUmberSample_idle hp hm hmet, fun nv uv n v hp hm hmet hn hv => execUmberSample_metering hp hm hmet hn hv,
      fun nv uv h => if_pos (by simpa using h), fun hp hmet hm => if_neg (by simp [hp, hmet, hm]), fun h => if_pos (by simpa using h),
      fun u hu => ⟨fun hp => ?saved, fun hp => ⟨if_neg (Bool.eq_false_iff.mp hp), if_pos (by simp [hp])⟩⟩, fun pin w t u hp hm ht hf hs => ⟨fun hw => ?sound, fun hw => ?differs⟩,
      fun pin w h => if_pos h, fun w hp hm hw => if_neg (by simp [hp, hm, hw]), fun w h => if_pos (by simpa using h), fun hp hm hs => execSealNFall_opens hp hm hs,
      fun h => if_pos (by simpa using h), fun hp hm => execSealNRise_seals hp hm, fun h => if_pos (by simpa using h)⟩,
    fun s => ⟨fun hp hm => if_pos ⟨hp, hm⟩, fun h => if_neg (by rcases h with h | h <;> simp [h]),
      fun h again q htalk hslots hfree ha hq => ⟨fun hr => execRecordRequest_none htalk hslots hfree ha hq hr, fun r u hr hu => ⟨fun hseq => ?request, fun hnot hseq => ?gap⟩⟩,
      fun h hoff => if_pos ?noRequest, fun h r u hr hu => ⟨fun hs => (execRecordReturned_some hr hu).trans (if_neg hs), fun hs => (execRecordReturned_some hr hu).trans (if_pos hs)⟩,
      fun h hr => execRecordReturned_none hr, fun h => if_pos h, fun h => if_neg (Bool.eq_false_iff.mp h), fun hm hp hl => if_neg (by simp [hm, hp, hl]),
      fun h => if_pos (by simpa using h), fun hm hp hpow hl => if_neg (by simp [hm, hp, hpow, hl]), fun h => if_pos (by simpa using h)⟩⟩
  case saved =>
    subst hu
    exact ⟨if_pos hp, if_neg (by simp [hp])⟩
  case sound => exact (execUmberPowerUp_takes hm hp ht hf hs).trans (congrArg _ (if_pos hw))
  case differs => exact (execUmberPowerUp_takes hm hp ht hf hs).trans (congrArg _ (if_neg hw))
  case request => exact (execRecordRequest_some htalk hslots hfree ha hq hr hu).trans (congrArg _ (if_pos (by simpa using hseq)))
  case gap => exact (execRecordRequest_some htalk hslots hfree ha hq hr hu).trans (congrArg _ (if_neg (by simp [hnot, hseq])))
  case noRequest =>
    rcases hoff with h | h | h
    · simp [h]
    · simp [h]
    · simp [Option.isSome_iff_ne_none.mpr h]

end Sys2Proof.Machine
end
